-- ==== Sys2Proof/Word.lean ====
section
/-! DEFINITION. The word types of the model and their plainest arithmetic (R9, R10). -/

namespace Sys2Proof

/-- One byte of any format of the manual (R10). -/
abbrev Byte := BitVec 8
/-- A 16-bit word (sequence numbers of status registers, versions, freeze image words). -/
abbrev Half := BitVec 16
/-- A 32-bit register or field. -/
abbrev Word := BitVec 32
/-- A 64-bit register or field. -/
abbrev DWord := BitVec 64

end Sys2Proof
end

