-- ==== Sys2Proof/Types.lean ====
section
/-! DEFINITION. The operand types of the commands: who acts, what the world outside hands the N9
(packets, host memory, frames, signed objects, die parameters), in the formats the spec gives them.
Bit layouts stay bit vectors and are taken apart in Machine/Operands.lean. -/

namespace Sys2Proof

/-- The two host ports (R441). -/
inductive Port
  | a | b
  deriving DecidableEq, Repr

/-- A PCI Express function: index 0 is the physical function of the port, 1 to 511 its VFs (R447). -/
structure Fn where
  port : Port
  idx : Nat
  deriving DecidableEq, Repr

/-- The core groups of R25 and R487. -/
inductive CoreGroup
  | command | media | housekeeping | boot
  deriving DecidableEq, Repr

/-- One of the 25 cores (R25, Table 4). -/
structure CoreId where
  group : CoreGroup
  idx : Nat
  deriving DecidableEq, Repr

/-- The sources of register accesses that can hold an arming (R49). -/
inductive Source
  | pf (p : Port)
  | mtf
  | core (c : CoreId)
  deriving DecidableEq, Repr

/-- Whether the target island of a cross-island register access answers before the bound (R64):
the timing of the islands is outside the model, so the command says it. -/
inductive Crossing
  | answered | stalled
  deriving DecidableEq, Repr

/-- How host memory answered a non-posted request (R454, Table 9). -/
inductive HostAnswer
  | ok | failed | timedOut
  deriving DecidableEq, Repr

/-- A scatter/gather element (R412). -/
structure SgElem where
  address : DWord
  length : Word
  flags : Word
  deriving DecidableEq, Repr

/-- One logical block as host memory holds it, with the tally a host-supplied tally buffer holds (R294). -/
structure HostBlock where
  data : List Byte
  tally : BitVec 128
  deriving DecidableEq, Repr

/-- A member entry of a flock map (R327, Table 6). -/
structure MapMember where
  id : Nat
  state : Nat
  herd : Nat
  serial : DWord
  macs : List (BitVec 48)
  deriving DecidableEq, Repr

/-- A herd entry of a flock map (R327, Table 6); `members` are its NMEMB listed identifiers. -/
structure MapHerd where
  herd : Nat
  k : Nat
  m : Nat
  layout : Nat
  members : List Nat
  deriving DecidableEq, Repr

/-- A home entry of a flock map (R327, Table 6). -/
structure MapHome where
  hkey : Nat
  herd : Nat
  home : Nat
  hostTallies : Bool
  encrypted : Bool
  size : Nat
  nstag : Half
  deriving DecidableEq, Repr

/-- A flock map (R327, Table 5). `magic`, `format`, `length` and `reservedZero` are what its bytes hold;
`signature` stands for the bytes of its two signatures. -/
structure FlockMap where
  magic : Word
  format : Half
  flock : Nat
  epoch : Nat
  length : Nat
  reservedZero : Bool
  members : List MapMember
  herds : List MapHerd
  homes : List MapHome
  signature : Nat
  deriving DecidableEq, Repr

/-- The HERD_JOIN descriptor (R354, Table 9); `keys` stands for the bytes of the two authority keys. -/
structure JoinDescriptor where
  format : Half
  flock : Nat
  self : Nat
  reservedZero : Bool
  holdBlocks : Nat
  keys : Nat
  map : FlockMap
  deriving DecidableEq, Repr

/-- One section of a firmware image (R469, Tables 6 and 7). `hash` stands for SHA3-384 of its bytes. -/
structure Section where
  kind : Nat
  firstBlk : Nat
  length : Nat
  hash : Nat
  deriving DecidableEq, Repr

/-- A version range MIN to MAX of BESIDE[g][h] (R470). -/
structure VersionRange where
  min : Nat
  max : Nat
  deriving DecidableEq, Repr

/-- A manifest (R470, Table 8). `hdrHash` and `sectHashes` stand for the hash bytes; `signature` for the
signature block of Table 3, made under fuse slot `signSlot` with the signer key hash `signer`. -/
structure Manifest where
  magic : Word
  format : Half
  svn : Nat
  exportFmt : Nat
  supportEnd : Nat
  versions : List Nat
  beside : List (List VersionRange)
  revoke : BitVec 4
  svnFuse : Bool
  part : List DWord
  hdrHash : Nat
  sectHashes : List Nat
  signSlot : Nat
  signer : Nat
  signature : Nat
  deriving DecidableEq, Repr

/-- A firmware image as read from the NOR, from staging or from the store (R469 to R470). `crcOk` says
whether HCRC and TCRC are right for the bytes; `hdrHash` stands for SHA3-384 over blocks 0 to TBLK. -/
structure Image where
  magic : Word
  format : Half
  nblk : Nat
  tblk : Nat
  manifestBlk : Nat
  crcOk : Bool
  sections : List Section
  hdrHash : Nat
  manifest : Manifest
  deriving DecidableEq, Repr

/-- A DMA window entry of the board description (R479, Table 11). -/
structure Window where
  base : DWord
  log2 : Nat
  port : Nat
  func : Nat
  allFunc : Bool
  perm : BitVec 2
  deriving DecidableEq, Repr

/-- The board description (R475, Table 10). `signature` stands for its signature block. -/
structure Board where
  magic : Word
  format : Half
  serial : DWord
  ssvid : Half
  ssid : Half
  debug : Nat
  signers : BitVec 4
  keySlots : BitVec 4
  decommission : Bool
  pwrBank : DWord
  sdcGeom : Word
  mirror : Byte
  part : List DWord
  windows : List Window
  signSlot : Nat
  signer : Nat
  signature : Nat
  deriving DecidableEq, Repr

/-- What a FW_STAGE piece carries: the image blocks it covers, each with whether its CRC-32C agrees with
the block CRC table, and, for a first piece, the image whose header and table it brings (R482). -/
structure FwPiece where
  blockCrcOk : List Bool
  image : Option Image
  deriving DecidableEq, Repr

/-- A wrapped key block (R312, Table 8): its clear fields, and `body` for KEMCT and WRAPPED. -/
structure KeyBlock where
  format : Half
  nsid : Half
  slot : Nat
  reservedZero : Bool
  body : Nat
  deriving DecidableEq, Repr

/-- An internal check failure that a command meets (R296, R298): the block of its range, the point of Table 2 of the
integrity chapter, whether the repeat fails too, whether it is a failed proof of the XTS engine. -/
structure InternalFault where
  block : Nat
  point : Byte
  again : Bool
  proof : Bool
  deriving DecidableEq, Repr

/-- What one command meets from outside: what host memory hands the N9 (the element list, the data blocks, the descriptor
an administrative command brings), and the internal check failures on its way. Host memory and transient faults are outside
the block, so the command carries them. -/
structure HostSide where
  listAnswer : HostAnswer
  list : List SgElem
  dataAnswer : HostAnswer
  blocks : List HostBlock
  join : Option JoinDescriptor
  map : Option FlockMap
  piece : Option FwPiece
  key : Option KeyBlock
  faults : List InternalFault
  deriving DecidableEq, Repr

/-- The MCTP operations on task registers (R107). -/
inductive MtfOp
  | read (offset count : Nat)
  | write (offset : Nat) (data : List Word)
  deriving DecidableEq, Repr

/-- A page of a Host Map Region as fetched: its 64 map lines, its seal, and its chunk record (R152 to R155). -/
structure HmrPage where
  lines : List (BitVec 512)
  sealBits : BitVec 128
  chunk : BitVec 256
  deriving DecidableEq, Repr

/-- What host memory answers to a map-page fetch (R155, R158). -/
inductive HmrAnswer
  | page (p : HmrPage)
  | error
  deriving DecidableEq, Repr

/-- The parameters of one die as discovery and its profile give them (R255 to R257). -/
structure DieParams where
  present : Bool
  crcOk : Bool
  profiles : Nat          -- die profiles that match (R256)
  pageBytes : Nat
  spareBytes : Nat
  planes : Nat
  pages : Nat
  slcPages : Nat
  blocks : Nat
  bitsPerCell : Nat
  suspendOk : Bool
  maxRate : Nat
  endurance : Nat
  slcEndurance : Nat
  minProgRun : Nat
  minEraseRun : Nat
  uniqueId : Nat
  deriving DecidableEq, Repr

/-- A carrier record (R279, Table 18). -/
structure CarrierRecord where
  valid : Bool
  slot : Nat
  departed : Bool
  evacuated : Bool
  carrierId : DWord
  owner : DWord
  epoch : DWord
  dieHash : Word
  deriving DecidableEq, Repr

/-- How a die ended the operation it ran (R264, Table 10): what the die itself reports. -/
inductive DieResult
  | ok | failed
  deriving DecidableEq, Repr

/-- An Aizaik frame as it stands on a plane (R321): its header fields, what the receiver can check of the
carrying Ethernet frame, and whether its CRCs are right. -/
structure FrameHdr where
  plane : Nat
  etherType : Half
  vid : Nat
  dstMac : BitVec 48
  fcsOk : Bool
  crcOk : Bool
  macControl : Bool
  version : Half
  type : Byte
  retx : Bool
  ackv : Bool
  flock : Nat
  src : Nat
  dst : Nat
  len : Nat
  seq : Word
  ackSeq : Word
  epoch : Nat
  deriving DecidableEq, Repr

/-- The operation header of the fragment frames (R323, Table 3). -/
structure OpHdr where
  hkey : Nat
  index : Nat
  k : Nat
  nblk : Nat
  first : Nat
  status : Nat
  zero : BitVec 2
  hstripe : Nat
  stampEpoch : Nat
  stampSeq : DWord
  deriving DecidableEq, Repr

/-- A symbol: the 4,128-byte information part of a block in media form (R322). -/
structure Symbol where
  data : List Byte
  tally : BitVec 128
  header : BitVec 128
  deriving DecidableEq, Repr

/-- The kinds of request that hold a tag of a port (R452, Table 9). -/
inductive TagOwner
  | packet (f : Fn) (ring : Nat)
  | command (slot : Nat)
  | mapPage (mpn : Nat)
  | muleData (ring : Nat)
  | k7 (channel : Nat)
  deriving DecidableEq, Repr

/-- How a completion for a host read arrives (R454, R455). -/
inductive CplStatus
  | ok | unsupported | aborted | poisoned
  deriving DecidableEq, Repr

/-- The engine kinds of Table 4 of chapter 16 whose island may be isolated with its work moved. -/
inductive EngineKind
  | ecc | xts | parity
  deriving DecidableEq, Repr

/-- Why a core fails (R498, R551). -/
inductive CoreCause
  | heartbeat | localMemory | trap
  deriving DecidableEq, Repr

/-- The configuration-space fields a host may write (R443 to R447). -/
inductive CfgField
  | memorySpaceEnable | parityErrorResponse | serrEnable | msixEnable | functionMask | tag10Enable
  | numVFs | systemPageSize | vfMse | aerStatus | other
  deriving DecidableEq, Repr

/-- What the patrol scrub or a read found in one SDRAM codeword (R426 to R428). -/
inductive ScrubResult
  | clean
  | corrected (rank device : Nat)
  | uncorrectable (mirror : Bool)
  deriving DecidableEq, Repr

/-- The state of the boot NOR as mask ROM reads it (R468, Table 5). -/
structure NorSlot where
  cseq : DWord
  valid : Bool
  image : Image
  deriving DecidableEq, Repr

/-- An operation on the TAP (R520). -/
inductive TapOp
  | boundaryScan
  | instrumentRead
  | instrumentWrite
  | stateChain (segment : Nat)
  deriving DecidableEq, Repr

end Sys2Proof
end

