-- ==== Sys2Proof/Syntax.lean ====
section
/-! DEFINITION. The commands of the block: one constructor for each row of spec/opcode_table.json (R13, R90, R91 and the
rules the docstrings name), with the operands the world outside hands in. -/

namespace Sys2Proof

/-- One command of the N9: a row of the spec's table of operations and events. -/
inductive Instr
  /-- R77. A write to a submission-ring doorbell slot carries the new tail, which the N9 checks and takes in. -/
  | sqDoorbellWrite (f : Fn) (offset size : Nat) (value : DWord)
  /-- R77. A write to a completion-ring doorbell slot carries the new head; it releases entries and lets held records move. -/
  | cqDoorbellWrite (f : Fn) (offset size : Nat) (value : DWord)
  /-- R49. A write to <BLOCK>_KEY arms one keyed write for the writing source, or ends its arming on a wrong value. -/
  | blockKeyWrite (src : Source) (window : Nat) (value : Half)
  /-- R56. A SEQ value written into the ACK field of a status register clears the events stamped up to it, or is rejected when it lies ahead of SEQ. -/
  | statAckWrite (src : Source) (reg : Nat) (ack : Half)
  /-- R13. A write to a register field that has no step of its own takes effect at once, subject to access type, keying and BOOT-only rules. -/
  | registerWrite (src : Source) (addr size : Nat) (value : DWord) (x : Crossing)
  /-- R65. A cross-island register access that has no answer 16 µs after arrival ends with the error response of its entry point and is recorded. -/
  | registerAccessTimeout (src : Source) (addr : Nat) (write : Bool)
  /-- R66. A BAR0 write that ended with cause 0x1 takes effect once when the stalled target island resumes. -/
  | stalledWriteApply (p : Port) (island : Nat)
  /-- R217. The command intake of a port fetches packets from submission rings in weighted rounds. -/
  | packetFetch (p : Port) (packets : List (BitVec 512))
  /-- R90. The READ command is validated, takes shared range locks, reads and checks its blocks, writes them to the host and completes. -/
  | read (slot : Nat) (h : HostSide)
  /-- R194. The WRITE command is validated, takes exclusive locks, and writes its blocks by the stripe-aligned or the staged path. -/
  | write (slot : Nat) (h : HostSide)
  /-- R203. The TRIM command marks its map units or blocks trimmed. -/
  | trim (slot : Nat) (h : HostSide)
  /-- R90. The WRITE_ZEROES command writes zero blocks with generated tallies. -/
  | writeZeroes (slot : Nat) (h : HostSide)
  /-- R90. The COMPARE command reads its blocks and compares them with host data. -/
  | compare (slot : Nat) (h : HostSide)
  /-- R120. The ORDER_BARRIER command notes ring tails, waits for earlier commands and completes once its exclusive lock is granted. -/
  | orderBarrier (slot : Nat) (h : HostSide)
  /-- R415. The GATHER_READ command reads its blocks and returns them through the interleave transform. -/
  | gatherRead (slot : Nat) (h : HostSide)
  /-- R102. The CCP HELLO command negotiates the CCP version of the function. -/
  | hello (slot : Nat) (h : HostSide)
  /-- R92. The RING_CREATE command creates a submission or completion ring and assigns its index and home core. -/
  | ringCreate (slot : Nat) (h : HostSide)
  /-- R94. The RING_DELETE command stops a ring, discards its unfetched slots and, with FORCE, aborts eligible commands. -/
  | ringDelete (slot : Nat) (h : HostSide)
  /-- R94. RING_DELETE completes once the last record of the ring has been posted. -/
  | ringDeleteComplete (slot : Nat)
  /-- R95. The NS_CREATE command creates a local, herd or system namespace after its count, extent and capacity checks. -/
  | nsCreate (slot : Nat) (h : HostSide)
  /-- R95. The NS_DELETE command deletes an unattached namespace with its entries and key. -/
  | nsDelete (slot : Nat) (h : HostSide)
  /-- R95. The NS_ATTACH command attaches a namespace to a function, or detaches it. -/
  | nsAttach (slot : Nat) (h : HostSide)
  /-- R95. A detach completes once every validated command of the target function to the namespace has ended. -/
  | nsDetachComplete (slot : Nat)
  /-- R95. The NS_RESIZE command takes the lock of the blocks added or removed and grows or shrinks the namespace. -/
  | nsResize (slot : Nat) (h : HostSide)
  /-- R151. The MAP_REGION_ADD command lends a Host Map Region to the port of the issuing physical function. -/
  | mapRegionAdd (slot : Nat) (h : HostSide)
  /-- R157. The MAP_REGION_REMOVE command stops placements in a region and marks its pages FLASH. -/
  | mapRegionRemove (slot : Nat) (h : HostSide)
  /-- R157. Region removal completes once every read issued to the region has completed or timed out. -/
  | mapRegionRemoveComplete (slot : Nat)
  /-- R105. The LOG_GET command returns part of a log together with its length. -/
  | logGet (slot : Nat) (h : HostSide)
  /-- R104. The FEATURE_SET command writes a feature value. -/
  | featureSet (slot : Nat) (h : HostSide)
  /-- R104. The FEATURE_GET command returns a feature value. -/
  | featureGet (slot : Nat) (h : HostSide)
  /-- R482. The FW_STAGE command stages a piece of a firmware image and checks its blocks. -/
  | fwStage (slot : Nat) (h : HostSide)
  /-- R483. The FW_CASTLE command checks the staged image, writes it to the firmware store and enters CASTLING. -/
  | fwCastle (slot : Nat) (h : HostSide)
  /-- R354. The HERD_JOIN command checks its descriptor, persists the flock keys and map, creates the holding namespace and opens links. -/
  | herdJoin (slot : Nat) (h : HostSide)
  /-- R355. The HERD_LEAVE command closes links, discards fragments and forgets the flock identity. -/
  | herdLeave (slot : Nat) (h : HostSide)
  /-- R356. The HERD_RESHAPE command accepts and persists a newer signed flock map. -/
  | herdReshape (slot : Nat) (h : HostSide)
  /-- R313. The KEY_LOAD command unwraps a media encryption key and loads it for a namespace. -/
  | keyLoad (slot : Nat) (h : HostSide)
  /-- R75. A completion record held because its ring was full is posted once the host releases an entry. -/
  | heldRecordPost (f : Fn) (cq : Nat)
  /-- R93. AGG_TIME µs after the first unsignalled record, the completion ring's MSI-X vector is signalled. -/
  | cqAggTimer (f : Fn) (cq : Nat)
  /-- R83. Setting CCP_FCTRL.ENABLE starts CCP service and sets READY or FAULT. -/
  | functionEnable (f : Fn)
  /-- R83. Clearing CCP_FCTRL.ENABLE tears down the function's rings, commands and negotiated version as a function-level reset does. -/
  | functionDisable (f : Fn)
  /-- R107. An MCTP read or write message reaches the task registers and gets a response code. -/
  | mtfMessage (endpoint : Nat) (op : MtfOp)
  /-- R110. The MTF HELLO task negotiates MTF version 1.2. -/
  | mtfHello
  /-- R450. The MTF IDENTIFY task returns the first 4 KiB of the sideband Catalogue copy. -/
  | mtfIdentify
  /-- R110. The MTF MODE_GET task returns MOD_STATE and the reason mask. -/
  | mtfModeGet
  /-- R110. The MTF REG_READ task reads a register at a BAR0 offset as the Management Task File source. -/
  | mtfRegRead (x : Crossing)
  /-- R110. The MTF REG_WRITE task writes a register at a BAR0 offset as the Management Task File source. -/
  | mtfRegWrite (x : Crossing)
  /-- R110. The MTF LOG_GET task returns part of a log in DATA. -/
  | mtfLogGet
  /-- R110. The MTF FEATURE_GET task reads a feature as the physical function of the named port. -/
  | mtfFeatureGet
  /-- R110. The MTF FEATURE_SET task writes a feature as the physical function of the named port. -/
  | mtfFeatureSet
  /-- R179. The MTF SYSNS_READ task reads one block of a system namespace under a shared lock. -/
  | mtfSysnsRead
  /-- R178. The MTF SYSNS_WRITE task writes one block of a system namespace to both copies. -/
  | mtfSysnsWrite
  /-- R482. The MTF FW_STAGE task stages a piece of a firmware image. -/
  | mtfFwStage (piece : FwPiece)
  /-- R483. The MTF FW_CASTLE task checks the staged image and starts castling. -/
  | mtfFwCastle
  /-- R109. ACK from the owner in DONE discards the result and returns the task file to IDLE. -/
  | mtfTaskAck (endpoint : Nat)
  /-- R109. A result left 30 s in DONE without ACK becomes replaceable by a GO from any endpoint. -/
  | mtfResultExpire
  /-- R544. The first I3C broadcast address after chip reset turns the sideband port into an I3C target. -/
  | i3cBroadcast
  /-- R116. The next command in admission order has its lock entries inserted and queried, once the partition has room. -/
  | commandAdmit
  /-- R116. When the command owning the first match releases its locks, the waiting command queries again. -/
  | lockWaitEnd (slot : Nat)
  /-- R120. An ORDER_BARRIER is admitted once every packet up to its noted tails has been admitted. -/
  | barrierWaitEnd (slot : Nat)
  /-- R121. A command with an order-after token is admitted once the named command is no longer in flight. -/
  | oaWaitEnd (slot : Nat)
  /-- R399. A command waiting for pips of its class reserves its whole demand once they are free. -/
  | pipReserveGrant (cls : Nat)
  /-- R401. A waiting buffer allocation is served when the pool level allows its tier. -/
  | allocGrant (pool : Nat)
  /-- R507. Once an hour, each deferred-error entry still open is recorded in the event log with kind 0x07. -/
  | deferredHourlyLog
  /-- R155. A map page and its seal fetched from a Host Map Region arrive and are checked; on failure the page is fetched from flash. -/
  | hmrFetchComplete (mpn : Nat) (answer : HmrAnswer)
  /-- R158. A host map fetch that has no data after FETCH_LIMIT µs falls back at once to the flash fetch. -/
  | hmrFetchTimeout (mpn : Nat)
  /-- R163. A map page image read from flash is checked, given an SDRAM frame and the waiting lookups repeat. -/
  | mapFlashFetchDone (mpn : Nat) (readable : Bool)
  /-- R155. Firmware places a clean page in a host slot: GEN incremented, page and seal written, LOC set to HOST. -/
  | mapPagePlace (mpn : Nat) (p : Port)
  /-- R150. Firmware drops a clean page with a flash image from SDRAM and frees its frame. -/
  | mapPageDrop (mpn : Nat)
  /-- R181. A media core snapshots a dirty page, programs its image and appends a journal record. -/
  | mapPagePersist (mpn : Nat)
  /-- R182. After each 1,048,576 journal records the whole directory is written to the map bands. -/
  | directorySnapshot
  /-- R174. An evicted dirty line's sectors have been written to SDRAM and it leaves the eviction buffer. -/
  | evictionWritebackDone (island index : Nat)
  /-- R171. A sequential-store detector unused for MCH_STREAM.IDLE µs returns to a run of 0. -/
  | streamDetectorIdle (detector : Nat)
  /-- R172. A dirty map-cache sector with an uncorrectable fault is rebuilt from the flash image and codeword headers. -/
  | dirtyLineRebuild (mpn line : Nat)
  /-- R179. A switch or full merge of a system-namespace log pair ends, and the segment tables are written. -/
  | sysnsMerge (ns logPair : Nat)
  /-- R170. A keyed write to MCH_SCRATCH.WAYS in BOOT turns map cache ways into scratch memory. -/
  | mchScratchWrite (src : Source) (value : Word)
  /-- R198. PACK_WINDOW µs after the first waiting block, the staging page-plane of a die pair is programmed with the blocks ready. -/
  | packWindowExpire (dieA dieB : Nat)
  /-- R204. A staged write waiting for a staging-index entry proceeds once an install frees one. -/
  | stagingEntryGrant (slot : Nat)
  /-- R201. A gather stripe open for AGE_LIMIT ms is sealed and drained. -/
  | gatherAgeExpire (stream : Nat)
  /-- R202. After a drained stripe is programmed, each slot whose JOIN still matches is installed in the main area. -/
  | gatherInstall (stripe : Nat)
  /-- R212. Local rebuild copies the live units of a stripe with failed members into a rebuild stream. -/
  | rebuildStripe (band stripe : Nat)
  /-- R218. Every PLC_CORECTRL.INTERVAL ms firmware moves the busiest ring of an overloaded command core. -/
  | coreRebalance (busy : List Nat)
  /-- R225. Reclaim chooses the next victim band and starts copying its valid units. -/
  | reclaimVictim
  /-- R228. A verified copy stripe installs each copied unit whose map entry is unchanged. -/
  | copyStripeInstall (stripe : Nat) (verified : Bool)
  /-- R226. Once each minute every CLOSED band's score is recomputed for age. -/
  | scoreAgeTick
  /-- R223. Once reads holding addresses in a FREE band have ended, its blocks are erased in the background. -/
  | bandEraseStart (band : Nat)
  /-- R236. After every 65,536 erases, erase counts, wear windows and the retired list are persisted. -/
  | wearPersist
  /-- R245. A write waiting for space while reclaim runs takes its grant once free page-planes cover it. -/
  | spaceGrant (slot : Nat)
  /-- R261. The channel READ descriptor is posted to a queue of a channel engine. -/
  | chnRead (ch queue : Nat) (byCore : Bool) (d : BitVec 256)
  /-- R273. The channel PROGRAM descriptor is posted and checked by the unerased-program guard before it is issued. -/
  | chnProgram (ch queue : Nat) (byCore : Bool) (d : BitVec 256)
  /-- R269. The channel ERASE descriptor is posted and runs with erase-intent records. -/
  | chnErase (ch queue : Nat) (byCore : Bool) (d : BitVec 256)
  /-- R261. The READ_TRAILER descriptor is posted to read only page-plane trailers. -/
  | chnReadTrailer (ch queue : Nat) (byCore : Bool) (d : BitVec 256)
  /-- R261. The GET_FEATURES descriptor is posted to issue ONFI GET FEATURES. -/
  | chnGetFeatures (ch queue : Nat) (byCore : Bool) (d : BitVec 256)
  /-- R261. The SET_FEATURES descriptor is posted to issue ONFI SET FEATURES. -/
  | chnSetFeatures (ch queue : Nat) (byCore : Bool) (d : BitVec 256)
  /-- R255. The READ_PARAMETER descriptor is posted to read the parameter page and unique identifier. -/
  | chnReadParameter (ch queue : Nat) (byCore : Bool) (d : BitVec 256)
  /-- R261. The RESET_DIE descriptor is posted to issue RESET or RESET LUN. -/
  | chnResetDie (ch queue : Nat) (byCore : Bool) (d : BitVec 256)
  /-- R272. The MARK descriptor sets a block-state entry under the allowed transitions. -/
  | chnMark (ch queue : Nat) (byCore : Bool) (d : BitVec 256)
  /-- R261. The READ_ID descriptor is posted to issue ONFI READ ID on a chip enable. -/
  | chnReadId (ch queue : Nat) (byCore : Bool) (d : BitVec 256)
  /-- R261. The TRAIN descriptor is posted to set the rate and run the selected training steps on the channel. -/
  | chnTrain (ch queue : Nat) (byCore : Bool) (d : BitVec 256)
  /-- R262. When a die falls idle, the engine starts its next descriptor in deadline and queue order. -/
  | dieDispatch (ch die : Nat)
  /-- R264. A die operation ends and the engine issues its completion record. -/
  | dieOpComplete (ch die : Nat) (result : DieResult) (dieStat : Byte) (elapsed : Nat)
  /-- R265. Once its minimum run is reached, a program or erase is suspended to serve waiting queue 0 reads. -/
  | suspendIssue (ch die : Nat) (ran : Nat)
  /-- R276. An operation with no ready within DIE_TIMEOUT completes with DIE_TIMEOUT and the die is reset or failed. -/
  | dieTimeout (ch die : Nat) (resetReady : Bool)
  /-- R262. A descriptor that has waited STARVE ms starts next on its die. -/
  | descriptorStarve (ch queue die : Nat)
  /-- R264. A write to CHN_CHEAD releases the completion records up to that SEQ. -/
  | chnCheadWrite (src : Source) (ch : Nat) (value : Word)
  /-- R253. Writing CHN_CTRL.RETRAIN trains the channel again between operations. -/
  | chnRetrain (src : Source) (ch : Nat) (trains : List Bool)
  /-- R253. A change of CHN_RATE.TARGET relocks the island PLL and retrains the channel. -/
  | chnRateTargetWrite (src : Source) (ch : Nat) (value : Word) (trains : List Bool)
  /-- R278. A debounced change of CARPRES_N seats a carrier, or departs a powered one at once. -/
  | carrierPresenceChange (c : Nat) (present : Bool)
  /-- R278. A debounced press of the attention button starts, cancels or powers off as the carrier state gives. -/
  | carrierButtonPress (c : Nat)
  /-- R281. CAR_CMD.REMOVE starts the orderly removal of an ACTIVE carrier, or is refused. -/
  | carrierRemove (src : Source) (c : Nat)
  /-- R281. CAR_CMD.CANCEL acts as a press that cancels, where one would. -/
  | carrierCancel (src : Source) (c : Nat)
  /-- R284. CAR_CMD.INSERT powers up a carrier in OFF or FAILED. -/
  | carrierInsert (src : Source) (c : Nat)
  /-- R278. CAR_CMD.LOCATE shows FAST on the slot indicator. -/
  | carrierLocate (src : Source) (c : Nat)
  /-- R284. PWR_DELAY after power enable, the carrier enters DISCOVERING. -/
  | carrierPowerDelay (c : Nat)
  /-- R284. When discovery ends, the carrier record is read, flag pairs are scanned and reconciliation starts. -/
  | carrierDiscoveryDone (c : Nat) (dies : List DieParams) (record : CarrierRecord) (dieHash : Word)
  /-- R285. Delta or full reconciliation ends and the carrier becomes ACTIVE. -/
  | carrierReconcileDone (c : Nat) (currentBands : List Nat)
  /-- R281. When CAR_LEFT reaches 0, the carrier enters QUIESCING. -/
  | evacuationDone (c : Nat)
  /-- R281. Final operations end; the record is written, the epoch advances and power is switched off. -/
  | carrierQuiesceDone (c : Nat)
  /-- R281. 5 s after a refused removal the indicator returns to ON. -/
  | refuseBlinkExpire (c : Nat)
  /-- R286. A slot's departure record ends after RETAIN hours. -/
  | departureRecordExpire (c : Nat)
  /-- R304. An LDPC decode ends; a failure moves the codeword to the next ladder step or to escalation. -/
  | codewordDecode (unit slot step : Nat) (decodes : Bool)
  /-- R324. A received Aizaik HELLO is checked against the map and answered with HELLO_ACK. -/
  | aizaikHello (hdr : FrameHdr) (vers : List Half) (serial : DWord)
  /-- R324. A received HELLO_ACK sets the link UP at the chosen version, or records a version mismatch. -/
  | aizaikHelloAck (hdr : FrameHdr) (chosen : Half) (serial : DWord)
  /-- R326. A received HEARTBEAT keeps its plane usable and records the peer's VMAX. -/
  | heartbeat (hdr : FrameHdr) (vmax : Half)
  /-- R325. A received ACK frame advances the sender's acknowledged sequence. -/
  | ack (hdr : FrameHdr)
  /-- R329. A received MAP_OFFER of a newer map is answered with MAP_REQUEST. -/
  | mapOffer (hdr : FrameHdr)
  /-- R329. A received MAP_REQUEST is answered with the map as MAP_DATA frames. -/
  | mapRequest (hdr : FrameHdr) (epoch : Nat)
  /-- R329. A received MAP_DATA frame adds to the map being transferred; a whole valid newer map is accepted. -/
  | mapData (hdr : FrameHdr) (epoch offset : Nat) (whole : Option FlockMap)
  /-- R341. A holder takes a FRAG_WRITE, stores the fragment or answers with a status. -/
  | fragWrite (hdr : FrameHdr) (op : OpHdr) (symbols : List Symbol)
  /-- R339. A received FRAG_DONE counts toward establishing its job. -/
  | fragDone (hdr : FrameHdr) (op : OpHdr)
  /-- R323. A received FRAG_READ is answered with FRAG_DATA frames or a status. -/
  | fragRead (hdr : FrameHdr) (op : OpHdr)
  /-- R343. Received FRAG_DATA supplies symbols for a herd-level read or sweep. -/
  | fragData (hdr : FrameHdr) (op : OpHdr) (symbols : List Symbol)
  /-- R346. A received FRAG_DISCARD frees the named fragments. -/
  | fragDiscard (hdr : FrameHdr) (op : OpHdr)
  /-- R350. A holder receiving SWEEP_DONE discards fragments it no longer holds under the values in the frame. -/
  | sweepDone (hdr : FrameHdr) (hkey k m home : Nat) (elig : List Nat)
  /-- R324. Every 10 ms, or every 1 s after a version mismatch, HELLO is sent again until the link is UP. -/
  | linkHelloRetry (peer : Nat)
  /-- R325. 10 µs after the first unacknowledged acceptance an ACK frame is sent. -/
  | ackTimer (peer : Nat)
  /-- R325. When ACKSEQ has not advanced for 200 µs, every outstanding frame is sent again. -/
  | retransmitTimeout (peer : Nat)
  /-- R326. Every HEARTBEAT interval a HEARTBEAT is sent to each herd member on every usable plane. -/
  | heartbeatTimer
  /-- R326. DEAD_TIME of silence makes a plane unusable, or the peer DOWN. -/
  | peerDeadTimeout (peer plane : Nat)
  /-- R332. A home without a majority of fresh frames within LEASE loses its lease. -/
  | leaseExpire
  /-- R339. A herd job takes the stripe lock, reads the units, computes parity and sends the fragments. -/
  | herdJobStart (job : Nat)
  /-- R342. A job not established DEFER_LIMIT ms after creation raises a deferred error. -/
  | jobDeferTimeout (job : Nat)
  /-- R342. Every 10 ms a late job retries under the placement then in force. -/
  | jobRetryTimer
  /-- R345. The sweep rewrites the next target stripe and advances B, with checkpoints. -/
  | sweepStripe (ns : Nat)
  /-- R351. A miss log is ended after RETAIN hours. -/
  | misslogExpire (peer : Nat)
  /-- R320. A write of the Aizaik EtherType closes and re-establishes every link. -/
  | ethertypeWrite (src : Source) (value : Half)
  /-- R318. A write of a peer port address closes every link on that plane. -/
  | hrdMacWrite (src : Source) (plane : Nat) (value : BitVec 48)
  /-- R316. A change of HRD_PORT.AN restarts the Ethernet link. -/
  | hrdPortAnWrite (src : Source) (plane : Nat) (an : Bool)
  /-- R316. A peer port's Ethernet link comes up or goes down. -/
  | peerLinkChange (plane : Nat) (up : Bool)
  /-- R359. PWR_FAIL_N low for FAIL_FILTER µs enters HOLDUP and starts the flush. -/
  | powerFail
  /-- R359. Every 10 µs HOLDUP_SENSE is sampled; three samples below ENTER enter HOLDUP and below ABORT cut a flush short. -/
  | bankSample (code : BitVec 10)
  /-- R363. Every 1 ms the factor f and the flush-set limits are recomputed. -/
  | energyRecompute
  /-- R368. At least every 100 ms the persist horizon H is written to the device records. -/
  | horizonWrite
  /-- R364. A waiting flush-set charge is taken once the part has room under its limit. -/
  | chargeGrant (slot : Nat)
  /-- R371. Dirty map sectors and eviction buffers are written back and the flush set is fixed. -/
  | flushWritebackDone
  /-- R373. A flush stripe's programs end; a failed one is programmed again into a new stripe. -/
  | flushStripeDone (ok : Bool)
  /-- R371. The CLEAN record is programmed and the flush sequencer stops. -/
  | flushComplete (us : Nat)
  /-- R380. A step of start-up recovery ends and the next begins; the last one leaves BOOT. -/
  | recoveryStep
  /-- R394. A write to BPM_ALLOCREQ starts a firmware buffer allocation. -/
  | bpmAllocRequest (src : Source) (value : Word)
  /-- R393. A write to BPM_RELEASE releases a buffer and returns its pips. -/
  | bpmRelease (src : Source) (value : DWord)
  /-- R408. A scan reads every match-array entry once every 4 ms and repairs parity failures. -/
  | matchScan (bad : List Nat) (late : Bool)
  /-- R407. An ordered insert or delete slide ends and the next queued slide starts. -/
  | matchSlideDone (partition : Nat)
  /-- R409. The MAT_CMD LOOKUP operation searches the partition holding ADDR. -/
  | matLookup (src : Source) (addr : Nat)
  /-- R409. The MAT_CMD READ operation loads entry ADDR into the MAT_ registers. -/
  | matRead (src : Source) (addr : Nat)
  /-- R409. The MAT_CMD WRITE operation writes entry ADDR in place. -/
  | matWrite (src : Source) (addr : Nat)
  /-- R409. The MAT_CMD INSERT operation inserts an entry at ADDR in order. -/
  | matInsert (src : Source) (addr : Nat)
  /-- R409. The MAT_CMD DELETE operation deletes entry ADDR in order. -/
  | matDelete (src : Source) (addr : Nat)
  /-- R409. The MAT_CMD INVALIDATE operation invalidates entry ADDR in place. -/
  | matInvalidate (src : Source) (addr : Nat)
  /-- R410. Setting MUL_RCTRL.ENABLE starts a ring from head 0. -/
  | muleRingEnable (src : Source) (ring : Nat)
  /-- R419. Clearing MUL_RCTRL.ENABLE stops the ring after the descriptor in progress. -/
  | muleRingDisable (src : Source) (ring : Nat)
  /-- R417. MUL_RCTRL.RESUME retries the failed fetch or write-back of a halted ring. -/
  | muleRingResume (src : Source) (ring : Nat)
  /-- R410. MUL_RCTRL.KICK makes the mule re-examine OWN at its head. -/
  | muleRingKick (src : Source) (ring : Nat)
  /-- R410. A mule starts the next owned descriptor of a ring. -/
  | muleDescriptor (ring : Nat) (fetchOk : Bool)
  /-- R418. A descriptor ends; the mule writes DONE, then STATUS with OWN cleared. -/
  | muleDescriptorDone (ring : Nat) (data : List Byte) (dataAnswer : HostAnswer) (writeBackOk : Bool)
  /-- R416. A paced ring resumes when its fill level falls to LOW. -/
  | mulePaceResume (ring : Nat)
  /-- R420. Writing START on a K7 register channel moves COUNT bytes. -/
  | k7Start (src : Source) (channel : Nat) (data : List Byte) (dataAnswer : HostAnswer)
  /-- R434. At each refresh interval a channel issues REFab to both ranks and sub-channels. -/
  | refreshTick (ch : Nat)
  /-- R434. Every 1 ms MR4 is polled and the refresh interval is switched. -/
  | mr4Poll (ch : Nat) (hot : Bool)
  /-- R433. A row left open without requests for IDLE × 10 ns is precharged. -/
  | rowIdleClose (ch bank : Nat)
  /-- R428. The patrol scrub reads the next codeword and corrects what it finds. -/
  | patrolScrub (ch : Nat) (result : ScrubResult)
  /-- R439. A failed SDRAM channel is isolated and the plain region is remapped to one channel fewer. -/
  | sdramChannelFailure (ch : Nat)
  /-- R439. Media cores mark every clean plain-region page FLASH after a channel loss. -/
  | sdramLossCleanup
  /-- R437. Every 100 ms in SERVE firmware reads the DQS oscillator and corrects write leveling. -/
  | writeLevelTrack (ch device rank : Nat) (delay : BitVec 12)
  /-- R437. A write of SDC_CTRL.MODE in BOOT moves a channel to OFF, TRAIN or SERVE. -/
  | sdcModeWrite (src : Source) (ch : Nat) (mode : BitVec 2)
  /-- R437. The SDC_TCMD MRW operation writes a mode register during training. -/
  | tcmdMrw (src : Source) (ch : Nat) (sub : BitVec 2) (rank : Bool) (operand : Half)
  /-- R437. The SDC_TCMD MRR operation reads a mode register during training. -/
  | tcmdMrr (src : Source) (ch : Nat) (sub : BitVec 2) (rank : Bool) (operand : Half) (data : Byte)
  /-- R437. The SDC_TCMD MPC operation issues a multi-purpose command during training. -/
  | tcmdMpc (src : Source) (ch : Nat) (sub : BitVec 2) (rank : Bool) (operand : Half)
  /-- R437. The SDC_TCMD pattern write operation writes a training pattern. -/
  | tcmdPatternWrite (src : Source) (ch : Nat) (sub : BitVec 2) (rank : Bool) (operand : Half)
  /-- R437. The SDC_TCMD pattern read and compare operation records failing DQ bits. -/
  | tcmdPatternCompare (src : Source) (ch : Nat) (sub : BitVec 2) (rank : Bool) (operand : Half) (fails : BitVec 80)
  /-- R443. A configuration write to a function without a step of its own updates its configuration space. -/
  | configWrite (f : Fn) (field : CfgField) (value : Word)
  /-- R456. Clearing Bus Master Enable stops new requests, abandons reads and aborts commands that need host memory. -/
  | busMasterClear (f : Fn)
  /-- R457. Setting Bus Master Enable again writes held records and pending MSI-X messages and resumes fetching. -/
  | busMasterSet (f : Fn)
  /-- R445. A function entering D3hot is treated as a clearing of Bus Master Enable. -/
  | d3hotEntry (f : Fn)
  /-- R457. A return to D0 restores the function without reset. -/
  | d0Return (f : Fn)
  /-- R456. A function-level reset aborts commands and discards the function's rings, records and version. -/
  | flr (f : Fn)
  /-- R448. Clearing VF Enable removes every VF of the port as a function-level reset of each. -/
  | vfEnableClear (p : Port)
  /-- R448. Setting VF Enable creates the VFs and reapplies their recorded attachments. -/
  | vfEnableSet (p : Port)
  /-- R459. An assertion of PERST_N resets the port and its functions. -/
  | perstAssert (p : Port)
  /-- R460. PERST_N deassertion starts link training within 20 ms. -/
  | perstDeassert (p : Port)
  /-- R459. An in-band Hot Reset resets the port and its functions. -/
  | hotReset (p : Port)
  /-- R459. DL_Down of a port outside a reset resets the port. -/
  | linkDown (p : Port)
  /-- R460. The data link of a port comes up and its DEGRADED reason bit clears. -/
  | linkUp (p : Port) (rate width : Nat) (flit : Bool)
  /-- R461. A change of HST_LINK.MAXRATE retrains the link through a link-down reset. -/
  | hstMaxrateWrite (src : Source) (p : Port) (rate : BitVec 4)
  /-- R455. A completion for a host read arrives and is delivered, or discarded when its tag is quarantined. -/
  | hostReadCompletion (p : Port) (tag : Nat) (status : CplStatus)
  /-- R454. A non-posted request not fully completed after T has timed out and its owner acts. -/
  | completionTimeout (p : Port) (tag : Nat)
  /-- R455. A quarantined tag becomes reusable T after its timeout was reported. -/
  | tagQuarantineEnd (p : Port) (tag : Nat)
  /-- R502. CHIP_RESET_N low resets the N9 and puts the face balls at high impedance. -/
  | chipResetAssert
  /-- R471. The release of CHIP_RESET_N latches the straps and starts mask ROM in BOOT. -/
  | chipResetRelease (straps : BitVec 7) (sysclk refA refB : Bool)
  /-- R522. 1 ms after reset release the strap face ends and the boot face applies. -/
  | strapFaceEnd
  /-- R472. Mask ROM checks the candidate NOR image slots and starts the LOADER of the one it accepts. -/
  | bootImageCheck (norPresent : Bool) (slotA slotB : Option NorSlot)
  /-- R471. The loader checks the board description, applies fuse requests, writes the guard set, locks it and starts the cores. -/
  | loaderRun (board : Option Board) (entropyFails parkUs : Nat)
  /-- R490. In BOOT firmware writes the committed image into the NOR and hands every core over. -/
  | bootCastle (norWriteOk : Bool)
  /-- R465. FUS_PROG.GO from the boot core before the guard lock programs one fuse bit and reads it back. -/
  | fuseProgram (src : Source) (bit : Nat) (blows : Bool)
  /-- R481. Writing GRD_LOCK.LOCK sets the guard lock; writes once locked are discarded. -/
  | grdLockWrite (src : Source) (value : Word)
  /-- R486. After GAP_US, the next core stops, exports its state and is switched to its successor. -/
  | coreHandover
  /-- R486. The successor reports ready and dispatch resumes; after the last core the image is committed. -/
  | handoverImportDone (commitOk : Bool)
  /-- R488. An import not ended by 18 µs, or a failed import, reverts the core and aborts the castling. -/
  | handoverTimeout
  /-- R498. A core whose heartbeat is late fails and is isolated. -/
  | coreWatchdog (c : CoreId)
  /-- R498. An uncorrectable local-memory error or fatal trap fails a core, whose rings are reassigned. -/
  | coreFault (c : CoreId) (cause : CoreCause)
  /-- R497. A faulted ECC, XTS or parity engine island is isolated and its work moves elsewhere. -/
  | engineIslandFault (kind : EngineKind) (idx : Nat)
  /-- R500. A halt cause enters HOLDUP, performs flush steps 1 to 3 only and stops. -/
  | halt (cause : Nat) (island : Nat)
  /-- R511. Each hour out of reset advances MOD_HOURS. -/
  | hourTick
  /-- R506. A keyed write of EVT_CLRSTATS.CLEAR clears every statistics counter. -/
  | clearStats (src : Source)
  /-- R547. A junction temperature reading enters or leaves throttling, or raises halt cause 0x5. -/
  | thermalSample (temp : Half) (cooled : Bool) (tripped : Bool)
  /-- R548. The analog comparator asserts THERMTRIP_N at 115 °C. -/
  | thermtrip
  /-- R512. FREEZE_N held low for 20 ns stops every island clock and starts the state read-out. -/
  | freezeN
  /-- R512. Writing FRZ_CTRL.FREEZE at debug level DIAG or TEST freezes the N9 as FREEZE_N does. -/
  | freezeRequest (src : Source)
  /-- R276. A fault isolates a channel island, and every die of that channel is treated as failed. -/
  | channelIslandFault (ch : Nat)
  /-- R317. A received Ethernet frame with a wrong FCS, tag, EtherType, address, CRC, FLOCK, SRC, TYPE or LEN, or a MAC control frame, is discarded and counted in HRD_RXDROP. -/
  | frameDiscard (plane : Nat)
  /-- R69. A BAR0 read refused for size or alignment, for BOOT, or because its island is isolated returns all ones at once and is recorded in HST_REGERR, HST_REGERRCNT and ACCESS_ERROR. -/
  | bar0ReadError (p : Port) (addr size : Nat)
  /-- R281. During orderly removal, live units, staging copies and system mirror copies on the carrier are copied off at rebuild share and CAR_LEFT counts down. -/
  | evacuationCopy (c : Nat)
  /-- R501. Removal of VDD_CORE clears MOD_HALT and releases a latched THERMTRIP_N. -/
  | coreSupplyLoss
  /-- R520. An IEEE 1149.1 or IEEE 1687 operation on the TAP shifts chains, runs boundary scan or accesses instruments as the debug level permits. -/
  | tapOperation (op : TapOp)
  /-- R544. A SETDASA from static address 0x1D gives the sideband port in I3C mode its dynamic address. -/
  | setdasa (address : BitVec 7)
  /-- R544. In ENTDAA the sideband port offers its provisional ID and takes a dynamic address. -/
  | entdaa (address : BitVec 7)
  deriving DecidableEq, Repr

end Sys2Proof
end

