-- ==== Sys2Proof/Config.lean ====
section
/-! DEFINITION. What the spec leaves to the implementation, to cryptography or to no rule: constants without a body, so
that no proof can lean on a value (log entries 1 and 3). -/

namespace Sys2Proof.Config

open Sys2Proof

/-- The n-th free value: a value the spec leaves open (log entry 1). -/
opaque freeWord : Nat → DWord

/-- The fuse row of this part as it is shipped (R462): no rule gives a part's contents. -/
opaque fuseRow : BitVec 4096

/-- The number of profiles of a DIE_PROFILES section, by its hash, that match a die (R256). -/
opaque dieProfiles : Nat → DieParams → Nat

/-- Whether a signature verifies: the signed object, its signature and the signer key (R466, R327, R475). -/
opaque signatureOk : Nat → Nat → Nat → Bool

/-- The digest that stands for a structure whose bytes a signature or a hash covers. -/
opaque manifestDigest : Manifest → Nat

opaque boardDigest : Board → Nat

opaque flockMapDigest : FlockMap → Nat

/-- Whether the seal of a Host Map Region page is right for the map seal key, MPN, GEN, port and slot (R154, R155). -/
opaque pageSealOk : Nat → Nat → Word → Nat → Nat → HmrPage → Bool

/-- Whether the wrapped key block opens under the pair of its wrapping slot (R313, checks of Table 9). -/
opaque keyUnwraps : Nat → Nat → Bool

/-- The media key that a wrapped key block carries, by number, and its key check value (R311, R313). -/
opaque unwrappedKey : Nat → Nat

opaque keyCheckValue : Nat → DWord

/-- The words of one pass of the state image at a debug level (R519). -/
opaque freezeWords : Nat → Word

/-- The encapsulation key bytes of a wrapping slot, as 32-bit words (R315, R480). -/
opaque encapsKey : Nat → Nat → Word

/-- The parity-check matrix words that ECC_HMATRIX and ECC_HMASK hold (R314). -/
opaque hMatrixWord : Nat → Word

/-- How many of an interface unit of the Catalogue are built (R449, Table 6): no rule states it. -/
opaque interfaceCount : Nat → Half

/-- The 4 KiB pages at which staging SRAM, SDRAM and the map cache scratch begin in the fabric address space (R170, R413,
R429, R449): no rule states the addresses. -/
opaque stagingPage : Nat

opaque sdramPage : Nat

opaque scratchPage : Nat

/-- Where buffer `n` of a pool lies (R390, R393): no rule places the buffers within their memory. -/
opaque bufferPlace : Nat → Nat → Nat

end Sys2Proof.Config
end

