-- ==== Sys2Proof/Machine/State.lean ====
section
/-! DEFINITION. The state of the N9 as plain data: every register, queue, table, mode and pin the spec
names, the queue of waiting commands, the outcomes of a step, and the state after reset.
Tables keyed by a number are sorted lists of pairs without repeats (`SMap`), in which an entry equal to the
table's default is not listed, so that equal tables are equal lists. -/

namespace Sys2Proof.Machine

open Sys2Proof

/-- A sparse table keyed by a number: pairs in rising key order (Machine/Ops.lean has its operations). -/
abbrev SMap (α : Type) := List (Nat × α)

/-! ## Status registers, accesses and outputs -/

/-- A status register with RWS fields (R55): SEQ, and the event bits now set with their stamps. -/
structure StatReg where
  seq : Half
  stamps : List (Nat × Half)
  deriving DecidableEq, Repr

/-- A register write that waits in, or was dropped from, the posted queue toward a stalled island (R64 to R67). -/
structure PostedWrite where
  src : Source
  island : Nat
  addr : Nat
  size : Nat
  value : DWord
  deriving DecidableEq, Repr

/-- A response code of the Management Task File (R107). -/
inductive MtfCode
  | done | notOwner | badOffset
  deriving DecidableEq, Repr

/-- What an Aizaik frame carries (R322, Table 2); `frag` is a fragment operation of types 0x20 to 0x24 with the symbols
that are carried (R323). -/
inductive FrameBody
  | heartbeat (vmax : Half)
  | ack
  | mapOffer
  | mapRequest (epoch : Nat)
  | mapData (epoch offset : Nat)
  | frag (type : Nat) (op : OpHdr) (symbols : List Symbol)
  | sweepDone (hkey k m home : Nat) (elig : List Nat)
  deriving DecidableEq, Repr

/-- What the N9 sends or drives at its links and balls, as the rules name it; the model records it in order. -/
inductive Out
  /-- a memory write request of a function toward its host (R125) -/
  | hostWrite (f : Fn) (addr : DWord) (bytes : List Byte)
  /-- a completion record written to entry `entry` of a completion ring, in two requests when `split` (R81, R88) -/
  | record (f : Fn) (cq entry : Nat) (split : Bool) (r : BitVec 256)
  /-- an MSI-X message (R446) -/
  | msix (f : Fn) (vector : Nat)
  /-- a read reply of all ones to a BAR0 read that ended in error (R65) -/
  | allOnes (p : Port) (addr size : Nat)
  /-- an access fault to a core (R65) -/
  | accessFault (c : CoreId) (addr : Nat)
  /-- an Unsupported Request completion (R446) -/
  | unsupported (f : Fn)
  /-- a Management Task File response with any data read (R107) -/
  | mtfReply (endpoint : Nat) (code : MtfCode) (data : List Word)
  /-- an Aizaik frame sent to a peer on a plane: retransmission mark, sequence number, acknowledgement, contents (R321) -/
  | frame (plane peer : Nat) (retx : Bool) (seq ackSeq : Word) (body : FrameBody)
  /-- a HELLO frame with the versions offered (R324) -/
  | hello (plane peer : Nat) (vers : List Half)
  /-- a HELLO_ACK frame with the version chosen (R324) -/
  | helloAck (plane peer : Nat) (chosen : Half)
  /-- an ONFI command on a channel (R252): array operation `op` of R261 -/
  | onfi (ch die : Nat) (op : Nat)
  /-- a completion record returned to the engine that posted the descriptor (R264) -/
  | chnRecord (ch : Nat) (r : BitVec 128)
  /-- an erase-intent record programmed on a die: kind, block, FSEQ (R268) -/
  | flagRecord (ch die kind block : Nat) (fseq : Word)
  /-- a page and its seal written to a Host Map Region slot (R155) -/
  | hmrWrite (p : Port) (slot : Nat) (mpn : Nat) (gen : Word)
  /-- a carrier record programmed (R279) -/
  | carrierRecord (c : Nat) (epoch : DWord) (flags : Nat)
  /-- REFab on both ranks and sub-channels of an SDRAM channel (R434) -/
  | refresh (ch : Nat)
  /-- a training command on an SDRAM channel (R437) -/
  | training (ch op : Nat) (operand : Half)
  /-- a word shifted out of the state image or an answer on the TAP (R520) -/
  | tap (segment : Nat) (excluded : Bool)
  /-- a code written to the console UART (R472) -/
  | console (code : Nat)
  /-- the answer of a configuration request that is refused for now (R444) -/
  | requestRetry (f : Fn)
  /-- the owner of a mule ring is signalled that a descriptor with INT ended: its TAG (R411) -/
  | muleSignal (ring tag : Nat)
  /-- a state-image word stream began on the freeze face: the first pass (R513, R521) -/
  | freezePass (pass : Nat)
  /-- an event of a status register that is enabled is signalled (R48, R56): register address and bit -/
  | signal (reg bit : Nat)
  deriving DecidableEq, Repr

/-! ## Rings and commands in flight -/

/-- A doorbell taken in: the packet count it covers up to, and the counts noted for the function's rings (R120). -/
structure Bell where
  upTo : Nat
  notes : List (Nat × Nat)
  deriving DecidableEq, Repr

/-- A submission ring (R70 to R72). `fetched` counts the packets fetched since creation, `rung` those the
doorbells have covered; `head` and `tail` are these modulo the ring size. -/
structure SubRing where
  base : DWord
  log2 : Nat
  head : Nat
  tail : Nat
  fetched : Nat
  rung : Nat
  cq : Nat
  weight : Nat
  cls : Nat
  home : Nat
  faulted : Bool
  stopped : Bool
  bells : List Bell
  deriving DecidableEq, Repr

/-- A finished command's record that waits for a free entry or for bus mastering (R75, R456). -/
structure HeldRecord where
  slot : Nat
  record : BitVec 256
  deriving DecidableEq, Repr

/-- A completion ring (R70 to R72, R80, R93). -/
structure CplRing where
  base : DWord
  log2 : Nat
  head : Nat
  tail : Nat
  phase : Bool
  vector : Nat
  aggCount : Nat
  aggTime : Nat
  ien : Bool
  split : Bool
  faulted : Bool
  held : List HeldRecord
  unsignalled : Nat
  deriving DecidableEq, Repr

/-- Where a command in flight stands between its fetch and its record (R116 to R122, R204, R245, R364, R399). -/
inductive Stage
  | fetched        -- fetched, not yet interpreted
  | waitOrder      -- held outside the admission order (R122)
  | waitPips       -- asked for its demand and waits (R399)
  | waitAdmit      -- next commands in admission order (R118)
  | waitLock       -- admitted, waits for earlier locks (R116)
  | waitSpace      -- waits for free page-planes (R245)
  | waitEntry      -- waits for a staging-index entry (R204)
  | waitCharge     -- waits for a flush-set charge (R364)
  | waitPack       -- waits for its staging page-plane to be programmed (R198)
  | waitMap        -- waits for map pages to be fetched (R163)
  | waitHerd       -- waits for fragments of the herd (R343)
  | waitRingEnd    -- RING_DELETE waits for the ring's last record (R94)
  | waitDetach     -- NS_ATTACH with detach waits for the function's commands (R95)
  | waitRegion     -- MAP_REGION_REMOVE waits for issued reads (R157)
  | waitHeld       -- finished; its record is held (R75)
  deriving DecidableEq, Repr

/-- A command in flight (R76, R116). `cls` is the class of the ring it came from (R396), `judged` counts the checks of Table 10 that it passed (R89), `grant` the page-planes it
holds (R244), `moved` the blocks it has written or trimmed so far, `pages` the map pages whose fetch it has waited out
(R164), `result` what RING_DELETE will report (R94). -/
structure Cmd where
  fn : Fn
  ring : Nat
  packet : BitVec 512
  number : Nat
  stage : Stage
  host : HostSide
  notes : List (Nat × Nat)
  judged : Nat
  cls : Nat
  cmdPip : Bool
  sramPips : Nat
  sdramPips : Nat
  changed : Bool
  grant : Nat
  moved : Nat
  pages : List Nat
  result : Nat
  deriving DecidableEq, Repr

/-- A range-lock entry of the match array (R113): key, care mask, and the in-flight slot it belongs to.
Slots from 65,536 on name a Management Task File task. -/
structure Lock where
  key : BitVec 72
  mask : BitVec 72
  slot : Nat
  deriving DecidableEq, Repr

/-- An MSI-X vector: its table entry and its pending bit (R446). -/
structure Vec where
  addr : DWord
  data : Word
  masked : Bool
  pend : Bool
  deriving DecidableEq, Repr

/-- The configuration state of a function (R443 to R446) and what the N9 keeps for it. `aer` is the uncorrectable error
status of its AER capability (R454, R455). -/
structure FnState where
  memorySpace : Bool
  busMaster : Bool
  parityResp : Bool
  serr : Bool
  msixEnable : Bool
  funcMask : Bool
  tag10 : Bool
  d3hot : Bool
  enableHeld : Bool
  aer : Word
  maxSq : Nat
  maxCq : Nat
  cls : Nat
  errLog : List (BitVec 512)
  deriving DecidableEq, Repr

/-- A tag held by an outstanding or quarantined request of a port (R452, R455). -/
structure Tag where
  tag : Nat
  owner : TagOwner
  quarantined : Bool
  deriving DecidableEq, Repr

/-- A host port (R441 to R460). `lastRing` is the ring key from which the next visit of the fetch
rounds looks for a ring (R217). -/
structure PortState where
  perstLow : Bool
  refClock : Bool
  inReset : Bool
  retry : Bool
  vfEnable : Bool
  vfMse : Bool
  numVFs : Nat
  pageSize : Word
  ssvid : Half
  ssid : Half
  lastRing : Nat
  tags : List Tag
  deriving DecidableEq, Repr

/-- The Management Task File beside its task registers (R109, R110) and the sideband port (R544). -/
structure MtfState where
  negotiated : Bool
  expired : Bool
  i3c : Bool
  dynAddr : Option (BitVec 7)
  deriving DecidableEq, Repr

/-! ## Ordering: deferred errors -/

/-- A deferred-error log entry's state (R135). -/
inductive DefState
  | free | pending | resolved | superseded | lost
  deriving DecidableEq, Repr

/-- A deferred-error log entry (R138). `redone` lists the ranges rewritten or trimmed since it was raised (R135). -/
structure DefEntry where
  st : DefState
  cause : Nat
  nsid : Nat
  herd : Nat
  merged : Nat
  slba : Nat
  nlb : Nat
  raisedSeq : DWord
  closedSeq : DWord
  epoch : Nat
  redone : List (Nat × Nat)
  deriving DecidableEq, Repr

/-! ## Media: codewords, page-planes, dies, channels, carriers -/

/-- A codeword as the medium holds it (R300): block in media form, tally, header, and the first ladder step at
which it decodes (none: at no step). -/
structure Codeword where
  data : List Byte
  tally : BitVec 128
  header : BitVec 128
  step : Option Nat
  deriving DecidableEq, Repr

/-- A programmed page-plane (R197, R275): four codeword slots and the trailer. -/
structure PagePlane where
  slots : List Codeword
  trailer : BitVec 256
  deriving DecidableEq, Repr

/-- The block states of R272, Table 13. -/
inductive BlockSt
  | unknown | erased | opened | written | needsErase | retired | flag
  deriving DecidableEq, Repr

/-- A block-state table entry (R272). -/
structure BlockEntry where
  st : BlockSt
  next : Nat
  deriving DecidableEq, Repr

/-- A descriptor in a queue of a channel engine (R260). -/
structure Desc where
  bits : BitVec 256
  queue : Nat
  byCore : Bool
  order : Nat
  starved : Bool
  deriving DecidableEq, Repr

/-- An operation in progress or suspended on a die (R263 to R266). -/
structure DieOp where
  desc : Desc
  suspends : Nat
  served : Nat
  deriving DecidableEq, Repr

/-- One die (R254 to R276): its parameters, operations, flag pair, wear window and staging blocks. -/
structure Die where
  params : DieParams
  cur : Option DieOp
  susp : Option DieOp
  flagActive : Nat
  flagOther : Nat
  flagNext : Nat
  fseq : Word
  window : Nat
  sinceTurn : Nat
  stageBlocks : List Nat
  stageAt : Nat
  flushBlocks : List Nat
  deriving DecidableEq, Repr

/-- A channel engine (R251, R260, R264). -/
structure Chan where
  queue : List Desc
  posted : Nat
  cring : List (BitVec 128)
  seq : Word
  deriving DecidableEq, Repr

/-- A retained departure record (R286). -/
structure Departure where
  epoch : DWord
  carrierId : DWord
  dieHash : Word
  blocks : SMap BlockEntry
  deriving DecidableEq, Repr

/-- What a carrier slot holds beside its registers (R277 to R288). `delta` is the kind of the reconciliation under way,
`minimal` says that the removal under way copies only what R282 asks, `atStop` is what a carrier in service at a stop
leaves if it does not resume (R288). -/
structure Carrier where
  record : Option CarrierRecord
  dieHash : Word
  departure : Option Departure
  locate : Bool
  delta : Bool
  minimal : Bool
  atStop : Option Departure
  deriving DecidableEq, Repr

/-! ## Namespaces and the map -/

/-- The namespace kinds of R140. -/
inductive NsKind
  | localNs | herdNs | systemNs
  deriving DecidableEq, Repr

/-- One block of a system namespace (R176, R178): its two copies lie on dies `dieA` and `dieB`. -/
structure SysBlock where
  data : List Byte
  tally : BitVec 128
  dieA : Nat
  dieB : Nat
  deriving DecidableEq, Repr

/-- A log pair of a system namespace (R178): its segment, when it was associated, the pages written, and its appended
blocks with their offsets, oldest first. -/
structure LogPair where
  segment : Option Nat
  age : Nat
  pages : Nat
  entries : List (Nat × SysBlock)
  deriving DecidableEq, Repr

/-- A namespace record (R140 to R142, R176, R186, R206, R242, R293, R313, R331, R334). `deposed` names the new home of a
namespace that is deleted once the commands past validation have ended (R333). -/
structure Namespace where
  kind : NsKind
  layout : Nat
  size : Nat
  extents : List Nat
  nstag : Half
  hostTallies : Bool
  encrypted : Bool
  attached : List Fn
  fence : Nat
  shrinkTo : Nat
  keyLoaded : Option Nat
  keyCheck : Option DWord
  stream : Nat
  hkey : Nat
  herd : Nat
  holding : Bool
  slcPages : Nat
  sysData : SMap SysBlock
  sysLogs : List LogPair
  deposed : Option Nat
  deriving DecidableEq, Repr

/-- Where a map page lives (R148). -/
inductive Loc
  | empty | flash | sdram | host
  deriving DecidableEq, Repr

/-- A directory entry (R148, Table 4). `since` is the stamp of the oldest change not persisted (R368). -/
structure DirEntry where
  gen : Word
  index : Nat
  loc : Loc
  dirty : Bool
  busy : Bool
  img : Bool
  port : Port
  blk : Nat
  unit : Nat
  since : DWord
  deriving DecidableEq, Repr

/-- A Host Map Region (R151 to R157). -/
structure Region where
  port : Port
  base : DWord
  chunks : Nat
  format : Nat
  fails : Nat
  distrusted : Bool
  removing : Bool
  badSlots : List Nat
  deriving DecidableEq, Repr

/-- A line of the map cache or of an eviction buffer (R166, R174): sectors valid and dirty. -/
structure CacheLine where
  island : Nat
  set : Nat
  way : Nat
  tag : Nat
  valid : BitVec 8
  dirty : BitVec 8
  deriving DecidableEq, Repr

/-- A sequential-store detector (R171). -/
structure Detector where
  next : Nat
  run : Nat
  used : Nat
  deriving DecidableEq, Repr

/-- A map-page fetch in progress (R163 to R165): from its host slot or from flash. -/
structure MapFetch where
  mpn : Nat
  fromHost : Bool
  forStore : Bool
  deriving DecidableEq, Repr

/-- The map (R143 to R183): entries by MPN × 768 + entry, directory, regions, cache, persistence. `sealKey`
numbers the map seal key in force, which no agent reads (R154). `detour` says that an SDRAM channel was lost and the clean
pages of the plain region are not marked FLASH yet (R439). -/
structure MapState where
  entries : SMap (BitVec 40)
  dir : SMap DirEntry
  regions : SMap Region
  sealKey : Nat
  cache : List CacheLine
  evict : List CacheLine
  detectors : List Detector
  storeCount : Nat
  fetches : List MapFetch
  pseq : DWord
  journal : Nat
  snapshots : Nat
  detour : Bool
  deriving DecidableEq, Repr

/-! ## Placement, staging, reclaim -/

/-- Band states (R190, R221). -/
inductive BandSt
  | free | opened | closed | reclaiming
  deriving DecidableEq, Repr

/-- A band member: one multi-plane erase block on one die (R190). -/
structure Member where
  ch : Nat
  die : Nat
  block : Nat
  deriving DecidableEq, Repr

/-- A band record (R190, Table 2) with the counts reclaim keeps (R222, R226). -/
structure Band where
  layout : Nat
  members : List Member
  stream : Nat
  st : BandSt
  next : Nat
  relaxed : Bool
  failed : List Nat
  valid : Nat
  minutes : Nat
  score : Nat
  openWseq : DWord
  deriving DecidableEq, Repr

/-- A unit slot of a gather stripe (R200). -/
structure GatherSlot where
  nsid : Nat
  unit : Nat
  join : DWord
  cws : List (Option Codeword)
  deriving DecidableEq, Repr

/-- A gather stripe, open, sealed or programmed (R200 to R202). -/
structure Gather where
  stream : Nat
  layout : Nat
  slots : List GatherSlot
  shut : Bool
  placed : List Nat
  charge : Nat
  deriving DecidableEq, Repr

/-- A staging record with its index entry (R199): per block a staged or trimmed mark and two copies. -/
structure StageRec where
  join : DWord
  staged : BitVec 4
  trimmed : BitVec 4
  copyA : List Nat
  copyB : List Nat
  deriving DecidableEq, Repr

/-- A lost-stripe log entry (R214, Table 9); `st` 0 FREE, 1 LOST, 2 CLEARED. -/
structure LostEntry where
  st : Nat
  cause : Nat
  nsid : Nat
  band : Nat
  slba : Nat
  nlb : Nat
  seq : DWord
  stripe : Nat
  deriving DecidableEq, Repr

/-- One copied unit of a copy stripe (R228). -/
structure CopyItem where
  nsid : Nat
  unit : Nat
  src : Nat
  dst : Nat
  deriving DecidableEq, Repr

/-- A copy stripe of reclaim, rebuild or evacuation, programmed and not yet installed (R228). -/
structure CopyStripe where
  band : Nat
  rebuild : Bool
  items : List CopyItem
  deriving DecidableEq, Repr

/-- Placement, staging and reclaim (R187 to R249). -/
structure PlaceState where
  bands : SMap Band
  nextBand : Nat
  gathers : SMap Gather
  nextGather : Nat
  index : SMap StageRec
  packs : List (Nat × Nat × Nat)
  lost : SMap LostEntry
  copies : SMap CopyStripe
  nextCopy : Nat
  wears : SMap Nat
  retireQueue : List Nat
  retired : List Nat
  forced : List Nat
  deepReads : SMap Nat
  reclaimOn : Bool
  erasesSincePersist : Nat
  nstagNext : Half
  unbuildable : List Nat
  touched : List Nat
  deriving DecidableEq, Repr

/-- The flash media and their engines (R251 to R288). Page-planes are keyed by map-unit address (R143) with the
device's block-and-page split; blocks by die × 2^25 + block, dies by channel × 16 + die. -/
structure MediaState where
  pages : SMap PagePlane
  blocks : SMap BlockEntry
  dies : SMap Die
  chans : SMap Chan
  carriers : SMap Carrier
  ladder : SMap Nat
  deriving DecidableEq, Repr

/-! ## Herd -/

/-- The states of a link (R324, R357). -/
inductive LinkSt
  | closed | helloSent | up
  deriving DecidableEq, Repr

/-- A reliable frame sent and not yet acknowledged (R325). -/
structure SentFrame where
  seq : Word
  body : FrameBody
  deriving DecidableEq, Repr

/-- A link with a herd member (R319, R324 to R326). `waiting` holds the reliable frames that the limit of 1,024
unacknowledged ones keeps back; `fresh` says whether a frame with this N9's epoch came within LEASE (R332). -/
structure Link where
  st : LinkSt
  plane : Nat
  version : Nat
  vmax : Nat
  usable : List Nat
  txSeq : Word
  rxNext : Word
  unacked : List SentFrame
  waiting : List FrameBody
  owedAcks : Nat
  mismatch : Bool
  epoch : Nat
  fresh : Bool
  down : Bool
  reconciling : Bool
  delta : Bool
  deriving DecidableEq, Repr

/-- A herd job (R339): its stripe under shape k, whether it has been sent and whether a second one is queued behind it,
whether it is late (R342), the holders it was sent to, the fragments answered with 0x0 or 0x5, the fragments answered
UNREADABLE once, and whether a holder refused it (CAUSE 0x02). -/
structure Job where
  hkey : Nat
  k : Nat
  hstripe : Nat
  inFlight : Bool
  again : Bool
  late : Bool
  stampSeq : DWord
  holders : List Nat
  answered : List Nat
  unreadable : List Nat
  refused : Bool
  deriving DecidableEq, Repr

/-- The placement input of a namespace (R344): K, M, eligible set and home. -/
structure Placement where
  k : Nat
  m : Nat
  elig : List Nat
  home : Nat
  deriving DecidableEq, Repr

/-- What the home keeps for a namespace it homes (R344 to R347): `ahead` lists the target stripes swept out of order. -/
structure Homed where
  segments : List (Nat × Placement)
  target : Placement
  boundary : Nat
  checkpoint : Nat
  sweeping : Bool
  held : Option Placement
  rebuilding : Bool
  ahead : List Nat
  stampEpoch : Nat
  deriving DecidableEq, Repr

/-- A fragment held for another home (R334). -/
structure Fragment where
  hkey : Nat
  k : Nat
  hstripe : Nat
  index : Nat
  stampEpoch : Nat
  stampSeq : DWord
  symbols : List Symbol
  deriving DecidableEq, Repr

/-- A miss log (R351). -/
structure MissLog where
  stripes : List (Nat × Nat × Nat)
  discards : List OpHdr
  incomplete : Bool
  deriving DecidableEq, Repr

/-- A FRAG_WRITE frame taken in whose fragment is not whole yet, or waits for a newer map (R341). -/
structure Incoming where
  peer : Nat
  epoch : Nat
  op : OpHdr
  symbols : List Symbol
  deriving DecidableEq, Repr

/-- Herd state (R316 to R357). `shape` is the herd entry in use (R353); `homed` is keyed by NSID, `frags` by the slot of
the holding namespace (R334); `transfer` is the peer and epoch of a map transfer; `asked` are the FRAG_READs not
answered, with the peer, `fetched` the FRAG_DATA frames that a reader waits for. -/
structure HerdState where
  keys : Option Nat
  map : Option FlockMap
  shape : Option MapHerd
  shapeHeld : Bool
  links : SMap Link
  jobs : SMap Job
  nextJob : Nat
  homed : SMap Homed
  frags : SMap Fragment
  missLogs : SMap MissLog
  leaseHeld : Bool
  evicted : Bool
  transfer : Option (Nat × Nat)
  asked : List (Nat × OpHdr)
  fetched : List (OpHdr × List Symbol)
  incoming : List Incoming
  deriving DecidableEq, Repr

/-! ## Power, pools, match array, mules, SDRAM -/

/-- The steps of the flush the sequencer stands at (R371). -/
inductive Flush
  | none | entered | fixed | programmed | stopped
  deriving DecidableEq, Repr

/-- What a TRIM or a shrink after the persist horizon replaced (R386): blocks of a unit, and where they lay before. -/
structure TrimNote where
  seq : DWord
  nsid : Nat
  unit : Nat
  blocks : List Nat
  entry : BitVec 40
  stage : Option StageRec
  deriving DecidableEq, Repr

/-- Power-fail, flush, journal and recovery state (R359 to R388). `journal` and `flushBand` name the dies of the journal
copies and of the flush band of the last stop, `recStep` the recovery step last ended, `saved` the registers that the
device records restore (R376). -/
structure PowerState where
  flush : Flush
  cut : Bool
  bySense : Bool
  lowEnter : Nat
  lowAbort : Nat
  horizon : DWord
  journal : List Nat
  flushBand : List Nat
  session : Nat
  cleanSession : Option Nat
  flushUs : Nat
  flushStripes : Nat
  recStep : Nat
  firstStart : Bool
  pwrFailLow : Bool
  trims : List TrimNote
  saved : SMap DWord
  deriving DecidableEq, Repr

/-- A buffer allocated by firmware (R393, R394): its number in its pool, who allocated it, and whether its release waits
for a descriptor that names it. -/
structure Buf where
  addr : Nat
  pool : Nat
  num : Nat
  cls : Nat
  pips : Nat
  src : Source
  releasing : Bool
  deriving DecidableEq, Repr

/-- A waiting allocation (R401). -/
structure AllocWait where
  src : Source
  pool : Nat
  cls : Nat
  order : Nat
  deriving DecidableEq, Repr

/-- The answer a source reads in BPM_ALLOCRESP (R394). -/
inductive AllocResp
  | pending
  | granted (pool addr : Nat)
  | refused
  deriving DecidableEq, Repr

/-- The buffer pool manager (R390 to R403). `levels` keeps the thresholds each pool has reached, `used` the most buffers
of a pool in use since chip reset. -/
structure PoolState where
  bufs : List Buf
  used : SMap Nat
  waits : List AllocWait
  nextOrder : Nat
  resp : List (Source × AllocResp)
  levels : SMap Nat
  pipWaits : List (Nat × Nat)
  deriving DecidableEq, Repr

/-- A match-array entry (R405). -/
structure MatEntry where
  key : BitVec 72
  mask : BitVec 72
  result : Word
  deriving DecidableEq, Repr

/-- The answer a source reads in MAT_RESP (R422). -/
inductive MatResp
  | busy
  | done (hit : Bool) (addr : Nat)
  | refused (reason : Nat)
  deriving DecidableEq, Repr

/-- A queued slide of an ordered insert or delete (R407). -/
structure Slide where
  partition : Nat
  addr : Nat
  entry : Option MatEntry
  src : Source
  deriving DecidableEq, Repr

/-- The match array's fence and firmware partitions with their slides (R404 to R409). The range-lock and
staging partitions are `Cmds.locks` and `PlaceState.index`. -/
structure MatState where
  entries : SMap MatEntry
  slides : List Slide
  resp : List (Source × MatResp)
  deriving DecidableEq, Repr

/-- A native mule ring beside its registers (R410 to R419): the descriptor in progress and its fabric address, whether the
mule idles at an unowned descriptor, the STATUS with which the descriptor is to end early, and a status and DONE whose
write-back failed. -/
structure MuleRing where
  cur : Option (BitVec 256)
  addr : Nat
  idle : Bool
  cut : Option Byte
  pendingBack : Option (Byte × Word)
  deriving DecidableEq, Repr

/-- A bank of an SDRAM channel (R433); `lastRow` is one more than the row that was last open, 0 before the first. -/
structure Bank where
  counter : Nat
  lastRow : Nat
  isOpen : Bool
  deriving DecidableEq, Repr

/-- An SDRAM channel beside its registers (R424 to R439). `polls` counts the MR4 polls, one each millisecond; `deviceErrs`
are the poll counts at which a device was corrected within the last second, `uncorrRun` the uncorrectable codewords since the
last poll, `hot` what MR4 last reported. -/
structure Sdram where
  banks : SMap Bank
  lfsr : Word
  deviceErrs : SMap (List Nat)
  uncorrRun : Nat
  polls : Nat
  patrolAt : Nat
  hot : Bool
  deriving DecidableEq, Repr

/-! ## Boot, castling, modes, logs -/

/-- The firmware staging area (R482). -/
structure Staging where
  owner : Nat
  image : Option Image
  blocks : List Nat
  deriving DecidableEq, Repr

/-- The firmware store (R485). -/
structure FwStore where
  copies : List (Option Image)
  committed : Option Image
  commitSeq : Nat
  norCseq : DWord
  deriving DecidableEq, Repr

/-- A castling in progress (R486 to R490): cores handed over so far, in handover order 0 to 23, whether the next one is
stopped for its handover, the result and core of an abort that is being reverted, whether it is a boot castling, and the
stamp of its start. -/
structure Castle where
  image : Image
  handed : Nat
  stopped : Bool
  abort : Option (Nat × Nat)
  inBoot : Bool
  seq : DWord
  deriving DecidableEq, Repr

/-- A firmware history entry (R491, Table 20). -/
structure History where
  seq : DWord
  old : List Nat
  new : List Nat
  result : Nat
  core : Nat
  duration : DWord
  deriving DecidableEq, Repr

/-- Boot, fuses, NOR and firmware (R462 to R491). -/
structure BootState where
  fuses : BitVec 4096
  norA : Option NorSlot
  norB : Option NorSlot
  booted : Option Image
  running : Option Image
  board : Option Board
  store : FwStore
  staging : Staging
  castle : Option Castle
  history : List History
  deriving DecidableEq, Repr

/-- The faces of the face balls (R522). -/
inductive Face
  | strap | boot | slot | freeze
  deriving DecidableEq, Repr

/-- The pins and the conditions of the whole chip (R502, R512, R522, R541, R543, R548). -/
structure Pins where
  resetLow : Bool
  face : Face
  bootcsN : Bool
  thermtripLow : Bool
  sysClock : Bool
  frozen : Bool
  stopped : Bool
  freezeLow : Bool
  deriving DecidableEq, Repr

/-- An event log entry (R507, Table 8). -/
structure LogEntry where
  seq : DWord
  time : DWord
  window : Nat
  unit : Nat
  kind : Nat
  detail : Nat
  severity : Nat
  data : List Byte
  deriving DecidableEq, Repr

/-- Rings and commands (R70 to R122). Rings are keyed by function × 65,536 + index. -/
structure Cmds where
  sqs : SMap SubRing
  cqs : SMap CplRing
  inflight : SMap Cmd
  admission : List Nat
  locks : List Lock
  deriving DecidableEq, Repr

/-- Functions and ports (R441 to R460). Functions are keyed by port × 512 + index. -/
structure HostState where
  fns : SMap FnState
  ports : SMap PortState
  vecs : SMap Vec
  gen : Word
  deriving DecidableEq, Repr

/-- The state of the N9. -/
structure State where
  /-- the commands waiting, first in, first out -/
  pending : List Instr
  /-- the model's own: how many free values have been taken (log entry 1) -/
  free : Nat
  /-- the model's own record of what the N9 sends and drives, oldest first (log entry 2) -/
  out : List Out
  /-- register values by flat register address, where they differ from the reset value (R12, R38 to R48) -/
  regs : SMap DWord
  /-- status registers by flat register address (R55) -/
  stat : SMap StatReg
  /-- keyed-write armings: source and window (R49) -/
  armed : List (Source × Nat)
  /-- posted register writes waiting toward stalled islands (R67) -/
  posted : List PostedWrite
  /-- writes that ended with cause 0x1 and may still take effect (R66) -/
  late : List PostedWrite
  /-- isolated islands by island index (R21, R517) -/
  isolated : List Nat
  /-- failed cores (R498) -/
  failedCores : List CoreId
  cmds : Cmds
  hosts : HostState
  mtf : MtfState
  deferred : SMap DefEntry
  nss : SMap Namespace
  map : MapState
  place : PlaceState
  media : MediaState
  herd : HerdState
  power : PowerState
  pools : PoolState
  mat : MatState
  mules : SMap MuleRing
  sdram : SMap Sdram
  boot : BootState
  pins : Pins
  /-- fabric memory: staging SRAM, SDRAM and map cache scratch, by fabric address (R413, R429) -/
  ram : List Host.Cell
  evlog : List LogEntry
  deriving DecidableEq, Repr

/-- Why a step stops with a fault: no command of the N9 does (every error of the spec is a status, a record or a mode
change), so there is no reason. Safe. -/
inductive Fault
  deriving DecidableEq, Repr

/-- Why a command has no meaning. -/
inductive Refusal
  /-- raised by exec for a command not modelled yet; safe -/
  | notModelled (mnemonic : String)
  deriving DecidableEq, Repr

/-! ## The state after reset -/

/-- A host port in chip reset (R459): no link, no virtual function, no tag held. -/
def PortState.reset : PortState :=
  { perstLow := true, refClock := false, inReset := true, retry := false, vfEnable := false, vfMse := false,
    numVFs := 0, pageSize := 1, ssvid := 0, ssid := 0, lastRing := 0, tags := [] }

/-- The N9 held in chip reset with everything at its reset value (R502), never started before (R380): log entries 4 and 5. -/
def State.reset : State :=
  { pending := []
    free := 0
    out := []
    regs := []
    stat := []
    armed := []
    posted := []
    late := []
    isolated := []
    failedCores := []
    cmds := { sqs := [], cqs := [], inflight := [], admission := [], locks := [] }
    hosts := { fns := [], ports := [(0, PortState.reset), (1, PortState.reset)], vecs := [], gen := 0 }
    mtf := { negotiated := false, expired := false, i3c := false, dynAddr := none }
    deferred := []
    nss := []
    map := { entries := [], dir := [], regions := [], sealKey := 0, cache := [], evict := [], detectors := [],
             storeCount := 0, fetches := [], pseq := 0, journal := 0, snapshots := 0, detour := false }
    place := { bands := [], nextBand := 0, gathers := [], nextGather := 0, index := [], packs := [], lost := [],
               copies := [], nextCopy := 0, wears := [], retireQueue := [], retired := [], forced := [],
               deepReads := [], reclaimOn := false, erasesSincePersist := 0,
               nstagNext := 1, unbuildable := [], touched := [] }
    media := { pages := [], blocks := [], dies := [], chans := [], carriers := [], ladder := [] }
    herd := { keys := none, map := none, shape := none, shapeHeld := false, links := [], jobs := [], nextJob := 0,
              homed := [], frags := [], missLogs := [], leaseHeld := false, evicted := false, transfer := none,
              asked := [], fetched := [], incoming := [] }
    power := { flush := .none, cut := false, bySense := false, lowEnter := 0, lowAbort := 0, horizon := 0,
               journal := [], flushBand := [], session := 0, cleanSession := none, flushUs := 0, flushStripes := 0, recStep := 0,
               firstStart := true, pwrFailLow := false, trims := [], saved := [] }
    pools := { bufs := [], used := [], waits := [], nextOrder := 0, resp := [], levels := [], pipWaits := [] }
    mat := { entries := [], slides := [], resp := [] }
    mules := []
    sdram := []
    boot := { fuses := Config.fuseRow, norA := none, norB := none, booted := none, running := none, board := none,
              store := { copies := [none, none], committed := none, commitSeq := 0, norCseq := 0 },
              staging := { owner := 0, image := none, blocks := [] }, castle := none, history := [] }
    pins := { resetLow := true, face := .strap, bootcsN := true, thermtripLow := false, sysClock := true,
              frozen := false, stopped := false, freezeLow := false }
    ram := []
    evlog := [] }

end Sys2Proof.Machine
end

