-- ==== Sys2Proof/Machine/Registers.lean ====
section
/-! DEFINITION. The register map (R38 to R48 and the register sections of every chapter): each register's flat
address, width, instances, fields with access type and reset value. A bit that no field names is reserved (RSVK, R60).
Flat addresses: a BAR0 offset of a physical function (R40); a function window at 0x1_0000_0000 + (port × 512 + index) ×
0x1_0000 (R43, also reached as window 27); a task register at 0x2_0000_0000 (R107).
SDC_BANKXOR[4] stands at 0x3_0000_0000, where no access reaches it: its offset is also that of SDC_REFRESH (log entry 20). -/

namespace Sys2Proof.Machine

open Sys2Proof

/-- The access types of Table 3 of the conventions chapter. -/
inductive Access
  | ro | rw | rwk | rws | wo
  deriving DecidableEq, Repr

/-- A field: bits `hi` to `lo`, its access type and its reset value. -/
structure Field where
  hi : Nat
  lo : Nat
  acc : Access
  reset : Nat
  deriving DecidableEq, Repr

/-- A register and its instances: instance i at `base + i × stride`. -/
structure RegRow where
  name : String
  base : Nat
  width : Nat
  count : Nat
  stride : Nat
  fields : List Field
  deriving DecidableEq, Repr

/-- A field's place, for reading and writing by name. -/
structure Fld where
  hi : Nat
  lo : Nat
  deriving DecidableEq, Repr

/-- Registers of the HST_ block (R461, R69). -/
def rowsHst : List RegRow :=
  [ ⟨"HST_REGERR", 0x100200, 64, 2, 0x10, [⟨63, 48, .ro, 0x0⟩, ⟨47, 44, .ro, 0x0⟩, ⟨43, 43, .ro, 0x0⟩, ⟨25, 0, .ro, 0x0⟩]⟩,
    ⟨"HST_REGERRCNT", 0x100208, 32, 2, 0x10, [⟨31, 31, .ro, 0x0⟩, ⟨30, 0, .ro, 0x0⟩]⟩,
    ⟨"HST_DBDROP", 0x10020C, 32, 2, 0x10, [⟨31, 31, .ro, 0x0⟩, ⟨30, 0, .ro, 0x0⟩]⟩,
    ⟨"HST_LINK", 0x101000, 32, 2, 0x1000, [⟨31, 31, .ro, 0x0⟩, ⟨30, 30, .ro, 0x0⟩, ⟨23, 20, .ro, 0x0⟩, ⟨19, 16, .rwk, 0x7⟩, ⟨4, 0, .ro, 0x0⟩]⟩,
    ⟨"HST_CTO", 0x101004, 32, 2, 0x1000, [⟨15, 0, .rw, 0x3E80⟩]⟩,
    ⟨"HST_TAGS", 0x101008, 32, 2, 0x1000, [⟨29, 16, .ro, 0x0⟩, ⟨13, 0, .ro, 0x0⟩]⟩,
    ⟨"HST_TIMEOUTS", 0x101010, 32, 2, 0x1000, [⟨31, 31, .ro, 0x0⟩, ⟨30, 0, .ro, 0x0⟩]⟩,
    ⟨"HST_LATE", 0x101014, 32, 2, 0x1000, [⟨31, 31, .ro, 0x0⟩, ⟨30, 0, .ro, 0x0⟩]⟩,
    ⟨"HST_LINKDOWNS", 0x101018, 32, 2, 0x1000, [⟨31, 31, .ro, 0x0⟩, ⟨30, 0, .ro, 0x0⟩]⟩ ]

/-- Registers of the CCP_ block (R108, R83). -/
def rowsCcp : List RegRow :=
  [ ⟨"CCP_FCTRL", 0x100001000, 32, 1024, 0x10000, [⟨0, 0, .rw, 0x0⟩]⟩,
    ⟨"CCP_FSTAT", 0x100001004, 32, 1024, 0x10000, [⟨31, 16, .ro, 0x0⟩, ⟨2, 2, .ro, 0x0⟩, ⟨1, 1, .ro, 0x0⟩, ⟨0, 0, .ro, 0x0⟩]⟩,
    ⟨"CCP_ASQ", 0x100001008, 64, 1024, 0x10000, [⟨63, 12, .rw, 0x0⟩]⟩,
    ⟨"CCP_ACQ", 0x100001010, 64, 1024, 0x10000, [⟨63, 12, .rw, 0x0⟩]⟩,
    ⟨"CCP_ASIZE", 0x100001018, 32, 1024, 0x10000, [⟨26, 16, .rw, 0x0⟩, ⟨11, 8, .rw, 0x0⟩, ⟨3, 0, .rw, 0x0⟩]⟩,
    ⟨"CCP_RINGERR", 0x100001020, 64, 1024, 0x10000, [⟨63, 48, .ro, 0x0⟩, ⟨47, 32, .ro, 0x0⟩, ⟨31, 31, .ro, 0x0⟩, ⟨3, 0, .ro, 0x0⟩]⟩,
    ⟨"CCP_TASK_CTRL", 0x200000008, 32, 1, 0x0, [⟨31, 24, .rw, 0x0⟩, ⟨23, 16, .rw, 0x0⟩, ⟨1, 1, .wo, 0x0⟩, ⟨0, 0, .wo, 0x0⟩]⟩,
    ⟨"CCP_TASK_STAT", 0x200000010, 32, 1, 0x0, [⟨31, 30, .ro, 0x0⟩, ⟨23, 16, .ro, 0x0⟩, ⟨15, 8, .ro, 0x0⟩, ⟨7, 0, .ro, 0x0⟩]⟩ ]

/-- Registers of the ORD_ block (R139). -/
def rowsOrd : List RegRow :=
  [ ⟨"ORD_LIVE", 0x300100, 32, 1, 0x0, [⟨16, 0, .ro, 0x0⟩]⟩,
    ⟨"ORD_COARSENED", 0x300104, 32, 1, 0x0, [⟨31, 31, .ro, 0x0⟩, ⟨30, 0, .ro, 0x0⟩]⟩,
    ⟨"ORD_STALLS", 0x300108, 32, 1, 0x0, [⟨31, 31, .ro, 0x0⟩, ⟨30, 0, .ro, 0x0⟩]⟩,
    ⟨"ORD_DEFOPEN", 0x30010C, 32, 1, 0x0, [⟨16, 0, .ro, 0x0⟩]⟩ ]

/-- Registers of the MAP_ block (R184). -/
def rowsMap : List RegRow :=
  [ ⟨"MAP_GEOM", 0x400100, 32, 1, 0x0, [⟨14, 10, .rwk, 0x0⟩, ⟨9, 5, .rwk, 0x0⟩, ⟨4, 0, .rwk, 0x0⟩]⟩,
    ⟨"MAP_HMRCTRL", 0x400104, 32, 1, 0x0, [⟨16, 16, .rw, 0x1⟩, ⟨15, 8, .rw, 0x32⟩, ⟨7, 0, .rw, 0x10⟩]⟩,
    ⟨"MAP_DIRTY", 0x400108, 32, 1, 0x0, [⟨19, 0, .ro, 0x0⟩]⟩,
    ⟨"MAP_KEYROLLS", 0x40010C, 32, 1, 0x0, [⟨31, 31, .ro, 0x0⟩, ⟨30, 0, .ro, 0x0⟩]⟩,
    ⟨"MAP_SEALFAIL", 0x400110, 32, 2, 0x8, [⟨31, 31, .ro, 0x0⟩, ⟨30, 0, .ro, 0x0⟩]⟩,
    ⟨"MAP_HOSTERR", 0x400114, 32, 2, 0x8, [⟨31, 31, .ro, 0x0⟩, ⟨30, 0, .ro, 0x0⟩]⟩,
    ⟨"MAP_HELD", 0x400120, 32, 2, 0x4, [⟨27, 0, .ro, 0x0⟩]⟩ ]

/-- Registers of the MCH_ block (R185). -/
def rowsMch : List RegRow :=
  [ ⟨"MCH_WAYMASK", 0x500100, 32, 16, 0x4, [⟨15, 0, .rw, 0xFFFF⟩]⟩,
    ⟨"MCH_CLASSMAP", 0x500140, 64, 4, 0x8, [⟨63, 0, .rw, 0x0⟩]⟩,
    ⟨"MCH_STREAM", 0x500160, 32, 1, 0x0, [⟨23, 16, .rw, 0x32⟩, ⟨5, 0, .rw, 0x10⟩]⟩,
    ⟨"MCH_SCRATCH", 0x500164, 32, 1, 0x0, [⟨3, 0, .rwk, 0x0⟩]⟩,
    ⟨"MCH_HITS", 0x501008, 32, 4, 0x1000, [⟨31, 31, .ro, 0x0⟩, ⟨30, 0, .ro, 0x0⟩]⟩,
    ⟨"MCH_LFSR", 0x501000, 32, 1, 0x0, [⟨31, 0, .rw, 0x1⟩]⟩,
    ⟨"MCH_LFSR1", 0x502000, 32, 1, 0x0, [⟨31, 0, .rw, 0x2⟩]⟩,
    ⟨"MCH_LFSR2", 0x503000, 32, 1, 0x0, [⟨31, 0, .rw, 0x3⟩]⟩,
    ⟨"MCH_LFSR3", 0x504000, 32, 1, 0x0, [⟨31, 0, .rw, 0x4⟩]⟩,
    ⟨"MCH_MISSES", 0x50100C, 32, 4, 0x1000, [⟨31, 31, .ro, 0x0⟩, ⟨30, 0, .ro, 0x0⟩]⟩,
    ⟨"MCH_EVBHITS", 0x501010, 32, 4, 0x1000, [⟨31, 31, .ro, 0x0⟩, ⟨30, 0, .ro, 0x0⟩]⟩ ]

/-- Registers of the PLC_ block (R219). -/
def rowsPlc : List RegRow :=
  [ ⟨"PLC_RACTRL", 0x600100, 32, 1, 0x0, [⟨31, 31, .rw, 0x1⟩, ⟨27, 16, .rw, 0x400⟩, ⟨9, 0, .rw, 0x14⟩]⟩,
    ⟨"PLC_REBUILD", 0x600104, 32, 1, 0x0, [⟨7, 0, .rw, 0x19⟩]⟩,
    ⟨"PLC_CORECTRL", 0x600108, 32, 1, 0x0, [⟨15, 8, .rw, 0xA⟩, ⟨7, 0, .rw, 0x14⟩]⟩,
    ⟨"PLC_RACOUNT", 0x600110, 32, 1, 0x0, [⟨31, 31, .ro, 0x0⟩, ⟨30, 0, .ro, 0x0⟩]⟩,
    ⟨"PLC_REBUILDLEFT", 0x600120, 64, 1, 0x0, [⟨39, 0, .ro, 0x0⟩]⟩,
    ⟨"PLC_PSTRIPES", 0x601000, 32, 4, 0x1000, [⟨31, 31, .ro, 0x0⟩, ⟨30, 0, .ro, 0x0⟩]⟩,
    ⟨"PLC_RAFALLBACK", 0x600114, 32, 1, 0x0, [⟨31, 31, .ro, 0x0⟩, ⟨30, 0, .ro, 0x0⟩]⟩,
    ⟨"PLC_LOSTUNITS", 0x600118, 32, 1, 0x0, [⟨31, 31, .ro, 0x0⟩, ⟨30, 0, .ro, 0x0⟩]⟩ ]

/-- Registers of the STG_ block (R220). -/
def rowsStg : List RegRow :=
  [ ⟨"STG_CTRL", 0x700100, 32, 1, 0x0, [⟨27, 24, .rwk, 0x2⟩, ⟨23, 16, .rw, 0x64⟩, ⟨7, 0, .rw, 0x0⟩]⟩,
    ⟨"STG_PADS", 0x70010C, 32, 1, 0x0, [⟨31, 31, .ro, 0x0⟩, ⟨30, 0, .ro, 0x0⟩]⟩,
    ⟨"STG_CARSTAT", 0x701000, 64, 8, 0x1000, [⟨63, 32, .ro, 0x0⟩, ⟨31, 0, .ro, 0x0⟩]⟩,
    ⟨"STG_INDEX", 0x700104, 32, 1, 0x0, [⟨15, 0, .ro, 0x0⟩]⟩,
    ⟨"STG_GATHER", 0x700108, 32, 1, 0x0, [⟨15, 0, .ro, 0x0⟩]⟩ ]

/-- Registers of the RCL_ block (R250). -/
def rowsRcl : List RegRow :=
  [ ⟨"RCL_CTRL", 0x800100, 32, 1, 0x0, [⟨31, 31, .rw, 0x1⟩, ⟨30, 30, .rw, 0x0⟩, ⟨23, 16, .rw, 0x28⟩, ⟨15, 8, .rw, 0x1E⟩, ⟨3, 0, .rwk, 0x2⟩]⟩,
    ⟨"RCL_SCORE", 0x800104, 32, 1, 0x0, [⟨31, 24, .rw, 0x1⟩, ⟨23, 16, .rw, 0xC0⟩, ⟨15, 8, .rw, 0x20⟩, ⟨7, 0, .rw, 0x20⟩]⟩,
    ⟨"RCL_WEAR", 0x800108, 64, 1, 0x0, [⟨63, 48, .rwk, 0x1000⟩, ⟨47, 40, .rw, 0x40⟩, ⟨39, 32, .rw, 0x8⟩, ⟨31, 24, .rw, 0x20⟩, ⟨23, 16, .rwk, 0x64⟩]⟩,
    ⟨"RCL_CAPCTRL", 0x800110, 32, 1, 0x0, [⟨7, 0, .rwk, 0x8⟩]⟩,
    ⟨"RCL_CAPSTAT", 0x800118, 64, 1, 0x0, [⟨47, 32, .ro, 0x0⟩, ⟨31, 16, .ro, 0x0⟩, ⟨3, 0, .ro, 0x0⟩]⟩,
    ⟨"RCL_DIESEL", 0x800130, 32, 1, 0x0, [⟨10, 0, .rw, 0x0⟩]⟩,
    ⟨"RCL_DIEINFO", 0x800138, 64, 1, 0x0, [⟨63, 40, .ro, 0x0⟩, ⟨39, 16, .ro, 0x0⟩, ⟨15, 0, .ro, 0x0⟩]⟩,
    ⟨"RCL_RETIRED", 0x800140, 32, 1, 0x0, [⟨31, 0, .ro, 0x0⟩]⟩,
    ⟨"RCL_CAPACITY", 0x800120, 64, 1, 0x0, [⟨39, 0, .ro, 0x0⟩]⟩,
    ⟨"RCL_COMMITTED", 0x800128, 64, 1, 0x0, [⟨39, 0, .ro, 0x0⟩]⟩,
    ⟨"RCL_COPIES", 0x800144, 32, 1, 0x0, [⟨31, 31, .ro, 0x0⟩, ⟨30, 0, .ro, 0x0⟩]⟩,
    ⟨"RCL_FORCED", 0x800148, 32, 1, 0x0, [⟨31, 31, .ro, 0x0⟩, ⟨30, 0, .ro, 0x0⟩]⟩ ]

/-- Registers of the CHN_ block (R289). -/
def rowsChn : List RegRow :=
  [ ⟨"CHN_SUSP", 0x900100, 32, 1, 0x0, [⟨31, 22, .rw, 0x1F4⟩, ⟨21, 12, .rw, 0x78⟩, ⟨11, 8, .rw, 0x4⟩, ⟨7, 4, .rw, 0x0⟩, ⟨3, 0, .rw, 0x8⟩]⟩,
    ⟨"CHN_TIMING", 0x900104, 32, 1, 0x0, [⟨31, 24, .rw, 0x32⟩, ⟨23, 16, .rw, 0xA⟩]⟩,
    ⟨"CHN_CTRL", 0x901000, 32, 128, 0x1000, [⟨31, 31, .rwk, 0x0⟩, ⟨1, 1, .wo, 0x0⟩]⟩,
    ⟨"CHN_RATE", 0x901004, 32, 128, 0x1000, [⟨31, 28, .ro, 0x0⟩, ⟨23, 20, .rwk, 0x7⟩, ⟨19, 16, .ro, 0x0⟩, ⟨0, 0, .ro, 0x0⟩]⟩,
    ⟨"CHN_DIEMAP", 0x901008, 64, 128, 0x1000, [⟨63, 48, .ro, 0x0⟩, ⟨47, 32, .ro, 0x0⟩, ⟨31, 16, .ro, 0x0⟩, ⟨15, 0, .ro, 0x0⟩]⟩,
    ⟨"CHN_QFILL", 0x901010, 64, 128, 0x1000, [⟨63, 48, .ro, 0x0⟩, ⟨47, 32, .ro, 0x0⟩, ⟨31, 16, .ro, 0x0⟩, ⟨15, 0, .ro, 0x0⟩]⟩,
    ⟨"CHN_CHEAD", 0x901018, 32, 128, 0x1000, [⟨31, 0, .rw, 0x0⟩]⟩,
    ⟨"CHN_SUSPENDS", 0x901020, 32, 128, 0x1000, [⟨31, 31, .ro, 0x0⟩, ⟨30, 0, .ro, 0x0⟩]⟩,
    ⟨"CHN_GUARD", 0x901024, 32, 128, 0x1000, [⟨31, 31, .ro, 0x0⟩, ⟨30, 0, .ro, 0x0⟩]⟩,
    ⟨"CHN_TIMEOUTS", 0x901028, 32, 128, 0x1000, [⟨31, 31, .ro, 0x0⟩, ⟨30, 0, .ro, 0x0⟩]⟩ ]

/-- Registers of the CAR_ block (R290). -/
def rowsCar : List RegRow :=
  [ ⟨"CAR_CTRL", 0xA00100, 32, 1, 0x0, [⟨31, 24, .rwk, 0xA8⟩, ⟨23, 16, .rw, 0x32⟩, ⟨1, 1, .rwk, 0x0⟩, ⟨0, 0, .rw, 0x1⟩]⟩,
    ⟨"CAR_MEDIAEPOCH", 0xA00108, 64, 1, 0x0, [⟨63, 0, .ro, 0x0⟩]⟩,
    ⟨"CAR_CMD", 0xA01000, 32, 8, 0x1000, [⟨3, 3, .wo, 0x0⟩, ⟨2, 2, .wo, 0x0⟩, ⟨1, 1, .wo, 0x0⟩, ⟨0, 0, .wo, 0x0⟩]⟩,
    ⟨"CAR_STATE", 0xA01008, 32, 8, 0x1000, [⟨31, 28, .ro, 0x0⟩, ⟨27, 26, .ro, 0x0⟩, ⟨25, 25, .ro, 0x0⟩, ⟨24, 24, .ro, 0x0⟩, ⟨23, 23, .ro, 0x0⟩, ⟨22, 20, .ro, 0x0⟩, ⟨19, 16, .ro, 0x0⟩]⟩,
    ⟨"CAR_EPOCH", 0xA01010, 64, 8, 0x1000, [⟨63, 0, .ro, 0x0⟩]⟩,
    ⟨"CAR_ID", 0xA01018, 64, 8, 0x1000, [⟨63, 0, .ro, 0x0⟩]⟩,
    ⟨"CAR_LEFT", 0xA01020, 64, 8, 0x1000, [⟨39, 0, .ro, 0x0⟩]⟩ ]

/-- Registers of the ECC_ block (R314). -/
def rowsEcc : List RegRow :=
  [ ⟨"ECC_LADDER", 0xB00100, 32, 1, 0x0, [⟨31, 24, .rw, 0x20⟩, ⟨23, 16, .rw, 0x10⟩, ⟨11, 8, .rw, 0x4⟩, ⟨3, 0, .rwk, 0xC⟩]⟩,
    ⟨"ECC_LADDERHIST", 0xB00200, 32, 13, 0x4, [⟨31, 31, .ro, 0x0⟩, ⟨30, 0, .ro, 0x0⟩]⟩,
    ⟨"ECC_PARITYREC", 0xB00240, 32, 1, 0x0, [⟨31, 31, .ro, 0x0⟩, ⟨30, 0, .ro, 0x0⟩]⟩,
    ⟨"ECC_UNCORR", 0xB00244, 32, 1, 0x0, [⟨31, 31, .ro, 0x0⟩, ⟨30, 0, .ro, 0x0⟩]⟩,
    ⟨"ECC_INTERNAL", 0xB00248, 32, 1, 0x0, [⟨31, 31, .ro, 0x0⟩, ⟨30, 0, .ro, 0x0⟩]⟩,
    ⟨"ECC_HARDCW", 0xB01000, 32, 16, 0x1000, [⟨31, 31, .ro, 0x0⟩, ⟨30, 0, .ro, 0x0⟩]⟩,
    ⟨"ECC_SOFTCW", 0xB01004, 32, 16, 0x1000, [⟨31, 31, .ro, 0x0⟩, ⟨30, 0, .ro, 0x0⟩]⟩ ]

/-- Registers of the XTS_ block (R315). -/
def rowsXts : List RegRow :=
  [ ⟨"XTS_KEYS", 0xC00100, 32, 1, 0x0, [⟨12, 0, .ro, 0x0⟩]⟩,
    ⟨"XTS_SLOTS", 0xC00104, 32, 1, 0x0, [⟨3, 0, .ro, 0x0⟩]⟩,
    ⟨"XTS_LOADFAIL", 0xC00108, 32, 1, 0x0, [⟨31, 31, .ro, 0x0⟩, ⟨30, 0, .ro, 0x0⟩]⟩,
    ⟨"XTS_ROUNDTRIP", 0xC0010C, 32, 1, 0x0, [⟨31, 31, .ro, 0x0⟩, ⟨30, 0, .ro, 0x0⟩]⟩ ]

/-- Registers of the PWR_ block (R389). -/
def rowsPwr : List RegRow :=
  [ ⟨"PWR_CTRL", 0x1200100, 32, 1, 0x0, [⟨31, 31, .rw, 0x1⟩, ⟨7, 0, .rw, 0x2⟩]⟩,
    ⟨"PWR_THRESH", 0x1200104, 32, 1, 0x0, [⟨19, 10, .rwk, 0x0⟩, ⟨9, 0, .rwk, 0x0⟩]⟩,
    ⟨"PWR_BANK", 0x1200108, 64, 1, 0x0, [⟨63, 48, .rwk, 0x0⟩, ⟨47, 32, .rwk, 0x0⟩, ⟨31, 16, .rwk, 0x0⟩, ⟨15, 0, .rwk, 0x0⟩]⟩,
    ⟨"PWR_SENSE", 0x1200110, 32, 1, 0x0, [⟨31, 16, .ro, 0x0⟩, ⟨9, 0, .ro, 0x0⟩]⟩,
    ⟨"PWR_ENERGY", 0x1200114, 32, 1, 0x0, [⟨31, 16, .ro, 0x0⟩, ⟨8, 0, .ro, 0x0⟩]⟩,
    ⟨"PWR_HORIZON", 0x1200128, 32, 1, 0x0, [⟨15, 8, .rw, 0x4⟩, ⟨7, 0, .rw, 0x10⟩]⟩,
    ⟨"PWR_LASTSTOP", 0x1200130, 64, 1, 0x0, [⟨63, 32, .ro, 0x0⟩, ⟨31, 28, .ro, 0x0⟩, ⟨27, 26, .ro, 0x0⟩, ⟨25, 0, .ro, 0x0⟩]⟩,
    ⟨"PWR_HOLDUPS", 0x1200138, 32, 1, 0x0, [⟨31, 31, .ro, 0x0⟩, ⟨30, 0, .ro, 0x0⟩]⟩,
    ⟨"PWR_TEMP", 0x1200140, 32, 1, 0x0, [⟨15, 0, .ro, 0x0⟩]⟩,
    ⟨"PWR_FLUSHLIM", 0x1200118, 64, 1, 0x0, [⟨63, 32, .ro, 0x0⟩, ⟨31, 0, .ro, 0x0⟩]⟩,
    ⟨"PWR_FLUSHSET", 0x1200120, 64, 1, 0x0, [⟨63, 32, .ro, 0x0⟩, ⟨31, 0, .ro, 0x0⟩]⟩ ]

/-- Registers of the BPM_ block (R421). -/
def rowsBpm : List RegRow :=
  [ ⟨"BPM_POOLSIZE", 0xE00120, 32, 1, 0x0, [⟨31, 16, .rwk, 0x4000⟩, ⟨15, 0, .rwk, 0x4000⟩]⟩,
    ⟨"BPM_POOLSTAT", 0xE00128, 64, 4, 0x8, [⟨63, 48, .ro, 0x0⟩, ⟨47, 32, .ro, 0x0⟩, ⟨31, 16, .ro, 0x0⟩, ⟨15, 0, .ro, 0x0⟩]⟩,
    ⟨"BPM_ALLOCREQ", 0xE00150, 32, 1, 0x0, [⟨31, 31, .rw, 0x0⟩, ⟨29, 24, .rw, 0x0⟩, ⟨19, 0, .rw, 0x0⟩]⟩,
    ⟨"BPM_ALLOCRESP", 0xE00158, 64, 1, 0x0, [⟨63, 62, .ro, 0x0⟩, ⟨61, 60, .ro, 0x0⟩, ⟨47, 0, .ro, 0x0⟩]⟩,
    ⟨"BPM_RELEASE", 0xE00160, 64, 1, 0x0, [⟨47, 0, .wo, 0x0⟩]⟩,
    ⟨"BPM_WAITS", 0xE00170, 32, 4, 0x4, [⟨31, 31, .ro, 0x0⟩, ⟨30, 0, .ro, 0x0⟩]⟩,
    ⟨"BPM_POOLCFG", 0xE00100, 64, 1, 0x8, [⟨63, 48, .rw, 0x80⟩, ⟨47, 32, .rw, 0x800⟩, ⟨31, 16, .rw, 0x400⟩, ⟨15, 0, .rw, 0x100⟩]⟩,
    ⟨"BPM_POOLCFG1", 0xE00108, 64, 1, 0x8, [⟨63, 48, .rw, 0x20⟩, ⟨47, 32, .rw, 0x300⟩, ⟨31, 16, .rw, 0x180⟩, ⟨15, 0, .rw, 0x60⟩]⟩,
    ⟨"BPM_POOLCFG2", 0xE00110, 64, 2, 0x8, [⟨63, 48, .rw, 0x80⟩, ⟨47, 32, .rw, 0x800⟩, ⟨31, 16, .rw, 0x400⟩, ⟨15, 0, .rw, 0x100⟩]⟩,
    ⟨"BPM_QUOTA", 0xE00400, 64, 56, 0x8, [⟨63, 48, .rw, 0xFFFF⟩, ⟨47, 46, .rw, 0x1⟩, ⟨39, 20, .rw, 0x10000⟩, ⟨15, 0, .rw, 0x4000⟩]⟩,
    ⟨"BPM_QUOTA56", 0xE005C0, 64, 1, 0x8, [⟨63, 48, .rw, 0xFFFF⟩, ⟨47, 46, .rw, 0x2⟩, ⟨39, 20, .rw, 0x0⟩, ⟨15, 0, .rw, 0x1000⟩]⟩,
    ⟨"BPM_QUOTA57", 0xE005C8, 64, 1, 0x8, [⟨63, 48, .rw, 0xFFFF⟩, ⟨47, 46, .rw, 0x2⟩, ⟨39, 20, .rw, 0x200⟩, ⟨15, 0, .rw, 0x200⟩]⟩ ]

/-- Registers of the BPM_ block (R421). -/
def rowsBpm2 : List RegRow :=
  [ ⟨"BPM_QUOTA58", 0xE005D0, 64, 1, 0x8, [⟨63, 48, .rw, 0xFFFF⟩, ⟨47, 46, .rw, 0x1⟩, ⟨39, 20, .rw, 0x200⟩, ⟨15, 0, .rw, 0x400⟩]⟩,
    ⟨"BPM_QUOTA59", 0xE005D8, 64, 1, 0x8, [⟨63, 48, .rw, 0xFFFF⟩, ⟨47, 46, .rw, 0x2⟩, ⟨39, 20, .rw, 0x4000⟩, ⟨15, 0, .rw, 0x0⟩]⟩,
    ⟨"BPM_QUOTA60", 0xE005E0, 64, 1, 0x8, [⟨63, 48, .rw, 0xFFFF⟩, ⟨47, 46, .rw, 0x0⟩, ⟨39, 20, .rw, 0x10000⟩, ⟨15, 0, .rw, 0x800⟩]⟩,
    ⟨"BPM_QUOTA61", 0xE005E8, 64, 1, 0x8, [⟨63, 48, .rw, 0xFFFF⟩, ⟨47, 46, .rw, 0x0⟩, ⟨39, 20, .rw, 0x400⟩, ⟨15, 0, .rw, 0x400⟩]⟩,
    ⟨"BPM_QUOTA62", 0xE005F0, 64, 1, 0x8, [⟨63, 48, .rw, 0xFFFF⟩, ⟨47, 46, .rw, 0x1⟩, ⟨39, 20, .rw, 0x100⟩, ⟨15, 0, .rw, 0x200⟩]⟩,
    ⟨"BPM_QUOTA63", 0xE005F8, 64, 1, 0x8, [⟨63, 48, .rw, 0xFFFF⟩, ⟨47, 46, .rw, 0x0⟩, ⟨39, 20, .rw, 0xFFFFF⟩, ⟨15, 0, .rw, 0xFFFF⟩]⟩,
    ⟨"BPM_USED", 0xE00600, 64, 64, 0x8, [⟨63, 48, .ro, 0x0⟩, ⟨47, 46, .ro, 0x0⟩, ⟨39, 20, .ro, 0x0⟩, ⟨15, 0, .ro, 0x0⟩]⟩ ]

/-- Registers of the MAT_ block (R422). -/
def rowsMat : List RegRow :=
  [ ⟨"MAT_CMD", 0xF00100, 32, 1, 0x0, [⟨31, 28, .wo, 0x0⟩, ⟨16, 0, .rw, 0x0⟩]⟩,
    ⟨"MAT_RESP", 0xF00120, 64, 1, 0x0, [⟨63, 62, .ro, 0x0⟩, ⟨61, 58, .ro, 0x0⟩, ⟨48, 48, .ro, 0x0⟩, ⟨16, 0, .ro, 0x0⟩]⟩,
    ⟨"MAT_KEY", 0xF00108, 64, 1, 0x0, [⟨63, 0, .rw, 0x0⟩]⟩,
    ⟨"MAT_MASK", 0xF00110, 64, 1, 0x0, [⟨63, 0, .rw, 0x0⟩]⟩,
    ⟨"MAT_KEYHI", 0xF00118, 32, 1, 0x0, [⟨15, 8, .rw, 0x0⟩, ⟨7, 0, .rw, 0x0⟩]⟩,
    ⟨"MAT_RESULT", 0xF0011C, 32, 1, 0x0, [⟨31, 0, .rw, 0x0⟩]⟩,
    ⟨"MAT_PARITY", 0xF00128, 32, 1, 0x0, [⟨31, 31, .ro, 0x0⟩, ⟨30, 0, .ro, 0x0⟩]⟩ ]

/-- Registers of the SDC_ block (R440). -/
def rowsSdc : List RegRow :=
  [ ⟨"SDC_GEOM", 0x1100100, 32, 1, 0x0, [⟨27, 24, .rwk, 0x4⟩, ⟨20, 20, .rwk, 0x1⟩, ⟨16, 16, .rwk, 0x0⟩, ⟨12, 12, .rwk, 0x0⟩, ⟨9, 8, .rwk, 0x3⟩, ⟨4, 0, .rwk, 0x10⟩]⟩,
    ⟨"SDC_MIRROR", 0x1100104, 32, 1, 0x0, [⟨7, 0, .rwk, 0x0⟩]⟩,
    ⟨"SDC_BANKXOR", 0x1100110, 64, 1, 0x0, [⟨39, 0, .rwk, 0x8080000⟩]⟩,
    ⟨"SDC_BANKXOR1", 0x1100118, 64, 1, 0x0, [⟨39, 0, .rwk, 0x10100000⟩]⟩,
    ⟨"SDC_BANKXOR2", 0x1100120, 64, 1, 0x0, [⟨39, 0, .rwk, 0x20200000⟩]⟩,
    ⟨"SDC_BANKXOR3", 0x1100128, 64, 1, 0x0, [⟨39, 0, .rwk, 0x40400000⟩]⟩,
    ⟨"SDC_BANKXOR4", 0x300000000, 64, 1, 0x0, [⟨39, 0, .rwk, 0x80800000⟩]⟩,
    ⟨"SDC_REFRESH", 0x1100130, 32, 1, 0x0, [⟨31, 16, .rw, 0x127⟩, ⟨0, 0, .rw, 0x0⟩]⟩,
    ⟨"SDC_NREF", 0x1100134, 32, 1, 0x0, [⟨8, 8, .rw, 0x0⟩, ⟨4, 0, .rw, 0xB⟩]⟩,
    ⟨"SDC_PAGE", 0x1100138, 32, 1, 0x0, [⟨9, 8, .rw, 0x0⟩, ⟨7, 0, .rw, 0x32⟩]⟩,
    ⟨"SDC_ECCCTRL", 0x110013C, 32, 1, 0x0, [⟨31, 24, .rw, 0x18⟩, ⟨15, 0, .rw, 0x40⟩]⟩,
    ⟨"SDC_CTRL", 0x1101000, 32, 12, 0x1000, [⟨31, 30, .rwk, 0x0⟩]⟩ ]

/-- Registers of the SDC_ block (R440). -/
def rowsSdc2 : List RegRow :=
  [ ⟨"SDC_STATE", 0x1101008, 32, 12, 0x1000, [⟨31, 31, .ro, 0x0⟩, ⟨30, 30, .ro, 0x0⟩, ⟨29, 29, .ro, 0x0⟩, ⟨28, 28, .ro, 0x0⟩, ⟨27, 23, .ro, 0x0⟩, ⟨1, 0, .ro, 0x0⟩]⟩,
    ⟨"SDC_TCMD", 0x1101020, 64, 12, 0x1000, [⟨63, 60, .wo, 0x0⟩, ⟨59, 58, .wo, 0x0⟩, ⟨57, 57, .wo, 0x0⟩, ⟨15, 0, .wo, 0x0⟩]⟩,
    ⟨"SDC_TRES", 0x1101028, 64, 12, 0x1000, [⟨63, 0, .ro, 0x0⟩]⟩,
    ⟨"SDC_TRESHI", 0x1101030, 32, 12, 0x1000, [⟨31, 31, .ro, 0x0⟩, ⟨23, 16, .ro, 0x0⟩, ⟨15, 0, .ro, 0x0⟩]⟩,
    ⟨"SDC_DQRD", 0x1101100, 32, 80, 0x4, [⟨11, 0, .rw, 0x0⟩]⟩,
    ⟨"SDC_DQRD_C1", 0x1102100, 32, 80, 0x4, [⟨11, 0, .rw, 0x0⟩]⟩,
    ⟨"SDC_DQRD_C2", 0x1103100, 32, 80, 0x4, [⟨11, 0, .rw, 0x0⟩]⟩,
    ⟨"SDC_DQRD_C3", 0x1104100, 32, 80, 0x4, [⟨11, 0, .rw, 0x0⟩]⟩,
    ⟨"SDC_DQRD_C4", 0x1105100, 32, 80, 0x4, [⟨11, 0, .rw, 0x0⟩]⟩,
    ⟨"SDC_DQRD_C5", 0x1106100, 32, 80, 0x4, [⟨11, 0, .rw, 0x0⟩]⟩,
    ⟨"SDC_DQRD_C6", 0x1107100, 32, 80, 0x4, [⟨11, 0, .rw, 0x0⟩]⟩,
    ⟨"SDC_DQRD_C7", 0x1108100, 32, 80, 0x4, [⟨11, 0, .rw, 0x0⟩]⟩ ]

/-- Registers of the SDC_ block (R440). -/
def rowsSdc3 : List RegRow :=
  [ ⟨"SDC_DQRD_C8", 0x1109100, 32, 80, 0x4, [⟨11, 0, .rw, 0x0⟩]⟩,
    ⟨"SDC_DQRD_C9", 0x110A100, 32, 80, 0x4, [⟨11, 0, .rw, 0x0⟩]⟩,
    ⟨"SDC_DQRD_C10", 0x110B100, 32, 80, 0x4, [⟨11, 0, .rw, 0x0⟩]⟩,
    ⟨"SDC_DQRD_C11", 0x110C100, 32, 80, 0x4, [⟨11, 0, .rw, 0x0⟩]⟩,
    ⟨"SDC_DQWR", 0x1101240, 32, 80, 0x4, [⟨11, 0, .rw, 0x0⟩]⟩,
    ⟨"SDC_DQWR_C1", 0x1102240, 32, 80, 0x4, [⟨11, 0, .rw, 0x0⟩]⟩,
    ⟨"SDC_DQWR_C2", 0x1103240, 32, 80, 0x4, [⟨11, 0, .rw, 0x0⟩]⟩,
    ⟨"SDC_DQWR_C3", 0x1104240, 32, 80, 0x4, [⟨11, 0, .rw, 0x0⟩]⟩,
    ⟨"SDC_DQWR_C4", 0x1105240, 32, 80, 0x4, [⟨11, 0, .rw, 0x0⟩]⟩,
    ⟨"SDC_DQWR_C5", 0x1106240, 32, 80, 0x4, [⟨11, 0, .rw, 0x0⟩]⟩,
    ⟨"SDC_DQWR_C6", 0x1107240, 32, 80, 0x4, [⟨11, 0, .rw, 0x0⟩]⟩,
    ⟨"SDC_DQWR_C7", 0x1108240, 32, 80, 0x4, [⟨11, 0, .rw, 0x0⟩]⟩ ]

/-- Registers of the SDC_ block (R440). -/
def rowsSdc4 : List RegRow :=
  [ ⟨"SDC_DQWR_C8", 0x1109240, 32, 80, 0x4, [⟨11, 0, .rw, 0x0⟩]⟩,
    ⟨"SDC_DQWR_C9", 0x110A240, 32, 80, 0x4, [⟨11, 0, .rw, 0x0⟩]⟩,
    ⟨"SDC_DQWR_C10", 0x110B240, 32, 80, 0x4, [⟨11, 0, .rw, 0x0⟩]⟩,
    ⟨"SDC_DQWR_C11", 0x110C240, 32, 80, 0x4, [⟨11, 0, .rw, 0x0⟩]⟩,
    ⟨"SDC_DQS", 0x1101380, 64, 20, 0x8, [⟨59, 48, .rw, 0x0⟩, ⟨43, 32, .rw, 0x0⟩, ⟨27, 16, .rw, 0x0⟩, ⟨11, 0, .rw, 0x0⟩]⟩,
    ⟨"SDC_DQS_C1", 0x1102380, 64, 20, 0x8, [⟨59, 48, .rw, 0x0⟩, ⟨43, 32, .rw, 0x0⟩, ⟨27, 16, .rw, 0x0⟩, ⟨11, 0, .rw, 0x0⟩]⟩,
    ⟨"SDC_DQS_C2", 0x1103380, 64, 20, 0x8, [⟨59, 48, .rw, 0x0⟩, ⟨43, 32, .rw, 0x0⟩, ⟨27, 16, .rw, 0x0⟩, ⟨11, 0, .rw, 0x0⟩]⟩,
    ⟨"SDC_DQS_C3", 0x1104380, 64, 20, 0x8, [⟨59, 48, .rw, 0x0⟩, ⟨43, 32, .rw, 0x0⟩, ⟨27, 16, .rw, 0x0⟩, ⟨11, 0, .rw, 0x0⟩]⟩,
    ⟨"SDC_DQS_C4", 0x1105380, 64, 20, 0x8, [⟨59, 48, .rw, 0x0⟩, ⟨43, 32, .rw, 0x0⟩, ⟨27, 16, .rw, 0x0⟩, ⟨11, 0, .rw, 0x0⟩]⟩,
    ⟨"SDC_DQS_C5", 0x1106380, 64, 20, 0x8, [⟨59, 48, .rw, 0x0⟩, ⟨43, 32, .rw, 0x0⟩, ⟨27, 16, .rw, 0x0⟩, ⟨11, 0, .rw, 0x0⟩]⟩,
    ⟨"SDC_DQS_C6", 0x1107380, 64, 20, 0x8, [⟨59, 48, .rw, 0x0⟩, ⟨43, 32, .rw, 0x0⟩, ⟨27, 16, .rw, 0x0⟩, ⟨11, 0, .rw, 0x0⟩]⟩,
    ⟨"SDC_DQS_C7", 0x1108380, 64, 20, 0x8, [⟨59, 48, .rw, 0x0⟩, ⟨43, 32, .rw, 0x0⟩, ⟨27, 16, .rw, 0x0⟩, ⟨11, 0, .rw, 0x0⟩]⟩ ]

/-- Registers of the SDC_ block (R440). -/
def rowsSdc5 : List RegRow :=
  [ ⟨"SDC_DQS_C8", 0x1109380, 64, 20, 0x8, [⟨59, 48, .rw, 0x0⟩, ⟨43, 32, .rw, 0x0⟩, ⟨27, 16, .rw, 0x0⟩, ⟨11, 0, .rw, 0x0⟩]⟩,
    ⟨"SDC_DQS_C9", 0x110A380, 64, 20, 0x8, [⟨59, 48, .rw, 0x0⟩, ⟨43, 32, .rw, 0x0⟩, ⟨27, 16, .rw, 0x0⟩, ⟨11, 0, .rw, 0x0⟩]⟩,
    ⟨"SDC_DQS_C10", 0x110B380, 64, 20, 0x8, [⟨59, 48, .rw, 0x0⟩, ⟨43, 32, .rw, 0x0⟩, ⟨27, 16, .rw, 0x0⟩, ⟨11, 0, .rw, 0x0⟩]⟩,
    ⟨"SDC_DQS_C11", 0x110C380, 64, 20, 0x8, [⟨59, 48, .rw, 0x0⟩, ⟨43, 32, .rw, 0x0⟩, ⟨27, 16, .rw, 0x0⟩, ⟨11, 0, .rw, 0x0⟩]⟩,
    ⟨"SDC_CA0", 0x1101500, 32, 14, 0x4, [⟨11, 0, .rw, 0x0⟩]⟩,
    ⟨"SDC_CA0_C1", 0x1102500, 32, 14, 0x4, [⟨11, 0, .rw, 0x0⟩]⟩,
    ⟨"SDC_CA0_C2", 0x1103500, 32, 14, 0x4, [⟨11, 0, .rw, 0x0⟩]⟩,
    ⟨"SDC_CA0_C3", 0x1104500, 32, 14, 0x4, [⟨11, 0, .rw, 0x0⟩]⟩,
    ⟨"SDC_CA0_C4", 0x1105500, 32, 14, 0x4, [⟨11, 0, .rw, 0x0⟩]⟩,
    ⟨"SDC_CA0_C5", 0x1106500, 32, 14, 0x4, [⟨11, 0, .rw, 0x0⟩]⟩,
    ⟨"SDC_CA0_C6", 0x1107500, 32, 14, 0x4, [⟨11, 0, .rw, 0x0⟩]⟩,
    ⟨"SDC_CA0_C7", 0x1108500, 32, 14, 0x4, [⟨11, 0, .rw, 0x0⟩]⟩ ]

/-- Registers of the SDC_ block (R440). -/
def rowsSdc6 : List RegRow :=
  [ ⟨"SDC_CA0_C8", 0x1109500, 32, 14, 0x4, [⟨11, 0, .rw, 0x0⟩]⟩,
    ⟨"SDC_CA0_C9", 0x110A500, 32, 14, 0x4, [⟨11, 0, .rw, 0x0⟩]⟩,
    ⟨"SDC_CA0_C10", 0x110B500, 32, 14, 0x4, [⟨11, 0, .rw, 0x0⟩]⟩,
    ⟨"SDC_CA0_C11", 0x110C500, 32, 14, 0x4, [⟨11, 0, .rw, 0x0⟩]⟩,
    ⟨"SDC_CA1", 0x1101540, 32, 14, 0x4, [⟨11, 0, .rw, 0x0⟩]⟩,
    ⟨"SDC_CA1_C1", 0x1102540, 32, 14, 0x4, [⟨11, 0, .rw, 0x0⟩]⟩,
    ⟨"SDC_CA1_C2", 0x1103540, 32, 14, 0x4, [⟨11, 0, .rw, 0x0⟩]⟩,
    ⟨"SDC_CA1_C3", 0x1104540, 32, 14, 0x4, [⟨11, 0, .rw, 0x0⟩]⟩,
    ⟨"SDC_CA1_C4", 0x1105540, 32, 14, 0x4, [⟨11, 0, .rw, 0x0⟩]⟩,
    ⟨"SDC_CA1_C5", 0x1106540, 32, 14, 0x4, [⟨11, 0, .rw, 0x0⟩]⟩,
    ⟨"SDC_CA1_C6", 0x1107540, 32, 14, 0x4, [⟨11, 0, .rw, 0x0⟩]⟩,
    ⟨"SDC_CA1_C7", 0x1108540, 32, 14, 0x4, [⟨11, 0, .rw, 0x0⟩]⟩ ]

/-- Registers of the SDC_ block (R440). -/
def rowsSdc7 : List RegRow :=
  [ ⟨"SDC_CA1_C8", 0x1109540, 32, 14, 0x4, [⟨11, 0, .rw, 0x0⟩]⟩,
    ⟨"SDC_CA1_C9", 0x110A540, 32, 14, 0x4, [⟨11, 0, .rw, 0x0⟩]⟩,
    ⟨"SDC_CA1_C10", 0x110B540, 32, 14, 0x4, [⟨11, 0, .rw, 0x0⟩]⟩,
    ⟨"SDC_CA1_C11", 0x110C540, 32, 14, 0x4, [⟨11, 0, .rw, 0x0⟩]⟩,
    ⟨"SDC_CS", 0x1101580, 32, 4, 0x4, [⟨11, 0, .rw, 0x0⟩]⟩,
    ⟨"SDC_CS_C1", 0x1102580, 32, 4, 0x4, [⟨11, 0, .rw, 0x0⟩]⟩,
    ⟨"SDC_CS_C2", 0x1103580, 32, 4, 0x4, [⟨11, 0, .rw, 0x0⟩]⟩,
    ⟨"SDC_CS_C3", 0x1104580, 32, 4, 0x4, [⟨11, 0, .rw, 0x0⟩]⟩,
    ⟨"SDC_CS_C4", 0x1105580, 32, 4, 0x4, [⟨11, 0, .rw, 0x0⟩]⟩,
    ⟨"SDC_CS_C5", 0x1106580, 32, 4, 0x4, [⟨11, 0, .rw, 0x0⟩]⟩,
    ⟨"SDC_CS_C6", 0x1107580, 32, 4, 0x4, [⟨11, 0, .rw, 0x0⟩]⟩,
    ⟨"SDC_CS_C7", 0x1108580, 32, 4, 0x4, [⟨11, 0, .rw, 0x0⟩]⟩ ]

/-- Registers of the SDC_ block (R440). -/
def rowsSdc8 : List RegRow :=
  [ ⟨"SDC_CS_C8", 0x1109580, 32, 4, 0x4, [⟨11, 0, .rw, 0x0⟩]⟩,
    ⟨"SDC_CS_C9", 0x110A580, 32, 4, 0x4, [⟨11, 0, .rw, 0x0⟩]⟩,
    ⟨"SDC_CS_C10", 0x110B580, 32, 4, 0x4, [⟨11, 0, .rw, 0x0⟩]⟩,
    ⟨"SDC_CS_C11", 0x110C580, 32, 4, 0x4, [⟨11, 0, .rw, 0x0⟩]⟩,
    ⟨"SDC_CK", 0x1101590, 32, 2, 0x4, [⟨11, 0, .rw, 0x0⟩]⟩,
    ⟨"SDC_CK_C1", 0x1102590, 32, 2, 0x4, [⟨11, 0, .rw, 0x0⟩]⟩,
    ⟨"SDC_CK_C2", 0x1103590, 32, 2, 0x4, [⟨11, 0, .rw, 0x0⟩]⟩,
    ⟨"SDC_CK_C3", 0x1104590, 32, 2, 0x4, [⟨11, 0, .rw, 0x0⟩]⟩,
    ⟨"SDC_CK_C4", 0x1105590, 32, 2, 0x4, [⟨11, 0, .rw, 0x0⟩]⟩,
    ⟨"SDC_CK_C5", 0x1106590, 32, 2, 0x4, [⟨11, 0, .rw, 0x0⟩]⟩,
    ⟨"SDC_CK_C6", 0x1107590, 32, 2, 0x4, [⟨11, 0, .rw, 0x0⟩]⟩,
    ⟨"SDC_CK_C7", 0x1108590, 32, 2, 0x4, [⟨11, 0, .rw, 0x0⟩]⟩ ]

/-- Registers of the SDC_ block (R440). -/
def rowsSdc9 : List RegRow :=
  [ ⟨"SDC_CK_C8", 0x1109590, 32, 2, 0x4, [⟨11, 0, .rw, 0x0⟩]⟩,
    ⟨"SDC_CK_C9", 0x110A590, 32, 2, 0x4, [⟨11, 0, .rw, 0x0⟩]⟩,
    ⟨"SDC_CK_C10", 0x110B590, 32, 2, 0x4, [⟨11, 0, .rw, 0x0⟩]⟩,
    ⟨"SDC_CK_C11", 0x110C590, 32, 2, 0x4, [⟨11, 0, .rw, 0x0⟩]⟩,
    ⟨"SDC_VREF", 0x11015A0, 32, 2, 0x4, [⟨7, 0, .rw, 0x80⟩]⟩,
    ⟨"SDC_VREF_C1", 0x11025A0, 32, 2, 0x4, [⟨7, 0, .rw, 0x80⟩]⟩,
    ⟨"SDC_VREF_C2", 0x11035A0, 32, 2, 0x4, [⟨7, 0, .rw, 0x80⟩]⟩,
    ⟨"SDC_VREF_C3", 0x11045A0, 32, 2, 0x4, [⟨7, 0, .rw, 0x80⟩]⟩,
    ⟨"SDC_VREF_C4", 0x11055A0, 32, 2, 0x4, [⟨7, 0, .rw, 0x80⟩]⟩,
    ⟨"SDC_VREF_C5", 0x11065A0, 32, 2, 0x4, [⟨7, 0, .rw, 0x80⟩]⟩,
    ⟨"SDC_VREF_C6", 0x11075A0, 32, 2, 0x4, [⟨7, 0, .rw, 0x80⟩]⟩,
    ⟨"SDC_VREF_C7", 0x11085A0, 32, 2, 0x4, [⟨7, 0, .rw, 0x80⟩]⟩ ]

/-- Registers of the SDC_ block (R440). -/
def rowsSdc10 : List RegRow :=
  [ ⟨"SDC_VREF_C8", 0x11095A0, 32, 2, 0x4, [⟨7, 0, .rw, 0x80⟩]⟩,
    ⟨"SDC_VREF_C9", 0x110A5A0, 32, 2, 0x4, [⟨7, 0, .rw, 0x80⟩]⟩,
    ⟨"SDC_VREF_C10", 0x110B5A0, 32, 2, 0x4, [⟨7, 0, .rw, 0x80⟩]⟩,
    ⟨"SDC_VREF_C11", 0x110C5A0, 32, 2, 0x4, [⟨7, 0, .rw, 0x80⟩]⟩,
    ⟨"SDC_CORR", 0x1101010, 32, 12, 0x1000, [⟨31, 31, .ro, 0x0⟩, ⟨30, 0, .ro, 0x0⟩]⟩,
    ⟨"SDC_UNCORR", 0x1101014, 32, 12, 0x1000, [⟨31, 31, .ro, 0x0⟩, ⟨30, 0, .ro, 0x0⟩]⟩,
    ⟨"SDC_NREFS", 0x1101018, 32, 12, 0x1000, [⟨31, 31, .ro, 0x0⟩, ⟨30, 0, .ro, 0x0⟩]⟩ ]

/-- Registers of the BOT_ block (R492). -/
def rowsBot : List RegRow :=
  [ ⟨"BOT_STATUS", 0x1300100, 64, 1, 0x0, [⟨63, 56, .ro, 0x0⟩, ⟨55, 48, .ro, 0x0⟩, ⟨47, 46, .ro, 0x3⟩, ⟨45, 45, .ro, 0x0⟩, ⟨44, 44, .ro, 0x0⟩, ⟨31, 0, .ro, 0x0⟩]⟩ ]

/-- Registers of the GRD_ block (R492). -/
def rowsGrd : List RegRow :=
  [ ⟨"GRD_POLICY", 0x1400100, 64, 1, 0x0, [⟨63, 63, .ro, 0x0⟩, ⟨57, 56, .rwk, 0x0⟩, ⟨55, 52, .rwk, 0xF⟩, ⟨51, 48, .rwk, 0x0⟩, ⟨13, 0, .ro, 0x0⟩]⟩,
    ⟨"GRD_LOCK", 0x1400108, 32, 1, 0x0, [⟨0, 0, .wo, 0x0⟩]⟩,
    ⟨"GRD_PART", 0x1400110, 64, 6, 0x8, [⟨63, 32, .rwk, 0xFFFFFFFF⟩, ⟨31, 0, .rwk, 0xFFFFFFFF⟩]⟩ ]

/-- Registers of the FUS_ block (R492). -/
def rowsFus : List RegRow :=
  [ ⟨"FUS_STATE", 0x1500108, 64, 1, 0x0, [⟨63, 56, .ro, 0x0⟩, ⟨55, 52, .ro, 0x0⟩, ⟨51, 48, .ro, 0x0⟩, ⟨43, 41, .ro, 0x0⟩, ⟨40, 40, .ro, 0x0⟩, ⟨39, 39, .ro, 0x0⟩]⟩,
    ⟨"FUS_PROG", 0x1500110, 32, 1, 0x0, [⟨31, 31, .wo, 0x0⟩, ⟨30, 30, .ro, 0x0⟩, ⟨29, 29, .ro, 0x0⟩, ⟨11, 0, .rwk, 0x0⟩]⟩,
    ⟨"FUS_SERIAL", 0x1500100, 64, 1, 0x0, [⟨63, 0, .ro, 0x0⟩]⟩,
    ⟨"FUS_HASH", 0x1500140, 32, 12, 0x4, [⟨31, 0, .ro, 0x0⟩]⟩,
    ⟨"FUS_HASH_S1", 0x1500180, 32, 12, 0x4, [⟨31, 0, .ro, 0x0⟩]⟩,
    ⟨"FUS_HASH_S2", 0x15001C0, 32, 12, 0x4, [⟨31, 0, .ro, 0x0⟩]⟩,
    ⟨"FUS_HASH_S3", 0x1500200, 32, 12, 0x4, [⟨31, 0, .ro, 0x0⟩]⟩ ]

/-- Registers of the FWU_ block (R492). -/
def rowsFwu : List RegRow :=
  [ ⟨"FWU_STATE", 0x1600100, 64, 1, 0x0, [⟨63, 60, .ro, 0x0⟩, ⟨59, 58, .ro, 0x0⟩, ⟨57, 54, .ro, 0x0⟩, ⟨47, 32, .ro, 0x0⟩, ⟨11, 0, .ro, 0x0⟩]⟩,
    ⟨"FWU_VERS", 0x1600108, 64, 1, 0x0, [⟨47, 32, .ro, 0x0⟩, ⟨31, 16, .ro, 0x0⟩, ⟨15, 0, .ro, 0x0⟩]⟩,
    ⟨"FWU_CTRL", 0x1600110, 32, 1, 0x0, [⟨15, 0, .rw, 0x3E8⟩]⟩,
    ⟨"FWU_CASTLES", 0x1600118, 32, 1, 0x0, [⟨31, 31, .ro, 0x0⟩, ⟨30, 0, .ro, 0x0⟩]⟩,
    ⟨"FWU_ABORTS", 0x160011C, 32, 1, 0x0, [⟨31, 31, .ro, 0x0⟩, ⟨30, 0, .ro, 0x0⟩]⟩ ]

/-- Registers of the EVT_ block (R510, R511). -/
def rowsEvt : List RegRow :=
  [ ⟨"EVT_FSTAT", 0x100008000, 64, 1024, 0x10000, [⟨63, 48, .ro, 0x0⟩, ⟨47, 32, .wo, 0x0⟩, ⟨6, 6, .rws, 0x0⟩, ⟨5, 5, .rws, 0x0⟩, ⟨4, 4, .rws, 0x0⟩, ⟨3, 3, .rws, 0x0⟩, ⟨2, 2, .rws, 0x0⟩, ⟨1, 1, .rws, 0x0⟩, ⟨0, 0, .rws, 0x0⟩]⟩,
    ⟨"EVT_FEVTEN", 0x100008008, 32, 1024, 0x10000, [⟨31, 0, .rw, 0x0⟩]⟩,
    ⟨"EVT_LOGSTAT", 0x1700100, 32, 1, 0x0, [⟨16, 0, .ro, 0x0⟩]⟩,
    ⟨"EVT_FILTER", 0x1700108, 32, 1, 0x0, [⟨1, 0, .rw, 0x0⟩]⟩,
    ⟨"EVT_CLRSTATS", 0x170010C, 32, 1, 0x0, [⟨0, 0, .rwk, 0x0⟩]⟩,
    ⟨"EVT_OVERWRITTEN", 0x1700110, 32, 1, 0x0, [⟨31, 31, .ro, 0x0⟩, ⟨30, 0, .ro, 0x0⟩]⟩,
    ⟨"EVT_MTFREJECT", 0x1700114, 32, 1, 0x0, [⟨31, 31, .ro, 0x0⟩, ⟨30, 0, .ro, 0x0⟩]⟩ ]

/-- Registers of the MOD_ block (R511). -/
def rowsMod : List RegRow :=
  [ ⟨"MOD_STATE", 0x1A00100, 32, 1, 0x0, [⟨7, 4, .ro, 0x0⟩, ⟨3, 0, .ro, 0x0⟩]⟩,
    ⟨"MOD_REASON", 0x1A00104, 32, 1, 0x0, [⟨10, 0, .ro, 0x0⟩]⟩,
    ⟨"MOD_HALT", 0x1A00108, 64, 1, 0x0, [⟨63, 60, .ro, 0x0⟩, ⟨59, 56, .ro, 0x0⟩, ⟨55, 48, .ro, 0x0⟩, ⟨47, 0, .ro, 0x0⟩]⟩,
    ⟨"MOD_DSEQ", 0x1A00110, 64, 1, 0x0, [⟨63, 0, .ro, 0x0⟩]⟩,
    ⟨"MOD_WDOG", 0x1A00118, 32, 1, 0x0, [⟨15, 0, .rwk, 0xC8⟩]⟩,
    ⟨"MOD_HOURS", 0x1A00120, 32, 1, 0x0, [⟨31, 31, .ro, 0x0⟩, ⟨30, 0, .ro, 0x0⟩]⟩ ]

/-- Registers of the FRZ_ block (R529). -/
def rowsFrz : List RegRow :=
  [ ⟨"FRZ_CTRL", 0x1800100, 32, 1, 0x0, [⟨0, 0, .rwk, 0x0⟩]⟩,
    ⟨"FRZ_IMAGE", 0x1800108, 64, 1, 0x0, [⟨31, 0, .ro, 0x0⟩]⟩ ]

/-- Registers of the FCE_ block (R529). -/
def rowsFce : List RegRow :=
  [ ⟨"FCE_FACE", 0x1900100, 32, 1, 0x0, [⟨31, 30, .ro, 0x0⟩, ⟨7, 0, .ro, 0x0⟩]⟩,
    ⟨"FCE_STRAPS", 0x1900104, 32, 1, 0x0, [⟨6, 3, .ro, 0x0⟩, ⟨2, 1, .ro, 0x0⟩, ⟨0, 0, .ro, 0x0⟩]⟩ ]

/-- Registers of the MUL_ block (R423). -/
def rowsMul : List RegRow :=
  [ ⟨"MUL_RCTRL", 0x1001000, 32, 64, 0x40, [⟨31, 31, .rw, 0x0⟩, ⟨30, 30, .wo, 0x0⟩, ⟨29, 29, .wo, 0x0⟩, ⟨3, 0, .rw, 0x2⟩]⟩,
    ⟨"MUL_RCTRL_M1", 0x1021000, 32, 64, 0x40, [⟨31, 31, .rw, 0x0⟩, ⟨30, 30, .wo, 0x0⟩, ⟨29, 29, .wo, 0x0⟩, ⟨3, 0, .rw, 0x2⟩]⟩,
    ⟨"MUL_RCTRL_M2", 0x1041000, 32, 64, 0x40, [⟨31, 31, .rw, 0x0⟩, ⟨30, 30, .wo, 0x0⟩, ⟨29, 29, .wo, 0x0⟩, ⟨3, 0, .rw, 0x2⟩]⟩,
    ⟨"MUL_RCTRL_M3", 0x1061000, 32, 64, 0x40, [⟨31, 31, .rw, 0x0⟩, ⟨30, 30, .wo, 0x0⟩, ⟨29, 29, .wo, 0x0⟩, ⟨3, 0, .rw, 0x2⟩]⟩,
    ⟨"MUL_RBASE", 0x1001008, 64, 64, 0x40, [⟨63, 12, .rw, 0x0⟩]⟩,
    ⟨"MUL_RBASE_M1", 0x1021008, 64, 64, 0x40, [⟨63, 12, .rw, 0x0⟩]⟩,
    ⟨"MUL_RBASE_M2", 0x1041008, 64, 64, 0x40, [⟨63, 12, .rw, 0x0⟩]⟩,
    ⟨"MUL_RBASE_M3", 0x1061008, 64, 64, 0x40, [⟨63, 12, .rw, 0x0⟩]⟩,
    ⟨"MUL_RSTAT", 0x1001010, 32, 64, 0x40, [⟨31, 31, .ro, 0x0⟩, ⟨30, 30, .ro, 0x0⟩, ⟨29, 29, .ro, 0x0⟩, ⟨11, 0, .ro, 0x0⟩]⟩,
    ⟨"MUL_RSTAT_M1", 0x1021010, 32, 64, 0x40, [⟨31, 31, .ro, 0x0⟩, ⟨30, 30, .ro, 0x0⟩, ⟨29, 29, .ro, 0x0⟩, ⟨11, 0, .ro, 0x0⟩]⟩,
    ⟨"MUL_RSTAT_M2", 0x1041010, 32, 64, 0x40, [⟨31, 31, .ro, 0x0⟩, ⟨30, 30, .ro, 0x0⟩, ⟨29, 29, .ro, 0x0⟩, ⟨11, 0, .ro, 0x0⟩]⟩,
    ⟨"MUL_RSTAT_M3", 0x1061010, 32, 64, 0x40, [⟨31, 31, .ro, 0x0⟩, ⟨30, 30, .ro, 0x0⟩, ⟨29, 29, .ro, 0x0⟩, ⟨11, 0, .ro, 0x0⟩]⟩ ]

/-- Registers of the MUL_ block (R423). -/
def rowsMul2 : List RegRow :=
  [ ⟨"MUL_RERR", 0x1001018, 64, 64, 0x40, [⟨63, 63, .ro, 0x0⟩, ⟨62, 62, .ro, 0x0⟩, ⟨47, 0, .ro, 0x0⟩]⟩,
    ⟨"MUL_RERR_M1", 0x1021018, 64, 64, 0x40, [⟨63, 63, .ro, 0x0⟩, ⟨62, 62, .ro, 0x0⟩, ⟨47, 0, .ro, 0x0⟩]⟩,
    ⟨"MUL_RERR_M2", 0x1041018, 64, 64, 0x40, [⟨63, 63, .ro, 0x0⟩, ⟨62, 62, .ro, 0x0⟩, ⟨47, 0, .ro, 0x0⟩]⟩,
    ⟨"MUL_RERR_M3", 0x1061018, 64, 64, 0x40, [⟨63, 63, .ro, 0x0⟩, ⟨62, 62, .ro, 0x0⟩, ⟨47, 0, .ro, 0x0⟩]⟩,
    ⟨"MUL_RPACE", 0x1001020, 32, 64, 0x40, [⟨31, 30, .rw, 0x0⟩, ⟨15, 8, .rw, 0x0⟩, ⟨7, 0, .rw, 0x0⟩]⟩,
    ⟨"MUL_RPACE_M1", 0x1021020, 32, 64, 0x40, [⟨31, 30, .rw, 0x0⟩, ⟨15, 8, .rw, 0x0⟩, ⟨7, 0, .rw, 0x0⟩]⟩,
    ⟨"MUL_RPACE_M2", 0x1041020, 32, 64, 0x40, [⟨31, 30, .rw, 0x0⟩, ⟨15, 8, .rw, 0x0⟩, ⟨7, 0, .rw, 0x0⟩]⟩,
    ⟨"MUL_RPACE_M3", 0x1061020, 32, 64, 0x40, [⟨31, 30, .rw, 0x0⟩, ⟨15, 8, .rw, 0x0⟩, ⟨7, 0, .rw, 0x0⟩]⟩,
    ⟨"MUL_PACELEVEL", 0x1001024, 32, 64, 0x40, [⟨7, 0, .rw, 0x0⟩]⟩,
    ⟨"MUL_PACELEVEL_M1", 0x1021024, 32, 64, 0x40, [⟨7, 0, .rw, 0x0⟩]⟩,
    ⟨"MUL_PACELEVEL_M2", 0x1041024, 32, 64, 0x40, [⟨7, 0, .rw, 0x0⟩]⟩,
    ⟨"MUL_PACELEVEL_M3", 0x1061024, 32, 64, 0x40, [⟨7, 0, .rw, 0x0⟩]⟩ ]

/-- Registers of the MUL_ block (R423). -/
def rowsMul3 : List RegRow :=
  [ ⟨"MUL_K7SRC", 0x1011000, 64, 16, 0x20, [⟨63, 0, .rw, 0x0⟩]⟩,
    ⟨"MUL_K7DST", 0x1011008, 64, 16, 0x20, [⟨63, 0, .rw, 0x0⟩]⟩,
    ⟨"MUL_K7CNT", 0x1011010, 32, 16, 0x20, [⟨31, 31, .wo, 0x0⟩, ⟨30, 30, .ro, 0x0⟩, ⟨29, 29, .ro, 0x0⟩, ⟨23, 0, .rw, 0x0⟩]⟩ ]

/-- Registers of the HRD_ block (R358). -/
def rowsHrd : List RegRow :=
  [ ⟨"HRD_CTRL", 0xD00100, 64, 1, 0x0, [⟨63, 48, .rwk, 0x88B5⟩, ⟨47, 40, .rw, 0x5⟩, ⟨39, 32, .rw, 0xA⟩, ⟨31, 16, .rw, 0xC8⟩, ⟨15, 0, .rw, 0x1F4⟩]⟩,
    ⟨"HRD_RETAIN", 0xD00108, 64, 1, 0x0, [⟨47, 40, .rw, 0x19⟩, ⟨39, 32, .rw, 0x18⟩, ⟨31, 0, .rw, 0x100000⟩]⟩,
    ⟨"HRD_IDENT", 0xD00110, 64, 1, 0x0, [⟨63, 48, .ro, 0x0⟩, ⟨47, 32, .ro, 0x0⟩, ⟨31, 31, .ro, 0x0⟩, ⟨12, 0, .ro, 0x0⟩]⟩,
    ⟨"HRD_EPOCH", 0xD00118, 64, 1, 0x0, [⟨63, 0, .ro, 0x0⟩]⟩,
    ⟨"HRD_VERSION", 0xD00120, 32, 1, 0x0, [⟨31, 16, .ro, 0x100⟩, ⟨15, 0, .ro, 0x0⟩]⟩,
    ⟨"HRD_JOBS", 0xD00124, 32, 1, 0x0, [⟨18, 0, .ro, 0x0⟩]⟩,
    ⟨"HRD_SWEEPLEFT", 0xD00128, 64, 1, 0x0, [⟨39, 0, .ro, 0x0⟩]⟩,
    ⟨"HRD_MAPREJECT", 0xD00130, 32, 1, 0x0, [⟨31, 31, .ro, 0x0⟩, ⟨30, 0, .ro, 0x0⟩]⟩,
    ⟨"HRD_PORT", 0xD01000, 32, 4, 0x1000, [⟨31, 31, .ro, 0x0⟩, ⟨30, 30, .rwk, 0x1⟩, ⟨29, 29, .rw, 0x1⟩, ⟨11, 0, .rw, 0x0⟩]⟩,
    ⟨"HRD_MAC", 0xD01008, 64, 1, 0x0, [⟨47, 0, .rwk, 0x20000000000⟩]⟩,
    ⟨"HRD_MAC1", 0xD02008, 64, 1, 0x0, [⟨47, 0, .rwk, 0x20000000001⟩]⟩,
    ⟨"HRD_MAC2", 0xD03008, 64, 1, 0x0, [⟨47, 0, .rwk, 0x20000000002⟩]⟩ ]

/-- Registers of the HRD_ block (R358). -/
def rowsHrd2 : List RegRow :=
  [ ⟨"HRD_MAC3", 0xD04008, 64, 1, 0x0, [⟨47, 0, .rwk, 0x20000000003⟩]⟩,
    ⟨"HRD_RXDROP", 0xD01010, 32, 4, 0x1000, [⟨31, 31, .ro, 0x0⟩, ⟨30, 0, .ro, 0x0⟩]⟩,
    ⟨"HRD_RETX", 0xD01014, 32, 4, 0x1000, [⟨31, 31, .ro, 0x0⟩, ⟨30, 0, .ro, 0x0⟩]⟩ ]

/-- The header of every block window, and Port B's copy of the HST_ header (R48). -/
def rowsHdr : List RegRow :=
  [ ⟨"HDR_ID", 0x100000, 32, 26, 0x100000, [⟨31, 20, .ro, 0x0⟩, ⟨19, 14, .ro, 0x0⟩, ⟨7, 4, .ro, 0x1⟩, ⟨3, 0, .ro, 0x0⟩]⟩,
    ⟨"HSTB_ID", 0x100900, 32, 1, 0x0, [⟨31, 20, .ro, 0x0⟩, ⟨19, 14, .ro, 0x0⟩, ⟨7, 4, .ro, 0x1⟩, ⟨3, 0, .ro, 0x0⟩]⟩,
    ⟨"HDR_KEY", 0x100008, 32, 26, 0x100000, [⟨15, 0, .wo, 0x0⟩]⟩,
    ⟨"HSTB_KEY", 0x100908, 32, 1, 0x0, [⟨15, 0, .wo, 0x0⟩]⟩,
    ⟨"HDR_ACCESS", 0x10000C, 32, 26, 0x100000, [⟨31, 31, .ro, 0x0⟩, ⟨30, 30, .ro, 0x0⟩, ⟨15, 0, .ro, 0x0⟩]⟩,
    ⟨"HSTB_ACCESS", 0x10090C, 32, 1, 0x0, [⟨31, 31, .ro, 0x0⟩, ⟨30, 30, .ro, 0x0⟩, ⟨15, 0, .ro, 0x0⟩]⟩,
    ⟨"HDR_STAT", 0x100010, 64, 26, 0x100000, [⟨63, 48, .ro, 0x0⟩, ⟨47, 32, .wo, 0x0⟩, ⟨31, 16, .rws, 0x0⟩, ⟨3, 0, .rws, 0x0⟩]⟩,
    ⟨"HSTB_STAT", 0x100910, 64, 1, 0x0, [⟨63, 48, .ro, 0x0⟩, ⟨47, 32, .wo, 0x0⟩, ⟨31, 16, .rws, 0x0⟩, ⟨3, 0, .rws, 0x0⟩]⟩,
    ⟨"HDR_EVTEN", 0x100018, 32, 26, 0x100000, [⟨31, 0, .rw, 0x0⟩]⟩,
    ⟨"HSTB_EVTEN", 0x100918, 32, 1, 0x0, [⟨31, 0, .rw, 0x0⟩]⟩ ]

/-- Every register of the N9. -/
def regRows : List RegRow :=
  rowsHst ++ rowsCcp ++ rowsOrd ++ rowsMap ++ rowsMch ++ rowsPlc ++ rowsStg ++ rowsRcl ++ rowsChn ++ rowsCar ++ rowsEcc ++ rowsXts ++ rowsPwr ++ rowsBpm ++ rowsBpm2 ++ rowsMat ++ rowsSdc ++ rowsSdc2 ++ rowsSdc3 ++ rowsSdc4 ++ rowsSdc5 ++ rowsSdc6 ++ rowsSdc7 ++ rowsSdc8 ++ rowsSdc9 ++ rowsSdc10 ++ rowsBot ++ rowsGrd ++ rowsFus ++ rowsFwu ++ rowsEvt ++ rowsMod ++ rowsFrz ++ rowsFce ++ rowsMul ++ rowsMul2 ++ rowsMul3 ++ rowsHrd ++ rowsHrd2 ++ rowsHdr

/-- The instance of a register that holds byte address `a`, if the register holds it. -/
def RegRow.instAt (r : RegRow) (a : Nat) : Option Nat :=
  let i := (a - r.base) / r.stride
  if r.base ≤ a ∧ i < r.count ∧ (a - r.base) - i * r.stride < r.width / 8 then some i else none

/-- The register that holds byte address `a`. -/
def findReg (a : Nat) : Option (RegRow × Nat) :=
  regRows.findSome? fun r => (r.instAt a).map fun i => (r, i)

/-- The reset value of a register. -/
def RegRow.reset (r : RegRow) : DWord :=
  r.fields.foldl (fun v f => v ||| (BitVec.ofNat 64 f.reset <<< f.lo)) 0

/-- The reset value of the register at address `a`. -/
def regReset (a : Nat) : DWord :=
  match findReg a with
  | some (r, _) => r.reset
  | none => 0

/-- The bits `hi` to `lo` of a 64-bit word. -/
def bitsMask (hi lo : Nat) : DWord :=
  BitVec.ofNat 64 ((2 ^ (hi + 1) - 1) - (2 ^ lo - 1))

/-- The bits of a register whose access type is `k`. -/
def RegRow.maskOf (r : RegRow) (k : Access) : DWord :=
  r.fields.foldl (fun v f => if f.acc = k then v ||| bitsMask f.hi f.lo else v) 0

/-- The reserved bits of a register: those no field names. -/
def RegRow.reserved (r : RegRow) : DWord :=
  ~~~(r.fields.foldl (fun v f => v ||| bitsMask f.hi f.lo) 0) &&& bitsMask (r.width - 1) 0

/-- The key value of a block window (R47, Table 4); window 0 has none. -/
def keyOf (w : Nat) : Option Half :=
  ([0x5A31, 0xC0C4, 0x0D7E, 0x3A9F, 0x6C1B, 0x91E6, 0x2B58, 0xE47A, 0x7F03, 0xCA2D, 0x4E69, 0xB815, 0x8D42,
    0x1F97, 0xA6C3, 0x63D0, 0xD21C, 0x0FA8, 0x9B74, 0x47E5, 0xF05B, 0x2E8C, 0x3D17, 0xEA90, 0x76B2, 0x5C69] : List Half)[w - 1]?
    |>.filter fun _ => decide (1 ≤ w)

/-- The number of instances of a block (R47, Table 4). -/
def instancesOf (w : Nat) : Nat :=
  ([1, 2, 2, 1, 1, 4, 4, 8, 1, 128, 8, 16, 8, 4, 1, 4, 4, 12, 1, 1, 1, 1, 1, 1, 1, 1, 1] : List Nat).getD w 1

/-! ## Register addresses and fields by name -/

namespace Reg

def HST_REGERR (i : Nat) : Nat := 0x100200 + i * 0x10
def HST_REGERR_.SEQ : Fld := ⟨63, 48⟩
def HST_REGERR_.CAUSE : Fld := ⟨47, 44⟩
def HST_REGERR_.DIR : Fld := ⟨43, 43⟩
def HST_REGERR_.OFFSET : Fld := ⟨25, 0⟩
def HST_REGERRCNT (i : Nat) : Nat := 0x100208 + i * 0x10
def HST_DBDROP (i : Nat) : Nat := 0x10020C + i * 0x10
def CCP_FCTRL (f : Nat) : Nat := 0x100001000 + f * 0x10000
def CCP_FCTRL_.ENABLE : Fld := ⟨0, 0⟩
def CCP_FSTAT (f : Nat) : Nat := 0x100001004 + f * 0x10000
def CCP_FSTAT_.VERSION : Fld := ⟨31, 16⟩
def CCP_FSTAT_.CFG_IGNORED : Fld := ⟨2, 2⟩
def CCP_FSTAT_.FAULT : Fld := ⟨1, 1⟩
def CCP_FSTAT_.READY : Fld := ⟨0, 0⟩
def CCP_ASQ (f : Nat) : Nat := 0x100001008 + f * 0x10000
def CCP_ASQ_.BASE : Fld := ⟨63, 12⟩
def CCP_ACQ (f : Nat) : Nat := 0x100001010 + f * 0x10000
def CCP_ACQ_.BASE : Fld := ⟨63, 12⟩
def CCP_ASIZE (f : Nat) : Nat := 0x100001018 + f * 0x10000
def CCP_ASIZE_.VECTOR : Fld := ⟨26, 16⟩
def CCP_ASIZE_.ACQ_LOG2 : Fld := ⟨11, 8⟩
def CCP_ASIZE_.ASQ_LOG2 : Fld := ⟨3, 0⟩
def CCP_RINGERR (f : Nat) : Nat := 0x100001020 + f * 0x10000
def CCP_RINGERR_.SEQ : Fld := ⟨63, 48⟩
def CCP_RINGERR_.RING : Fld := ⟨47, 32⟩
def CCP_RINGERR_.KIND : Fld := ⟨31, 31⟩
def CCP_RINGERR_.CAUSE : Fld := ⟨3, 0⟩
def CCP_TASK_CTRL : Nat := 0x200000008
def CCP_TASK_CTRL_.OPCODE : Fld := ⟨31, 24⟩
def CCP_TASK_CTRL_.TAG : Fld := ⟨23, 16⟩
def CCP_TASK_CTRL_.ACK : Fld := ⟨1, 1⟩
def CCP_TASK_CTRL_.GO : Fld := ⟨0, 0⟩
def CCP_TASK_STAT : Nat := 0x200000010
def CCP_TASK_STAT_.STATE : Fld := ⟨31, 30⟩
def CCP_TASK_STAT_.TAG : Fld := ⟨23, 16⟩
def CCP_TASK_STAT_.OWNER : Fld := ⟨15, 8⟩
def CCP_TASK_STAT_.STATUS : Fld := ⟨7, 0⟩
def ORD_LIVE : Nat := 0x300100
def ORD_LIVE_.ENTRIES : Fld := ⟨16, 0⟩
def ORD_COARSENED : Nat := 0x300104
def ORD_STALLS : Nat := 0x300108
def ORD_DEFOPEN : Nat := 0x30010C
def ORD_DEFOPEN_.OPEN : Fld := ⟨16, 0⟩
def MAP_GEOM : Nat := 0x400100
def MAP_GEOM_.BLOCK_BITS : Fld := ⟨14, 10⟩
def MAP_GEOM_.PAGE_BITS : Fld := ⟨9, 5⟩
def MAP_GEOM_.PLANE_BITS : Fld := ⟨4, 0⟩
def MAP_HMRCTRL : Nat := 0x400104
def MAP_HMRCTRL_.HOLD_ENABLE : Fld := ⟨16, 16⟩
def MAP_HMRCTRL_.FETCH_LIMIT : Fld := ⟨15, 8⟩
def MAP_HMRCTRL_.SEAL_LIMIT : Fld := ⟨7, 0⟩
def MAP_DIRTY : Nat := 0x400108
def MAP_DIRTY_.PAGES : Fld := ⟨19, 0⟩
def MAP_KEYROLLS : Nat := 0x40010C
def MAP_SEALFAIL (i : Nat) : Nat := 0x400110 + i * 0x8
def MAP_HOSTERR (i : Nat) : Nat := 0x400114 + i * 0x8
def MAP_HELD (i : Nat) : Nat := 0x400120 + i * 0x4
def MAP_HELD_.PAGES : Fld := ⟨27, 0⟩
def MCH_WAYMASK (i : Nat) : Nat := 0x500100 + i * 0x4
def MCH_WAYMASK_.WAYS : Fld := ⟨15, 0⟩
def MCH_CLASSMAP (i : Nat) : Nat := 0x500140 + i * 0x8
def MCH_CLASSMAP_.CLASS : Fld := ⟨63, 0⟩
def MCH_STREAM : Nat := 0x500160
def MCH_STREAM_.IDLE : Fld := ⟨23, 16⟩
def MCH_STREAM_.THRESH : Fld := ⟨5, 0⟩
def MCH_SCRATCH : Nat := 0x500164
def MCH_SCRATCH_.WAYS : Fld := ⟨3, 0⟩
def MCH_HITS (i : Nat) : Nat := 0x501008 + i * 0x1000
def PLC_RACTRL : Nat := 0x600100
def PLC_RACTRL_.ENABLE : Fld := ⟨31, 31⟩
def PLC_RACTRL_.MAXINFLIGHT : Fld := ⟨27, 16⟩
def PLC_RACTRL_.MARGIN : Fld := ⟨9, 0⟩
def PLC_REBUILD : Nat := 0x600104
def PLC_REBUILD_.SHARE : Fld := ⟨7, 0⟩
def PLC_CORECTRL : Nat := 0x600108
def PLC_CORECTRL_.INTERVAL : Fld := ⟨15, 8⟩
def PLC_CORECTRL_.SKEW : Fld := ⟨7, 0⟩
def PLC_RACOUNT : Nat := 0x600110
def PLC_REBUILDLEFT : Nat := 0x600120
def PLC_REBUILDLEFT_.UNITS : Fld := ⟨39, 0⟩
def PLC_PSTRIPES (i : Nat) : Nat := 0x601000 + i * 0x1000
def STG_CTRL : Nat := 0x700100
def STG_CTRL_.PERCENT : Fld := ⟨27, 24⟩
def STG_CTRL_.AGE_LIMIT : Fld := ⟨23, 16⟩
def STG_CTRL_.PACK_WINDOW : Fld := ⟨7, 0⟩
def STG_PADS : Nat := 0x70010C
def STG_CARSTAT (i : Nat) : Nat := 0x701000 + i * 0x1000
def STG_CARSTAT_.FREE : Fld := ⟨63, 32⟩
def STG_CARSTAT_.LIVE : Fld := ⟨31, 0⟩
def RCL_CTRL : Nat := 0x800100
def RCL_CTRL_.ENABLE : Fld := ⟨31, 31⟩
def RCL_CTRL_.VERIFY : Fld := ⟨30, 30⟩
def RCL_CTRL_.HIGH : Fld := ⟨23, 16⟩
def RCL_CTRL_.LOW : Fld := ⟨15, 8⟩
def RCL_CTRL_.RESERVE : Fld := ⟨3, 0⟩
def RCL_SCORE : Nat := 0x800104
def RCL_SCORE_.AGE_UNIT : Fld := ⟨31, 24⟩
def RCL_SCORE_.WV : Fld := ⟨23, 16⟩
def RCL_SCORE_.WA : Fld := ⟨15, 8⟩
def RCL_SCORE_.WW : Fld := ⟨7, 0⟩
def RCL_WEAR : Nat := 0x800108
def RCL_WEAR_.TURN : Fld := ⟨63, 48⟩
def RCL_WEAR_.COLD_GAP : Fld := ⟨47, 40⟩
def RCL_WEAR_.WEAR_UNIT : Fld := ⟨39, 32⟩
def RCL_WEAR_.STAGE_GAP : Fld := ⟨31, 24⟩
def RCL_WEAR_.LIMIT_PCT : Fld := ⟨23, 16⟩
def RCL_CAPCTRL : Nat := 0x800110
def RCL_CAPCTRL_.CREATE_FLOOR : Fld := ⟨7, 0⟩
def RCL_CAPSTAT : Nat := 0x800118
def RCL_CAPSTAT_.SPARE : Fld := ⟨47, 32⟩
def RCL_CAPSTAT_.FENCED : Fld := ⟨31, 16⟩
def RCL_CAPSTAT_.STATE : Fld := ⟨3, 0⟩
def RCL_DIESEL : Nat := 0x800130
def RCL_DIESEL_.DIE : Fld := ⟨10, 0⟩
def RCL_DIEINFO : Nat := 0x800138
def RCL_DIEINFO_.MEAN_EC : Fld := ⟨63, 40⟩
def RCL_DIEINFO_.WINDOW : Fld := ⟨39, 16⟩
def RCL_DIEINFO_.TO_TURN : Fld := ⟨15, 0⟩
def RCL_RETIRED : Nat := 0x800140
def RCL_RETIRED_.BLOCKS : Fld := ⟨31, 0⟩
def CHN_SUSP : Nat := 0x900100
def CHN_SUSP_.MIN_ERASE_RUN : Fld := ⟨31, 22⟩
def CHN_SUSP_.MIN_PROG_RUN : Fld := ⟨21, 12⟩
def CHN_SUSP_.MAX_PROG_SUSP : Fld := ⟨11, 8⟩
def CHN_SUSP_.MAX_ERASE_SUSP : Fld := ⟨7, 4⟩
def CHN_SUSP_.BATCH : Fld := ⟨3, 0⟩
def CHN_TIMING : Nat := 0x900104
def CHN_TIMING_.DIE_TIMEOUT : Fld := ⟨31, 24⟩
def CHN_TIMING_.STARVE : Fld := ⟨23, 16⟩
def CHN_CTRL (i : Nat) : Nat := 0x901000 + i * 0x1000
def CHN_CTRL_.ENABLE : Fld := ⟨31, 31⟩
def CHN_CTRL_.RETRAIN : Fld := ⟨1, 1⟩
def CHN_RATE (i : Nat) : Nat := 0x901004 + i * 0x1000
def CHN_RATE_.CURRENT : Fld := ⟨31, 28⟩
def CHN_RATE_.TARGET : Fld := ⟨23, 20⟩
def CHN_RATE_.SUPPORTED : Fld := ⟨19, 16⟩
def CHN_RATE_.FALLBACK : Fld := ⟨0, 0⟩
def CHN_DIEMAP (i : Nat) : Nat := 0x901008 + i * 0x1000
def CHN_DIEMAP_.PRESENT : Fld := ⟨63, 48⟩
def CHN_DIEMAP_.USABLE : Fld := ⟨47, 32⟩
def CHN_DIEMAP_.FAILED : Fld := ⟨31, 16⟩
def CHN_DIEMAP_.UNSUPPORTED : Fld := ⟨15, 0⟩
def CHN_QFILL (i : Nat) : Nat := 0x901010 + i * 0x1000
def CHN_QFILL_.Q3 : Fld := ⟨63, 48⟩
def CHN_QFILL_.Q2 : Fld := ⟨47, 32⟩
def CHN_QFILL_.Q1 : Fld := ⟨31, 16⟩
def CHN_QFILL_.Q0 : Fld := ⟨15, 0⟩
def CHN_CHEAD (i : Nat) : Nat := 0x901018 + i * 0x1000
def CHN_CHEAD_.SEQ : Fld := ⟨31, 0⟩
def CAR_CTRL : Nat := 0xA00100
def CAR_CTRL_.RETAIN : Fld := ⟨31, 24⟩
def CAR_CTRL_.PWR_DELAY : Fld := ⟨23, 16⟩
def CAR_CTRL_.REMOVE_POLICY : Fld := ⟨1, 1⟩
def CAR_CTRL_.AUTO_ON : Fld := ⟨0, 0⟩
def CAR_MEDIAEPOCH : Nat := 0xA00108
def CAR_MEDIAEPOCH_.EPOCH : Fld := ⟨63, 0⟩
def CAR_CMD (i : Nat) : Nat := 0xA01000 + i * 0x1000
def CAR_CMD_.LOCATE : Fld := ⟨3, 3⟩
def CAR_CMD_.CANCEL : Fld := ⟨2, 2⟩
def CAR_CMD_.INSERT : Fld := ⟨1, 1⟩
def CAR_CMD_.REMOVE : Fld := ⟨0, 0⟩
def CAR_STATE (i : Nat) : Nat := 0xA01008 + i * 0x1000
def CAR_STATE_.STATE : Fld := ⟨31, 28⟩
def CAR_STATE_.INDICATOR : Fld := ⟨27, 26⟩
def CAR_STATE_.PRESENT : Fld := ⟨25, 25⟩
def CAR_STATE_.POWER : Fld := ⟨24, 24⟩
def CAR_STATE_.BUTTON : Fld := ⟨23, 23⟩
def CAR_STATE_.RECON : Fld := ⟨22, 20⟩
def CAR_STATE_.REFUSE : Fld := ⟨19, 16⟩
def ECC_LADDER : Nat := 0xB00100
def ECC_LADDER_.SOFT_ITER : Fld := ⟨31, 24⟩
def ECC_LADDER_.HARD_ITER : Fld := ⟨23, 16⟩
def ECC_LADDER_.EARLY_PARITY : Fld := ⟨11, 8⟩
def ECC_LADDER_.MAX_STEP : Fld := ⟨3, 0⟩
def XTS_KEYS : Nat := 0xC00100
def XTS_KEYS_.LOADED : Fld := ⟨12, 0⟩
def XTS_SLOTS : Nat := 0xC00104
def XTS_SLOTS_.ENABLED : Fld := ⟨3, 0⟩
def PWR_CTRL : Nat := 0x1200100
def PWR_CTRL_.SENSE_EN : Fld := ⟨31, 31⟩
def PWR_CTRL_.FAIL_FILTER : Fld := ⟨7, 0⟩
def PWR_THRESH : Nat := 0x1200104
def PWR_THRESH_.ENTER : Fld := ⟨19, 10⟩
def PWR_THRESH_.ABORT : Fld := ⟨9, 0⟩
def PWR_BANK : Nat := 0x1200108
def PWR_BANK_.CAP_MF : Fld := ⟨63, 48⟩
def PWR_BANK_.VMIN_MV : Fld := ⟨47, 32⟩
def PWR_BANK_.SCALE_UV : Fld := ⟨31, 16⟩
def PWR_BANK_.FULL_MJ : Fld := ⟨15, 0⟩
def PWR_SENSE : Nat := 0x1200110
def PWR_SENSE_.BANK_MV : Fld := ⟨31, 16⟩
def PWR_SENSE_.CODE : Fld := ⟨9, 0⟩
def PWR_ENERGY : Nat := 0x1200114
def PWR_ENERGY_.AVAIL_MJ : Fld := ⟨31, 16⟩
def PWR_ENERGY_.FACTOR : Fld := ⟨8, 0⟩
def PWR_HORIZON : Nat := 0x1200128
def PWR_HORIZON_.STAGE_SPAN : Fld := ⟨15, 8⟩
def PWR_HORIZON_.LAG_GIB : Fld := ⟨7, 0⟩
def PWR_LASTSTOP : Nat := 0x1200130
def PWR_LASTSTOP_.FLUSH_US : Fld := ⟨63, 32⟩
def PWR_LASTSTOP_.KIND : Fld := ⟨31, 28⟩
def PWR_LASTSTOP_.COPIES : Fld := ⟨27, 26⟩
def PWR_LASTSTOP_.RESYNC : Fld := ⟨25, 0⟩
def PWR_HOLDUPS : Nat := 0x1200138
def PWR_TEMP : Nat := 0x1200140
def PWR_TEMP_.TEMP : Fld := ⟨15, 0⟩
def BPM_POOLSIZE : Nat := 0xE00120
def BPM_POOLSIZE_.POOL3 : Fld := ⟨31, 16⟩
def BPM_POOLSIZE_.POOL2 : Fld := ⟨15, 0⟩
def BPM_POOLSTAT (i : Nat) : Nat := 0xE00128 + i * 0x8
def BPM_POOLSTAT_.COUNT : Fld := ⟨63, 48⟩
def BPM_POOLSTAT_.FREE : Fld := ⟨47, 32⟩
def BPM_POOLSTAT_.LOWEST : Fld := ⟨31, 16⟩
def BPM_POOLSTAT_.WAITERS : Fld := ⟨15, 0⟩
def BPM_ALLOCREQ : Nat := 0xE00150
def BPM_ALLOCREQ_.MEM : Fld := ⟨31, 31⟩
def BPM_ALLOCREQ_.CLASS : Fld := ⟨29, 24⟩
def BPM_ALLOCREQ_.BYTES : Fld := ⟨19, 0⟩
def BPM_ALLOCRESP : Nat := 0xE00158
def BPM_ALLOCRESP_.STATE : Fld := ⟨63, 62⟩
def BPM_ALLOCRESP_.POOL : Fld := ⟨61, 60⟩
def BPM_ALLOCRESP_.ADDRESS : Fld := ⟨47, 0⟩
def BPM_RELEASE : Nat := 0xE00160
def BPM_RELEASE_.ADDRESS : Fld := ⟨47, 0⟩
def BPM_WAITS (i : Nat) : Nat := 0xE00170 + i * 0x4
def MAT_CMD : Nat := 0xF00100
def MAT_CMD_.OP : Fld := ⟨31, 28⟩
def MAT_CMD_.ADDR : Fld := ⟨16, 0⟩
def MAT_RESP : Nat := 0xF00120
def MAT_RESP_.STATE : Fld := ⟨63, 62⟩
def MAT_RESP_.REASON : Fld := ⟨61, 58⟩
def MAT_RESP_.HIT : Fld := ⟨48, 48⟩
def MAT_RESP_.ADDR : Fld := ⟨16, 0⟩
def SDC_GEOM : Nat := 0x1100100
def SDC_GEOM_.RATE : Fld := ⟨27, 24⟩
def SDC_GEOM_.REGISTERED : Fld := ⟨20, 20⟩
def SDC_GEOM_.WIDTH : Fld := ⟨16, 16⟩
def SDC_GEOM_.RANKS : Fld := ⟨12, 12⟩
def SDC_GEOM_.BG_BITS : Fld := ⟨9, 8⟩
def SDC_GEOM_.ROW_BITS : Fld := ⟨4, 0⟩
def SDC_MIRROR : Nat := 0x1100104
def SDC_MIRROR_.BASE : Fld := ⟨7, 0⟩
def HST_LINK (i : Nat) : Nat := 0x101000 + i * 0x1000
def HST_LINK_.UP : Fld := ⟨31, 31⟩
def HST_LINK_.FLIT : Fld := ⟨30, 30⟩
def HST_LINK_.RATE : Fld := ⟨23, 20⟩
def HST_LINK_.MAXRATE : Fld := ⟨19, 16⟩
def HST_LINK_.WIDTH : Fld := ⟨4, 0⟩
def HST_CTO (i : Nat) : Nat := 0x101004 + i * 0x1000
def HST_CTO_.CTO_US : Fld := ⟨15, 0⟩
def HST_TAGS (i : Nat) : Nat := 0x101008 + i * 0x1000
def HST_TAGS_.QUARANTINED : Fld := ⟨29, 16⟩
def HST_TAGS_.IN_USE : Fld := ⟨13, 0⟩
def BOT_STATUS : Nat := 0x1300100
def BOT_STATUS_.STAGE : Fld := ⟨63, 56⟩
def BOT_STATUS_.CODE : Fld := ⟨55, 48⟩
def BOT_STATUS_.SLOT : Fld := ⟨47, 46⟩
def BOT_STATUS_.REJECTED_A : Fld := ⟨45, 45⟩
def BOT_STATUS_.REJECTED_B : Fld := ⟨44, 44⟩
def BOT_STATUS_.PARK_US : Fld := ⟨31, 0⟩
def GRD_POLICY : Nat := 0x1400100
def GRD_POLICY_.LOCKED : Fld := ⟨63, 63⟩
def GRD_POLICY_.DEBUG : Fld := ⟨57, 56⟩
def GRD_POLICY_.SIGNERS : Fld := ⟨55, 52⟩
def GRD_POLICY_.KEYSLOTS : Fld := ⟨51, 48⟩
def GRD_POLICY_.FENCES : Fld := ⟨13, 0⟩
def GRD_LOCK : Nat := 0x1400108
def GRD_LOCK_.LOCK : Fld := ⟨0, 0⟩
def GRD_PART (i : Nat) : Nat := 0x1400110 + i * 0x8
def GRD_PART_.WRITE : Fld := ⟨63, 32⟩
def GRD_PART_.READ : Fld := ⟨31, 0⟩
def FUS_STATE : Nat := 0x1500108
def FUS_STATE_.MIN_SVN : Fld := ⟨63, 56⟩
def FUS_STATE_.REVOKED : Fld := ⟨55, 52⟩
def FUS_STATE_.SLOT_VALID : Fld := ⟨51, 48⟩
def FUS_STATE_.LIFECYCLE : Fld := ⟨43, 41⟩
def FUS_STATE_.SECRET_OK : Fld := ⟨40, 40⟩
def FUS_STATE_.SECRET_GATED : Fld := ⟨39, 39⟩
def FUS_PROG : Nat := 0x1500110
def FUS_PROG_.GO : Fld := ⟨31, 31⟩
def FUS_PROG_.BUSY : Fld := ⟨30, 30⟩
def FUS_PROG_.FAIL : Fld := ⟨29, 29⟩
def FUS_PROG_.BIT : Fld := ⟨11, 0⟩
def FWU_STATE : Nat := 0x1600100
def FWU_STATE_.PHASE : Fld := ⟨63, 60⟩
def FWU_STATE_.GROUP : Fld := ⟨59, 58⟩
def FWU_STATE_.CORE : Fld := ⟨57, 54⟩
def FWU_STATE_.OWNER : Fld := ⟨47, 32⟩
def FWU_STATE_.STAGED : Fld := ⟨11, 0⟩
def FWU_VERS : Nat := 0x1600108
def FWU_VERS_.COMMAND : Fld := ⟨47, 32⟩
def FWU_VERS_.MEDIA : Fld := ⟨31, 16⟩
def FWU_VERS_.HOUSEKEEPING : Fld := ⟨15, 0⟩
def FWU_CTRL : Nat := 0x1600110
def FWU_CTRL_.GAP_US : Fld := ⟨15, 0⟩
def EVT_FSTAT (f : Nat) : Nat := 0x100008000 + f * 0x10000
def EVT_FSTAT_.SEQ : Fld := ⟨63, 48⟩
def EVT_FSTAT_.ACK : Fld := ⟨47, 32⟩
def EVT_FSTAT_.REGION_DROPPED : Fld := ⟨6, 6⟩
def EVT_FSTAT_.UNITS_LOST : Fld := ⟨5, 5⟩
def EVT_FSTAT_.CAPACITY_CHANGED : Fld := ⟨4, 4⟩
def EVT_FSTAT_.NS_FENCED : Fld := ⟨3, 3⟩
def EVT_FSTAT_.DEFERRED_RAISED : Fld := ⟨2, 2⟩
def EVT_FSTAT_.MODE_CHANGED : Fld := ⟨1, 1⟩
def EVT_FSTAT_.RING_FAULT : Fld := ⟨0, 0⟩
def EVT_FEVTEN (f : Nat) : Nat := 0x100008008 + f * 0x10000
def EVT_FEVTEN_.ENABLE : Fld := ⟨31, 0⟩
def MOD_STATE : Nat := 0x1A00100
def MOD_STATE_.PREVIOUS : Fld := ⟨7, 4⟩
def MOD_STATE_.STATE : Fld := ⟨3, 0⟩
def MOD_REASON : Nat := 0x1A00104
def MOD_REASON_.REASONS : Fld := ⟨10, 0⟩
def MOD_HALT : Nat := 0x1A00108
def MOD_HALT_.CAUSE : Fld := ⟨63, 60⟩
def MOD_HALT_.LAST_CAUSE : Fld := ⟨59, 56⟩
def MOD_HALT_.ISLAND : Fld := ⟨55, 48⟩
def MOD_HALT_.DSEQ : Fld := ⟨47, 0⟩
def MOD_DSEQ : Nat := 0x1A00110
def MOD_DSEQ_.SEQ : Fld := ⟨63, 0⟩
def MOD_WDOG : Nat := 0x1A00118
def MOD_WDOG_.PERIOD : Fld := ⟨15, 0⟩
def MOD_HOURS : Nat := 0x1A00120
def EVT_LOGSTAT : Nat := 0x1700100
def EVT_LOGSTAT_.COUNT : Fld := ⟨16, 0⟩
def FRZ_CTRL : Nat := 0x1800100
def FRZ_CTRL_.FREEZE : Fld := ⟨0, 0⟩
def FRZ_IMAGE : Nat := 0x1800108
def FRZ_IMAGE_.WORDS : Fld := ⟨31, 0⟩
def FCE_FACE : Nat := 0x1900100
def FCE_FACE_.FACE : Fld := ⟨31, 30⟩
def FCE_FACE_.PWREN : Fld := ⟨7, 0⟩
def FCE_STRAPS : Nat := 0x1900104
def FCE_STRAPS_.RESERVED : Fld := ⟨6, 3⟩
def FCE_STRAPS_.FREEZE_CLK : Fld := ⟨2, 1⟩
def FCE_STRAPS_.CONSOLE : Fld := ⟨0, 0⟩
def MCH_LFSR (i : Nat) : Nat := 0x501000 + i * 0x1000
def MCH_LFSR_.STATE : Fld := ⟨31, 0⟩
def MCH_MISSES (i : Nat) : Nat := 0x50100C + i * 0x1000
def MCH_EVBHITS (i : Nat) : Nat := 0x501010 + i * 0x1000
def PLC_RAFALLBACK : Nat := 0x600114
def PLC_LOSTUNITS : Nat := 0x600118
def STG_INDEX : Nat := 0x700104
def STG_INDEX_.COUNT : Fld := ⟨15, 0⟩
def STG_GATHER : Nat := 0x700108
def STG_GATHER_.COUNT : Fld := ⟨15, 0⟩
def RCL_CAPACITY : Nat := 0x800120
def RCL_CAPACITY_.PAGEPLANES : Fld := ⟨39, 0⟩
def RCL_COMMITTED : Nat := 0x800128
def RCL_COMMITTED_.PAGEPLANES : Fld := ⟨39, 0⟩
def RCL_COPIES : Nat := 0x800144
def RCL_FORCED : Nat := 0x800148
def CHN_SUSPENDS (i : Nat) : Nat := 0x901020 + i * 0x1000
def CHN_GUARD (i : Nat) : Nat := 0x901024 + i * 0x1000
def CHN_TIMEOUTS (i : Nat) : Nat := 0x901028 + i * 0x1000
def CAR_EPOCH (i : Nat) : Nat := 0xA01010 + i * 0x1000
def CAR_EPOCH_.EPOCH : Fld := ⟨63, 0⟩
def CAR_ID (i : Nat) : Nat := 0xA01018 + i * 0x1000
def CAR_ID_.ID : Fld := ⟨63, 0⟩
def CAR_LEFT (i : Nat) : Nat := 0xA01020 + i * 0x1000
def CAR_LEFT_.UNITS : Fld := ⟨39, 0⟩
def ECC_LADDERHIST (i : Nat) : Nat := 0xB00200 + i * 0x4
def ECC_PARITYREC : Nat := 0xB00240
def ECC_UNCORR : Nat := 0xB00244
def ECC_INTERNAL : Nat := 0xB00248
def ECC_HARDCW (i : Nat) : Nat := 0xB01000 + i * 0x1000
def ECC_SOFTCW (i : Nat) : Nat := 0xB01004 + i * 0x1000
def XTS_LOADFAIL : Nat := 0xC00108
def XTS_ROUNDTRIP : Nat := 0xC0010C
def PWR_FLUSHLIM : Nat := 0x1200118
def PWR_FLUSHLIM_.MAP : Fld := ⟨63, 32⟩
def PWR_FLUSHLIM_.GATHER : Fld := ⟨31, 0⟩
def PWR_FLUSHSET : Nat := 0x1200120
def PWR_FLUSHSET_.MAP : Fld := ⟨63, 32⟩
def PWR_FLUSHSET_.GATHER : Fld := ⟨31, 0⟩
def BPM_POOLCFG (i : Nat) : Nat := 0xE00100 + i * 0x8
def BPM_POOLCFG_.HYST : Fld := ⟨63, 48⟩
def BPM_POOLCFG_.WARN1 : Fld := ⟨47, 32⟩
def BPM_POOLCFG_.WARN2 : Fld := ⟨31, 16⟩
def BPM_POOLCFG_.WARN3 : Fld := ⟨15, 0⟩
def BPM_QUOTA (i : Nat) : Nat := 0xE00400 + i * 0x8
def BPM_QUOTA_.CMD : Fld := ⟨63, 48⟩
def BPM_QUOTA_.TIER : Fld := ⟨47, 46⟩
def BPM_QUOTA_.SDRAM : Fld := ⟨39, 20⟩
def BPM_QUOTA_.SRAM : Fld := ⟨15, 0⟩
def BPM_USED (i : Nat) : Nat := 0xE00600 + i * 0x8
def BPM_USED_.CMD : Fld := ⟨63, 48⟩
def BPM_USED_.TIER : Fld := ⟨47, 46⟩
def BPM_USED_.SDRAM : Fld := ⟨39, 20⟩
def BPM_USED_.SRAM : Fld := ⟨15, 0⟩
def MAT_KEY : Nat := 0xF00108
def MAT_KEY_.KEY : Fld := ⟨63, 0⟩
def MAT_MASK : Nat := 0xF00110
def MAT_MASK_.MASK : Fld := ⟨63, 0⟩
def MAT_KEYHI : Nat := 0xF00118
def MAT_KEYHI_.MASKHI : Fld := ⟨15, 8⟩
def MAT_KEYHI_.KEYHI : Fld := ⟨7, 0⟩
def MAT_RESULT : Nat := 0xF0011C
def MAT_RESULT_.RESULT : Fld := ⟨31, 0⟩
def MAT_PARITY : Nat := 0xF00128
def MUL_RCTRL (r : Nat) : Nat := 0x1001000 + (r / 64) * 0x20000 + (r % 64) * 0x40
def MUL_RCTRL_.ENABLE : Fld := ⟨31, 31⟩
def MUL_RCTRL_.RESUME : Fld := ⟨30, 30⟩
def MUL_RCTRL_.KICK : Fld := ⟨29, 29⟩
def MUL_RCTRL_.SIZE_LOG2 : Fld := ⟨3, 0⟩
def MUL_RBASE (r : Nat) : Nat := 0x1001008 + (r / 64) * 0x20000 + (r % 64) * 0x40
def MUL_RBASE_.BASE : Fld := ⟨63, 12⟩
def MUL_RSTAT (r : Nat) : Nat := 0x1001010 + (r / 64) * 0x20000 + (r % 64) * 0x40
def MUL_RSTAT_.HALTED : Fld := ⟨31, 31⟩
def MUL_RSTAT_.PACED : Fld := ⟨30, 30⟩
def MUL_RSTAT_.ACTIVE : Fld := ⟨29, 29⟩
def MUL_RSTAT_.HEAD : Fld := ⟨11, 0⟩
def MUL_RERR (r : Nat) : Nat := 0x1001018 + (r / 64) * 0x20000 + (r % 64) * 0x40
def MUL_RERR_.DIR : Fld := ⟨63, 63⟩
def MUL_RERR_.KIND : Fld := ⟨62, 62⟩
def MUL_RERR_.ADDRESS : Fld := ⟨47, 0⟩
def MUL_RPACE (r : Nat) : Nat := 0x1001020 + (r / 64) * 0x20000 + (r % 64) * 0x40
def MUL_RPACE_.SRC : Fld := ⟨31, 30⟩
def MUL_RPACE_.HIGH : Fld := ⟨15, 8⟩
def MUL_RPACE_.LOW : Fld := ⟨7, 0⟩
def MUL_PACELEVEL (r : Nat) : Nat := 0x1001024 + (r / 64) * 0x20000 + (r % 64) * 0x40
def MUL_PACELEVEL_.LEVEL : Fld := ⟨7, 0⟩
def MUL_K7SRC (i : Nat) : Nat := 0x1011000 + i * 0x20
def MUL_K7SRC_.ADDRESS : Fld := ⟨63, 0⟩
def MUL_K7DST (i : Nat) : Nat := 0x1011008 + i * 0x20
def MUL_K7DST_.ADDRESS : Fld := ⟨63, 0⟩
def MUL_K7CNT (i : Nat) : Nat := 0x1011010 + i * 0x20
def MUL_K7CNT_.START : Fld := ⟨31, 31⟩
def MUL_K7CNT_.BUSY : Fld := ⟨30, 30⟩
def MUL_K7CNT_.ERR : Fld := ⟨29, 29⟩
def MUL_K7CNT_.COUNT : Fld := ⟨23, 0⟩
def SDC_BANKXOR (i : Nat) : Nat := 0x1100110 + i * 0x8
def SDC_BANKXOR_.MASK : Fld := ⟨39, 0⟩
def SDC_REFRESH : Nat := 0x1100130
def SDC_REFRESH_.TRFC : Fld := ⟨31, 16⟩
def SDC_REFRESH_.HOT_FORCE : Fld := ⟨0, 0⟩
def SDC_NREF : Nat := 0x1100134
def SDC_NREF_.DIST : Fld := ⟨8, 8⟩
def SDC_NREF_.EXP : Fld := ⟨4, 0⟩
def SDC_PAGE : Nat := 0x1100138
def SDC_PAGE_.POLICY : Fld := ⟨9, 8⟩
def SDC_PAGE_.IDLE : Fld := ⟨7, 0⟩
def SDC_ECCCTRL : Nat := 0x110013C
def SDC_ECCCTRL_.SCRUB_H : Fld := ⟨31, 24⟩
def SDC_ECCCTRL_.SPARE_THRESH : Fld := ⟨15, 0⟩
def SDC_CTRL (i : Nat) : Nat := 0x1101000 + i * 0x1000
def SDC_CTRL_.MODE : Fld := ⟨31, 30⟩
def SDC_STATE (i : Nat) : Nat := 0x1101008 + i * 0x1000
def SDC_STATE_.FAILED : Fld := ⟨31, 31⟩
def SDC_STATE_.HOT : Fld := ⟨30, 30⟩
def SDC_STATE_.DEV_VALID : Fld := ⟨29, 29⟩
def SDC_STATE_.DEV_RANK : Fld := ⟨28, 28⟩
def SDC_STATE_.DEV : Fld := ⟨27, 23⟩
def SDC_STATE_.MODE : Fld := ⟨1, 0⟩
def SDC_TCMD (i : Nat) : Nat := 0x1101020 + i * 0x1000
def SDC_TCMD_.OP : Fld := ⟨63, 60⟩
def SDC_TCMD_.SUB : Fld := ⟨59, 58⟩
def SDC_TCMD_.RANK : Fld := ⟨57, 57⟩
def SDC_TCMD_.OPERAND : Fld := ⟨15, 0⟩
def SDC_TRES (i : Nat) : Nat := 0x1101028 + i * 0x1000
def SDC_TRES_.FAIL_LO : Fld := ⟨63, 0⟩
def SDC_TRESHI (i : Nat) : Nat := 0x1101030 + i * 0x1000
def SDC_TRESHI_.DONE : Fld := ⟨31, 31⟩
def SDC_TRESHI_.MRR : Fld := ⟨23, 16⟩
def SDC_TRESHI_.FAIL_HI : Fld := ⟨15, 0⟩
def SDC_DQRD (i b : Nat) : Nat := 0x1101100 + i * 0x1000 + b * 4
def SDC_DQRD_.DELAY : Fld := ⟨11, 0⟩
def SDC_DQWR (i b : Nat) : Nat := 0x1101240 + i * 0x1000 + b * 4
def SDC_DQWR_.DELAY : Fld := ⟨11, 0⟩
def SDC_DQS (i b : Nat) : Nat := 0x1101380 + i * 0x1000 + b * 8
def SDC_DQS_.WL_R1 : Fld := ⟨59, 48⟩
def SDC_DQS_.WL_R0 : Fld := ⟨43, 32⟩
def SDC_DQS_.GATE_R1 : Fld := ⟨27, 16⟩
def SDC_DQS_.GATE_R0 : Fld := ⟨11, 0⟩
def SDC_CA0 (i b : Nat) : Nat := 0x1101500 + i * 0x1000 + b * 4
def SDC_CA0_.DELAY : Fld := ⟨11, 0⟩
def SDC_CA1 (i b : Nat) : Nat := 0x1101540 + i * 0x1000 + b * 4
def SDC_CA1_.DELAY : Fld := ⟨11, 0⟩
def SDC_CS (i b : Nat) : Nat := 0x1101580 + i * 0x1000 + b * 4
def SDC_CS_.DELAY : Fld := ⟨11, 0⟩
def SDC_CK (i b : Nat) : Nat := 0x1101590 + i * 0x1000 + b * 4
def SDC_CK_.DELAY : Fld := ⟨11, 0⟩
def SDC_VREF (i b : Nat) : Nat := 0x11015A0 + i * 0x1000 + b * 4
def SDC_VREF_.LEVEL : Fld := ⟨7, 0⟩
def SDC_CORR (i : Nat) : Nat := 0x1101010 + i * 0x1000
def SDC_UNCORR (i : Nat) : Nat := 0x1101014 + i * 0x1000
def SDC_NREFS (i : Nat) : Nat := 0x1101018 + i * 0x1000
def HST_TIMEOUTS (i : Nat) : Nat := 0x101010 + i * 0x1000
def HST_LATE (i : Nat) : Nat := 0x101014 + i * 0x1000
def HST_LINKDOWNS (i : Nat) : Nat := 0x101018 + i * 0x1000
def FUS_SERIAL : Nat := 0x1500100
def FUS_SERIAL_.SERIAL : Fld := ⟨63, 0⟩
def FUS_HASH (s j : Nat) : Nat := 0x1500140 + s * 0x40 + j * 4
def FUS_HASH_.HASH : Fld := ⟨31, 0⟩
def FWU_CASTLES : Nat := 0x1600118
def FWU_ABORTS : Nat := 0x160011C
def EVT_FILTER : Nat := 0x1700108
def EVT_FILTER_.MIN_SEVERITY : Fld := ⟨1, 0⟩
def EVT_CLRSTATS : Nat := 0x170010C
def EVT_CLRSTATS_.CLEAR : Fld := ⟨0, 0⟩
def EVT_OVERWRITTEN : Nat := 0x1700110
def EVT_MTFREJECT : Nat := 0x1700114
def HRD_CTRL : Nat := 0xD00100
def HRD_CTRL_.ETHERTYPE : Fld := ⟨63, 48⟩
def HRD_CTRL_.DEAD_TIME : Fld := ⟨47, 40⟩
def HRD_CTRL_.HEARTBEAT : Fld := ⟨39, 32⟩
def HRD_CTRL_.DEFER_LIMIT : Fld := ⟨31, 16⟩
def HRD_CTRL_.LEASE : Fld := ⟨15, 0⟩
def HRD_RETAIN : Nat := 0xD00108
def HRD_RETAIN_.SWEEP_SHARE : Fld := ⟨47, 40⟩
def HRD_RETAIN_.RETAIN : Fld := ⟨39, 32⟩
def HRD_RETAIN_.MISSLOG_MAX : Fld := ⟨31, 0⟩
def HRD_IDENT : Nat := 0xD00110
def HRD_IDENT_.FLOCK : Fld := ⟨63, 48⟩
def HRD_IDENT_.HERD : Fld := ⟨47, 32⟩
def HRD_IDENT_.JOINED : Fld := ⟨31, 31⟩
def HRD_IDENT_.SELF : Fld := ⟨12, 0⟩
def HRD_EPOCH : Nat := 0xD00118
def HRD_EPOCH_.EPOCH : Fld := ⟨63, 0⟩
def HRD_VERSION : Nat := 0xD00120
def HRD_VERSION_.HERD_VERSION : Fld := ⟨31, 16⟩
def HRD_VERSION_.LOWEST : Fld := ⟨15, 0⟩
def HRD_JOBS : Nat := 0xD00124
def HRD_JOBS_.JOBS : Fld := ⟨18, 0⟩
def HRD_SWEEPLEFT : Nat := 0xD00128
def HRD_SWEEPLEFT_.STRIPES : Fld := ⟨39, 0⟩
def HRD_MAPREJECT : Nat := 0xD00130
def HRD_PORT (i : Nat) : Nat := 0xD01000 + i * 0x1000
def HRD_PORT_.LINK : Fld := ⟨31, 31⟩
def HRD_PORT_.ENABLE : Fld := ⟨30, 30⟩
def HRD_PORT_.AN : Fld := ⟨29, 29⟩
def HRD_PORT_.VID : Fld := ⟨11, 0⟩
def HRD_MAC (i : Nat) : Nat := 0xD01008 + i * 0x1000
def HRD_MAC_.MAC : Fld := ⟨47, 0⟩
def HRD_RXDROP (i : Nat) : Nat := 0xD01010 + i * 0x1000
def HRD_RETX (i : Nat) : Nat := 0xD01014 + i * 0x1000
/-- ID of window `w`. -/
def HDR_ID (w : Nat) : Nat := 0x0 + w * 0x100000
/-- KEY of window `w`. -/
def HDR_KEY (w : Nat) : Nat := 0x8 + w * 0x100000
/-- ACCESS of window `w`. -/
def HDR_ACCESS (w : Nat) : Nat := 0xC + w * 0x100000
/-- STAT of window `w`. -/
def HDR_STAT (w : Nat) : Nat := 0x10 + w * 0x100000
/-- EVTEN of window `w`. -/
def HDR_EVTEN (w : Nat) : Nat := 0x18 + w * 0x100000

end Reg

/-- The names of the statistics counters that EVT_CLRSTATS clears: those whose reset does not say "restored from
device records" (R506). The MISMATCH_COUNT of every header is one more (R48). -/
def clearedCounters : List String :=
  ["HST_REGERRCNT", "HST_DBDROP", "ORD_COARSENED", "ORD_STALLS", "MAP_KEYROLLS", "MAP_SEALFAIL",
   "MAP_HOSTERR", "MCH_HITS", "PLC_RACOUNT", "PLC_PSTRIPES", "STG_PADS", "BPM_WAITS",
   "MCH_MISSES", "MCH_EVBHITS", "PLC_RAFALLBACK", "PLC_LOSTUNITS", "RCL_COPIES", "RCL_FORCED",
   "CHN_SUSPENDS", "CHN_GUARD", "CHN_TIMEOUTS", "ECC_LADDERHIST", "ECC_PARITYREC", "ECC_UNCORR",
   "ECC_INTERNAL", "ECC_HARDCW", "ECC_SOFTCW", "XTS_LOADFAIL", "XTS_ROUNDTRIP", "MAT_PARITY",
   "SDC_CORR", "SDC_UNCORR", "SDC_NREFS", "HST_TIMEOUTS", "HST_LATE", "HST_LINKDOWNS",
   "FWU_CASTLES", "FWU_ABORTS", "EVT_OVERWRITTEN", "EVT_MTFREJECT", "HRD_MAPREJECT", "HRD_RXDROP",
   "HRD_RETX"]

end Sys2Proof.Machine
end

