-- ==== Sys2Proof/Machine/Ops.lean ====
section
/-! DEFINITION. The named operations over tables, registers, memory and free values that every meaning uses. -/

namespace Sys2Proof

/-- A port's number: 0 for A, 1 for B. -/
def Port.num : Port → Nat
  | .a => 0
  | .b => 1

/-- The port with a number. -/
def Port.ofNum (n : Nat) : Port :=
  if n = 0 then .a else .b

/-- A function's key: port × 512 + index. -/
def Fn.key (f : Fn) : Nat :=
  f.port.num * 512 + f.idx

/-- The function with a key. -/
def Fn.ofKey (k : Nat) : Fn :=
  { port := Port.ofNum (k / 512), idx := k % 512 }

/-- The port through which an access came; cores and the MTF reach Port A's copies (R48). -/
def Source.port : Source → Port
  | .pf p => p
  | _ => .a

/-- Whether a source is a core. -/
def Source.isCore : Source → Bool
  | .core _ => true
  | _ => false

end Sys2Proof

namespace Sys2Proof.Machine

open Sys2Proof

/-! ## Sparse tables -/

/-- The entry under a key. -/
def SMap.look {α : Type} : SMap α → Nat → Option α
  | [], _ => none
  | (k', v) :: m, k => if k' = k then some v else SMap.look m k

/-- Write the entry under a key, keeping the keys rising. -/
def SMap.put {α : Type} : SMap α → Nat → α → SMap α
  | [], k, v => [(k, v)]
  | (k', v') :: m, k, v =>
    if k < k' then (k, v) :: (k', v') :: m
    else if k = k' then (k, v) :: m
    else (k', v') :: SMap.put m k v

/-- Remove the entry under a key. -/
def SMap.del {α : Type} (m : SMap α) (k : Nat) : SMap α :=
  m.filter fun e => decide (e.1 ≠ k)

/-- Change the entry under a key, if there is one. -/
def SMap.upd {α : Type} (m : SMap α) (k : Nat) (f : α → α) : SMap α :=
  m.map fun e => if e.1 = k then (e.1, f e.2) else e

/-- The keys, rising. -/
def SMap.keys {α : Type} (m : SMap α) : List Nat :=
  m.map fun e => e.1

/-- The lowest number not a key, from `n` on. -/
def SMap.freeFrom {α : Type} : Nat → SMap α → Nat → Nat
  | 0, _, n => n
  | fuel + 1, m, n => if (m.look n).isSome then SMap.freeFrom fuel m (n + 1) else n

/-- The lowest number from `n` on that is not a key. -/
def SMap.firstFree {α : Type} (m : SMap α) (n : Nat) : Nat :=
  SMap.freeFrom (m.length + 1) m n

/-! ## Fabric memory (R413, R429): what a byte that nothing has written reads as is 0 (log entry 6) -/

/-- Whether the listed cells stand in rising order after address `lo`, none of them 0. -/
def ramWfFrom : Nat → List Host.Cell → Bool
  | _, [] => true
  | lo, (a, b) :: m => decide (lo ≤ a) && decide (b ≠ 0) && ramWfFrom (a + 1) m

/-- The canonical form of fabric memory. -/
def Memory.wf (m : List Host.Cell) : Bool :=
  ramWfFrom 0 m

/-- The byte at an address. -/
def readByte : List Host.Cell → Nat → Byte
  | [], _ => 0
  | (k, v) :: m, a => if k = a then v else readByte m a

/-- Write a byte, keeping the canonical form. -/
def writeByte : List Host.Cell → Nat → Byte → List Host.Cell
  | [], a, b => if b = 0 then [] else [(a, b)]
  | (k, v) :: m, a, b =>
    if a < k then (if b = 0 then (k, v) :: m else (a, b) :: (k, v) :: m)
    else if a = k then (if b = 0 then m else (a, b) :: m)
    else (k, v) :: writeByte m a b

/-- Read `n` bytes. -/
def readBytes (m : List Host.Cell) (a : Nat) : Nat → List Byte
  | 0 => []
  | n + 1 => readByte m a :: readBytes m (a + 1) n

/-- Write bytes from an address on. -/
def writeBytes (m : List Host.Cell) (a : Nat) : List Byte → List Host.Cell
  | [] => m
  | b :: bs => writeBytes (writeByte m a b) (a + 1) bs

/-- Bytes as a little-endian number (R10). -/
def leNat : List Byte → Nat
  | [] => 0
  | b :: bs => b.toNat + 256 * leNat bs

/-- A number as `n` little-endian bytes (R10). -/
def leBytes : Nat → Nat → List Byte
  | 0, _ => []
  | n + 1, v => BitVec.ofNat 8 v :: leBytes n (v / 256)

/-! ## Free values -/

/-- Take the next free value (log entry 1). -/
def State.takeFree (s : State) : DWord × State :=
  (Config.freeWord s.free, { s with free := s.free + 1 })

/-! ## Registers -/

/-- The stored value of the register at a flat address. -/
def State.reg (s : State) (a : Nat) : DWord :=
  (s.regs.look a).getD (regReset a)

/-- Store a register's value; a register at its reset value is not listed. -/
def regsSet (m : SMap DWord) (a : Nat) (v : DWord) : SMap DWord :=
  if v = regReset a then m.del a else m.put a v

/-- Store a register's value. -/
def State.setReg (s : State) (a : Nat) (v : DWord) : State :=
  { s with regs := regsSet s.regs a v }

/-- A field's value within a word. -/
def Fld.get (f : Fld) (v : DWord) : Nat :=
  (v >>> f.lo).toNat % 2 ^ (f.hi - f.lo + 1)

/-- A word with a field replaced. -/
def Fld.set (f : Fld) (v : DWord) (n : Nat) : DWord :=
  (v &&& ~~~(bitsMask f.hi f.lo)) ||| (BitVec.ofNat 64 (n % 2 ^ (f.hi - f.lo + 1)) <<< f.lo)

/-- A register field's value. -/
def State.fld (s : State) (a : Nat) (f : Fld) : Nat :=
  f.get (s.reg a)

/-- Write a register field. -/
def State.setFld (s : State) (a : Nat) (f : Fld) (n : Nat) : State :=
  s.setReg a (f.set (s.reg a) n)

/-- The COUNT and OVF fields of a statistics counter. -/
def ctrCount : Fld := ⟨30, 0⟩

def ctrOvf : Fld := ⟨31, 31⟩

/-- The value of a statistics counter advanced by `n`: it sticks at its maximum and sets OVF there (R504). -/
def counterAdd (v : DWord) (n : Nat) : DWord :=
  let c := min (ctrCount.get v + n) (2 ^ 31 - 1)
  BitVec.ofNat 64 (c + if c = 2 ^ 31 - 1 then 2 ^ 31 else 0)

/-- Advance a statistics counter (R504). -/
def State.count (s : State) (a : Nat) (n : Nat) : State :=
  s.setReg a (counterAdd (s.reg a) n)

/-! ## Functions, ports, sources -/

/-- A function as its reset leaves it (R446, R459). -/
def FnState.reset : FnState :=
  { memorySpace := false, busMaster := false, parityResp := false, serr := false, msixEnable := false,
    funcMask := false, tag10 := false, d3hot := false, enableHeld := false, aer := 0, maxSq := 255, maxCq := 255, cls := 0,
    errLog := [] }

/-- The state of a function. -/
def State.fnOf (s : State) (k : Nat) : FnState :=
  (s.hosts.fns.look k).getD FnState.reset

/-- Write the state of a function. -/
def State.setFn (s : State) (k : Nat) (x : FnState) : State :=
  { s with hosts := { s.hosts with fns := s.hosts.fns.put k x } }

/-- The state of a port. -/
def State.portOf (s : State) (p : Port) : PortState :=
  (s.hosts.ports.look p.num).getD PortState.reset

/-- Write the state of a port. -/
def State.setPort (s : State) (p : Port) (x : PortState) : State :=
  { s with hosts := { s.hosts with ports := s.hosts.ports.put p.num x } }

/-- Whether a function exists: a physical function always, a VF while VF Enable is 1 and NumVFs covers it (R447, R448). -/
def State.fnExists (s : State) (f : Fn) : Bool :=
  decide (f.idx = 0) ||
    ((s.portOf f.port).vfEnable && decide (f.idx ≤ (s.portOf f.port).numVFs) && decide (f.idx < 512))

/-- Whether a function answers memory requests: its port is up, Memory Space Enable governs it, and it is in D0
(R445, R446, R459). -/
def State.fnAnswers (s : State) (f : Fn) : Bool :=
  s.fnExists f && !(s.portOf f.port).inReset && !(s.fnOf f.key).d3hot &&
    (if f.idx = 0 then (s.fnOf f.key).memorySpace else (s.portOf f.port).vfMse)

/-- The keys of every function that exists. -/
def State.fnKeys (s : State) : List Nat :=
  [0, 512] ++ ([Port.a, Port.b].flatMap fun p =>
    if (s.portOf p).vfEnable then (List.range (s.portOf p).numVFs).map fun n => p.num * 512 + n + 1 else [])

/-- The key of a ring: function key × 65,536 + ring index. -/
def ringKey (fk ring : Nat) : Nat :=
  fk * 65536 + ring

/-! ## Modes (R493, R494) -/

/-- The mode codes of Table 1 of the modes chapter. -/
def modeBoot : Nat := 0
def modeServe : Nat := 1
def modeDegraded : Nat := 2
def modeCastling : Nat := 3
def modeHoldup : Nat := 4
def modeFrozen : Nat := 5

/-- The mode that MOD_STATE reports. -/
def State.mode (s : State) : Nat :=
  s.fld Reg.MOD_STATE Reg.MOD_STATE_.STATE

/-- Whether the N9 runs: out of chip reset, with its system reference, and its clocks are not stopped by freeze, halt
or the end of a flush (R18, R500, R502, R512). -/
def State.running (s : State) : Bool :=
  !s.pins.resetLow && s.pins.sysClock && !s.pins.frozen && !s.pins.stopped

/-- Whether everything but what the flush needs runs: the ports, the cores and the engines stop in HOLDUP (R369, R371). -/
def State.up (s : State) : Bool :=
  s.running && decide (s.mode ≠ modeHoldup)

/-- Whether the N9 serves commands: in SERVE, DEGRADED or CASTLING (R34). -/
def State.serving (s : State) : Bool :=
  s.running && decide (s.mode = modeServe ∨ s.mode = modeDegraded ∨ s.mode = modeCastling)

/-- Answer the effect as the next state when the event can occur, the state unchanged otherwise (log entry 7). -/
def answer (p : Bool) (s t : State) : Host.Outcome State Fault Refusal :=
  .next (if p then t else s)

/-! ## Islands (R21, R517) -/

/-- The home island of a register by its flat address (Table 4 of the register model, Table 2 of the freeze chapter).
`p` is the port through which the access came, for the HST_ header. -/
def islandOf (a : Nat) (p : Port) : Nat :=
  let w := a / 0x100000
  let off := a % 0x100000
  let inst (n stride base : Nat) : Nat := if off < 0x1000 then base else base + min ((off - 0x1000) / stride) (n - 1)
  if a ≥ 0x1_0000_0000 then 140 + (if a < 0x2_0000_0000 then (a - 0x1_0000_0000) / 0x200_0000 else 70)
  else if w = 0 then 140 + p.num
  else if w = 1 then
    if 0x200 ≤ off ∧ off < 0x220 then 140 + (off - 0x200) / 0x10
    else if 0x800 ≤ off ∧ off < 0x900 then 140
    else if 0x900 ≤ off ∧ off < 0xA00 then 141
    else if off < 0x100 then 140 + p.num
    else inst 2 0x1000 140
  else if w = 2 then inst 2 0x1000 202
  else if w = 3 then 204
  else if w = 4 then 204
  else if w = 5 then inst 4 0x1000 185
  else if w = 6 then (if off < 0x1000 then 205 else inst 4 0x1000 177)
  else if w = 7 then inst 8 0x1000 189
  else if w = 8 then 150
  else if w = 9 then inst 128 0x1000 0
  else if w = 10 then 210
  else if w = 11 then inst 16 0x1000 153
  else if w = 12 then inst 8 0x1000 169
  else if w = 13 then inst 4 0x1000 142
  else if w = 14 then 201
  else if w = 15 then inst 4 0x1000 181
  else if w = 16 then inst 4 0x20000 197
  else if w = 17 then inst 12 0x1000 128
  else if w = 18 then 211
  else if w = 19 ∨ w = 20 ∨ w = 21 then 152
  else if w = 22 ∨ w = 23 then 151
  else if w = 63 ∨ w = 27 then 140 + p.num
  else 210

/-- Whether an island is isolated (R21). -/
def State.isIsolated (s : State) (island : Nat) : Bool :=
  s.isolated.contains island

/-- Isolate an island (R21). -/
def State.isolate (s : State) (island : Nat) : State :=
  { s with isolated := if s.isolated.contains island then s.isolated else island :: s.isolated }

/-- Record what the N9 sends or drives (log entry 2). -/
def State.emit (s : State) (o : Out) : State :=
  { s with out := s.out ++ [o] }

end Sys2Proof.Machine
end

