-- ==== Sys2Proof/Machine/Flags.lean ====
section
/-! DEFINITION. The computations of the status registers: events with their sequence stamps (R55 to R58), MSI-X
signalling (R446), the event log (R507, R551), the device sequence number (R505), modes and reasons (R494, R496). -/

namespace Sys2Proof.Machine

open Sys2Proof

/-! ## Sequence stamps -/

/-- a is at or before b, for 16-bit sequence numbers (R505). -/
def seqLe16 (a b : Half) : Bool :=
  decide ((b - a).toNat < 32768)

/-- R58: a stamp that SEQ has moved 32,767 past is advanced with it. -/
def ageStamp (seq stamp : Half) : Half :=
  if (seq - stamp).toNat > 32767 then seq - 32767 else stamp

/-- An occurrence of event `b` (R55): SEQ advances, the bit takes it as its stamp, old stamps are kept up (R58). -/
def StatReg.event (r : StatReg) (b : Nat) : StatReg :=
  let seq := r.seq + 1
  { seq := seq, stamps := (SMap.put r.stamps b seq).map fun e => (e.1, ageStamp seq e.2) }

/-- Whether an ACK value lies ahead of SEQ (R56). -/
def StatReg.ackAhead (r : StatReg) (a : Half) : Bool :=
  decide ((r.seq - a).toNat ≥ 32768)

/-- The effect of an ACK value not ahead of SEQ (R56). -/
def StatReg.ack (r : StatReg) (a : Half) : StatReg :=
  { r with stamps := r.stamps.filter fun e => decide ((a - e.2).toNat ≥ 32768) }

/-- Whether an event bit is set. -/
def StatReg.isSet (r : StatReg) (b : Nat) : Bool :=
  (SMap.look r.stamps b).isSome

/-- What a read of a status register returns (R55; ACK reads 0). -/
def StatReg.value (r : StatReg) : DWord :=
  r.stamps.foldl (fun v e => v ||| ((1 : DWord) <<< e.1)) (BitVec.ofNat 64 (r.seq.toNat * 2 ^ 48))

/-- A status register; one without an event since reset is not listed. -/
def State.statOf (s : State) (a : Nat) : StatReg :=
  (s.stat.look a).getD { seq := 0, stamps := [] }

/-- Write a status register. -/
def State.setStat (s : State) (a : Nat) (r : StatReg) : State :=
  { s with stat := s.stat.put a r }

/-! ## MSI-X (R446) -/

/-- The key of a vector of a function. -/
def vecKey (fk v : Nat) : Nat :=
  fk * 2048 + v

/-- An MSI-X vector; out of reset masked and not pending (R446). -/
def State.vecOf (s : State) (fk v : Nat) : Vec :=
  (s.hosts.vecs.look (vecKey fk v)).getD { addr := 0, data := 0, masked := true, pend := false }

/-- Write an MSI-X vector. -/
def State.setVec (s : State) (fk v : Nat) (x : Vec) : State :=
  { s with hosts := { s.hosts with vecs := s.hosts.vecs.put (vecKey fk v) x } }

/-- Whether a message of the vector may be sent now (R446; R445 for D3hot). -/
def State.mayMessage (s : State) (fk v : Nat) : Bool :=
  let f := s.fnOf fk
  f.msixEnable && !f.funcMask && !(s.vecOf fk v).masked && f.busMaster && !f.d3hot

/-- Signal a vector: send the message, or set the pending bit (R446). -/
def State.message (s : State) (fk v : Nat) : State :=
  if s.mayMessage fk v then s.emit (.msix (Fn.ofKey fk) v)
  else s.setVec fk v { s.vecOf fk v with pend := true }

/-- Send one pending message whose conditions hold (R446). -/
def State.sendPending (s : State) (fk v : Nat) : State :=
  if (s.vecOf fk v).pend && s.mayMessage fk v then
    (s.setVec fk v { s.vecOf fk v with pend := false }).emit (.msix (Fn.ofKey fk) v)
  else s

/-- Send every pending message of a function whose conditions hold (R446, R457). -/
def State.sendAllPending (s : State) (fk : Nat) : State :=
  { s with
    hosts := { s.hosts with
      vecs := s.hosts.vecs.map fun e =>
        if e.1 / 2048 = fk ∧ e.2.pend ∧ s.mayMessage fk (e.1 % 2048) then (e.1, { e.2 with pend := false }) else e }
    out := s.out ++ (s.hosts.vecs.filterMap fun e =>
      if e.1 / 2048 = fk ∧ e.2.pend ∧ s.mayMessage fk (e.1 % 2048) then some (.msix (Fn.ofKey fk) (e.1 % 2048)) else none) }

/-! ## Events -/

/-- Raise event `b` of the status register at `sa` whose enables are at `ea`. -/
def State.raiseAt (s : State) (sa ea b : Nat) : State :=
  let s := s.setStat sa ((s.statOf sa).event b)
  if (s.reg ea).getLsbD b then s.emit (.signal sa b) else s

/-- The status register of a block window; HST_STAT of Port A is that of window 1 (R48). -/
def statAddr (w : Nat) : Nat := Reg.HDR_STAT w

/-- Raise event `b` of block window `w` (R48, R55). -/
def State.raise (s : State) (w b : Nat) : State :=
  s.raiseAt (Reg.HDR_STAT w) (Reg.HDR_EVTEN w) b

/-- The header of the HST_ copy of a port: offset from the window's own header (R48). -/
def hstStat (p : Port) : Nat :=
  match p with
  | .a => Reg.HDR_STAT 1
  | .b => 0x100910

def hstEvten (p : Port) : Nat :=
  match p with
  | .a => Reg.HDR_EVTEN 1
  | .b => 0x100918

/-- Raise event `b` of HST_STAT of a port. -/
def State.raiseHst (s : State) (p : Port) (b : Nat) : State :=
  s.raiseAt (hstStat p) (hstEvten p) b

/-- Raise function event `b` of a function: signalled on the administrative completion ring's vector (R510). -/
def State.raiseFn (s : State) (fk b : Nat) : State :=
  let sa := Reg.EVT_FSTAT fk
  let s := s.setStat sa ((s.statOf sa).event b)
  if (s.reg (Reg.EVT_FEVTEN fk)).getLsbD b && decide (b < 7) then
    s.message fk (s.fld (Reg.CCP_ASIZE fk) Reg.CCP_ASIZE_.VECTOR)
  else s

/-- Raise a function event of several functions. -/
def State.raiseFns (s : State) (fks : List Nat) (b : Nat) : State :=
  fks.foldl (fun s fk => s.raiseFn fk b) s

/-- Raise a function event of every function that a namespace is attached to (R510). -/
def State.raiseNs (s : State) (nsid b : Nat) : State :=
  match s.nss.look nsid with
  | some n => s.raiseFns (n.attached.map Fn.key) b
  | none => s

/-! ## Sequence numbers and the event log -/

/-- Give the next stamp of the device sequence number: it advances by one for each stamp (R505; log entry 8). -/
def State.nextStamp (s : State) : DWord :=
  s.reg Reg.MOD_DSEQ + 1

/-- Advance the device sequence number by `n` stamps (R505). -/
def State.takeStamps (s : State) (n : Nat) : State :=
  s.setReg Reg.MOD_DSEQ (s.reg Reg.MOD_DSEQ + BitVec.ofNat 64 n)

/-- The severity that a kind fixes (R551). -/
def severityOf (kind : Nat) : Nat :=
  if kind = 0 ∨ kind = 1 ∨ kind = 2 ∨ kind = 4 ∨ kind = 5 then 1
  else if kind = 3 ∨ kind = 7 then 2
  else if kind = 6 then 3
  else 0

/-- The most entries the event log holds (R507). -/
def evlogMax : Nat := 65536

/-- Record an event (R507, Table 8). TIME is a free value (log entry 1). -/
def State.record (s : State) (window unit kind detail : Nat) (data : List Byte) : State :=
  if severityOf kind < s.fld Reg.EVT_FILTER Reg.EVT_FILTER_.MIN_SEVERITY then s
  else
    let e : LogEntry := { seq := s.nextStamp, time := Config.freeWord s.free, window := window, unit := unit,
                          kind := kind, detail := detail, severity := severityOf kind, data := data }
    let t : State := { s.takeStamps 1 with free := s.free + 1 }
    if s.evlog.length < evlogMax then { t with evlog := s.evlog ++ [e] }
    else
      let t : State := { t with evlog := s.evlog.drop 1 ++ [e] }
      let t := if t.fld Reg.EVT_OVERWRITTEN ctrCount = 0 then t.raise 23 16 else t
      t.count Reg.EVT_OVERWRITTEN 1

/-- Raise a block event and record it with kind 0x00 (R507). -/
def State.raiseRecord (s : State) (w b unit : Nat) (data : List Byte) : State :=
  (s.raise w b).record w unit 0 b data

/-! ## Modes and reasons -/

/-- Enter a mode (R494) with its face (R522): PREVIOUS, MODE_CHANGED of the block and of every function, an event of kind 0x01. -/
def State.enterMode (s : State) (m : Nat) : State :=
  if s.mode = m then s
  else
    let v := Reg.MOD_STATE_.PREVIOUS.set (s.reg Reg.MOD_STATE) s.mode
    let s := s.setReg Reg.MOD_STATE (Reg.MOD_STATE_.STATE.set v m)
    let face := if m = modeFrozen then Face.freeze else if m = modeHoldup ∨ m = modeBoot then s.pins.face else Face.slot
    let s : State := { s with pins := { s.pins with face := face } }
    let s := s.raise 26 16
    let s := s.raiseFns s.fnKeys 1
    s.record 26 0 1 m []

/-- The reasons of MOD_REASON (R496). -/
def State.reasons (s : State) : Nat :=
  s.fld Reg.MOD_REASON Reg.MOD_REASON_.REASONS

/-- The mode that the reasons give in service: SERVE without a reason, DEGRADED with one (R494). -/
def State.serviceMode (s : State) : Nat :=
  if s.reasons = 0 then modeServe else modeDegraded

/-- Follow the reasons in SERVE and DEGRADED (R494). -/
def State.followReasons (s : State) : State :=
  if s.mode = modeServe ∨ s.mode = modeDegraded then s.enterMode s.serviceMode else s

/-- Set or clear a reason bit as its condition holds or ends (R496). -/
def State.reason (s : State) (r : Nat) (holds : Bool) : State :=
  if (s.reg Reg.MOD_REASON).getLsbD r = holds then s
  else
    let v := s.reg Reg.MOD_REASON
    let s := s.setReg Reg.MOD_REASON (if holds then v ||| ((1 : DWord) <<< r) else v &&& ~~~((1 : DWord) <<< r))
    let s := s.raise 26 (if holds then 17 else 18)
    let s := s.record 26 0 2 r []
    s.followReasons

/-- The reasons of Table 3 by name. -/
def reasonPort (p : Port) : Nat := p.num
def reasonRedundancy : Nat := 2
def reasonCapacity : Nat := 3
def reasonHerd : Nat := 4
def reasonHoldup : Nat := 5
def reasonMemory : Nat := 6
def reasonCore : Nat := 7
def reasonPeerPort : Nat := 8
def reasonJournal : Nat := 9
def reasonThermal : Nat := 10

/-- Record a single fault: an event of kind 0x03 with its row of Table 4 and the failed part (R497, R551). -/
def State.recordFault (s : State) (window unit row : Nat) (part : List Byte) : State :=
  s.record window unit 3 0 (BitVec.ofNat 8 row :: part)

/-- Count an error-free event on a port's register-error record (R69). -/
def State.regError (s : State) (p : Port) (cause : Nat) (write : Bool) (offset : Nat) : State :=
  let a := Reg.HST_REGERR p.num
  let v := (BitVec.ofNat 64 (s.statOf (hstStat p)).seq.toNat <<< 48) ||| (BitVec.ofNat 64 (cause % 16) <<< 44) |||
    (if write then (1 : DWord) <<< 43 else 0) ||| BitVec.ofNat 64 (offset % 2 ^ 26)
  (s.setReg a v).count (Reg.HST_REGERRCNT p.num) 1

end Sys2Proof.Machine
end

