-- ==== Sys2Proof/Machine/RegAccess.lean ====
section
/-! DEFINITION. How a register access is served: windows, partitions (R478), keyed unlock (R49 to R54), sequence
clearing (R56), the error responses (R46, R64 to R69) and the generic effect of a write on a register's fields (R12, R13). -/

namespace Sys2Proof.Machine

open Sys2Proof

/-! ## Windows -/

/-- The block window of a flat address; function windows and task registers lie in none (R40, R43). -/
def windowOf (a : Nat) : Nat :=
  if a < 0x400_0000 then a / 0x100000 else 64

/-- The flat address that a BAR0 offset reaches for a source: window 27 is the function's own window, the HST_ header
is the copy of the port, and its aliases name a copy (R40, R48). -/
def resolve (src : Source) (a : Nat) : Nat :=
  let p := match src with | .pf p => p | _ => .a
  if windowOf a = 27 ∧ a % 0x100000 < 0x10000 then
    0x1_0000_0000 + p.num * 512 * 0x10000 + a % 0x10000
  else if windowOf a = 1 then
    let off := a % 0x100000
    if off < 0x100 then (if p = .b then a + 0x900 else a)
    else if 0x800 ≤ off ∧ off < 0x900 then a - 0x800
    else a
  else a

/-- The guard-set partition of a source (R478): none for the boot core. -/
def partitionOf : Source → Option Nat
  | .pf .a => some 3
  | .pf .b => some 4
  | .mtf => some 5
  | .core c =>
    match c.group with
    | .housekeeping => some 0
    | .media => some 1
    | .command => some 2
    | .boot => none

/-- Whether a source's partition permits an access to a window (R478). -/
def State.permitted (s : State) (src : Source) (w : Nat) (write : Bool) : Bool :=
  match partitionOf src with
  | none => true
  | some g =>
    if 1 ≤ w ∧ w ≤ 26 then
      (!write && ((!src.isCore && decide (w = 1 ∨ w = 26)) || (src.isCore && decide (19 ≤ w ∧ w ≤ 21)))) ||
        (s.reg (Reg.GRD_PART g)).getLsbD (if write then 32 + w else w)
    else true

/-- Whether BAR0 window `w` is served in BOOT (R68). -/
def servedInBoot (w : Nat) (write : Bool) : Bool :=
  decide (w = 0 ∨ w = 1 ∨ w = 26 ∨ w = 27 ∨ w = 63 ∨ w = 64) || (!write && decide (w = 19 ∨ w = 21))

/-- Whether a request's size and alignment are accepted (R46). -/
def sizeOk (a size : Nat) : Bool :=
  decide ((size = 4 ∧ a % 4 = 0) ∨ (size = 8 ∧ a % 8 = 0))

/-- The debug level in force; 0b11 is taken as 0b10 (R477, Table 21 of the boot chapter). -/
def State.debugLevel (s : State) : Nat :=
  min 2 (s.fld Reg.GRD_POLICY Reg.GRD_POLICY_.DEBUG)

/-- Whether the guard lock is set (R481). -/
def State.guardLocked (s : State) : Bool :=
  (s.reg Reg.GRD_POLICY).getLsbD 63

/-! ## Keyed unlock -/

/-- Whether a source holds an arming for a window (R49). -/
def State.isArmed (s : State) (src : Source) (w : Nat) : Bool :=
  s.armed.contains (src, w)

/-- End a source's arming for a window. -/
def State.disarm (s : State) (src : Source) (w : Nat) : State :=
  { s with armed := s.armed.filter fun e => decide (e ≠ (src, w)) }

/-- End every arming of a source (R53). -/
def State.disarmAll (s : State) (src : Source) : State :=
  { s with armed := s.armed.filter fun e => decide (e.1 ≠ src) }

/-- MISMATCH_COUNT advanced: a 16-bit statistics counter with its OVF bit (R48, R504). -/
def mismatchAdd (v : DWord) : DWord :=
  let c := min ((v.toNat % 65536) + 1) 65535
  BitVec.ofNat 64 (c + if c = 65535 then 2 ^ 30 else 0)

/-- A header register of the window copy that a source reaches: Port B's HST_ header is a copy of its own (R48). -/
def headerAddr (src : Source) (w off : Nat) : Nat :=
  if w = 1 ∧ src = .pf .b then 0x100900 + off else w * 0x100000 + off

/-- Raise a header event of the window copy that a source reaches (R48). -/
def State.raiseHdr (s : State) (src : Source) (w b : Nat) : State :=
  s.raiseAt (headerAddr src w 0x10) (headerAddr src w 0x18) b

/-- A write of a value to <BLOCK>_KEY of the header copy at `base` (R48 to R50). -/
def State.writeKeyAt (s : State) (src : Source) (w base : Nat) (v : Half) : State :=
  if keyOf w = some v then
    { s with armed := if s.armed.contains (src, w) then s.armed else (src, w) :: s.armed }
  else
    let s := s.disarm src w
    (s.setReg (base + 0x0C) (mismatchAdd (s.reg (base + 0x0C)))).raiseAt (base + 0x10) (base + 0x18) 0

/-- A write of a value to <BLOCK>_KEY of the copy that a source reaches (R49, R50). -/
def State.writeKey (s : State) (src : Source) (w : Nat) (v : Half) : State :=
  s.writeKeyAt src w (headerAddr src w 0) v

/-! ## Sequence clearing -/

/-- The window that a status register belongs to, for ACK_REJECTED: its own header, or the function's own register. -/
def statEvten (sa : Nat) : Nat := sa + 8

/-- Signal every event of a status register that is set and enabled. -/
def State.signalSet (s : State) (sa : Nat) (only : DWord) : State :=
  let r := s.statOf sa
  let bits := (r.stamps.map fun e => e.1).filter fun b => (s.reg (statEvten sa)).getLsbD b && only.getLsbD b
  if 0x1_0000_0000 ≤ sa then
    let fk := (sa - 0x1_0000_0000) / 0x10000
    (bits.filter fun b => decide (b < 7)).foldl
      (fun s _ => s.message fk (s.fld (Reg.CCP_ASIZE fk) Reg.CCP_ASIZE_.VECTOR)) s
  else { s with out := s.out ++ bits.map fun b => .signal sa b }

/-- A write of a SEQ value into ACK of the status register at `sa` (R56). -/
def State.writeAck (s : State) (sa : Nat) (a : Half) : State :=
  let r := s.statOf sa
  if r.ackAhead a then
    if 0x1_0000_0000 ≤ sa then s else s.raiseAt sa (statEvten sa) 2
  else (s.setStat sa (r.ack a)).signalSet sa (~~~0)

/-! ## Error responses -/

/-- An access that ended with cause 0x1 or 0x2: ACCESS_ERROR of the target block and an event of kind 0x05 (R65). -/
def State.accessError (s : State) (src : Source) (a : Nat) : State :=
  let w := windowOf a
  let s := if 1 ≤ w ∧ w ≤ 26 then s.raiseHdr src w 3 else s
  s.record (if w ≤ 26 then w else 0) 0 5 0 (leBytes 4 a)

/-- The response to an access that ended in error, and its record (R46, R65, R68, R69). -/
def State.errorResponse (s : State) (src : Source) (a size cause : Nat) (write : Bool) : State :=
  let s := if cause = 1 ∨ cause = 2 then s.accessError src a else s
  match src with
  | .pf p =>
    let s := s.regError p cause write a
    if write then s else s.emit (.allOnes p a size)
  | .core c => s.emit (.accessFault c a)
  | .mtf => s

/-- How an access is judged before it reaches its register: the cause it ends with, or that it is treated as one to a
reserved range, or that it is served (R42, R46, R65, R67, R68, R478). -/
inductive Judged
  | served
  | reserved
  | denied
  | error (cause : Nat)
  deriving DecidableEq, Repr

/-- The writes waiting toward an island from one entry point (R67). -/
def State.postedTo (s : State) (src : Source) (island : Nat) : List PostedWrite :=
  s.posted.filter fun q => decide (q.src = src ∧ q.island = island)

/-- Judge an access. -/
def State.judge (s : State) (src : Source) (a size : Nat) (write : Bool) : Judged :=
  let w := windowOf a
  if !sizeOk a size then .error 3
  else if !src.isCore && decide (s.mode = modeBoot) && !servedInBoot w write then .error 5
  else if !s.permitted src w write then (if src.isCore then .denied else .reserved)
  else if s.isIsolated (islandOf (resolve src a) src.port) then .error 2
  else if write && decide (32 ≤ (s.postedTo src (islandOf (resolve src a) src.port)).length) then .error 4
  else .served

/-! ## The effect of a write on a register's fields -/

/-- The fields that have a step of their own in the table: their writes are other rows (log entry 9). -/
def ownStep (row : RegRow) : DWord :=
  match row.name with
  | "HRD_CTRL" => bitsMask 63 48
  | "HRD_MAC" | "HRD_MAC1" | "HRD_MAC2" | "HRD_MAC3" => bitsMask 47 0
  | "HRD_PORT" => bitsMask 29 29
  | "HST_LINK" => bitsMask 19 16
  | "CHN_RATE" => bitsMask 23 20
  | "CHN_CHEAD" => bitsMask 31 0
  | "SDC_CTRL" => bitsMask 31 30
  | "MCH_SCRATCH" => bitsMask 3 0
  | "BPM_ALLOCREQ" => bitsMask 31 0
  | "MUL_RCTRL" | "MUL_RCTRL_M1" | "MUL_RCTRL_M2" | "MUL_RCTRL_M3" => bitsMask 31 31
  | "CCP_FCTRL" => bitsMask 0 0
  | "FRZ_CTRL" => bitsMask 0 0
  | "EVT_CLRSTATS" => bitsMask 0 0
  | "MAT_CMD" => bitsMask 16 0
  | _ => 0

/-- Whether a die geometry is a row of Table 1 of the SDRAM chapter: width x8 or x4, bank group and row bits, two ranks
(R424, R440). -/
def sdcGeomOk (v : DWord) : Bool :=
  let row := Reg.SDC_GEOM_.ROW_BITS.get v
  let bg := Reg.SDC_GEOM_.BG_BITS.get v
  let two := decide (Reg.SDC_GEOM_.RANKS.get v = 1)
  if Reg.SDC_GEOM_.WIDTH.get v = 1 then
    decide (row = 16 ∧ (bg = 2 ∨ bg = 3)) || (decide (row = 17 ∧ bg = 3) && !two)
  else decide (row = 16) && (decide (bg = 2) || (decide (bg = 3) && !two))

/-- Whether a write moves a delay of an SDRAM channel in SERVE by more than two steps (R437). -/
def State.delayTooFar (s : State) (row : RegRow) (base : Nat) (m v : DWord) : Bool :=
  let off := base % 0x1000
  let ch := base % 0x100000 / 0x1000 - 1
  let old := s.reg base
  decide (base / 0x100000 = 17 ∧ 0x1000 ≤ base % 0x100000 ∧ 0x100 ≤ off ∧ off < 0x5A0 ∧ m ≠ 0) &&
    decide (s.fld (Reg.SDC_STATE ch) Reg.SDC_STATE_.MODE = 2) &&
    row.fields.any fun f =>
      let x := (Fld.mk f.hi f.lo).get v
      let y := (Fld.mk f.hi f.lo).get old
      decide (y + 2 < x ∨ x + 2 < y)

/-- What a register's own rule makes of a write of the bits `m` with the new value `v`: the bits it keeps out, and the
event it sets then, as window and bit. -/
def State.writeRule (s : State) (row : RegRow) (base : Nat) (m v : DWord) : DWord × Option (Nat × Nat) :=
  let boot : Bool := decide (s.mode = modeBoot)
  match row.name with
  | "STG_CTRL" =>
    let n := Reg.STG_CTRL_.PERCENT.get v
    let f := bitsMask 27 24
    if m &&& f ≠ 0 ∧ ¬(1 ≤ n ∧ n ≤ 4) then (f, some (7, 18)) else (0, none)
  | "RCL_WEAR" =>
    let f := bitsMask 63 48
    if m &&& f ≠ 0 ∧ Reg.RCL_WEAR_.TURN.get v = 0 then (f, some (8, 23)) else (0, none)
  | "ECC_LADDER" =>
    let n := Reg.ECC_LADDER_.MAX_STEP.get v
    let f := bitsMask 3 0
    if m &&& f ≠ 0 ∧ ¬(1 ≤ n ∧ n ≤ 12) then (f, some (11, 20)) else (0, none)
  | "MAP_GEOM" =>
    let sum := Reg.MAP_GEOM_.BLOCK_BITS.get v + Reg.MAP_GEOM_.PAGE_BITS.get v + Reg.MAP_GEOM_.PLANE_BITS.get v
    if m ≠ 0 ∧ (!boot ∨ 25 < sum) then (~~~0, some (4, 22)) else (0, none)
  | "PWR_BANK" => if m ≠ 0 ∧ !boot then (~~~0, some (18, 23)) else (0, none)
  | "BPM_POOLSIZE" =>
    if m ≠ 0 ∧ (!boot ∨ Reg.BPM_POOLSIZE_.POOL2.get v = 0 ∨ Reg.BPM_POOLSIZE_.POOL3.get v = 0) then
      (~~~0, some (14, 25)) else (0, none)
  | "SDC_GEOM" => if m ≠ 0 ∧ (!boot ∨ !sdcGeomOk v) then (~~~0, some (17, 22)) else (0, none)
  | "SDC_MIRROR" | "SDC_BANKXOR" | "SDC_BANKXOR1" | "SDC_BANKXOR2" | "SDC_BANKXOR3" | "SDC_BANKXOR4" =>
    if m ≠ 0 ∧ !boot then (~~~0, some (17, 22)) else (0, none)
  | _ => if s.delayTooFar row base m v then (~~~0, some (17, 22)) else (0, none)

/-- Whether a register is ignored while the ENABLE or BUSY bit that governs it is 1 (R83, R420, R423). -/
def State.heldByEnable (s : State) (row : RegRow) (base : Nat) : Bool :=
  match row.name with
  | "CCP_ASQ" | "CCP_ACQ" | "CCP_ASIZE" => (s.reg (base / 0x10000 * 0x10000 + 0x1000)).getLsbD 0
  | "MUL_RBASE" | "MUL_RBASE_M1" | "MUL_RBASE_M2" | "MUL_RBASE_M3" => (s.reg (base - 8)).getLsbD 31
  | "MUL_RCTRL" | "MUL_RCTRL_M1" | "MUL_RCTRL_M2" | "MUL_RCTRL_M3" => (s.reg base).getLsbD 31
  | "MUL_K7SRC" | "MUL_K7DST" | "MUL_K7CNT" => (s.reg (base / 0x20 * 0x20 + 0x10)).getLsbD 30
  | _ => false

/-- What an ignored write shows: CFG_IGNORED of the function (R83), or CFG_WRITE_IGNORED of the mules, for SIZE_LOG2 where
the value written differs (R419, R420). -/
def State.showIgnored (s : State) (row : RegRow) (base : Nat) (wm v : DWord) : State :=
  match row.name with
  | "CCP_ASQ" | "CCP_ACQ" | "CCP_ASIZE" =>
    s.setReg (base / 0x10000 * 0x10000 + 0x1004) (s.reg (base / 0x10000 * 0x10000 + 0x1004) ||| 4)
  | "MUL_RCTRL" | "MUL_RCTRL_M1" | "MUL_RCTRL_M2" | "MUL_RCTRL_M3" =>
    if (v ^^^ s.reg base) &&& wm &&& 0xF = 0 then s else s.raise 16 19
  | _ => s.raise 16 19

/-- Every SDRAM channel's MODE is OFF (R440). -/
def State.sdramOff (s : State) : State :=
  (List.range 12).foldl (fun s ch =>
    (s.setFld (Reg.SDC_CTRL ch) Reg.SDC_CTRL_.MODE 0).setFld (Reg.SDC_STATE ch) Reg.SDC_STATE_.MODE 0) s

/-- What follows a write of the bits `m` once the new value stands: a status register's enables signal set events at once
(R48), an MCH_LFSR of 0 loads 1 (R185), an accepted write of the SDRAM layout turns every channel off (R440). -/
def State.afterWrite (s : State) (row : RegRow) (base : Nat) (m old : DWord) : State :=
  match row.name with
  | "SDC_GEOM" | "SDC_MIRROR" | "SDC_BANKXOR" | "SDC_BANKXOR1" | "SDC_BANKXOR2" | "SDC_BANKXOR3" | "SDC_BANKXOR4" =>
    if m &&& row.maskOf .rwk = 0 then s else s.sdramOff
  | "HDR_EVTEN" | "HSTB_EVTEN" | "EVT_FEVTEN" => s.signalSet (base - 8) (s.reg base &&& ~~~old)
  | "MCH_LFSR" | "MCH_LFSR1" | "MCH_LFSR2" | "MCH_LFSR3" => if s.reg base = 0 then s.setReg base 1 else s
  | _ => s

/-- A write of the bits `wm` of `v` to a register by a source: the generic effect (R12, R49 to R54, R60). -/
def State.writeFields (s : State) (src : Source) (row : RegRow) (base : Nat) (wm v : DWord) : State :=
  let w := windowOf base
  let own := ownStep row
  let rwk := row.maskOf .rwk &&& wm &&& ~~~own
  let armed := s.isArmed src w
  let protected_ := s.guardLocked && decide (19 ≤ w ∧ w ≤ 21)
  if s.heldByEnable row base then s.showIgnored row base wm v
  else
    let rwkEff := if armed && !protected_ then rwk else 0
    let rsvk := if s.debugLevel = 2 then row.reserved else 0
    let m := wm &&& ~~~own &&& (row.maskOf .rw ||| rwkEff ||| rsvk)
    let old := s.reg base
    let want := (old &&& ~~~m) ||| (v &&& m)
    let rule := s.writeRule row base m want
    let m := m &&& ~~~rule.1
    let s :=
      if rwk = 0 then s
      else if !armed then s.raiseHdr src w 1
      else if protected_ then (s.disarm src w).raise 20 17
      else s.disarm src w
    let s := match rule.2 with | some e => s.raise e.1 e.2 | none => s
    (s.setReg base ((old &&& ~~~m) ||| (v &&& m))).afterWrite row base m old

/-- The low 32 bits. -/
def low32 (v : DWord) : DWord := v &&& 0xFFFF_FFFF

/-! ## The MSI-X tables (R40, R43, R446) -/

/-- The MSI-X vector and the word of its entry that a flat address names: function key, vector, word 0 to 3. -/
def msixSlot (src : Source) (a : Nat) : Option (Nat × Nat × Nat) :=
  if 0x3F0_0000 ≤ a ∧ a < 0x3F0_8000 then
    some (src.port.num * 512, (a - 0x3F0_0000) / 16, (a % 16) / 4)
  else if 0x1_0000_0000 ≤ a ∧ a < 0x2_0000_0000 ∧ 0xE000 ≤ a % 0x10000 ∧ a % 0x10000 < 0xE400 ∧
      (a - 0x1_0000_0000) / 0x10000 % 512 ≠ 0 then
    some ((a - 0x1_0000_0000) / 0x10000, (a % 0x10000 - 0xE000) / 16, (a % 16) / 4)
  else none

/-- Write one word of an MSI-X table entry; unmasking sends a pending message (R446). -/
def State.writeMsix (s : State) (fk v word : Nat) (d : Word) : State :=
  let e := s.vecOf fk v
  let e' := match word with
    | 0 => { e with addr := (e.addr &&& 0xFFFF_FFFF_0000_0000) ||| d.setWidth 64 }
    | 1 => { e with addr := (e.addr &&& 0xFFFF_FFFF) ||| (d.setWidth 64 <<< 32) }
    | 2 => { e with data := d }
    | _ => { e with masked := d.getLsbD 0 }
  (s.setVec fk v e').sendPending fk v

/-- Write one 4-byte or 8-byte piece that lies within one register, or an MSI-X entry word; an address no register
holds is a reserved range (R42). -/
def State.writePiece (s : State) (src : Source) (a size : Nat) (v : DWord) : State :=
  match msixSlot src a with
  | some (fk, vec, word) =>
    let s := s.writeMsix fk vec word (v.setWidth 32)
    if size = 8 then s.writeMsix fk vec (word + 1) ((v >>> 32).setWidth 32) else s
  | none =>
    match findReg a with
    | none => s
    | some (row, i) =>
      let base := row.base + i * row.stride
      let sh := (a - base) * 8
      let wm := bitsMask (size * 8 - 1) 0 <<< sh
      s.writeFields src row base wm (v <<< sh)

/-- Whether an aligned 8-byte access at `a` lies within one 64-bit register or MSI-X word pair (R62). -/
def wholeDWord (src : Source) (a : Nat) : Bool :=
  (msixSlot src a).isSome || (match findReg a with | some (row, _) => decide (row.width = 64) | none => false)

/-- The generic effect of an accepted write (R12, R52, R62). -/
def State.writeGeneric (s : State) (src : Source) (a size : Nat) (v : DWord) : State :=
  if size = 8 ∧ !wholeDWord src a then
    (s.writePiece src a 4 (low32 v)).writePiece src (a + 4) 4 (v >>> 32)
  else s.writePiece src a size v

/-! ## Writes that are rows of their own -/

/-- A core access that its partition denies: an access fault, PARTITION_DENIED and a record (R478). -/
def State.deniedResponse (s : State) (src : Source) (a : Nat) : State :=
  match src with
  | .core c => ((s.raise 20 16).record 20 0 0 16 (leBytes 4 a)).emit (.accessFault c a)
  | _ => s

/-- A write of `size` bytes at flat address `a` by a source, with effect `f` when it is served (R46, R65, R68, R478). -/
def State.access (s : State) (src : Source) (a size : Nat) (f : State → State) : State :=
  match s.judge src a size true with
  | .served => f s
  | .reserved => s
  | .denied => s.deniedResponse src a
  | .error c => s.errorResponse src a size c true

/-- The effect `f` of a write to a keyed field of window `w` (R49 to R52, R481). -/
def State.keyed (s : State) (src : Source) (w : Nat) (f : State → State) : State :=
  if !s.isArmed src w then s.raiseHdr src w 1
  else if s.guardLocked && decide (19 ≤ w ∧ w ≤ 21) then (s.disarm src w).raise 20 17
  else f (s.disarm src w)

/-! ## Meanings -/

/-- BLOCK_KEY_WRITE (R49, R50). -/
def execBlockKeyWrite (src : Source) (window : Nat) (v : Half) (s : State) : Host.Outcome State Fault Refusal :=
  answer (s.up && decide (1 ≤ window ∧ window ≤ 26) &&
      decide (s.judge src (window * 0x100000 + 8) 4 true = .served)) s
    (s.writeKey src window v)

/-- The flat address of a status register: a block header's, or a function's EVT_FSTAT. -/
def isStatReg (a : Nat) : Bool :=
  decide (a % 0x100000 = 0x10 ∧ 1 ≤ a / 0x100000 ∧ a / 0x100000 ≤ 26) || decide (a = 0x100910) ||
    decide (0x1_0000_0000 ≤ a ∧ a < 0x1_0400_0000 ∧ a % 0x10000 = 0x8000)

/-- STAT_ACK_WRITE (R56). -/
def execStatAckWrite (src : Source) (reg : Nat) (a : Half) (s : State) : Host.Outcome State Fault Refusal :=
  answer (s.up && isStatReg (resolve src reg) && decide (s.judge src reg 8 true = .served)) s
    (s.writeAck (resolve src reg) a)

/-- REGISTER_ACCESS_TIMEOUT (R64 to R67): the access that waited longest toward the register's island ends with
cause 0x1; a BAR0 write may still take effect once (R66). -/
def execRegisterAccessTimeout (src : Source) (a : Nat) (write : Bool) (s : State) :
    Host.Outcome State Fault Refusal :=
  let island := islandOf (resolve src a) src.port
  if write then
    match (s.postedTo src island).find? fun q => decide (q.addr = a) with
    | none => .next s
    | some q =>
      let late := match src with | .pf _ => s.late ++ [q] | _ => s.late
      answer s.up s ({ s with posted := s.posted.erase q, late := late }.errorResponse src a q.size 1 true)
  else answer s.up s (s.errorResponse src a 4 1 false)

/-- BAR0_READ_ERROR (R46, R65, R68, R69): a read that is refused returns all ones at once and is recorded. -/
def execBar0ReadError (p : Port) (a size : Nat) (s : State) : Host.Outcome State Fault Refusal :=
  if !s.up then .next s
  else if !s.fnAnswers { port := p, idx := 0 } then .next (s.emit (.unsupported { port := p, idx := 0 }))
  else
    match s.judge (.pf p) a size false with
    | .error c => .next (s.errorResponse (.pf p) a size c false)
    | _ => .next s

end Sys2Proof.Machine
end

