-- ==== Sys2Proof/Machine/Operands.lean ====
section
/-! DEFINITION. The operand forms of the commands: the command packet (R84 to R87), the completion record and its status
codes (R88, R97, R99), the fence lookup (R405, R479), element lists (R86, R412) and the checks of Table 10 (R89 to R92). -/

namespace Sys2Proof.Machine

open Sys2Proof

/-! ## The command packet (R84, Table 8) -/

/-- `n` bits of a packet from bit `lo`. -/
def pk (p : BitVec 512) (lo n : Nat) : Nat :=
  (p >>> lo).toNat % 2 ^ n

def pkOpcode (p : BitVec 512) : Nat := pk p 0 8
def pkDclass (p : BitVec 512) : Nat := pk p 8 2
def pkOa (p : BitVec 512) : Bool := p.getLsbD 10
def pkDpt (p : BitVec 512) : Bool := p.getLsbD 11
def pkTret (p : BitVec 512) : Bool := p.getLsbD 12
def pkAtc (p : BitVec 512) : Bool := p.getLsbD 13
def pkCid (p : BitVec 512) : Nat := pk p 16 16
def pkNsid (p : BitVec 512) : Nat := pk p 32 16
def pkOaCid (p : BitVec 512) : Nat := pk p 64 16
def pkOaRing (p : BitVec 512) : Nat := pk p 80 16
def pkSlba (p : BitVec 512) : Nat := pk p 128 64
def pkNlb (p : BitVec 512) : Nat := pk p 192 32
def pkApptag (p : BitVec 512) : Nat := pk p 224 16
def pkDptr (p : BitVec 512) : Nat := pk p 256 64
def pkDlen (p : BitVec 512) : Nat := pk p 320 32
def pkTptr (p : BitVec 512) : Nat := pk p 384 64
def pkCspec (p : BitVec 512) : Nat := pk p 448 64

/-- Bits `lo` on, `n` of them, of CSPEC. -/
def pkSpec (p : BitVec 512) (lo n : Nat) : Nat := pk p (448 + lo) n

/-- The opcodes of Tables 11 and 12. -/
def opRead : Nat := 0x01
def opWrite : Nat := 0x02
def opTrim : Nat := 0x03
def opWriteZeroes : Nat := 0x04
def opCompare : Nat := 0x05
def opBarrier : Nat := 0x08
def opGatherRead : Nat := 0x10
def opHello : Nat := 0x40
def opRingCreate : Nat := 0x41
def opRingDelete : Nat := 0x42
def opNsCreate : Nat := 0x43
def opNsDelete : Nat := 0x44
def opNsAttach : Nat := 0x45
def opNsResize : Nat := 0x46
def opRegionAdd : Nat := 0x48
def opRegionRemove : Nat := 0x49
def opLogGet : Nat := 0x4A
def opFeatureSet : Nat := 0x4B
def opFeatureGet : Nat := 0x4C
def opFwStage : Nat := 0x50
def opFwCastle : Nat := 0x51
def opHerdJoin : Nat := 0x58
def opHerdLeave : Nat := 0x59
def opHerdReshape : Nat := 0x5A
def opKeyLoad : Nat := 0x60

/-- The lowest CCP version that defines an opcode (Tables 11 and 12). -/
def opMin (op : Nat) : Option Nat :=
  if op = 0x01 ∨ op = 0x02 ∨ op = 0x03 ∨ op = 0x04 ∨ op = 0x05 then some 0x0204
  else if op = 0x08 then some 0x0300
  else if op = 0x10 then some 0x0301
  else if op = 0x40 ∨ op = 0x41 ∨ op = 0x42 ∨ op = 0x43 ∨ op = 0x44 ∨ op = 0x45 ∨ op = 0x4A ∨ op = 0x4B ∨
      op = 0x4C ∨ op = 0x50 then some 0x0204
  else if op = 0x46 ∨ op = 0x48 ∨ op = 0x49 ∨ op = 0x51 ∨ op = 0x58 ∨ op = 0x59 ∨ op = 0x60 then some 0x0300
  else if op = 0x5A then some 0x0301
  else none

/-- Whether an opcode is an I/O command of Table 11. -/
def isIo (op : Nat) : Bool := decide (op < 0x40)

/-- Whether only a physical function may issue the opcode (Table 12). -/
def pfOnly (op : Nat) : Bool :=
  decide (op = 0x43 ∨ op = 0x44 ∨ op = 0x45 ∨ op = 0x46 ∨ op = 0x48 ∨ op = 0x49 ∨ op = 0x50 ∨ op = 0x51 ∨ op = 0x58 ∨
    op = 0x59 ∨ op = 0x5A)

/-- Whether an I/O command moves data between host and blocks through DPTR. -/
def movesData (op : Nat) : Bool :=
  decide (op = opRead ∨ op = opWrite ∨ op = opCompare ∨ op = opGatherRead)

/-- Whether a command changes the blocks it names. -/
def changesBlocks (op : Nat) : Bool :=
  decide (op = opWrite ∨ op = opWriteZeroes ∨ op = opTrim)

/-! ## Status (R97, Table 13) -/

/-- The outcome of a command: status code, INFO and RESULT. -/
structure Status where
  cls : Nat
  detail : Nat
  info : Nat
  result : Nat
  deriving DecidableEq, Repr

def stOk (result : Nat) : Status := ⟨0, 0, 0, result⟩
def stInvalidOpcode (op : Nat) : Status := ⟨1, 1, op, 0⟩
def stInvalidField (info : Nat) : Status := ⟨1, 2, info, 0⟩
def stOutOfRange (size : Nat) : Status := ⟨1, 3, size, 0⟩
def stVersion (info : Nat) : Status := ⟨1, 4, info, 0⟩
def stSpace : Status := ⟨2, 1, 0, 0⟩
def stQuota (reason : Nat) : Status := ⟨2, 2, reason, 0⟩
def stFenced (reason : Nat) : Status := ⟨2, 3, reason, 0⟩
def stTally (block : Nat) : Status := ⟨3, 1, block, 0⟩
def stUncorrectable (block : Nat) : Status := ⟨3, 2, block, 0⟩
def stLost (block : Nat) : Status := ⟨3, 3, block, 0⟩
def stMiscompare (block : Nat) : Status := ⟨3, 4, block, 0⟩
def stAbortedReset : Status := ⟨4, 1, 0, 0⟩
def stAbortedHost : Status := ⟨4, 2, 0, 0⟩

/-- The status as a CCP 2.4 function is told it (R99, Table 14). -/
def Status.at24 (x : Status) : Status :=
  if x.cls = 3 ∧ x.detail = 3 then { x with detail := 2 }
  else if x.cls = 2 ∧ x.detail = 2 then { x with detail := 1, info := 0 }
  else if x.cls = 2 ∧ x.detail = 3 then
    (if x.info = 2 then { x with detail := 1, info := 0 } else { x with cls := 1, detail := 2, info := 0 })
  else x

/-- A completion record without P and SQHEAD, which are written when it is posted (R88, Table 9). -/
def mkRecord (ring cid nsid : Nat) (defp : Bool) (x : Status) : BitVec 256 :=
  BitVec.ofNat 256
    (cid % 65536 + ring % 65536 * 2 ^ 16 + x.cls % 256 * 2 ^ 32 + x.detail % 65536 * 2 ^ 40 +
      (if defp then 2 ^ 56 else 0) + x.result % 2 ^ 64 * 2 ^ 64 + x.info % 2 ^ 64 * 2 ^ 128 + nsid % 65536 * 2 ^ 192)

/-- A record with its phase bit and SQHEAD (R80, R88). -/
def sealRecord (r : BitVec 256) (phase : Bool) (sqHead : Nat) : BitVec 256 :=
  r ||| BitVec.ofNat 256 (sqHead % 65536 * 2 ^ 224 + if phase then 2 ^ 255 else 0)

/-! ## The fence partition (R405, R479) -/

/-- Whether a valid entry matches a query (R405). -/
def matches_ (ekey emask qkey qmask : BitVec 72) : Bool :=
  decide ((ekey ^^^ qkey) &&& emask &&& qmask = 0)

/-- The lowest matching entry from address `lo` below `hi` (R405). -/
def matLookup (m : SMap MatEntry) (lo hi : Nat) (qkey qmask : BitVec 72) : Option (Nat × MatEntry) :=
  m.find? fun e => decide (lo ≤ e.1 ∧ e.1 < hi) && matches_ e.2.key e.2.mask qkey qmask

/-- The query key of a host-space granule of a function (R479, Table 11). -/
def fenceKey (f : Fn) (granule : Nat) : BitVec 72 :=
  BitVec.ofNat 72 (3 * 2 ^ 68 + f.port.num * 2 ^ 67 + f.idx % 512 * 2 ^ 58 + granule % 2 ^ 52)

/-- The number of fence entries: addresses 0 to 8,191 (R404, Table 5). -/
def fenceEntries : Nat := 8192

/-- Whether the fence allows a function a granule: the first match decides, no match refuses (R479). -/
def State.granuleOk (s : State) (f : Fn) (granule : Nat) (write : Bool) : Bool :=
  match matLookup s.mat.entries 0 fenceEntries (fenceKey f granule) (~~~0) with
  | some (_, e) => e.result.getLsbD (if write then 30 else 31)
  | none => false

/-- Whether the fence allows a function every granule of a range (R479). -/
def State.rangeOk (s : State) (f : Fn) (addr len : Nat) (write : Bool) : Bool :=
  decide (len = 0) ||
    (decide (addr + len ≤ 2 ^ 64) &&
      (List.range ((addr + len - 1) / 4096 - addr / 4096 + 1)).all fun i => s.granuleOk f (addr / 4096 + i) write)

/-! ## Element lists (R86, R412) -/

/-- Whether an element list follows R412: LAST on its last element alone, lengths not 0 that add up. -/
def listOk (l : List SgElem) (count total : Nat) : Bool :=
  decide (l.length = count) && decide ((l.map fun e => e.length.toNat).sum = total) &&
    (l.all fun e => decide (e.length ≠ 0)) &&
    decide (l.map (fun e => e.flags) = List.replicate (count - 1) 0 ++ [1])

/-! ## Namespaces -/

/-- The namespace of a command, if it exists. -/
def State.nsOf (s : State) (nsid : Nat) : Option Namespace := s.nss.look nsid

/-- Whether an NSID lies in the ranges of R85. -/
def nsidValid (n : Nat) : Bool :=
  decide ((1 ≤ n ∧ n ≤ 0x1000) ∨ (0xFF00 ≤ n ∧ n ≤ 0xFF07))

/-- Whether an NSID is one of a system namespace. -/
def nsidSystem (n : Nat) : Bool := decide (0xFF00 ≤ n)

/-- Whether the tallies of a namespace are host-supplied (R293). -/
def State.hostTallies (s : State) (nsid : Nat) : Bool :=
  match s.nsOf nsid with | some n => n.hostTallies | none => false

/-- The data units of a stripe of a layout: dense, carrier-safe, compact (R188). -/
def layoutD (layout : Nat) : Nat :=
  if layout = 0 then 30 else if layout = 2 then 6 else 14

/-- The members of a band of a layout (R188). -/
def layoutW (layout : Nat) : Nat := layoutD layout + 2

/-- Whether a write takes the stripe-aligned path (R194). -/
def alignedPath (layout slba nlb : Nat) : Bool :=
  decide (slba % (4 * layoutD layout) = 0 ∧ nlb % (4 * layoutD layout) = 0)

/-- The local layout of a namespace: that of a herd namespace is its herd's (R331). -/
def State.localLayout (s : State) (n : Namespace) : Nat :=
  if n.layout = 3 then (match s.herd.shape with | some h => h.layout | none => 1) else n.layout

/-- A command's demand: SRAM and SDRAM pips (R398, Table 3). -/
def State.demand (s : State) (p : BitVec 512) : Nat × Nat :=
  let op := pkOpcode p
  let w := min (pkNlb p) 64
  if op = opRead ∨ op = opGatherRead then (w, 0)
  else if op = opCompare then (2 * w, 0)
  else if op = opWrite ∨ op = opWriteZeroes then
    match s.nsOf (pkNsid p) with
    | some n =>
      if n.kind ≠ .systemNs ∧ alignedPath (s.localLayout n) (pkSlba p) (pkNlb p) then (0, 16) else (w, 0)
    | none => (w, 0)
  else (0, 0)

/-! ## The negotiated version and the function's rings -/

/-- The negotiated CCP version of a function: 0 before HELLO (R83, R102). -/
def State.version (s : State) (fk : Nat) : Nat :=
  s.fld (Reg.CCP_FSTAT fk) Reg.CCP_FSTAT_.VERSION

/-- The highest ring indices a function may use: feature 0x0001 for a VF (R71, R104). -/
def State.maxSq (s : State) (fk : Nat) : Nat := if fk % 512 = 0 then 8191 else (s.fnOf fk).maxSq
def State.maxCq (s : State) (fk : Nat) : Nat := if fk % 512 = 0 then 8191 else (s.fnOf fk).maxCq

/-- The indices of a function's rings of one kind. -/
def ringsOf {α : Type} (m : SMap α) (fk : Nat) : List Nat :=
  (m.filter fun e => decide (e.1 / 65536 = fk)).map fun e => e.1 % 65536

/-- The indices of the logs of Table 17 and whether any function may read each (R105). -/
def logKnown (id : Nat) : Bool := decide (1 ≤ id ∧ id ≤ 8)

def logAny (id : Nat) : Bool := decide (id = 1 ∨ id = 2 ∨ id = 5 ∨ id = 8)

/-- The fence of a namespace: WRITE_FENCED (R242, R246). -/
def isFenced (n : Namespace) : Bool := decide (n.fence ≠ 0)

/-! ## Validation (R89, Table 10) -/

/-- The features of Table 16 that name a namespace. -/
def featureNs (id : Nat) : Bool := decide (id = 2 ∨ id = 3)

/-- Whether a command names a namespace (R89, Tables 11 and 12). -/
def namesNs (p : BitVec 512) : Bool :=
  let op := pkOpcode p
  isIo op || decide (op = opNsDelete ∨ op = opNsAttach ∨ op = opNsResize ∨ op = opKeyLoad) ||
    (decide (op = opFeatureSet ∨ op = opFeatureGet) && featureNs (pkSpec p 0 16))

/-- Check 3: whether the function may use the opcode, log or feature (R91, R104, R105). -/
def State.mayUse (_s : State) (f : Fn) (p : BitVec 512) : Bool :=
  let op := pkOpcode p
  let vf := decide (f.idx ≠ 0)
  let feat := pkSpec p 0 16
  !(vf && (pfOnly op ||
    (decide (op = opLogGet) && logKnown (pkSpec p 0 8) && !logAny (pkSpec p 0 8)) ||
    (decide (op = opFeatureSet) && decide (feat = 1 ∨ feat = 4 ∨ feat = 5)) ||
    (decide (op = opFeatureGet) && decide (feat = 1 ∧ pkSpec p 16 16 ≠ 0 ∧ pkSpec p 16 16 ≠ f.idx))))

/-- Whether the flag bits of bytes 0 to 3 are allowed (offset 1 of check 4; R90, R99). -/
def State.flagsOk (s : State) (f : Fn) (p : BitVec 512) : Bool :=
  let op := pkOpcode p
  let v := s.version f.key
  decide (pk p 14 2 = 0) &&
    (!pkDpt p || movesData op) &&
    (!pkOa p || (isIo op && decide (v ≥ 0x0301))) &&
    (decide (pkDclass p = 0) || (decide (op = opRead ∨ op = opCompare ∨ op = opGatherRead) && decide (v ≥ 0x0300))) &&
    (!pkTret p || decide (op = opRead)) &&
    (!pkAtc p || decide (op = opRead ∨ op = opCompare ∨ op = opGatherRead) ||
      (decide (op = opWrite) && s.hostTallies (pkNsid p)))

/-- Whether NSID is allowed (offset 4 of check 4; R85, R89, R177, R334, R348). -/
def State.nsidOk (s : State) (p : BitVec 512) : Bool :=
  let op := pkOpcode p
  let n := pkNsid p
  if namesNs p then
    nsidValid n &&
      (match s.nsOf n with
       | none => !(nsidSystem n && decide (op = opTrim ∨ op = opNsResize))
       | some x =>
         !(decide (op = opNsDelete) && !x.attached.isEmpty) &&
         !(decide (op = opNsAttach ∨ op = opNsResize ∨ op = opNsDelete) && x.holding) &&
         !(decide (op = opNsResize ∨ op = opTrim) && decide (x.kind = .systemNs)) &&
         !(decide (op = opNsResize) && decide (x.kind = .herdNs)))
  else decide (n = 0)

/-- The blocks of a segment of a system namespace: four per SLC page of the usable die with fewest (R176). -/
def State.segmentBlocks (s : State) : Nat :=
  let ps := (s.media.dies.map fun e => e.2.params.slcPages).filter fun n => decide (n ≠ 0)
  4 * (ps.foldl (fun m n => if m = 0 ∨ n < m then n else m) 0)

/-- Whether the value of a FEATURE_SET lies within the feature's fields (R104, R320, R453). -/
def featureValueOk (feat value : Nat) : Bool :=
  if feat = 1 then
    decide (value < 2 ^ 38 ∧ value % 65536 ≤ 255 ∧ value / 65536 % 65536 ≤ 255 ∧ value / 2 ^ 32 % 64 ≤ 55)
  else if feat = 4 then decide (1000 ≤ value ∧ value ≤ 50000)
  else if feat = 5 then decide (0x0600 ≤ value ∧ value ≤ 0xFFFF) &&
    !([0x0800, 0x0806, 0x8100, 0x86DD, 0x8808, 0x88A8] : List Nat).contains value
  else if feat = 6 then decide (value < 2 ^ 32)
  else true

/-- Whether SLBA is allowed (offset 16 of check 4). -/
def State.slbaOk (s : State) (p : BitVec 512) : Bool :=
  let op := pkOpcode p
  let v := pkSlba p
  if op = opBarrier then decide (pkNlb p ≠ 0 ∨ v = 0)
  else if isIo op then true
  else if op = opNsCreate then
    decide (v ≠ 0 ∧ v % 4 = 0) &&
      (if pkSpec p 4 1 = 1 then
        decide (s.segmentBlocks ≠ 0 ∧ v % s.segmentBlocks = 0 ∧ v / s.segmentBlocks ≤ 1024) else true)
  else if op = opNsResize then decide (v ≠ 0 ∧ v % 4 = 0)
  else if op = opLogGet then decide (v % 4 = 0)
  else if op = opFeatureSet then featureValueOk (pkSpec p 0 16) v
  else if op = opFwStage then decide (v % 4096 = 0)
  else decide (v = 0)

/-- Whether NLB is allowed (offset 24 of check 4). -/
def nlbOk (p : BitVec 512) : Bool :=
  let op := pkOpcode p
  let n := pkNlb p
  if movesData op then decide (1 ≤ n ∧ n ≤ 8192)
  else if op = opTrim ∨ op = opWriteZeroes then decide (1 ≤ n)
  else if op = opBarrier then true
  else if op = opRingCreate then decide (1 ≤ n ∧ n ≤ 16)
  else if op = opRegionAdd then decide (1 ≤ n ∧ n ≤ 524288)
  else decide (n = 0)

/-- Whether APPTAG is allowed (offset 28 of check 4). -/
def apptagOk (p : BitVec 512) : Bool :=
  let op := pkOpcode p
  movesData op || decide (op = opWriteZeroes) || decide (pkApptag p = 0)

/-- Whether DPTR is allowed (offset 32 of check 4). -/
def dptrOk (p : BitVec 512) : Bool :=
  let op := pkOpcode p
  let a := pkDptr p
  if movesData op then (if pkDpt p then decide (a % 16 = 0) else decide (a % 4 = 0))
  else if op = opRingCreate then decide (a % 4096 = 0)
  else if op = opRegionAdd then decide (a % 2 ^ 21 = 0)
  else if op = opLogGet then (if pkDlen p = 0 then decide (a = 0) else decide (a % 4 = 0))
  else if op = opFwStage ∨ op = opHerdJoin ∨ op = opHerdReshape ∨ op = opKeyLoad then decide (a % 4 = 0)
  else decide (a = 0)

/-- Whether DLEN is allowed (offset 40 of check 4). -/
def dlenOk (p : BitVec 512) (h : HostSide) : Bool :=
  let op := pkOpcode p
  let n := pkDlen p
  if movesData op then (if pkDpt p then decide (1 ≤ n ∧ n ≤ 256) else decide (n = pkNlb p * 4096))
  else if op = opLogGet then decide (n % 4 = 0 ∧ n ≤ 2 ^ 20)
  else if op = opFwStage then decide (n % 4096 = 0 ∧ n ≤ 2 ^ 20)
  else if op = opHerdJoin then
    (match h.join with | some j => decide (n = 2080 + j.map.length) | none => true)
  else if op = opHerdReshape then
    (match h.map with | some m => decide (n = m.length) | none => true)
  else if op = opKeyLoad then true
  else decide (n = 0)

/-- Whether TPTR is allowed (offset 48 of check 4). -/
def State.tptrOk (s : State) (p : BitVec 512) : Bool :=
  let op := pkOpcode p
  let a := pkTptr p
  decide (a % 16 = 0) &&
    (if op = opRead then decide (a ≠ 0 ↔ pkTret p = true)
     else if op = opWrite ∨ op = opCompare then decide (a ≠ 0 ↔ s.hostTallies (pkNsid p) = true)
     else decide (a = 0))

/-- Whether the CSPEC of a RING_CREATE is allowed (R91, R92, R396). -/
def State.ringCreateSpecOk (s : State) (f : Fn) (p : BitVec 512) : Bool :=
  if pkSpec p 63 1 = 0 then
    (s.cmds.cqs.look (ringKey f.key (pkSpec p 0 16))).isSome && decide (1 ≤ pkSpec p 16 4) &&
      decide (pkSpec p 20 6 ≤ 55) && decide (f.idx = 0 ∨ pkSpec p 20 6 = 0) && decide (pkSpec p 26 37 = 0)
  else
    decide (pkSpec p 0 16 ≤ (if f.idx = 0 then 2047 else 63)) && decide (pkSpec p 34 29 = 0)

/-- Whether the CSPEC of a RING_DELETE is allowed (R92). -/
def State.ringDeleteSpecOk (s : State) (f : Fn) (p : BitVec 512) : Bool :=
  let i := pkSpec p 0 16
  decide (i ≠ 0) && decide (pkSpec p 17 46 = 0) &&
    (if pkSpec p 63 1 = 0 then (s.cmds.sqs.look (ringKey f.key i)).isSome
     else (s.cmds.cqs.look (ringKey f.key i)).isSome &&
       !(s.cmds.sqs.any fun e => decide (e.1 / 65536 = f.key ∧ e.2.cq = i)))

/-- Whether this N9 is IN its flock: its entry of the map in force has STATE IN (R327, R331). -/
def State.isIn (s : State) : Bool :=
  match s.herd.map with
  | some m => m.members.any fun e => decide (e.id = s.fld Reg.HRD_IDENT Reg.HRD_IDENT_.SELF ∧ e.state = 1)
  | none => false

/-- Whether the CSPEC of an NS_CREATE is allowed (R91, R177, R331). -/
def State.nsCreateSpecOk (s : State) (f : Fn) (p : BitVec 512) : Bool :=
  let herd := pkSpec p 16 16
  decide (pkSpec p 5 11 = 0 ∧ pkSpec p 32 32 = 0) &&
    (if pkSpec p 4 1 = 1 then decide (pkSpec p 0 4 = 0 ∧ herd = 0)
     else if pkSpec p 0 2 = 3 then
       decide (s.version f.key ≥ 0x0300) && decide (herd ≠ 0 ∧ herd = s.fld Reg.HRD_IDENT Reg.HRD_IDENT_.HERD) && s.isIn
     else decide (herd = 0))

/-- Whether the CSPEC of a FEATURE command is allowed (R104). -/
def featureSpecOk (f : Fn) (p : BitVec 512) : Bool :=
  let feat := pkSpec p 0 16
  let tgt := pkSpec p 16 16
  decide (1 ≤ feat ∧ feat ≤ 6) && decide (pkSpec p 32 32 = 0) &&
    !(decide (pkOpcode p = opFeatureSet) && decide (feat = 2 ∨ feat = 3)) &&
    (if feat = 1 then decide (f.idx ≠ 0 ∨ (1 ≤ tgt ∧ tgt ≤ 511)) else decide (tgt = 0))

/-- Whether a HERD_LEAVE names the herd joined and nothing depends on it (R355). -/
def State.leaveOk (s : State) (herd : Nat) : Bool :=
  decide (herd = s.fld Reg.HRD_IDENT Reg.HRD_IDENT_.HERD) &&
    !(s.nss.any fun e => decide (e.2.kind = .herdNs) && !e.2.holding) &&
    !(s.isIn && decide (s.fld Reg.HRD_IDENT Reg.HRD_IDENT_.HERD ≠ 0))

/-- Whether CSPEC is allowed (offset 56 of check 4). -/
def State.cspecOk (s : State) (f : Fn) (p : BitVec 512) : Bool :=
  let op := pkOpcode p
  if op = opGatherRead then
    decide (1 ≤ pkSpec p 2 6 ∧ pkSpec p 8 56 = 0) &&
      decide (pkNlb p * 4096 % ((pkSpec p 2 6 + 1) * 2 ^ pkSpec p 0 2) = 0)
  else if op = opHello then
    (ringsOf s.cmds.sqs f.key).all (fun i => decide (i = 0)) && (ringsOf s.cmds.cqs f.key).all fun i => decide (i = 0)
  else if op = opRingCreate then s.ringCreateSpecOk f p
  else if op = opRingDelete then s.ringDeleteSpecOk f p
  else if op = opNsCreate then s.nsCreateSpecOk f p
  else if op = opNsAttach then decide (pkSpec p 0 16 ≤ 511 ∧ pkSpec p 18 46 = 0)
  else if op = opRegionAdd then decide (pkCspec p = 0x0100 ∨ pkCspec p = 0x0101)
  else if op = opRegionRemove then decide (pkSpec p 16 48 = 0)
  else if op = opLogGet then logKnown (pkSpec p 0 8) && decide (pkSpec p 8 56 = 0)
  else if op = opFeatureSet ∨ op = opFeatureGet then featureSpecOk f p
  else if op = opFwStage then decide (pkCspec p ≤ 1)
  else if op = opFwCastle then decide (pkCspec p = 1)
  else if op = opHerdLeave then decide (pkSpec p 16 48 = 0) && s.leaveOk (pkSpec p 0 16)
  else if op = opKeyLoad then decide (pkSpec p 8 56 = 0)
  else decide (pkCspec p = 0)

/-- Check 4: the offset of the first field, in ascending order, that is not allowed (R89). -/
def State.firstBadField (s : State) (f : Fn) (p : BitVec 512) (h : HostSide) : Option Nat :=
  ([ (1, s.flagsOk f p), (4, s.nsidOk p), (6, decide (pk p 48 16 = 0)),
     (8, pkOa p || decide (pkOaCid p = 0)), (10, pkOa p || decide (pkOaRing p = 0)), (12, decide (pk p 96 32 = 0)),
     (16, s.slbaOk p), (24, nlbOk p), (28, apptagOk p), (30, decide (pk p 240 16 = 0)), (32, dptrOk p),
     (40, dlenOk p h), (44, decide (pk p 352 32 = 0)), (48, s.tptrOk p), (56, s.cspecOk f p)
   ].find? fun e => !e.2).map fun e => e.1

/-- Check 6: the reason why the namespace named is out of reach (R89, R95). -/
def State.nsReason (s : State) (f : Fn) (p : BitVec 512) : Option Nat :=
  if !namesNs p then none
  else
    match s.nsOf (pkNsid p) with
    | none => some 4
    | some n =>
      if isIo (pkOpcode p) then
        (if !n.attached.contains f then some 4
         else if n.encrypted && n.keyLoaded.isNone then some 5 else none)
      else if f.idx ≠ 0 ∧ !n.attached.contains f then some 4
      else if f.idx ≠ 0 ∧ pkOpcode p = opKeyLoad ∧ n.attached ≠ [f] then some 3
      else none

/-- Check 7: the size that a range exceeds (R89). -/
def State.sizeExceeded (s : State) (p : BitVec 512) : Option Nat :=
  if isIo (pkOpcode p) then
    match s.nsOf (pkNsid p) with
    | some n => if pkSlba p + pkNlb p ≤ n.size then none else some n.size
    | none => none
  else none

/-- Whether the N9 writes, rather than reads, the memory that DPTR names. -/
def dptrWritten (op : Nat) : Bool :=
  decide (op = opRead ∨ op = opGatherRead ∨ op = opLogGet)

/-- Check 8: the status when DPTR, TPTR or the element list is out of reach or faulty (R86, R89). -/
def State.windowStatus (s : State) (f : Fn) (p : BitVec 512) (h : HostSide) : Option Status :=
  let op := pkOpcode p
  let w := dptrWritten op
  let tallies := decide (pkTptr p = 0) || s.rangeOk f (pkTptr p) (16 * pkNlb p) w
  if movesData op && pkDpt p then
    if !s.rangeOk f (pkDptr p) (16 * pkDlen p) false || !tallies then some (stFenced 1)
    else if h.listAnswer ≠ .ok then some (stFenced 1)
    else if !listOk h.list (pkDlen p) (pkNlb p * 4096) then some (stInvalidField 40)
    else if !(h.list.all fun e => s.rangeOk f e.address.toNat e.length.toNat w) then some (stFenced 1)
    else none
  else
    let len :=
      if op = opRingCreate then (if pkSpec p 63 1 = 0 then 64 else 32) * 2 ^ pkNlb p
      else if op = opRegionAdd then pkNlb p * 2 ^ 21
      else pkDlen p
    let ok :=
      if op = opRingCreate then s.rangeOk f (pkDptr p) len (decide (pkSpec p 63 1 = 1))
      else if op = opRegionAdd then s.rangeOk f (pkDptr p) len true && s.rangeOk f (pkDptr p) len false
      else s.rangeOk f (pkDptr p) len w
    if ok && tallies then none else some (stFenced 1)

/-- Whether check 8 ended on an element list whose read timed out (R454). -/
def State.listTimedOut (s : State) (f : Fn) (p : BitVec 512) (h : HostSide) : Bool :=
  let w := dptrWritten (pkOpcode p)
  movesData (pkOpcode p) && pkDpt p && s.rangeOk f (pkDptr p) (16 * pkDlen p) false &&
    (decide (pkTptr p = 0) || s.rangeOk f (pkTptr p) (16 * pkNlb p) w) && decide (h.listAnswer = .timedOut)

/-- A class's whole quotas: CMD, SRAM and SDRAM pips (R397, R421). -/
def State.quota (s : State) (c : Nat) : Nat × Nat × Nat :=
  let a := Reg.BPM_QUOTA c
  (s.fld a Reg.BPM_QUOTA_.CMD, s.fld a Reg.BPM_QUOTA_.SRAM, s.fld a Reg.BPM_QUOTA_.SDRAM)

/-- Check 10: whether the demand exceeds the whole quota (R399). -/
def State.overQuota (s : State) (cls : Nat) (p : BitVec 512) : Bool :=
  let q := s.quota cls
  let d := s.demand p
  decide (q.1 < 1 ∨ q.2.1 < d.1 ∨ q.2.2 < d.2)

/-- Whether the CID is in flight on the ring in a slot other than the command's own (check 5). -/
def State.cidBusy (s : State) (slot : Nat) (f : Fn) (ring : Nat) (p : BitVec 512) : Bool :=
  s.cmds.inflight.any fun e =>
    decide (e.1 ≠ slot ∧ e.2.fn = f ∧ e.2.ring = ring ∧ pkCid e.2.packet = pkCid p)

/-- Checks 1 to 10 in order (R89, Table 10): how many passed, and the status of the first that failed. -/
def State.validate (s : State) (slot : Nat) (f : Fn) (ring cls : Nat) (p : BitVec 512) (h : HostSide) :
    Nat × Option Status :=
  let op := pkOpcode p
  let v := s.version f.key
  if v = 0 ∧ op ≠ opHello then (0, some (stVersion 0))
  else if (match opMin op with | none => true | some m => decide (op ≠ opHello ∧ v < m)) ||
      decide ((op < 0x40 ∧ ring = 0) ∨ (0x40 ≤ op ∧ ring ≠ 0)) then (1, some (stInvalidOpcode op))
  else if !s.mayUse f p then (2, some (stFenced 3))
  else
    match s.firstBadField f p h with
    | some off => (3, some (stInvalidField off))
    | none =>
      if s.cidBusy slot f ring p then (4, some (stInvalidField 2))
      else
        match s.nsReason f p with
        | some r => (5, some (stFenced r))
        | none =>
          match s.sizeExceeded p with
          | some n => (6, some (stOutOfRange n))
          | none =>
            match s.windowStatus f p h with
            | some x => (7, some x)
            | none =>
              if decide (op = opWrite ∨ op = opWriteZeroes) &&
                  (match s.nsOf (pkNsid p) with | some n => isFenced n | none => false) then (8, some (stFenced 2))
              else if s.overQuota cls p then (9, some (stQuota 3))
              else (10, none)

end Sys2Proof.Machine
end

