-- ==== Sys2Proof/Machine/Commands.lean ====
section
/-! DEFINITION. Rings, records and locks: doorbells (R77 to R79), posting of completion records (R74, R75, R80, R81, R93,
R106, R134), pips (R397 to R401) and range locks (R111 to R118). -/

namespace Sys2Proof.Machine

open Sys2Proof

/-! ## Rings -/

/-- The size of a ring. -/
def SubRing.size (r : SubRing) : Nat := 2 ^ r.log2
def CplRing.size (r : CplRing) : Nat := 2 ^ r.log2

/-- Whether a completion ring is full (R72). -/
def CplRing.full (r : CplRing) : Bool := decide ((r.tail + 1) % r.size = r.head)

/-- Write a submission ring. -/
def State.setSq (s : State) (k : Nat) (r : SubRing) : State :=
  { s with cmds := { s.cmds with sqs := s.cmds.sqs.put k r } }

/-- Write a completion ring. -/
def State.setCq (s : State) (k : Nat) (r : CplRing) : State :=
  { s with cmds := { s.cmds with cqs := s.cmds.cqs.put k r } }

/-- Write a command in flight. -/
def State.setCmd (s : State) (slot : Nat) (c : Cmd) : State :=
  { s with cmds := { s.cmds with inflight := s.cmds.inflight.put slot c } }

/-- The CCP_RINGERR value after one more fault of a function (R78, Table 7). -/
def ringErrValue (old : DWord) (cplKind : Bool) (ring cause : Nat) : DWord :=
  BitVec.ofNat 64 ((old.toNat / 2 ^ 48 + 1) % 65536 * 2 ^ 48 + ring % 65536 * 2 ^ 32 +
    (if cplKind then 2 ^ 31 else 0) + cause % 16)

/-- Record a ring fault and raise RING_FAULT (R78, R79). -/
def State.recordRingFault (s : State) (fk : Nat) (cplKind : Bool) (ring cause : Nat) : State :=
  let a := Reg.CCP_RINGERR fk
  (s.setReg a (ringErrValue (s.reg a) cplKind ring cause)).raiseFn fk 0

/-- Fault a submission ring (R79). -/
def State.faultSq (s : State) (fk ring cause : Nat) : State :=
  match s.cmds.sqs.look (ringKey fk ring) with
  | some r => (s.setSq (ringKey fk ring) { r with faulted := true }).recordRingFault fk false ring cause
  | none => s

/-- Fault a completion ring (R79). -/
def State.faultCq (s : State) (fk ring cause : Nat) : State :=
  match s.cmds.cqs.look (ringKey fk ring) with
  | some r => (s.setCq (ringKey fk ring) { r with faulted := true }).recordRingFault fk true ring cause
  | none => s

/-! ## Doorbells (R44, R45, R77) -/

/-- What a doorbell write names: a completion or a submission ring, its index, and the byte within the slot. -/
def doorbellSlot (f : Fn) (off : Nat) : Option (Bool × Nat × Nat) :=
  if f.idx = 0 then
    if off < 0x1_0000 then some (false, off / 8, off % 8)
    else if off < 0x2_0000 then some (true, (off - 0x1_0000) / 8, off % 8)
    else if 0x80_0000 ≤ off ∧ off < 0x100_0000 then
      let g := (off - 0x80_0000) / 0x1000
      let b := off % 0x1000
      if b < 0x20 then some (false, 4 * g + b / 8, b % 8)
      else if 0x800 ≤ b ∧ b < 0x820 then some (true, 4 * g + (b - 0x800) / 8, b % 8)
      else none
    else none
  else if off < 0x800 then some (false, off / 8, off % 8)
  else if off < 0x1000 then some (true, (off - 0x800) / 8, off % 8)
  else none

/-- Whether a doorbell write's size and place are accepted: 8 bytes, or 4 bytes to the lower half (R45). -/
def doorbellSizeOk (byte size : Nat) : Bool := decide (byte = 0 ∧ (size = 8 ∨ size = 4))

/-- The value that a doorbell write of a size carries. -/
def doorbellValue (size : Nat) (v : DWord) : Nat := if size = 4 then v.toNat % 2 ^ 32 else v.toNat

/-- Discard a doorbell write and count it (R45). -/
def State.dropDoorbell (s : State) (p : Port) : State := s.count (Reg.HST_DBDROP p.num) 1

/-- What the N9 notes of a function's rings when it takes in a doorbell: the packets rung so far of each (R120). -/
def State.bellNotes (s : State) (fk : Nat) : List (Nat × Nat) :=
  (s.cmds.sqs.filter fun e => decide (e.1 / 65536 = fk)).map fun e => (e.1 % 65536, e.2.rung)

/-- Take in a submission doorbell (R77, R78, R120). -/
def State.sqBell (s : State) (fk ring : Nat) (r : SubRing) (v : Nat) : State :=
  if r.faulted ∨ r.stopped then s
  else if v ≥ r.size then s.faultSq fk ring 1
  else
    let rung := r.rung + (v + r.size - r.tail) % r.size
    s.setSq (ringKey fk ring)
      { r with tail := v, rung := rung, bells := r.bells ++ [{ upTo := rung, notes := s.bellNotes fk }] }

/-- Take in a completion doorbell (R77, R78). -/
def State.cqBell (s : State) (fk ring : Nat) (r : CplRing) (v : Nat) : State :=
  if r.faulted then s
  else if v ≥ r.size then s.faultCq fk ring 1
  else if (v + r.size - r.head) % r.size > (r.tail + r.size - r.head) % r.size then s.faultCq fk ring 2
  else s.setCq (ringKey fk ring) { r with head := v }

/-- A doorbell write to the slots of one kind (R45, R77, R445, R446). -/
def State.doorbell (s : State) (cpl : Bool) (f : Fn) (off size : Nat) (v : DWord) : State :=
  if !s.fnAnswers f then s.emit (.unsupported f)
  else
    match doorbellSlot f off with
    | none => s
    | some (c, ring, byte) =>
      if c ≠ cpl then s
      else if !doorbellSizeOk byte size then s.dropDoorbell f.port
      else if cpl then
        match s.cmds.cqs.look (ringKey f.key ring) with
        | none => s.dropDoorbell f.port
        | some r => s.cqBell f.key ring r (doorbellValue size v)
      else
        match s.cmds.sqs.look (ringKey f.key ring) with
        | none => s.dropDoorbell f.port
        | some r => s.sqBell f.key ring r (doorbellValue size v)

/-! ## Range locks (R111 to R116) -/

/-- The largest k with 2^k dividing `lo` and 2^k ≤ `room`, for the cover of a range. -/
def alignedSize : Nat → Nat → Nat → Nat
  | 0, _, _ => 0
  | fuel + 1, lo, room =>
    if lo % 2 = 0 ∧ 2 ≤ room then 1 + alignedSize fuel (lo / 2) (room / 2) else 0

/-- cover(lo, hi) of R114, stopping after nine blocks. -/
def coverRange : Nat → Nat → Nat → List (Nat × Nat)
  | 0, _, _ => []
  | fuel + 1, lo, hi =>
    if hi < lo then []
    else
      let k := alignedSize 48 lo (hi - lo + 1)
      (lo, k) :: coverRange fuel (lo + 2 ^ k) hi

/-- decompose(a, b) of R114: the first coarsening k whose cover has at most 8 blocks. -/
def decomposeFrom : Nat → Nat → Nat → Nat → List (Nat × Nat)
  | 0, _, _, _ => []
  | fuel + 1, k, a, b =>
    let l := coverRange 9 (a / 2 ^ k) (b / 2 ^ k)
    if l.length ≤ 8 then l.map fun e => (e.1 * 2 ^ k, e.2 + k) else decomposeFrom fuel (k + 1) a b

/-- The aligned blocks of map units that cover units a to b (R114). -/
def decompose (a b : Nat) : List (Nat × Nat) := decomposeFrom 49 0 a b

/-- Whether the cover of a range is coarsened (R114, R139). -/
def coarsened (a b : Nat) : Bool := decide (8 < (coverRange 9 a b).length)

/-- The key of a range-lock entry (R113, Table 2). -/
def lockKey (excl : Bool) (nsid unit : Nat) : BitVec 72 :=
  BitVec.ofNat 72 (2 ^ 68 + (if excl then 2 ^ 67 else 0) + nsid % 65536 * 2 ^ 48 + unit % 2 ^ 48)

/-- The care mask of an aligned block of 2^k units (R113). -/
def lockMask (k : Nat) : BitVec 72 := ~~~(BitVec.ofNat 72 (2 ^ k - 1))

/-- The care mask of an entry for the whole namespace (R113). -/
def wholeMask : BitVec 72 := 0xFF_FFFF_0000_0000_0000#72

/-- The lock entries of a range of blocks first to last (R112 to R114). -/
def rangeLocks (excl : Bool) (nsid first last slot : Nat) : List Lock :=
  (decompose (first / 4) (last / 4)).map fun e =>
    { key := lockKey excl nsid e.1, mask := lockMask e.2, slot := slot }

/-- The lock entry of a whole namespace (R113). -/
def wholeLock (nsid slot : Nat) : Lock := { key := lockKey true nsid 0, mask := wholeMask, slot := slot }

/-- Whether the query of one entry matches another (R115): a shared query sets EXCL and cares about it, an exclusive
query does not care about EXCL. -/
def lockConflict (q e : Lock) : Bool :=
  let excl := q.key.getLsbD 67
  let qk := q.key ||| (1#72 <<< 67)
  let qm := if excl then q.mask &&& ~~~(1#72 <<< 67) else q.mask ||| (1#72 <<< 67)
  decide ((e.key ^^^ qk) &&& e.mask &&& qm = 0)

/-- The entries of the partition that lie before a slot's own first entry (R116). -/
def locksBefore (locks : List Lock) (slot : Nat) : List Lock := locks.takeWhile fun l => decide (l.slot ≠ slot)

/-- Whether a command must wait for locks of commands admitted before it (R116). -/
def lockBlocked (locks : List Lock) (slot : Nat) : Bool :=
  (locks.filter fun l => decide (l.slot = slot)).any fun q => (locksBefore locks slot).any fun e => lockConflict q e

/-- The entries of the range-lock partition (R404, Table 5). -/
def lockEntries : Nat := 65536

/-- Release every lock of a slot (R117). -/
def State.unlock (s : State) (slot : Nat) : State :=
  { s with cmds := { s.cmds with locks := s.cmds.locks.filter fun l => decide (l.slot ≠ slot) } }

/-! ## Ends of commands -/

/-- A command ends: its locks and pips are released and it is no longer in flight (R117, R399). -/
def State.release (s : State) (slot : Nat) : State :=
  { s with
    cmds := { s.cmds with
      locks := s.cmds.locks.filter fun l => decide (l.slot ≠ slot)
      inflight := s.cmds.inflight.del slot
      admission := s.cmds.admission.filter fun x => decide (x ≠ slot) }
    pools := { s.pools with pipWaits := s.pools.pipWaits.filter fun e => decide (e.2 ≠ slot) } }

/-- Take a command out of the admission order and the waits for pips. -/
def State.unqueue (s : State) (slot : Nat) : State :=
  { s with
    cmds := { s.cmds with admission := s.cmds.admission.filter fun x => decide (x ≠ slot) }
    pools := { s.pools with pipWaits := s.pools.pipWaits.filter fun e => decide (e.2 ≠ slot) } }

/-- Whether a command in flight has not passed the admission order yet (R116, R122). -/
def beforeAdmission (c : Cmd) : Bool :=
  match c.stage with
  | .fetched | .waitOrder | .waitPips | .waitAdmit => true
  | _ => false

/-- Whether a command is the next of its submission ring to be interpreted and admitted (R116, R122). -/
def State.isTurn (s : State) (c : Cmd) : Bool :=
  !(s.cmds.inflight.any fun e =>
    decide (e.2.fn = c.fn ∧ e.2.ring = c.ring ∧ e.2.number < c.number) && beforeAdmission e.2)

/-- The open deferred-error entry of a namespace that is oldest (R134). -/
def State.oldestOpen (s : State) (nsid : Nat) : Option Nat :=
  let l := s.deferred.filter fun e => decide (e.2.nsid = nsid ∧ (e.2.st = .pending ∨ e.2.st = .lost))
  (l.foldl (fun (m : Option (Nat × DefEntry)) e =>
    match m with
    | none => some e
    | some x => if (e.2.raisedSeq - x.2.raisedSeq).toNat < 2 ^ 63 then some x else some e) none).map fun e => e.1

/-- A record as it is written: DEFP and OK_DEFERRED_PENDING as the log stands at that moment (R88, R134). -/
def State.deferredMark (s : State) (c : Cmd) (r : BitVec 256) : BitVec 256 :=
  if c.judged < 6 ∨ s.version c.fn.key = 0x0204 ∨ !namesNs c.packet then r
  else
    match s.oldestOpen (pkNsid c.packet) with
    | none => r
    | some i =>
      let r := r ||| (1#256 <<< 56)
      if isIo (pkOpcode c.packet) ∧ (r >>> 32).toNat % 2 ^ 24 = 0 then
        r ||| (1#256 <<< 40) ||| BitVec.ofNat 256 (i % 65536 * 2 ^ 128)
      else r

/-- The class of a record. -/
def recordClass (r : BitVec 256) : Nat := (r >>> 32).toNat % 256

/-- An entry of the function error log: the record, bytes 0 to 23 of the packet, the stamp (R106). -/
def errEntry (r : BitVec 256) (p : BitVec 512) (stamp : DWord) : BitVec 512 :=
  r.setWidth 512 ||| (BitVec.ofNat 512 (p.toNat % 2 ^ 192) <<< 256) ||| (stamp.setWidth 512 <<< 448)

/-- Enter an error completion into the function error log, newest first, at most 256 (R106). -/
def State.logError (s : State) (c : Cmd) (r : BitVec 256) : State :=
  if recordClass r = 0 then s
  else
    let f := s.fnOf c.fn.key
    (s.setFn c.fn.key { f with errLog := (errEntry r c.packet s.nextStamp :: f.errLog).take 256 }).takeStamps 1

/-- Whether a completion ring signals every record: the administrative ring does (R83, R93). -/
def cqSignals (cq : Nat) (r : CplRing) : Bool :=
  decide (cq = 0) || (r.ien && decide (r.aggCount = 0 ∨ r.aggCount ≤ r.unsignalled + 1))

/-- Post a record to its completion ring and end its command (R74, R80, R81, R93, R106, R117). -/
def State.postRecord (s : State) (slot : Nat) (c : Cmd) (cq : Nat) (q : CplRing) (r0 : BitVec 256) : State :=
  let fk := c.fn.key
  let head := match s.cmds.sqs.look (ringKey fk c.ring) with | some x => x.head | none => 0
  let r := sealRecord (s.deferredMark c r0) q.phase head
  let tail := (q.tail + 1) % q.size
  let sig := cqSignals cq q
  let s := s.emit (.record c.fn cq q.tail q.split r)
  let s := s.setCq (ringKey fk cq)
    { q with tail := tail, phase := if tail = 0 then !q.phase else q.phase,
             unsignalled := if sig then 0 else q.unsignalled + 1 }
  let s := s.logError c r
  let s := if sig then s.message fk q.vector else s
  s.release slot

/-- Whether a function may write records now (R445, R456). -/
def State.mayWriteHost (s : State) (fk : Nat) : Bool :=
  (s.fnOf fk).busMaster && !(s.fnOf fk).d3hot

/-- A command has finished: its record is posted, or held behind a full or faulted ring or a function that may not
write (R74, R75, R79, R456). A command whose completion ring is gone ends without a record. -/
def State.complete (s : State) (slot : Nat) (x : Status) : State :=
  match s.cmds.inflight.look slot with
  | none => s
  | some c =>
    let fk := c.fn.key
    let x := if s.version fk = 0x0204 then x.at24 else x
    let r := mkRecord c.ring (pkCid c.packet) (pkNsid c.packet) false x
    match s.cmds.sqs.look (ringKey fk c.ring) with
    | none => s.release slot
    | some sq =>
      match s.cmds.cqs.look (ringKey fk sq.cq) with
      | none => s.release slot
      | some q =>
        if q.full ∨ q.faulted ∨ !q.held.isEmpty ∨ !s.mayWriteHost fk then
          ((s.setCq (ringKey fk sq.cq) { q with held := q.held ++ [{ slot := slot, record := r }] }).setCmd slot
            { c with stage := .waitHeld, sramPips := 0, sdramPips := 0 }).unqueue slot
        else s.postRecord slot c sq.cq q r

/-- Post the oldest held record of a completion ring when it may be posted (R75). -/
def State.postHeld (s : State) (fk cq : Nat) : State :=
  match s.cmds.cqs.look (ringKey fk cq) with
  | none => s
  | some q =>
    match q.held with
    | [] => s
    | h :: rest =>
      if q.full ∨ q.faulted ∨ !s.mayWriteHost fk then s
      else
        match s.cmds.inflight.look h.slot with
        | none => s.setCq (ringKey fk cq) { q with held := rest }
        | some c => s.postRecord h.slot c cq { q with held := rest } h.record

/-! ## Pips (R397 to R401) -/

/-- The pips a class has reserved: CMD, SRAM, SDRAM (R397). -/
def State.pipsUsed (s : State) (cls : Nat) : Nat × Nat × Nat :=
  s.cmds.inflight.foldl (fun u e =>
    if e.2.cmdPip ∧ e.2.cls = cls then
      (u.1 + 1, u.2.1 + e.2.sramPips, u.2.2 + e.2.sdramPips) else u)
    (s.pools.bufs.foldl (fun u b =>
      if b.cls = cls then (if b.pool < 2 then (u.1, u.2.1 + b.pips, u.2.2) else (u.1, u.2.1, u.2.2 + b.pips)) else u)
      (0, 0, 0))

/-- The fabric addresses at which the memories begin: no higher than the 48 bits of the address fields allow. -/
def stagingBase : Nat := Config.stagingPage % 2 ^ 35 * 4096
def sdramBase : Nat := Config.sdramPage % 2 ^ 35 * 4096
def scratchBase : Nat := Config.scratchPage % 2 ^ 35 * 4096

/-- The fabric address of a buffer (R393). -/
def bufferAddr (p n : Nat) : Nat := Config.bufferPlace p n % 2 ^ 48

/-- Whether an SDRAM channel has failed (R439). -/
def State.sdcFailed (s : State) (ch : Nat) : Bool := decide (s.fld (Reg.SDC_STATE ch) Reg.SDC_STATE_.FAILED = 1)

/-- n: the SDRAM channels that have not failed (R429, R439). -/
def State.sdramLeft (s : State) : Nat := ((List.range 12).filter fun ch => !s.sdcFailed ch).length

/-- M: where the mirror zone begins in a channel (R429). -/
def State.mirrorM (s : State) : Nat := s.fld Reg.SDC_MIRROR Reg.SDC_MIRROR_.BASE * 2 ^ 28

/-- Whether an SDRAM offset lies in the part of the plain region that no channel holds any more (R429). -/
def State.sdramHole (s : State) (x : Nat) : Bool := decide (s.sdramLeft * s.mirrorM ≤ x ∧ x < 12 * s.mirrorM)

/-- The buffers set up in a pool (R390, Table 1). -/
def State.poolSize (s : State) (p : Nat) : Nat :=
  if p = 0 then 12288
  else if p = 1 then 4096
  else if p = 2 then s.fld Reg.BPM_POOLSIZE Reg.BPM_POOLSIZE_.POOL2
  else s.fld Reg.BPM_POOLSIZE Reg.BPM_POOLSIZE_.POOL3

/-- Whether a buffer of a pool is there: the BPM has removed those that lie where no SDRAM channel is left (R439). -/
def State.bufferThere (s : State) (p n : Nat) : Bool :=
  decide (p < 2 ∨ s.sdramLeft = 12) || !s.sdramHole (bufferAddr p n - sdramBase)

/-- The buffers of a pool. -/
def State.poolCount (s : State) (p : Nat) : Nat :=
  if p < 2 ∨ s.sdramLeft = 12 then s.poolSize p
  else ((List.range (s.poolSize p)).filter fun n => s.bufferThere p n).length

/-- The free buffers of a pool. -/
def State.poolFree (s : State) (p : Nat) : Nat :=
  s.poolCount p - (s.pools.bufs.filter fun b => decide (b.pool = p)).length

/-- The thresholds that a pool has reached, with HYST for the ones it had reached before (R401): WARN1, WARN2, WARN3. -/
def State.poolReached (s : State) (p : Nat) : List Bool :=
  let a := Reg.BPM_POOLCFG p
  let free := s.poolFree p
  let h := s.fld a Reg.BPM_POOLCFG_.HYST
  let was := (s.pools.levels.look p).getD 0
  ([(1, s.fld a Reg.BPM_POOLCFG_.WARN1), (2, s.fld a Reg.BPM_POOLCFG_.WARN2),
    (4, s.fld a Reg.BPM_POOLCFG_.WARN3)] : List (Nat × Nat)).map fun e =>
      decide (free ≤ e.2) || (decide (was / e.1 % 2 = 1) && decide (free ≤ e.2 + h))

/-- A pool's level: the number of the highest threshold reached (R401). -/
def State.poolLevel (s : State) (p : Nat) : Nat :=
  match s.poolReached p with
  | [a, b, c] => if c then 3 else if b then 2 else if a then 1 else 0
  | _ => 0

/-- Follow a pool's free count (R401, R402): the thresholds reached are kept, WARN2 and WARN3 raise their events. -/
def State.followPool (s : State) (p : Nat) : State :=
  let was := (s.pools.levels.look p).getD 0
  let r := s.poolReached p
  let now := ((r.zip ([1, 2, 4] : List Nat)).map fun e => if e.1 then e.2 else 0).sum
  let n := (s.pools.bufs.filter fun b => decide (b.pool = p)).length
  let s : State := { s with pools := { s.pools with
    levels := if now = 0 then s.pools.levels.del p else s.pools.levels.put p now
    used := if n ≤ (s.pools.used.look p).getD 0 then s.pools.used else s.pools.used.put p n } }
  let s := if now / 2 % 2 = 1 ∧ was / 2 % 2 = 0 then s.raise 14 (16 + p) else s
  if now / 4 % 2 = 1 ∧ was / 4 % 2 = 0 then s.raise 14 (20 + p) else s

/-- A buffer is free again (R393, R401). -/
def State.freeBuf (s : State) (addr : Nat) : State :=
  match s.pools.bufs.find? fun b => decide (b.addr = addr) with
  | none => s
  | some x =>
    ({ s with pools := { s.pools with bufs := s.pools.bufs.filter fun b => decide (b.addr ≠ addr) } } : State).followPool x.pool

/-- Whether reservations of classes 0 to 55 may be granted by the levels of the pools they would use (R401, Table 4). -/
def State.levelAllows (s : State) (sram sdram : Nat) : Bool :=
  (decide (sram = 0) || decide (s.poolLevel 0 < 2)) && (decide (sdram = 0) || decide (s.poolLevel 3 < 2))

/-- Whether a class can reserve a demand now (R397, R399, R401). -/
def State.pipsFree (s : State) (cls : Nat) (d : Nat × Nat) : Bool :=
  let u := s.pipsUsed cls
  let q := s.quota cls
  decide (u.1 + 1 ≤ q.1) && decide (u.2.1 + d.1 ≤ q.2.1) && decide (u.2.2 + d.2 ≤ q.2.2) && s.levelAllows d.1 d.2

/-- Whether commands of a class wait for pips (R217, R399). -/
def State.classWaits (s : State) (cls : Nat) : Bool :=
  s.pools.pipWaits.any fun e => decide (e.1 = cls)

/-! ## Ring set-up and tear-down -/

/-- The class that a function's new rings take (R396). -/
def State.newRingClass (s : State) (fk named : Nat) : Nat :=
  if fk % 512 = 0 then named else (s.fnOf fk).cls

/-- The sum of ring weights of a command core (R216). -/
def State.coreWeight (s : State) (core : Nat) : Nat :=
  (s.cmds.sqs.map fun e => if e.2.home = core then e.2.weight else 0).sum

/-- Whether a command core has failed (R498). -/
def State.coreFailed (s : State) (g : CoreGroup) (i : Nat) : Bool :=
  s.failedCores.contains { group := g, idx := i }

/-- The command core with the lowest sum of ring weights, lowest index on a tie, among those in service (R216). -/
def State.homeCore (s : State) : Nat :=
  let cores := (List.range 16).filter fun i => !s.coreFailed .command i
  cores.foldl (fun best i => if s.coreWeight i < s.coreWeight best then i else best) (cores.headD 0)

/-- A fresh submission ring. -/
def freshSq (base : DWord) (log2 cq weight cls home : Nat) : SubRing :=
  { base := base, log2 := log2, head := 0, tail := 0, fetched := 0, rung := 0, cq := cq,
    weight := weight, cls := cls, home := home, faulted := false, stopped := false, bells := [] }

/-- A fresh completion ring: the N9 writes P = 1 on its first pass (R80). -/
def freshCq (base : DWord) (log2 vector aggCount aggTime : Nat) (ien split : Bool) : CplRing :=
  { base := base, log2 := log2, head := 0, tail := 0, phase := true, vector := vector, aggCount := aggCount,
    aggTime := aggTime, ien := ien, split := split, faulted := false, held := [], unsignalled := 0 }

/-- The slots of a function's commands in flight. -/
def State.slotsOf (s : State) (fk : Nat) : List Nat :=
  (s.cmds.inflight.filter fun e => decide (e.2.fn.key = fk)).map fun e => e.1

/-- The ring number of a command whose ring is gone while it continues to its completion point (R456, step 4): no
function has such a ring, so it ends without a record. -/
def goneRing : Nat := 2 ^ 40

/-- Whether a command in flight still needs a request to host memory (R456, step 4): it moves data or a descriptor and
has not had its effect yet. -/
def needsHost (c : Cmd) : Bool :=
  let op := pkOpcode c.packet
  (movesData op || decide (op = opFwStage ∨ op = opHerdJoin ∨ op = opHerdReshape ∨ op = opKeyLoad ∨ op = opLogGet)) &&
    (match c.stage with | .waitHeld | .waitPack => false | _ => true)

/-- Whether a command continues to its completion point when its function is reset (R456; log entry 11). -/
def survivesReset (c : Cmd) : Bool :=
  !needsHost c && (match c.stage with | .waitHeld | .fetched => false | _ => true)

/-- The lowest tag of a port that no request holds. -/
def PortState.freeTag (p : PortState) : Nat :=
  ((List.range (p.tags.length + 1)).find? fun n => !(p.tags.any fun t => decide (t.tag = n))).getD 0

/-- The function for which the owner of a tag issued its request: the physical function for map pages and K7 channels. -/
def State.ownerFn (s : State) (p : Port) (o : TagOwner) : Nat :=
  match o with
  | .packet f _ => f.key
  | .command slot => match s.cmds.inflight.look slot with | some c => c.fn.key | none => p.num * 512
  | .muleData r =>
    match (s.mules.look r).bind fun x => x.cur with
    | some d => p.num * 512 + (d >>> 211).toNat % 512
    | none => p.num * 512
  | _ => p.num * 512

/-- Log an error in a function's AER capability: bit 14 is a Completion Timeout, bit 16 an Unexpected Completion. -/
def State.logAer (s : State) (fk bit : Nat) : State :=
  let f := s.fnOf fk
  s.setFn fk { f with aer := f.aer ||| ((1 : Word) <<< bit) }

/-- A timeout is counted and reported (R454). -/
def State.countTimeout (s : State) (p : Port) (o : TagOwner) : State :=
  ((s.count (Reg.HST_TIMEOUTS p.num) 1).raiseHst p 22).logAer (s.ownerFn p o) 14

/-- A request of a port has timed out: it is counted and its tag is quarantined (R454, R455). -/
def State.hostTimeout (s : State) (p : Port) (o : TagOwner) : State :=
  let x := s.portOf p
  (s.setPort p { x with tags := x.tags ++ [{ tag := x.freeTag, owner := o, quarantined := true }] }).countTimeout p o

/-- What follows a command's read of host memory that failed: a timeout is reported (R454). -/
def State.readFailed (s : State) (slot : Nat) (c : Cmd) : State :=
  if c.host.dataAnswer = .timedOut then s.hostTimeout c.fn.port (.command slot) else s

/-- Discard a function's rings, held records, negotiated version and the commands that do not continue, without a
record (R83, R456). -/
def State.discardFn (s : State) (fk : Nat) : State :=
  let gone := (s.cmds.inflight.filter fun e => decide (e.2.fn.key = fk) && !survivesReset e.2).map fun e => e.1
  { s with
    cmds := { sqs := s.cmds.sqs.filter fun e => decide (e.1 / 65536 ≠ fk)
              cqs := s.cmds.cqs.filter fun e => decide (e.1 / 65536 ≠ fk)
              inflight := (s.cmds.inflight.filter fun e => !gone.contains e.1).map fun e =>
                if e.2.fn.key = fk then (e.1, { e.2 with ring := goneRing, notes := [] }) else e
              admission := s.cmds.admission.filter fun x => !gone.contains x
              locks := s.cmds.locks.filter fun l => !gone.contains l.slot }
    pools := { s.pools with pipWaits := s.pools.pipWaits.filter fun e => !gone.contains e.2 } }

end Sys2Proof.Machine
end

