-- ==== Sys2Proof/Machine/Crc.lean ====
section
/-! DEFINITION. The check codes of R292: the CRC-64 of tallies and the CRC-32C of every other format, both reflected. -/

namespace Sys2Proof.Machine

open Sys2Proof

/-- One bit of a reflected CRC of width `w`. -/
def crcBit {w : Nat} (poly c : BitVec w) : BitVec w :=
  if c.getLsbD 0 then (c >>> 1) ^^^ poly else c >>> 1

/-- One byte of a reflected CRC. -/
def crcByte {w : Nat} (poly c : BitVec w) (b : Byte) : BitVec w :=
  (List.range 8).foldl (fun c _ => crcBit poly c) (c ^^^ b.setWidth w)

/-- A reflected CRC with initial value and final XOR of all ones. -/
def crcOf {w : Nat} (poly : BitVec w) (l : List Byte) : BitVec w :=
  ~~~(l.foldl (crcByte poly) (~~~0))

/-- CRC-64 (ECMA-182, reflected). -/
def crc64 (l : List Byte) : DWord := crcOf 0xC96C5795D7870F42#64 l

/-- CRC-32C (Castagnoli, reflected). -/
def crc32c (l : List Byte) : Word := crcOf 0x82F63B78#32 l

/-- The bytes of a bit vector of `8 n` bits, least significant first (R10). -/
def bytesOf {w : Nat} (v : BitVec w) (n : Nat) : List Byte :=
  (List.range n).map fun i => (v >>> (8 * i)).setWidth 8

/-- The bit vector that bytes spell, least significant first (R10). -/
def ofBytes (w : Nat) (l : List Byte) : BitVec w := BitVec.ofNat w (leNat l)

end Sys2Proof.Machine
end

