-- ==== Sys2Proof/Machine/Map.lean ====
section
/-! DEFINITION. The map: entries (R143 to R147), directory (R148 to R150), Host Map Regions (R151 to R162), the map cache
with its eviction buffers and detectors (R166 to R175), and the effects of their commands that end no host command. -/

namespace Sys2Proof.Machine

open Sys2Proof

/-! ## Entries (R142 to R147) -/

/-- The map units of an extent, the map pages of an extent, the entries of a page (R142, R147). -/
def extentUnits : Nat := 3145728
def extentPages : Nat := 4096
def pageEntries : Nat := 768

/-- The flags and the address of a map entry (R143, Table 2). -/
def meT (e : BitVec 40) : Bool := e.getLsbD 39
def meL (e : BitVec 40) : Bool := e.getLsbD 38
def meS (e : BitVec 40) : Bool := e.getLsbD 37
def meV (e : BitVec 40) : Bool := e.getLsbD 36
def meAddr (e : BitVec 40) : Nat := e.toNat % 2 ^ 36

/-- A map entry; without V its address bits are 0 (R143). -/
def mkEntry (t l s v : Bool) (addr : Nat) : BitVec 40 :=
  BitVec.ofNat 40 ((if t then 2 ^ 39 else 0) + (if l then 2 ^ 38 else 0) + (if s then 2 ^ 37 else 0) +
    (if v then 2 ^ 36 + addr % 2 ^ 36 else 0))

/-- Whether an entry's flags are a row of Table 3 (R144). -/
def flagsLegal (e : BitVec 40) : Bool :=
  match meT e, meL e, meS e, meV e with
  | false, false, _, _ => true
  | true, false, false, false => true
  | false, true, _, false => true
  | _, _, _, _ => false

/-- The map page number of a map unit (R142). -/
def Namespace.mpn (n : Namespace) (u : Nat) : Nat :=
  (n.extents[u / extentUnits]?).getD 0 * extentPages + u % extentUnits / pageEntries

/-- The key of a map unit's entry. -/
def Namespace.entryKey (n : Namespace) (u : Nat) : Nat :=
  n.mpn u * pageEntries + u % pageEntries

/-- The entry of a map unit. -/
def State.entryOf (s : State) (n : Namespace) (u : Nat) : BitVec 40 :=
  (s.map.entries.look (n.entryKey u)).getD 0

/-- An absent page: EMPTY with generation 0 (R148). -/
def DirEntry.absent : DirEntry :=
  { gen := 0, index := 0, loc := .empty, dirty := false, busy := false, img := false, port := .a, blk := 0, unit := 0,
    since := 0 }

/-- The directory entry of a page. -/
def MapState.dirOf (m : MapState) (mpn : Nat) : DirEntry := (m.dir.look mpn).getD DirEntry.absent

/-- Write a directory entry. -/
def MapState.setDir (m : MapState) (mpn : Nat) (d : DirEntry) : MapState :=
  { m with dir := if d = DirEntry.absent then m.dir.del mpn else m.dir.put mpn d }

/-- The lowest SDRAM frame number that no page has. -/
def MapState.freeFrame (m : MapState) : Nat :=
  let used := (m.dir.filter fun e => decide (e.2.loc = .sdram)).map fun e => e.2.index
  ((List.range (used.length + 1)).find? fun n => !used.contains n).getD 0

/-- The page as it comes into an SDRAM frame (R150, R163): a page held by the host leaves its slot (R165). -/
def MapState.toFrame (m : MapState) (mpn : Nat) : MapState :=
  let d := m.dirOf mpn
  m.setDir mpn { d with loc := .sdram, index := if d.loc = .sdram then d.index else m.freeFrame, busy := false,
                        port := .a }

/-- A page in its frame changes: DIRTY, with the stamp of its oldest change (R148, R368). -/
def MapState.soil (m : MapState) (mpn : Nat) (stamp : DWord) : MapState :=
  let d := m.dirOf mpn
  m.setDir mpn { d with dirty := true, since := if d.dirty then d.since else stamp }

/-- Write one entry; an entry never written is not listed. -/
def MapState.setEntry (m : MapState) (key : Nat) (e : BitVec 40) : MapState :=
  { m with entries := if e = 0 then m.entries.del key else m.entries.put key e }

/-- A store into an entry: the page is in SDRAM and dirty from then on (R150, R165, R173). -/
def MapState.store (m : MapState) (n : Namespace) (u : Nat) (e : BitVec 40) (stamp : DWord) : MapState :=
  ((m.setEntry (n.entryKey u) e).toFrame (n.mpn u)).soil (n.mpn u) stamp

/-- A store into an entry, on the state. -/
def State.storeEntry (s : State) (n : Namespace) (u : Nat) (e : BitVec 40) : State :=
  { s with map := s.map.store n u e s.nextStamp }

/-! ## Host Map Regions (R151 to R162) -/

/-- The slots of a chunk, and the most slots of a port (R152). -/
def chunkSlots : Nat := 510
def portSlotMax : Nat := 2 ^ 27

/-- The regions of a port, rising. -/
def MapState.regionsOf (m : MapState) (p : Port) : List (Nat × Region) :=
  m.regions.filter fun e => decide (e.1 / 64 = p.num)

/-- The region and the slot within it that a port's slot number names (R152). -/
def slotPlace : List (Nat × Region) → Nat → Option (Nat × Nat)
  | [], _ => none
  | (id, r) :: l, n => if n < r.chunks * chunkSlots then some (id, n) else slotPlace l (n - r.chunks * chunkSlots)

/-- The slot number of a place (R152). -/
def slotNumber : List (Nat × Region) → Nat → Nat → Nat
  | [], _, n => n
  | (id, r) :: l, id', n => if id = id' then n else r.chunks * chunkSlots + slotNumber l id' n

/-- A page leaves its slot and is FLASH (R150). -/
def DirEntry.toFlash (d : DirEntry) : DirEntry := { d with loc := .flash, index := 0, port := .a }

/-- Change the regions of the device, keeping every held page at its place: slot numbers run through the regions (R152).
Pages whose region is gone become FLASH. -/
def MapState.setRegions (m : MapState) (rs : SMap Region) : MapState :=
  let m' : MapState := { m with regions := rs }
  { m' with dir := m.dir.map fun e =>
      if e.2.loc = .host then
        match slotPlace (m.regionsOf e.2.port) e.2.index with
        | some (id, n) =>
          if (rs.look id).isSome then (e.1, { e.2 with index := slotNumber (m'.regionsOf e.2.port) id n })
          else (e.1, e.2.toFlash)
        | none => (e.1, e.2.toFlash)
      else e }

/-- Make every page held in some regions FLASH (R156, R157, R162). -/
def MapState.releaseSlots (m : MapState) (ids : Nat → Bool) : MapState :=
  { m with dir := m.dir.map fun e =>
      if decide (e.2.loc = .host) &&
          (match slotPlace (m.regionsOf e.2.port) e.2.index with | some (id, _) => ids id | none => true) then
        (e.1, e.2.toFlash)
      else e }

/-- Whether two address ranges overlap. -/
def overlaps (a n b m : Nat) : Bool := decide (a < b + m ∧ b < a + n)

/-- The checks of R151 beyond Table 10: the INFO of the first that fails. -/
def MapState.regionRefusal (m : MapState) (p : Port) (base chunks : Nat) : Option Nat :=
  let rs := m.regionsOf p
  if rs.any fun e => overlaps base (chunks * 2 ^ 21) e.2.base.toNat (e.2.chunks * 2 ^ 21) then some 32
  else if 524288 < chunks + (rs.map fun e => e.2.chunks).sum then some 24
  else if 64 ≤ rs.length then some 56
  else none

/-- Add a region under the lowest free identifier of its port (R151). -/
def MapState.addRegion (m : MapState) (p : Port) (base : DWord) (chunks format : Nat) : Nat × MapState :=
  let id := m.regions.firstFree (p.num * 64)
  (id, m.setRegions (m.regions.put id { port := p, base := base, chunks := chunks, format := format, fails := 0,
                                         distrusted := false, removing := false, badSlots := [] }))

/-- A port's fetches that were under way go on from flash (R158, R161). -/
def fetchesToFlash (l : List MapFetch) (mpns : Nat → Bool) : List MapFetch :=
  l.map fun f => if mpns f.mpn then { f with fromHost := false } else f

/-- Drop every region of a port at once (R161); its fetches under way end as errors under R158. -/
def State.dropRegions (s : State) (p : Port) (event : Bool) : State :=
  if (s.map.regionsOf p).isEmpty then s
  else
    let hit (mpn : Nat) : Bool := decide ((s.map.dirOf mpn).loc = .host ∧ (s.map.dirOf mpn).port = p)
    let n := (s.map.fetches.filter fun f => f.fromHost && hit f.mpn).length
    let m := s.map.setRegions (s.map.regions.filter fun e => decide (e.1 / 64 ≠ p.num))
    let s : State := { s with map := { m with fetches := fetchesToFlash m.fetches hit } }
    let s := if n = 0 then s else (s.count (Reg.MAP_HOSTERR p.num) n).raise 4 18
    if event then s.raiseFn (p.num * 512) 6 else s

/-- Draw a new map seal key: every slot is released and every GEN is 0 (R162). -/
def State.rollSealKey (s : State) : State :=
  let m := s.map.releaseSlots fun _ => true
  let m : MapState := { m with sealKey := m.sealKey + 1, dir := m.dir.map fun e => (e.1, { e.2 with gen := 0 }) }
  (({ s with map := m } : State).count Reg.MAP_KEYROLLS 1).raise 4 19

/-- The lowest slot of a port that may take a page: no page holds it, it has not failed, its region is neither
distrusted nor being removed (R152, R155, R156, R157). -/
def MapState.freeSlot (m : MapState) (p : Port) : Option Nat :=
  let used := (m.dir.filter fun e => decide (e.2.loc = .host ∧ e.2.port = p)).map fun e => e.2.index
  let rs := m.regionsOf p
  let total := min portSlotMax ((rs.map fun e => e.2.chunks * chunkSlots).sum)
  (List.range total).find? fun n =>
    !used.contains n &&
      (match slotPlace rs n with
       | some (id, k) =>
         (match m.regions.look id with
          | some r => !r.distrusted && !r.removing && !r.badSlots.contains k
          | none => false)
       | none => false)

/-- MAP_PAGE_PLACE (R149, R155, R159, R162). -/
def execMapPagePlace (mpn : Nat) (p : Port) (s : State) : Host.Outcome State Fault Refusal :=
  let d := s.map.dirOf mpn
  match s.map.freeSlot p with
  | none => .next s
  | some slot =>
    answer (s.up && decide (s.fld Reg.MAP_HMRCTRL Reg.MAP_HMRCTRL_.HOLD_ENABLE = 1) &&
        decide (d.loc = .sdram) && d.img && !d.dirty && !d.busy) s
      (let s := if d.gen = 0xFFFF_FFFF then s.rollSealKey else s
       let d := s.map.dirOf mpn
       let gen := d.gen + 1
       ({ s with map := s.map.setDir mpn { d with gen := gen, loc := .host, index := slot, port := p } } : State).emit
         (.hmrWrite p slot mpn gen))

/-- MAP_PAGE_DROP (R150). -/
def execMapPageDrop (mpn : Nat) (s : State) : Host.Outcome State Fault Refusal :=
  let d := s.map.dirOf mpn
  answer (s.up && decide (d.loc = .sdram) && d.img && !d.dirty && !d.busy) s
    { s with map := s.map.setDir mpn d.toFlash }

/-! ## Fetches of map pages (R155 to R165) -/

/-- Whether a page must be fetched before its entries can be used (R163, R165; R439 after the loss of an SDRAM channel). -/
def MapState.away (m : MapState) (mpn : Nat) : Bool :=
  let d := m.dirOf mpn
  d.busy || decide (d.loc = .flash) || decide (d.loc = .host) ||
    (m.detour && decide (d.loc = .sdram) && d.img && !d.dirty)

/-- Start the fetch of a page, unless an operation on it is in progress (R163, R164). A read from a region takes a tag of
its port (R159). -/
def State.startFetch (s : State) (mpn : Nat) (forStore : Bool) : State :=
  let d := s.map.dirOf mpn
  if d.busy then
    { s with map := { s.map with fetches := s.map.fetches.map fun f =>
        if f.mpn = mpn then { f with forStore := f.forStore || forStore } else f } }
  else
    let m := s.map.setDir mpn { d with busy := true }
    let s : State := { s with map := { m with
      fetches := m.fetches ++ [{ mpn := mpn, fromHost := decide (d.loc = .host), forStore := forStore }] } }
    if d.loc = .host then
      let x := s.portOf d.port
      let tag := ((List.range (x.tags.length + 1)).find? fun n => !(x.tags.any fun t => decide (t.tag = n))).getD 0
      s.setPort d.port { x with tags := x.tags ++ [{ tag := tag, owner := .mapPage mpn, quarantined := false }] }
    else s

/-- The fetch in progress of a page. -/
def MapState.fetchOf (m : MapState) (mpn : Nat) : Option MapFetch := m.fetches.find? fun f => decide (f.mpn = mpn)

/-- The fetch of a page is over. -/
def MapState.endFetch (m : MapState) (mpn : Nat) : MapState :=
  { m with fetches := m.fetches.filter fun f => decide (f.mpn ≠ mpn) }

/-- Give back the tag of a map-page read. -/
def PortState.dropMapTag (p : PortState) (mpn : Nat) : PortState :=
  { p with tags := p.tags.filter fun t => !(decide (t.owner = .mapPage mpn) && !t.quarantined) }

/-- The chunk record of page format 1.1 (R153, Table 6). -/
def chunkRecord (region chunk : Nat) (serial : DWord) : BitVec 256 :=
  BitVec.ofNat 256 (region % 65536 + 0x0101 * 2 ^ 16 + chunk % 2 ^ 32 * 2 ^ 32 + serial.toNat * 2 ^ 64)

/-- Whether a map line carries the right CRC (R146). -/
def lineCrcOk (l : BitVec 512) : Bool :=
  decide (crc32c (bytesOf l 60) = (l >>> 480).setWidth 32)

/-- The check of R155 that a fetched page fails: 1 the generation, 2 the tag, 3 the chunk record, 4 a line CRC. -/
def State.pageCheck (s : State) (mpn : Nat) (d : DirEntry) (pg : HmrPage) : Option Nat :=
  let place := slotPlace (s.map.regionsOf d.port) d.index
  if (pg.sealBits >>> 96).setWidth 32 ≠ d.gen then some 1
  else if !Config.pageSealOk s.map.sealKey mpn d.gen d.port.num d.index pg then some 2
  else if (match place with
      | some (id, n) =>
        (match s.map.regions.look id with
         | some r => decide (r.format = 0x0101 ∧
             pg.chunk ≠ chunkRecord id (n / chunkSlots) (s.reg Reg.FUS_SERIAL))
         | none => true)
      | none => true) then some 3
  else if pg.lines.length ≠ 64 ∨ !(pg.lines.all lineCrcOk) then some 4
  else none

/-- The page is fetched from its flash image instead (R155, steps 2 and 3). -/
def State.fallBack (s : State) (mpn : Nat) : State :=
  let d := s.map.dirOf mpn
  let m := s.map.setDir mpn d.toFlash
  { s with map := { m with fetches := fetchesToFlash m.fetches fun n => decide (n = mpn) } }

/-- Distrust a region when its failures reach SEAL_LIMIT (R156). -/
def State.distrust (s : State) (id : Nat) (r : Region) : State :=
  let limit := s.fld Reg.MAP_HMRCTRL Reg.MAP_HMRCTRL_.SEAL_LIMIT
  if r.distrusted ∨ limit = 0 ∨ r.fails < limit then s
  else
    let m := s.map.releaseSlots fun i => decide (i = id)
    let s : State := { s with map := { m with regions := m.regions.put id { r with distrusted := true } } }
    (s.raiseRecord 4 17 0 (leBytes 2 id)).raiseFn (r.port.num * 512) 6

/-- A seal failure (R155, R156). -/
def State.sealFail (s : State) (mpn check : Nat) : State :=
  let d := s.map.dirOf mpn
  let slot := d.index
  let place := slotPlace (s.map.regionsOf d.port) slot
  let s := (s.fallBack mpn).count (Reg.MAP_SEALFAIL d.port.num) 1
  let s := s.raiseRecord 4 16 0 (leBytes 4 mpn ++ leBytes 4 slot ++ leBytes 1 check)
  match place with
  | none => s
  | some (id, n) =>
    match s.map.regions.look id with
    | none => s
    | some r =>
      let r := { r with fails := r.fails + 1, badSlots := n :: r.badSlots }
      ({ s with map := { s.map with regions := s.map.regions.put id r } } : State).distrust id r

/-- A fetch error (R158): counted apart, the slot stays usable. Check 5 names it in the record. -/
def State.fetchError (s : State) (mpn : Nat) : State :=
  let d := s.map.dirOf mpn
  let s := (s.fallBack mpn).count (Reg.MAP_HOSTERR d.port.num) 1
  s.raiseRecord 4 18 0 (leBytes 4 mpn ++ leBytes 4 d.index ++ leBytes 1 5)

/-- A page fetched from the host is good: a lookup leaves it where it is, a store brings it into a frame (R163, R165). -/
def MapState.hostFetched (m : MapState) (mpn : Nat) (forStore : Bool) : MapState :=
  let m := m.endFetch mpn
  if forStore then m.toFrame mpn else m.setDir mpn { m.dirOf mpn with busy := false }

/-- The image of a page cannot be recovered: every entry is lost (R183). -/
def MapState.losePage (m : MapState) (mpn : Nat) : MapState :=
  (List.range pageEntries).foldl (fun m i =>
    let k := mpn * pageEntries + i
    m.setEntry k (mkEntry false true (meS ((m.entries.look k).getD 0)) false 0)) m

/-- A page read from flash has its frame, or is lost (R163, R183). -/
def State.flashFetched (s : State) (mpn : Nat) (readable : Bool) : State :=
  let m := s.map.endFetch mpn
  if readable then { s with map := m.toFrame mpn }
  else (({ s with map := ((m.losePage mpn).toFrame mpn).soil mpn s.nextStamp } : State).raiseRecord 4 21 0 (leBytes 4 mpn))

/-! ## The map cache (R166 to R175) -/

/-- The cache line address of a map line (R166). -/
def lineAddr (mpn line : Nat) : Nat := mpn * 8 + line / 8

/-- Set, island, tag of a cache line address (R166). -/
def lineSet (cla : Nat) : Nat := cla % 8192
def lineTag (cla : Nat) : Nat := cla / 8192

/-- The scratch ways (R170). -/
def State.scratchWays (s : State) : Nat := min 8 (s.fld Reg.MCH_SCRATCH Reg.MCH_SCRATCH_.WAYS)

/-- The map cache class of a command's requester class (R169, Table 17): 16 fields of 4 bits a register, 12 to 15 taken
as 11. -/
def State.cacheClass (s : State) (cls : Nat) : Nat :=
  min 11 (((s.reg (Reg.MCH_CLASSMAP (cls / 16))) >>> (cls % 16 * 4)).toNat % 16)

/-- The ways that a cache class may allocate (R168, R170). -/
def State.wayMask (s : State) (c : Nat) : Nat :=
  (s.fld (Reg.MCH_WAYMASK c) Reg.MCH_WAYMASK_.WAYS) % 2 ^ (16 - s.scratchWays)

/-- One step of a replacement LFSR (R168). -/
def lfsrStep (v : Word) : Word :=
  (v <<< 1) ||| (if (v.getLsbD 31 ^^ v.getLsbD 21 ^^ v.getLsbD 1 ^^ v.getLsbD 0) then 1 else 0)

/-- The first way of the mask at or after `r`, going round (R168). -/
def wayFrom (m r : Nat) : Nat :=
  (((List.range 16).map fun i => (r + i) % 16).find? fun w => decide (m / 2 ^ w % 2 = 1)).getD 0

/-- The victim way of R168 and the LFSR after it; none when the mask is empty. -/
def victim (used : List Nat) (m : Nat) (lfsr : Word) : Option (Nat × Word) :=
  if m = 0 then none
  else
    match (List.range 16).find? fun w => decide (m / 2 ^ w % 2 = 1) && !used.contains w with
    | some w => some (w, lfsr)
    | none => some (wayFrom m (lfsr.toNat % 16), lfsrStep lfsr)

/-- Put an evicted line into its island's eviction buffer: a clean line makes room first, else the oldest line drains
(R174). -/
def evictInto (buf : List CacheLine) (l : CacheLine) : List CacheLine :=
  let mine := buf.filter fun x => decide (x.island = l.island)
  if mine.length < 8 then buf ++ [l]
  else
    match mine.find? fun x => decide (x.dirty = 0) with
    | some x => buf.erase x ++ [l]
    | none => (match mine.head? with | some x => buf.erase x ++ [l] | none => buf ++ [l])

/-- Allocate a line in a set by a class (R168): the line, evicting the way's former line. -/
def State.allocLine (s : State) (c : Nat) (l : CacheLine) : State :=
  let used := (s.map.cache.filter fun x => decide (x.set = l.set)).map fun x => x.way
  let lfsr : Word := (s.reg (Reg.MCH_LFSR l.island)).setWidth 32
  match victim used (s.wayMask c) lfsr with
  | none => s
  | some (w, lfsr') =>
    let old := s.map.cache.find? fun x => decide (x.set = l.set ∧ x.way = w)
    let rest := s.map.cache.filter fun x => !decide (x.set = l.set ∧ x.way = w)
    let ev := match old with | some o => evictInto s.map.evict o | none => s.map.evict
    ({ s with map := { s.map with cache := rest ++ [{ l with way := w }], evict := ev } } : State).setReg
      (Reg.MCH_LFSR l.island) (lfsr'.setWidth 64)

/-- One lookup or store of a map line by a cache class, with the counters of R185: a hit, an eviction-buffer hit, or a
miss that fills the sector (R163, R167, R173, R175). -/
def State.cacheTouch (s : State) (c mpn line : Nat) (dirty : Bool) : State :=
  let cla := lineAddr mpn line
  let set := lineSet cla
  let island := set % 4
  let bit : BitVec 8 := 1#8 <<< (line % 8)
  let mark (l : CacheLine) : CacheLine :=
    { l with valid := l.valid ||| bit, dirty := if dirty then l.dirty ||| bit else l.dirty }
  let isIt (x : CacheLine) : Bool := decide (x.set = set ∧ x.tag = lineTag cla)
  match s.map.cache.find? isIt with
  | some l =>
    let s := s.count (if (l.valid &&& bit) ≠ 0 then Reg.MCH_HITS island else Reg.MCH_MISSES island) 1
    { s with map := { s.map with cache := s.map.cache.map fun x => if isIt x then mark x else x } }
  | none =>
    match s.map.evict.find? isIt with
    | some l =>
      let s := (s.count (Reg.MCH_MISSES island) 1).count (Reg.MCH_EVBHITS island) 1
      ({ s with map := { s.map with evict := s.map.evict.filter fun x => !isIt x } } : State).allocLine c (mark l)
    | none =>
      (s.count (Reg.MCH_MISSES island) 1).allocLine c
        (mark { island := island, set := set, way := 0, tag := lineTag cla, valid := 0, dirty := 0 })

/-- A whole page verified from the host fills all eight sectors of the cache line (R167). -/
def State.cacheFill (s : State) (mpn line : Nat) : State :=
  let cla := lineAddr mpn line
  let isIt (x : CacheLine) : Bool := decide (x.set = lineSet cla ∧ x.tag = lineTag cla)
  { s with map := { s.map with cache := s.map.cache.map fun x => if isIt x then { x with valid := 0xFF } else x } }

/-- The sequential-store detectors (R171): the detectors after a store to a map line address, and the run claimed. -/
def detect (ds : List Detector) (now addr : Nat) : List Detector × Nat :=
  match ds.find? fun d => decide (d.next = addr ∧ d.run ≠ 0) with
  | some d =>
    (ds.map fun x => if x = d then { next := addr + 1, run := d.run + 1, used := now } else x, d.run + 1)
  | none =>
    if ds.length < 8 then (ds ++ [{ next := addr + 1, run := 1, used := now }], 1)
    else
      let oldest := ds.foldl (fun o d => if d.used < o.used then d else o) (ds.headD { next := 0, run := 0, used := 0 })
      (ds.map fun x => if x = oldest then { next := addr + 1, run := 1, used := now } else x, 1)

/-- A store to a map line through the cache, or around it once a detector's run has reached THRESH (R171). -/
def State.cacheStore (s : State) (c mpn line : Nat) (whole : Bool) : State :=
  let r := detect s.map.detectors s.map.storeCount (mpn * 64 + line)
  let s : State := { s with map := { s.map with detectors := r.1, storeCount := s.map.storeCount + 1 } }
  let cla := lineAddr mpn line
  let bit : BitVec 8 := 1#8 <<< (line % 8)
  let thresh := s.fld Reg.MCH_STREAM Reg.MCH_STREAM_.THRESH
  if whole ∧ thresh ≠ 0 ∧ thresh ≤ r.2 then
    let clear (x : CacheLine) : CacheLine :=
      if x.set = lineSet cla ∧ x.tag = lineTag cla then { x with valid := x.valid &&& ~~~bit, dirty := x.dirty &&& ~~~bit }
      else x
    { s with map := { s.map with cache := s.map.cache.map clear, evict := s.map.evict.map clear } }
  else s.cacheTouch c mpn line true

/-- Write back every dirty sector of a page (R173). -/
def MapState.writeBack (m : MapState) (mpn : Nat) : MapState :=
  let clean (x : CacheLine) : CacheLine :=
    if (x.tag * 8192 + x.set) / 8 = mpn then { x with dirty := 0 } else x
  { m with cache := m.cache.map clean, evict := m.evict.map clean }

/-- The map walk of a command's units: one lookup for each (R163, R169). -/
def State.walk (s : State) (cls : Nat) (n : Namespace) (us : List Nat) : State :=
  us.foldl (fun s u => s.cacheTouch (s.cacheClass cls) (n.mpn u) (u % pageEntries / 12) false) s

/-- EVICTION_WRITEBACK_DONE (R174): the line at a place of an island's eviction buffer leaves it. -/
def execEvictionWritebackDone (island index : Nat) (s : State) : Host.Outcome State Fault Refusal :=
  match (s.map.evict.filter fun x => decide (x.island = island))[index]? with
  | none => .next s
  | some l => answer s.up s { s with map := { s.map with evict := s.map.evict.erase l } }

/-- STREAM_DETECTOR_IDLE (R171). -/
def execStreamDetectorIdle (detector : Nat) (s : State) : Host.Outcome State Fault Refusal :=
  match s.map.detectors[detector]? with
  | none => .next s
  | some d =>
    answer s.up s { s with map := { s.map with detectors := s.map.detectors.set detector { d with run := 0 } } }

/-- DIRTY_LINE_REBUILD (R172): the event, its record, and the sector valid again with the same entries. -/
def execDirtyLineRebuild (mpn line : Nat) (s : State) : Host.Outcome State Fault Refusal :=
  let isIt (x : CacheLine) : Bool :=
    decide (x.set = lineSet (lineAddr mpn line) ∧ x.tag = lineTag (lineAddr mpn line)) &&
      x.dirty.getLsbD (line % 8)
  answer (s.up && s.map.cache.any isIt) s
    (s.raiseRecord 5 17 (lineSet (lineAddr mpn line) % 4) (leBytes 4 mpn ++ leBytes 1 line))

/-! ## The live fields of the Catalogue (R449) -/

/-- The SDRAM channels in service: in SERVE and not failed (R437, R439). -/
def State.sdramServes (s : State) (ch : Nat) : Bool :=
  decide (s.fld (Reg.SDC_STATE ch) Reg.SDC_STATE_.MODE = 2 ∧ s.fld (Reg.SDC_STATE ch) Reg.SDC_STATE_.FAILED = 0)

/-- What the live fields of the Catalogue depend on: scratch ways, SDRAM in service, usable channels and dies, ACTIVE
carriers (R449, Tables 5 and 7). -/
def State.liveFields (s : State) : List Nat :=
  let usable := (List.range 128).map fun ch =>
    ((List.range 16).filter fun d => (s.reg (Reg.CHN_DIEMAP ch)).getLsbD (32 + d)).length
  [ s.scratchWays, ((List.range 12).filter fun ch => s.sdramServes ch).length, (usable.filter fun n => decide (n ≠ 0)).length,
    usable.sum, ((List.range 8).filter fun c => decide (s.fld (Reg.CAR_STATE c) Reg.CAR_STATE_.STATE = 5)).length ]

/-- An update of the device that changed a live field since `old` advances GEN (R449). -/
def State.followGen (s old : State) : State :=
  if s.liveFields = old.liveFields then s else { s with hosts := { s.hosts with gen := s.hosts.gen + 1 } }

/-- MCH_SCRATCH_WRITE (R170). -/
def execMchScratchWrite (src : Source) (value : Word) (s : State) : Host.Outcome State Fault Refusal :=
  answer s.up s
    ((s.access src Reg.MCH_SCRATCH 4 fun s => s.keyed src 5 fun s =>
      if s.mode = modeBoot then
        let n := min 8 (value.toNat % 16)
        ({ s with map := { s.map with cache := s.map.cache.filter fun x => decide (x.way < 16 - n) } } : State).setFld
          Reg.MCH_SCRATCH Reg.MCH_SCRATCH_.WAYS n
      else s.raise 5 18).followGen s)

end Sys2Proof.Machine
end

