-- ==== Sys2Proof/Machine/Banks.lean ====
section
/-! DEFINITION. SDRAM addresses, banks and activations: the address mapping (R429 to R432), the page policy (R433) and
neighbour refresh (R435), for the accesses whose fabric address the model has (log entry 21). -/

namespace Sys2Proof.Machine

open Sys2Proof

/-- c: the column bits (R431). -/
def State.sdramCol (s : State) : Nat := if s.fld Reg.SDC_GEOM Reg.SDC_GEOM_.WIDTH = 0 then 7 else 6

/-- S: the bytes of one SDRAM channel (R424, R431). -/
def State.sdramSize (s : State) : Nat :=
  let f (x : Fld) : Nat := s.fld Reg.SDC_GEOM x
  2 ^ (9 + s.sdramCol + f Reg.SDC_GEOM_.BG_BITS + f Reg.SDC_GEOM_.ROW_BITS + f Reg.SDC_GEOM_.RANKS)

/-- Whether `n` bytes from a fabric address lie in SDRAM that a channel holds (R429). -/
def State.inSdram (s : State) (a n : Nat) : Bool :=
  let x := a - sdramBase
  let m := s.mirrorM
  decide (sdramBase ≤ a) &&
    decide (x + n ≤ s.sdramLeft * m ∨ (12 * m ≤ x ∧ x + n ≤ 12 * m + 6 * (s.sdramSize - m)))

/-- The channels that have not failed, ascending. -/
def State.sdramLive (s : State) : List Nat := (List.range 12).filter fun ch => !s.sdcFailed ch

/-- Where a byte of the plain region lies: channel and local address (R429). -/
def plainPlace (live : List Nat) (x : Nat) : Option (Nat × Nat) :=
  (live[x / 256 % live.length]?).map fun ch => (ch, x / 256 / live.length * 256 + x % 256)

/-- The SDRAM offset at which a local address of a channel lies in the plain region. -/
def plainOffset (live : List Nat) (ch a : Nat) : Nat := (a / 256 * live.length + live.idxOf ch) * 256 + a % 256

/-- The channels and local addresses of an SDRAM offset (R429, R430): of a pair both for a write, the first that serves for
a read. -/
def State.sdramPlaces (s : State) (x : Nat) (write : Bool) : List (Nat × Nat) :=
  let m := s.mirrorM
  if x < s.sdramLeft * m then (plainPlace s.sdramLive x).toList
  else
    let y := x - 12 * m
    let l := y / 256
    let a := m + l / 6 * 256 + y % 256
    (([l % 6, l % 6 + 6].filter fun ch => !s.sdcFailed ch).take (if write then 2 else 1)).map fun ch => (ch, a)

/-- The parity of a number's bits. -/
def parityOf (n : Nat) : Bool := ((List.range 40).filter fun k => n.testBit k).length % 2 = 1

/-- The register that holds the mask of bank bit k (R432; log entry 20). -/
def bankXorAt (k : Nat) : Nat := if k = 4 then 0x300000000 else Reg.SDC_BANKXOR k

/-- A bank-group or bank bit of a local address: base bit `b`, mask k (R432). -/
def State.bankBit (s : State) (a b k : Nat) : Nat :=
  let base := 9 + s.sdramCol + s.fld Reg.SDC_GEOM Reg.SDC_GEOM_.BG_BITS
  let mask := s.fld (bankXorAt k) Reg.SDC_BANKXOR_.MASK / 2 ^ base * 2 ^ base
  if (a.testBit b) != parityOf (a &&& mask) then 1 else 0

/-- The bank of a local address as a number: rank, bank group, bank (R431, R432, Table 2). -/
def State.bankOf (s : State) (a : Nat) : Nat :=
  let c := s.sdramCol
  let g := s.fld Reg.SDC_GEOM Reg.SDC_GEOM_.BG_BITS
  let rank := if s.fld Reg.SDC_GEOM Reg.SDC_GEOM_.RANKS = 1 then a / 2 ^ (9 + c + g) % 2 else 0
  let bg := ((List.range g).map fun k => s.bankBit a (7 + c + k) k * 2 ^ k).sum
  let ba := s.bankBit a (7 + c + g) 3 + s.bankBit a (8 + c + g) 4 * 2
  rank * 32 + bg * 4 + ba

/-- The row of a local address (R431). -/
def State.rowOf (s : State) (a : Nat) : Nat :=
  a / 2 ^ (9 + s.sdramCol + s.fld Reg.SDC_GEOM Reg.SDC_GEOM_.BG_BITS + s.fld Reg.SDC_GEOM Reg.SDC_GEOM_.RANKS) %
    2 ^ s.fld Reg.SDC_GEOM Reg.SDC_GEOM_.ROW_BITS

/-- An SDRAM channel. -/
def State.sdramOf (s : State) (ch : Nat) : Sdram :=
  (s.sdram.look ch).getD
    { banks := [], lfsr := 0, deviceErrs := [], uncorrRun := 0, polls := 0, patrolAt := 0, hot := false }

/-- Write an SDRAM channel. -/
def State.setSdram (s : State) (ch : Nat) (x : Sdram) : State := { s with sdram := s.sdram.put ch x }

/-- A bank; its counter starts at 1 (R433). -/
def Sdram.bank (x : Sdram) (k : Nat) : Bank := (x.banks.look k).getD { counter := 1, lastRow := 0, isOpen := false }

/-- EXP as it is taken (R435, Table 8). -/
def State.nrefExp (s : State) : Nat := max 6 (min 16 (s.fld Reg.SDC_NREF Reg.SDC_NREF_.EXP))

/-- The neighbours of a row that a neighbour refresh opens (R435). -/
def State.neighbours (s : State) (row : Nat) : List Nat :=
  let rows := 2 ^ s.fld Reg.SDC_GEOM Reg.SDC_GEOM_.ROW_BITS
  let d := if s.fld Reg.SDC_NREF Reg.SDC_NREF_.DIST = 1 then [1, 2] else [1]
  (d.flatMap fun k => (if k ≤ row then [row - k] else []) ++ [row + k]).filter fun r => decide (r < rows)

/-- A row of a bank is activated (R435): the LFSR advances, and a draw, a free value, says whether the row's neighbours are
refreshed. -/
def State.activate (s : State) (ch row : Nat) : Bool × State :=
  let x := s.sdramOf ch
  let s := s.setSdram ch { x with lfsr := lfsrStep x.lfsr }
  let r := s.takeFree
  if r.1.toNat % 2 ^ s.nrefExp = 0 then (true, r.2.count (Reg.SDC_NREFS ch) (s.neighbours row).length) else (false, r.2)

/-- A request for a row of a bank of a channel (R433, R435): the counter moves, the row is activated unless it is open, and it
stays open when the counter, or the policy in its place, says so. -/
def State.useBank (s : State) (ch k row : Nat) : State :=
  let b := (s.sdramOf ch).bank k
  let same := decide (b.lastRow = row + 1)
  let counter := if same then min 3 (b.counter + 1) else b.counter - 1
  let r := if b.isOpen && same then (false, s) else s.activate ch row
  let keep := match s.fld Reg.SDC_PAGE Reg.SDC_PAGE_.POLICY with
    | 1 => false
    | 2 => true
    | _ => decide (2 ≤ counter)
  let x := r.2.sdramOf ch
  r.2.setSdram ch { x with banks := x.banks.put k { counter := counter, lastRow := row + 1, isOpen := keep && !r.1 } }

/-- The sub-channels that a part of a granule uses: of x8 devices both together (R426, R431). -/
def State.subsOf (s : State) (a n : Nat) : List Nat :=
  if s.sdramCol = 6 ∨ 64 < n ∨ a / 64 ≠ (a + n - 1) / 64 then [0, 1] else [a / 64 % 2]

/-- The requests for the part of a granule from `lo` up to `hi`, at one of its places. -/
def State.usePlace (s : State) (lo hi : Nat) (p : Nat × Nat) : State :=
  (s.subsOf p.2 (hi - lo)).foldl (fun s sub => s.useBank p.1 (sub * 64 + s.bankOf p.2) (s.rowOf p.2)) s

/-- The requests for the part of a granule from `lo` up to `hi`. -/
def State.useGranule (s : State) (lo hi : Nat) (write : Bool) : State :=
  (s.sdramPlaces lo write).foldl (fun s p => s.usePlace lo hi p) s

/-- The requests for the part of granule `i` among `n` bytes from an SDRAM offset. -/
def useNext (x n : Nat) (write : Bool) (s : State) (i : Nat) : State :=
  s.useGranule (max x ((x / 256 + i) * 256)) (min (x + n) ((x / 256 + i + 1) * 256)) write

/-- The requests for `n` bytes from an SDRAM offset, granule by granule. -/
def State.useSdram (s : State) (x n : Nat) (write : Bool) : State :=
  (List.range ((x + n - 1) / 256 + 1 - x / 256)).foldl (useNext x n write) s

/-- The SDRAM activity of an access to a fabric address. -/
def State.touch (s : State) (a n : Nat) (write : Bool) : State :=
  if n = 0 ∨ !s.inSdram a n then s else s.useSdram (a - sdramBase) n write

/-- Store bytes at a fabric address (R413, R429). -/
def State.store (s : State) (a : Nat) (l : List Byte) : State :=
  let t := s.touch a l.length true
  { t with ram := writeBytes t.ram a l }

/-- The plain region when a channel leaves it (R439, Table 4, step 2): what the other channels hold is found at the addresses
of one channel fewer; what the failed one held is gone. -/
def State.remapPlain (s : State) (ch : Nat) : State :=
  let live := s.sdramLive
  let rest := live.filter fun c => decide (c ≠ ch)
  let m := s.mirrorM
  let plain (a : Nat) : Bool := decide (sdramBase ≤ a ∧ a - sdramBase < live.length * m)
  let keep := s.ram.filter fun c => !plain c.1 && !(decide (2 ^ 64 ≤ c.1) && plain (c.1 - 2 ^ 64))
  let moved := s.ram.filterMap fun c =>
    if !plain c.1 then none
    else match plainPlace live (c.1 - sdramBase) with
      | some (k, a) => if k = ch ∨ rest.length * m ≤ plainOffset rest k a then none
          else some (sdramBase + plainOffset rest k a, c.2)
      | none => none
  { s with ram := moved.foldl (fun r c => writeByte r c.1 c.2) keep }

end Sys2Proof.Machine
end

