-- ==== Sys2Proof/Machine/Intake.lean ====
section
/-! DEFINITION. The command intake: doorbells (R44, R45, R77), fetch rounds (R73, R76, R217), held records (R75), the
time rule of MSI-X (R93), and the start of a function's service (R83, R451). -/

namespace Sys2Proof.Machine

open Sys2Proof

/-- SQ_DOORBELL_WRITE (R45, R77, R78). -/
def execSqDoorbellWrite (f : Fn) (off size : Nat) (v : DWord) (s : State) : Host.Outcome State Fault Refusal :=
  answer s.up s (s.doorbell false f off size v)

/-- CQ_DOORBELL_WRITE (R45, R77, R78). -/
def execCqDoorbellWrite (f : Fn) (off size : Nat) (v : DWord) (s : State) : Host.Outcome State Fault Refusal :=
  answer s.up s (s.doorbell true f off size v)

/-! ## Fetch -/

/-- The most commands in flight (R76). -/
def inflightMax : Nat := 65536

/-- The packets an intake queue holds (R216). -/
def intakeQueue : Nat := 256

/-- The packets that a core's intake queue holds now. -/
def State.intakeFill (s : State) (core : Nat) : Nat :=
  (s.cmds.inflight.filter fun e =>
    decide (e.2.stage = .fetched) &&
      (match s.cmds.sqs.look (ringKey e.2.fn.key e.2.ring) with
       | some r => decide (r.home = core)
       | none => false)).length

/-- Whether a packet fetch of a ring is outstanding at a port. -/
def PortState.fetching (p : PortState) (f : Fn) (ring : Nat) : Bool :=
  p.tags.any fun t => decide (t.owner = .packet f ring) && !t.quarantined

/-- Whether a round visits a ring and does not skip it (R217, R457). -/
def State.fetchable (s : State) (p : Port) (k : Nat) (r : SubRing) : Bool :=
  let fk := k / 65536
  decide (fk / 512 = p.num) && decide (r.fetched < r.rung) && !r.faulted && !r.stopped &&
    s.mayWriteHost fk && !s.classWaits r.cls && decide (s.cmds.inflight.length < inflightMax) &&
    decide (s.intakeFill r.home < intakeQueue) && !(s.portOf p).fetching (Fn.ofKey fk) (k % 65536)

/-- The ring that the rounds of a port visit next (R217). -/
def State.nextRing (s : State) (p : Port) : Option (Nat × SubRing) :=
  let l := s.cmds.sqs.filter fun e => s.fetchable p e.1 e.2
  match l.find? fun e => decide ((s.portOf p).lastRing ≤ e.1) with
  | some e => some e
  | none => l.head?

/-- The notes of the doorbell that covers a packet (R119, R120). -/
def notesFor (bells : List Bell) (number : Nat) : List (Nat × Nat) :=
  match bells.find? fun b => decide (number < b.upTo) with
  | some b => b.notes
  | none => []

/-- A command as it is fetched. -/
def fetchedCmd (f : Fn) (ring cls number : Nat) (notes : List (Nat × Nat)) (p : BitVec 512) : Cmd :=
  { fn := f, ring := ring, packet := p, number := number, stage := .fetched,
    host := { listAnswer := .ok, list := [], dataAnswer := .ok, blocks := [], join := none, map := none,
              piece := none, key := none, faults := [] },
    notes := notes, judged := 0, cls := cls, cmdPip := false, sramPips := 0, sdramPips := 0, changed := false, grant := 0,
    moved := 0, pages := [], result := 0 }

/-- Whether an opcode has a command of the table. -/
def opKnown (op : Nat) : Bool := (opMin op).isSome

/-- Take one packet into flight. A packet whose opcode no command has is answered at once (R89, check 2). -/
def State.takePacket (s : State) (k : Nat) (r : SubRing) (p : BitVec 512) : State :=
  let f := Fn.ofKey (k / 65536)
  let slot := s.cmds.inflight.firstFree 0
  let c := fetchedCmd f (k % 65536) r.cls r.fetched (notesFor r.bells r.fetched) p
  let s := s.setSq k { r with head := (r.head + 1) % r.size, fetched := r.fetched + 1,
                              bells := r.bells.filter fun b => decide (r.fetched + 1 < b.upTo) }
  let s := s.setCmd slot c
  if opKnown (pkOpcode p) then s
  else
    match s.validate slot f (k % 65536) r.cls p c.host with
    | (n, some x) => (s.setCmd slot { c with judged := n }).complete slot x
    | (_, none) => s

/-- Take packets of one ring while it has unfetched packets. -/
def State.takePackets (s : State) (k : Nat) : List (BitVec 512) → State
  | [] => s
  | p :: ps =>
    match s.cmds.sqs.look k with
    | some r => if r.fetched < r.rung then (s.takePacket k r p).takePackets k ps else s
    | none => s

/-- A request of a port takes a tag (R452). -/
def State.takeTag (s : State) (p : Port) (o : TagOwner) : State :=
  let x := s.portOf p
  s.setPort p { x with tags := x.tags ++ [{ tag := x.freeTag, owner := o, quarantined := false }] }

/-- How many packets a visit of a ring fetches (R76, R217). -/
def State.visitCount (s : State) (k : Nat) (r : SubRing) (offered : Nat) : Nat :=
  min offered (min (if k % 65536 = 0 then 4 else r.weight)
    (min (r.rung - r.fetched) (min (inflightMax - s.cmds.inflight.length) (intakeQueue - s.intakeFill r.home))))

/-- PACKET_FETCH (R73, R76, R217): one visit of a port's rounds. `packets` are the slots' contents as host memory
returned them; with none, the request is on its way and holds a tag (R452). -/
def execPacketFetch (p : Port) (packets : List (BitVec 512)) (s : State) : Host.Outcome State Fault Refusal :=
  match s.nextRing p with
  | none => .next s
  | some (k, r) =>
    answer (s.serving && !(s.portOf p).inReset) s
      (let s := s.setPort p { s.portOf p with lastRing := k + 1 }
       if packets.isEmpty then s.takeTag p (.packet (Fn.ofKey (k / 65536)) (k % 65536))
       else s.takePackets k (packets.take (s.visitCount k r packets.length)))

/-! ## Records -/

/-- HELD_RECORD_POST (R75, R457). -/
def execHeldRecordPost (f : Fn) (cq : Nat) (s : State) : Host.Outcome State Fault Refusal :=
  answer s.up s (s.postHeld f.key cq)

/-- CQ_AGG_TIMER (R93). -/
def execCqAggTimer (f : Fn) (cq : Nat) (s : State) : Host.Outcome State Fault Refusal :=
  match s.cmds.cqs.look (ringKey f.key cq) with
  | none => .next s
  | some q =>
    answer (s.up && q.ien && decide (q.aggTime ≠ 0 ∧ q.unsignalled ≠ 0)) s
      ((s.setCq (ringKey f.key cq) { q with unsignalled := 0 }).message f.key q.vector)

/-! ## Service of a function -/

/-- Whether a function's set-up is in range and its administrative rings lie within its DMA windows (R83). -/
def State.setupOk (s : State) (fk : Nat) : Bool :=
  let f := Fn.ofKey fk
  let a := Reg.CCP_ASIZE fk
  let sq := s.fld a Reg.CCP_ASIZE_.ASQ_LOG2
  let cq := s.fld a Reg.CCP_ASIZE_.ACQ_LOG2
  let base (r : Nat) : Nat := (s.reg r).toNat / 4096 * 4096
  decide (1 ≤ sq ∧ sq ≤ 12 ∧ 1 ≤ cq ∧ cq ≤ 12) &&
    decide (s.fld a Reg.CCP_ASIZE_.VECTOR ≤ if f.idx = 0 then 2047 else 63) &&
    s.rangeOk f (base (Reg.CCP_ASQ fk)) (64 * 2 ^ sq) false && s.rangeOk f (base (Reg.CCP_ACQ fk)) (32 * 2 ^ cq) true

/-- Start CCP service: the administrative rings become live with READY, or FAULT is set (R83). -/
def State.startService (s : State) (fk : Nat) : State :=
  let a := Reg.CCP_ASIZE fk
  if s.setupOk fk then
    let s := s.setSq (ringKey fk 0)
      (freshSq (BitVec.ofNat 64 ((s.reg (Reg.CCP_ASQ fk)).toNat / 4096 * 4096)) (s.fld a Reg.CCP_ASIZE_.ASQ_LOG2) 0 4
        (s.newRingClass fk 0) s.homeCore)
    let s := s.setCq (ringKey fk 0)
      (freshCq (BitVec.ofNat 64 ((s.reg (Reg.CCP_ACQ fk)).toNat / 4096 * 4096)) (s.fld a Reg.CCP_ASIZE_.ACQ_LOG2)
        (s.fld a Reg.CCP_ASIZE_.VECTOR) 0 0 true false)
    s.setFld (Reg.CCP_FSTAT fk) Reg.CCP_FSTAT_.READY 1
  else s.setFld (Reg.CCP_FSTAT fk) Reg.CCP_FSTAT_.FAULT 1

/-- A function's ENABLE is set: at once, or held until the end of BOOT (R83, R451). -/
def State.enableFn (s : State) (fk : Nat) : State :=
  if s.mode = modeBoot then s.setFn fk { s.fnOf fk with enableHeld := true }
  else (s.setFld (Reg.CCP_FCTRL fk) Reg.CCP_FCTRL_.ENABLE 1).startService fk

/-- FUNCTION_ENABLE (R83, R451): a write of 1 to ENABLE while it is 1 changes nothing. -/
def execFunctionEnable (f : Fn) (s : State) : Host.Outcome State Fault Refusal :=
  answer (s.up && s.fnAnswers f && decide (s.fld (Reg.CCP_FCTRL f.key) Reg.CCP_FCTRL_.ENABLE = 0)) s
    (s.enableFn f.key)

/-- The functions whose held ENABLE takes effect when the N9 leaves BOOT (R451). -/
def State.releaseEnables (s : State) : State :=
  s.fnKeys.foldl (fun s fk =>
    if (s.fnOf fk).enableHeld then
      ((s.setFn fk { s.fnOf fk with enableHeld := false }).setFld (Reg.CCP_FCTRL fk) Reg.CCP_FCTRL_.ENABLE 1).startService fk
    else s) s

end Sys2Proof.Machine
end

