-- ==== Sys2Proof/Machine/Sha3.lean ====
section
/-! DEFINITION. SHA3-256 of FIPS 202, which R336 names for the placement of fragments. -/

namespace Sys2Proof.Machine

open Sys2Proof

/-- A Keccak state: 25 lanes, lane x + 5 y. -/
abbrev Lanes := List DWord

/-- A lane. -/
def lane (a : Lanes) (x y : Nat) : DWord := (a[x % 5 + 5 * (y % 5)]?).getD 0

/-- Build a state from its lanes. -/
def lanesOf (f : Nat → Nat → DWord) : Lanes := (List.range 25).map fun i => f (i % 5) (i / 5)

/-- The rotation offsets of the rho step, lane x + 5 y. -/
def rhoOffsets : List Nat :=
  [0, 1, 62, 28, 27, 36, 44, 6, 55, 20, 3, 10, 43, 25, 39, 41, 45, 15, 21, 8, 18, 2, 61, 56, 14]

/-- The round constants of the iota step. -/
def iotaConstants : List DWord :=
  [0x0000000000000001, 0x0000000000008082, 0x800000000000808A, 0x8000000080008000, 0x000000000000808B,
   0x0000000080000001, 0x8000000080008081, 0x8000000000008009, 0x000000000000008A, 0x0000000000000088,
   0x0000000080008009, 0x000000008000000A, 0x000000008000808B, 0x800000000000008B, 0x8000000000008089,
   0x8000000000008003, 0x8000000000008002, 0x8000000000000080, 0x000000000000800A, 0x800000008000000A,
   0x8000000080008081, 0x8000000000008080, 0x0000000080000001, 0x8000000080008008]

/-- One round: theta, rho and pi, chi, iota. -/
def keccakRound (a : Lanes) (rc : DWord) : Lanes :=
  let c (x : Nat) : DWord := lane a x 0 ^^^ lane a x 1 ^^^ lane a x 2 ^^^ lane a x 3 ^^^ lane a x 4
  let t := lanesOf fun x y => lane a x y ^^^ c ((x + 4) % 5) ^^^ (c ((x + 1) % 5)).rotateLeft 1
  let b := lanesOf fun x y =>
    let sx := (x + 3 * y) % 5
    (lane t sx x).rotateLeft ((rhoOffsets[sx + 5 * x]?).getD 0)
  lanesOf fun x y =>
    let v := lane b x y ^^^ (~~~(lane b (x + 1) y) &&& lane b (x + 2) y)
    if x = 0 ∧ y = 0 then v ^^^ rc else v

/-- The permutation Keccak-f[1600]. -/
def keccakF (a : Lanes) : Lanes := iotaConstants.foldl keccakRound a

/-- A message of less than 136 bytes padded to one block of SHA3-256. -/
def sha3Pad (m : List Byte) : List Byte :=
  let l := m ++ [0x06#8] ++ List.replicate (135 - m.length) 0
  l.take 135 ++ [((l[135]?).getD 0) ||| 0x80#8]

/-- SHA3-256 of a message of less than 136 bytes, as the number its first 8 bytes spell (R336). -/
def sha3Head (m : List Byte) : DWord :=
  let p := sha3Pad m
  let start : Lanes := (List.range 25).map fun i =>
    if i < 17 then BitVec.ofNat 64 (leNat ((p.drop (8 * i)).take 8)) else 0
  lane (keccakF start) 0 0

end Sys2Proof.Machine
end

