-- ==== Sys2Proof/Machine/Media.lean ====
section
/-! DEFINITION. The flash medium: geometry (R143, R145, R258), codewords and tallies (R291 to R300), trailers (R275), block
states (R272), parity (R192, R193), and the reading of a unit with its ladder and its parity (R304 to R306). A block is
kept in plain form whether or not its namespace is encrypted (log entry 12). -/

namespace Sys2Proof.Machine

open Sys2Proof

/-! ## Dies, carriers, channels -/

/-- The key of a die: channel × 16 + die. -/
def dieKey (ch die : Nat) : Nat := ch * 16 + die

/-- The carrier of a channel, of a die (R277). -/
def carrierOf (ch : Nat) : Nat := ch / 16
def dieCarrier (dk : Nat) : Nat := dk / 256

/-- The quadrant of a channel (R23): 32 channels each. -/
def quadrantOf (ch : Nat) : Nat := ch / 32

/-- A carrier's state code (R278, Table 17). -/
def State.carState (s : State) (c : Nat) : Nat := s.fld (Reg.CAR_STATE c) Reg.CAR_STATE_.STATE

/-- Whether a carrier is in service: ACTIVE, or EVACUATING and still read and written (R278). -/
def State.carInService (s : State) (c : Nat) : Bool := decide (s.carState c = 5 ∨ s.carState c = 6)

/-- Whether a die is usable (R257, R276, R289). -/
def State.dieUsable (s : State) (dk : Nat) : Bool :=
  let v := s.reg (Reg.CHN_DIEMAP (dk / 16))
  v.getLsbD (32 + dk % 16) && !v.getLsbD (16 + dk % 16)

/-- Whether a die may be read and written: usable, on a carrier in service, its island not isolated. -/
def State.dieServes (s : State) (dk : Nat) : Bool :=
  s.dieUsable dk && s.carInService (dieCarrier dk) && !s.isIsolated (dk / 16)

/-- Whether a die takes new data: it serves, and its carrier is not being emptied (R281, Table 19, step 1). -/
def State.dieTakes (s : State) (dk : Nat) : Bool := s.dieServes dk && decide (s.carState (dieCarrier dk) = 5)

/-- Whether a channel has a die that takes new data. -/
def State.chanServes (s : State) (ch : Nat) : Bool :=
  (List.range 16).any fun d => s.dieTakes (dieKey ch d)

/-- The channels that take new data. -/
def State.servingChans (s : State) : List Nat := (List.range 128).filter fun ch => s.chanServes ch

/-- The carriers in service with a usable channel (R189). -/
def State.servingCarriers (s : State) : List Nat :=
  (List.range 8).filter fun c => (List.range 16).any fun i => s.chanServes (16 * c + i)

/-- The parameters of a die; of an absent die all 0. -/
def DieParams.absent : DieParams :=
  { present := false, crcOk := false, profiles := 0, pageBytes := 0, spareBytes := 0, planes := 0, pages := 0,
    slcPages := 0, blocks := 0, bitsPerCell := 0, suspendOk := false, maxRate := 0, endurance := 0, slcEndurance := 0,
    minProgRun := 0, minEraseRun := 0, uniqueId := 0 }

/-- A die not known. -/
def Die.absent : Die :=
  { params := DieParams.absent, cur := none, susp := none, flagActive := 0, flagOther := 0, flagNext := 0, fseq := 0,
    window := 0, sinceTurn := 0, stageBlocks := [], stageAt := 0, flushBlocks := [] }

/-- A die. -/
def State.dieOf (s : State) (dk : Nat) : Die := (s.media.dies.look dk).getD Die.absent

/-- Write a die. -/
def State.setDie (s : State) (dk : Nat) (d : Die) : State :=
  { s with media := { s.media with dies := s.media.dies.put dk d } }

/-! ## Addresses (R143, R145) -/

/-- The widths of MAP_GEOM. -/
def State.planeBits (s : State) : Nat := s.fld Reg.MAP_GEOM Reg.MAP_GEOM_.PLANE_BITS
def State.pageBits (s : State) : Nat := s.fld Reg.MAP_GEOM Reg.MAP_GEOM_.PAGE_BITS
def State.blockBits (s : State) : Nat := s.fld Reg.MAP_GEOM Reg.MAP_GEOM_.BLOCK_BITS

/-- The physical map-unit address of a page-plane. -/
def State.unitAddr (s : State) (dk block page plane : Nat) : Nat :=
  dk * 2 ^ 25 + (block * 2 ^ s.pageBits + page) * 2 ^ s.planeBits + plane

/-- The die and the block of a physical map-unit address. -/
def addrDie (a : Nat) : Nat := a / 2 ^ 25
def State.addrBlock (s : State) (a : Nat) : Nat := a % 2 ^ 25 / 2 ^ (s.pageBits + s.planeBits)

/-- The key of a block: die × 2^25 + block. -/
def blockKey (dk block : Nat) : Nat := dk * 2 ^ 25 + block

/-- The blocks per plane that a die uses (R258). -/
def State.dieBlocks (s : State) (dk : Nat) : Nat := min (s.dieOf dk).params.blocks (2 ^ s.blockBits)

/-! ## Block states (R272) -/

/-- A block's entry; UNKNOWN when nothing is known. -/
def State.blockOf (s : State) (dk block : Nat) : BlockEntry :=
  (s.media.blocks.look (blockKey dk block)).getD { st := .unknown, next := 0 }

/-- Write a block's entry. -/
def State.setBlock (s : State) (dk block : Nat) (e : BlockEntry) : State :=
  { s with media := { s.media with blocks := s.media.blocks.put (blockKey dk block) e } }

/-- The page-planes of a block: SLC pages in SLC mode (R190, R272). -/
def Die.blockPlanes (d : Die) (slc : Bool) : Nat := (if slc then d.params.slcPages else d.params.pages) * d.params.planes

/-- The entry after `n` page-planes of the block have been programmed (R272, R273). -/
def BlockEntry.programmed (e : BlockEntry) (n total : Nat) : BlockEntry :=
  let next := e.next + n
  { st := if total ≤ next then .written else .opened, next := next }

/-- The erase count of a block (R235). -/
def State.wearOf (s : State) (dk block : Nat) : Nat := (s.place.wears.look (blockKey dk block)).getD 0

/-! ## Tallies and codewords (R291 to R300, R550) -/

/-- A tally (R291, Table 1). -/
def mkTally (crc : DWord) (lba nstag tag : Nat) : BitVec 128 :=
  BitVec.ofNat 128 (crc.toNat + lba % 2 ^ 32 * 2 ^ 64 + nstag % 65536 * 2 ^ 96 + tag % 65536 * 2 ^ 112)

/-- The fields of a tally. -/
def tallyCrc (t : BitVec 128) : DWord := t.setWidth 64
def tallyLba (t : BitVec 128) : Nat := (t >>> 64).toNat % 2 ^ 32
def tallyNstag (t : BitVec 128) : Nat := (t >>> 96).toNat % 65536
def tallyTag (t : BitVec 128) : Nat := (t >>> 112).toNat

/-- The tally that the N9 generates for a block (R294). -/
def genTally (data : List Byte) (lba nstag tag : Nat) : BitVec 128 := mkTally (crc64 data) lba nstag tag

/-- The header KINDs of R300, Table 4. -/
def kindData : Nat := 1
def kindStaged : Nat := 2
def kindTrimmed : Nat := 3
def kindUncorr : Nat := 4
def kindPad : Nat := 5

/-- A codeword header (R300, Table 3). -/
def mkHeader (nsid kind : Nat) (enc : Bool) (lba : Nat) (wseq : DWord) : BitVec 128 :=
  BitVec.ofNat 128 (nsid % 65536 + kind % 16 * 2 ^ 20 + (if enc then 2 ^ 19 else 0) + lba % 2 ^ 48 * 2 ^ 32 +
    wseq.toNat % 2 ^ 48 * 2 ^ 80)

/-- The fields of a header. -/
def hdNsid (h : BitVec 128) : Nat := h.toNat % 65536
def hdKind (h : BitVec 128) : Nat := (h >>> 20).toNat % 16
def hdLba (h : BitVec 128) : Nat := (h >>> 32).toNat % 2 ^ 48
def hdWseq (h : BitVec 128) : Nat := (h >>> 80).toNat

/-- A logical block of zeros (R128). -/
def zeroBlock : List Byte := List.replicate 4096 0

/-- A codeword freshly programmed: it decodes at step 0. -/
def mkCodeword (data : List Byte) (tally header : BitVec 128) : Codeword :=
  { data := data, tally := tally, header := header, step := some 0 }

/-- A pad codeword (R295). -/
def padCodeword : Codeword := mkCodeword zeroBlock 0 (mkHeader 0 kindPad false 0 0)

/-- A trimmed or uncorrectable marker (R550). -/
def marker (kind nsid lba nstag : Nat) (wseq : DWord) : Codeword :=
  mkCodeword zeroBlock (genTally zeroBlock lba nstag 0) (mkHeader nsid kind false lba wseq)

/-- The checks of a codeword after decode (R297, R300): CRC, LBA and NSTAG of the tally, NSID and LBA of the header, and
the reader's KINDs. -/
def Codeword.sound (c : Codeword) (kinds : List Nat) (nsid lba nstag : Nat) : Bool :=
  kinds.contains (hdKind c.header) && decide (hdNsid c.header = nsid) && decide (hdLba c.header = lba % 2 ^ 48) &&
    decide (tallyLba c.tally = lba % 2 ^ 32) && decide (tallyNstag c.tally = nstag) &&
    decide (tallyCrc c.tally = crc64 c.data)

/-! ## Trailers (R275, Table 14) -/

/-- The page-plane KINDs of Table 14. -/
def pageData : Nat := 1
def pageP : Nat := 2
def pageQ : Nat := 3
def pageStaging : Nat := 4
def pageMap : Nat := 5
def pagePad : Nat := 0xB

/-- A trailer. -/
def mkTrailer (kind band stripe : Nat) (wseq : DWord) (epoch : DWord) : BitVec 256 :=
  let body := BitVec.ofNat 256 (0xA55AC33C + kind % 256 * 2 ^ 32 + band % 2 ^ 32 * 2 ^ 64 + stripe % 2 ^ 32 * 2 ^ 96 +
    wseq.toNat * 2 ^ 128 + epoch.toNat % 2 ^ 32 * 2 ^ 192)
  body ||| ((crc32c (bytesOf body 28)).setWidth 256 <<< 224)

/-- The media epoch (R279, R290). -/
def State.mediaEpoch (s : State) : DWord := s.reg Reg.CAR_MEDIAEPOCH

/-! ## Programming a page-plane -/

/-- Program one page-plane at the block's NEXT; the guard of R273 is kept by the callers, which program only ERASED and
OPEN blocks in order. The trailer takes one stamp (R505). -/
def State.programPlane (s : State) (addr : Nat) (slc : Bool) (slots : List Codeword) (kind band stripe : Nat) : State :=
  let dk := addrDie addr
  let block := s.addrBlock addr
  let pp : PagePlane := { slots := slots, trailer := mkTrailer kind band stripe s.nextStamp s.mediaEpoch }
  ({ s with media := { s.media with
      pages := s.media.pages.put addr pp
      blocks := s.media.blocks.put (blockKey dk block)
        ((s.blockOf dk block).programmed 1 ((s.dieOf dk).blockPlanes slc)) } } : State).takeStamps 1

/-- Erase a block: its page-planes hold nothing (R269, step 3; R272). -/
def State.eraseBlock (s : State) (dk block : Nat) : State :=
  { s with media := { s.media with
      pages := s.media.pages.filter fun e => !decide (addrDie e.1 = dk ∧ s.addrBlock e.1 = block)
      ladder := s.media.ladder.filter fun e => !decide (addrDie (e.1 / 4) = dk ∧ s.addrBlock (e.1 / 4) = block)
      blocks := s.media.blocks.put (blockKey dk block) { st := .erased, next := 0 } } }

/-! ## GF(2^8) and parity (R192, R193) -/

/-- Multiply by g = 2 modulo 0x11D. -/
def gfDouble (a : Byte) : Byte := (a <<< 1) ^^^ (if a.getLsbD 7 then 0x1D else 0)

/-- Multiply in GF(2^8) with polynomial 0x11D. -/
def gfMul (a b : Byte) : Byte :=
  ((List.range 8).foldl (fun (r : Byte × Byte) i => (if b.getLsbD i then r.1 ^^^ r.2 else r.1, gfDouble r.2)) (0, a)).1

/-- The inverse of a non-zero element: its 254th power. -/
def gfInv (a : Byte) : Byte :=
  ((List.range 7).foldl (fun (r : Byte × Byte) _ => let sq := gfMul r.2 r.2; (gfMul r.1 sq, sq)) (1, a)).1

/-- g to the power n. -/
def gfPow (n : Nat) : Byte := (List.range n).foldl (fun a _ => gfDouble a) 1

/-- XOR of byte lists. -/
def xorBytes (a b : List Byte) : List Byte := List.zipWith (· ^^^ ·) a b

/-- A byte list multiplied by a constant. -/
def mulBytes (c : Byte) (a : List Byte) : List Byte := a.map (gfMul c)

/-- The information part of a codeword: block, tally, header, 4,128 bytes (R300). -/
def Codeword.info (c : Codeword) : List Byte := c.data ++ bytesOf c.tally 16 ++ bytesOf c.header 16

/-- The codeword with an information part. -/
def ofInfo (l : List Byte) : Codeword :=
  mkCodeword (l.take 4096) (ofBytes 128 ((l.drop 4096).take 16)) (ofBytes 128 ((l.drop 4112).take 16))

/-- An all-zero information part. -/
def zeroInfo : List Byte := List.replicate 4128 0

/-- P of data units (R192). -/
def parityP (ds : List (List Byte)) : List Byte := ds.foldl xorBytes zeroInfo

/-- Q of data units, each with its index (R192). -/
def parityQ (ds : List (Nat × List Byte)) : List Byte :=
  ds.foldl (fun q d => xorBytes q (mulBytes (gfPow d.1) d.2)) zeroInfo

/-- Recover data unit x (R193, Table 4) from the available data units with their indices, out of `d`, and P and Q where
they are available. -/
def recoverUnit (d x : Nat) (avail : List (Nat × List Byte)) (p q : Option (List Byte)) : Option (List Byte) :=
  let missing := (List.range d).filter fun i => !(avail.any fun e => decide (e.1 = i))
  let a := p.map fun p => (avail.map fun e => e.2).foldl xorBytes p
  let b := q.map fun q => xorBytes q (parityQ avail)
  match missing with
  | [y] =>
    if y ≠ x then none
    else match a, b with
      | some a, _ => some a
      | none, some b => some (mulBytes (gfInv (gfPow x)) b)
      | none, none => none
  | [y, z] =>
    match a, b with
    | some a, some b =>
      let dz := mulBytes (gfInv (gfPow y ^^^ gfPow z)) (xorBytes b (mulBytes (gfPow y) a))
      if x = z then some dz else if x = y then some (xorBytes a dz) else none
    | _, _ => none
  | _ => none

/-! ## Stripes (R190, R191) -/

/-- The member that holds P, Q and data unit i of stripe `st` in a band of `w` members (R191). -/
def memberP (w st : Nat) : Nat := w - 1 - st % w
def memberQ (w st : Nat) : Nat := (memberP w st + 1) % w
def memberD (w st i : Nat) : Nat := (memberP w st + 2 + i) % w

/-- The address of a member's page-plane of a stripe (R190). -/
def State.stripeAddr (s : State) (m : Member) (st : Nat) : Nat :=
  let dk := dieKey m.ch m.die
  let n := max 1 (s.dieOf dk).params.planes
  s.unitAddr dk m.block (st / n) (st % n)

/-- The data units of a stripe of a band: layouts 0 to 2 of R188; 3 map bands and 4 journal bands, both 14+2. -/
def bandD (layout : Nat) : Nat := layoutD layout
def bandW (layout : Nat) : Nat := layoutD layout + 2

/-- Whether bands of a layout code are in SLC mode: journal bands (R182). -/
def bandSlc (layout : Nat) : Bool := decide (layout = 4)

/-- The stripes that a band of members holds: the fewest page-planes of a member (R190). -/
def State.bandStripes (s : State) (layout : Nat) (ms : List Member) : Nat :=
  ms.foldl (fun n m =>
    let k := (s.dieOf (dieKey m.ch m.die)).blockPlanes (bandSlc layout)
    if n = 0 ∨ k < n then k else n) 0

/-- The band that holds a physical map-unit address, with its member and stripe. -/
def State.findUnit (s : State) (addr : Nat) : Option (Nat × Band × Nat × Nat) :=
  let dk := addrDie addr
  let block := s.addrBlock addr
  match s.place.bands.find? fun e =>
    decide (e.2.st ≠ .free) && e.2.members.any fun m => decide (dieKey m.ch m.die = dk ∧ m.block = block) with
  | none => none
  | some (num, b) =>
    let i := b.members.findIdx fun m => decide (dieKey m.ch m.die = dk ∧ m.block = block)
    let n := max 1 (s.dieOf dk).params.planes
    let page := addr % 2 ^ 25 / 2 ^ s.planeBits % 2 ^ s.pageBits
    some (num, b, i, page * n + addr % 2 ^ s.planeBits)

/-! ## Reading -/

/-- The ladder's highest step (R304). -/
def State.maxStep (s : State) : Nat := s.fld Reg.ECC_LADDER Reg.ECC_LADDER_.MAX_STEP

/-- Whether a page-plane lies on a member of a band that has failed (R211, R287). -/
def State.onFailed (s : State) (addr : Nat) : Bool :=
  match s.findUnit addr with
  | some (_, b, i, _) => b.failed.contains i
  | none => false

/-- A codeword as the medium gives it: its die serves, its member has not failed, and it decodes at a step up to MAX_STEP
(R287, R304, R305). -/
def State.rawCodeword (s : State) (addr slot : Nat) : Option Codeword :=
  if !s.dieServes (addrDie addr) || s.onFailed addr then none
  else
    match s.media.pages.look addr with
    | none => none
    | some pp =>
      match pp.slots[slot]? with
      | none => none
      | some c => (match c.step with | some n => if n ≤ s.maxStep then some c else none | none => none)

/-- The information part of a codeword rebuilt from its stripe's parity (R193, R305). -/
def State.rebuildSlot (s : State) (addr slot : Nat) : Option Codeword :=
  match s.findUnit addr with
  | none => none
  | some (_, b, mem, st) =>
    let w := bandW b.layout
    let d := bandD b.layout
    let at_ (m : Nat) : Option (List Byte) :=
      match b.members[m]? with
      | some x => (s.rawCodeword (s.stripeAddr x st) slot).map Codeword.info
      | none => none
    match (List.range d).find? fun i => decide (memberD w st i = mem) with
    | none => none
    | some x =>
      let avail := (List.range d).filterMap fun i =>
        if i = x then none else (at_ (memberD w st i)).map fun l => (i, l)
      (recoverUnit d x avail (at_ (memberP w st)) (at_ (memberQ w st))).map ofInfo

/-- How a codeword was obtained. -/
inductive Via
  | ladder (step : Nat)
  | parity
  deriving DecidableEq, Repr

/-- A verified codeword of a main-area unit of a namespace, by the ladder or from the stripe's parity (R300, R305). -/
def State.readSlot (s : State) (addr slot nsid lba nstag : Nat) : Option (Codeword × Via) :=
  let ok (c : Codeword) : Bool := c.sound [kindData, kindTrimmed, kindUncorr] nsid lba nstag
  match (s.rawCodeword addr slot).filter ok with
  | some c => some (c, .ladder (c.step.getD 0))
  | none => ((s.rebuildSlot addr slot).filter ok).map fun c => (c, .parity)

/-- A staged codeword: copy A, else copy B (R305, Table 6). A copy names page-plane and slot (R199, Table 6). -/
def State.readStaged (s : State) (copies : List Nat) (nsid lba nstag : Nat) : Option (Codeword × Via) :=
  copies.foldl (fun r c =>
    match r with
    | some x => some x
    | none =>
      ((s.rawCodeword (c % 2 ^ 36) (c / 2 ^ 36)).filter fun x => x.sound [kindStaged] nsid lba nstag).map
        fun x => (x, .ladder (x.step.getD 0))) none

/-- The ECC island that decodes a codeword of a channel: one of its quadrant's four (R303; log entry 13). -/
def eccIsland (ch : Nat) : Nat := 4 * quadrantOf ch + ch % 4

/-- Count how a codeword was obtained (R306, R314). -/
def State.countVia (s : State) (addr : Nat) (v : Via) : State :=
  let e := eccIsland (addrDie addr / 16)
  match v with
  | .ladder n =>
    let s := (s.count (Reg.ECC_LADDERHIST n) 1).count (if n < 9 then Reg.ECC_HARDCW e else Reg.ECC_SOFTCW e) 1
    if 9 ≤ n then s.raise 11 19 else s
  | .parity => (s.count Reg.ECC_PARITYREC 1).raise 11 18

end Sys2Proof.Machine
end

