-- ==== Sys2Proof/Machine/Place.lean ====
section
/-! DEFINITION. Placement: bands and their members (R189 to R191), the programming of stripes (R195, R196), valid counts and
scores (R222, R226), the lost-stripe log (R213 to R215), capacity and fences (R239 to R249). Where the spec leaves the
choice to the N9 (R187), the model takes the lowest number that the rules allow (log entry 14). -/

namespace Sys2Proof.Machine

open Sys2Proof

/-! ## Streams (R206) -/

def streamCopy : Nat := 240
def streamRebuild : Nat := 244
def streamHerd : Nat := 248
def streamMap : Nat := 252
def streamJournal : Nat := 253

/-- Whether a stream serves host writes. -/
def hostStream (st : Nat) : Bool := decide (st < 240)

/-! ## Blocks that placement may take -/

/-- Whether a block belongs to a band that is not FREE. -/
def State.inBand (s : State) (dk block : Nat) : Bool :=
  s.place.bands.any fun e =>
    decide (e.2.st ≠ .free) && e.2.members.any fun m => decide (dieKey m.ch m.die = dk ∧ m.block = block)

/-- The erased main-area blocks of a die that no band, staging area or flush reserve has (R223, R225). -/
def State.erasedMain (s : State) (dk : Nat) : List Nat :=
  let d := s.dieOf dk
  ((s.media.blocks.filter fun e => decide (e.1 / 2 ^ 25 = dk ∧ e.2.st = .erased)).map fun e => e.1 % 2 ^ 25).filter
    fun b => !d.stageBlocks.contains b && !d.flushBlocks.contains b && !s.inBand dk b && decide (b < s.dieBlocks dk)

/-- The erased blocks that a die keeps for reclaim (R225). -/
def State.dieReserve (s : State) : Nat := max 1 (s.fld Reg.RCL_CTRL Reg.RCL_CTRL_.RESERVE)

/-- The member that a channel offers a stream: its first serving die with an erased block above the reserve. -/
def State.offer (s : State) (ch : Nat) (stream : Nat) : Option Member :=
  let keep := if hostStream stream then s.dieReserve else 0
  ((List.range 16).filterMap fun d =>
    let dk := dieKey ch d
    if s.dieTakes dk ∧ keep < (s.erasedMain dk).length then
      ((s.erasedMain dk).head?).map fun b => ({ ch := ch, die := d, block := b } : Member)
    else none).head?

/-- The most members of a band on one carrier (R189). -/
def State.perCarrier (s : State) (layout : Nat) : Nat :=
  if layout = 0 then (32 + s.servingCarriers.length - 1) / max 1 s.servingCarriers.length
  else if layout = 2 then 1 else 2

/-- Whether a layout can meet the spread rules (R189). -/
def State.buildable (s : State) (layout : Nat) : Bool :=
  decide (bandW layout ≤ (s.servingCarriers.map fun c =>
    min (s.perCarrier layout) ((List.range 16).filter fun i => s.chanServes (16 * c + i)).length).sum)

/-- Whether a band of a layout can open at all: W usable channels (R189). -/
def State.canOpen (s : State) (layout : Nat) : Bool := decide (bandW layout ≤ s.servingChans.length)

/-- Members taken carrier by carrier, `rounds` from each. -/
def byRounds (cands : List (List Member)) (rounds : Nat) : List Member :=
  (List.range rounds).flatMap fun r => cands.filterMap fun l => l[r]?

/-- The members of a new band (R189): within the carrier rule, or relaxed while the layout is unbuildable. -/
def State.chooseMembers (s : State) (layout stream : Nat) : Option (List Member × Bool) :=
  let cands := s.servingCarriers.map fun c => (List.range 16).filterMap fun i => s.offer (16 * c + i) stream
  let strict := byRounds cands (s.perCarrier layout)
  let w := bandW layout
  if w ≤ strict.length then some (strict.take w, false)
  else if s.buildable layout then none
  else
    let loose := byRounds cands 16
    if w ≤ loose.length then some (loose.take w, true) else none

/-- Open a band (R190, R221). -/
def State.openBand (s : State) (layout stream : Nat) : Option (Nat × State) :=
  (s.chooseMembers layout stream).map fun r =>
    let num := s.place.nextBand
    let b : Band := { layout := layout, members := r.1, stream := stream, st := .opened, next := 0, relaxed := r.2,
                      failed := [], valid := 0, minutes := 0, score := 0, openWseq := s.nextStamp }
    (num, ({ s with place := { s.place with bands := s.place.bands.put num b,
                                             nextBand := (num + 1) % 2 ^ 32 } } : State).takeStamps 1)

/-! ## The score (R226) -/

/-- The mean of a list of counts, rounded down; 0 of none. -/
def meanOf (l : List Nat) : Nat := l.sum / max 1 l.length

/-- The mean erase count of the good main-area blocks of the device. -/
def State.meanWear (s : State) : Nat :=
  meanOf ((s.media.blocks.filter fun e => decide (e.2.st ≠ .retired ∧ e.2.st ≠ .flag) &&
    !(s.dieOf (e.1 / 2 ^ 25)).stageBlocks.contains (e.1 % 2 ^ 25)).map fun e => (s.place.wears.look e.1).getD 0)

/-- The score of a band (R226, Table 2). -/
def State.scoreOf (s : State) (b : Band) : Nat :=
  let wv := s.fld Reg.RCL_SCORE Reg.RCL_SCORE_.WV
  let wa := s.fld Reg.RCL_SCORE Reg.RCL_SCORE_.WA
  let ww := s.fld Reg.RCL_SCORE Reg.RCL_SCORE_.WW
  let cap := max 1 (s.bandStripes b.layout b.members * bandD b.layout)
  let fv := 255 - 255 * b.valid / cap
  let fa := min 255 (b.minutes / max 1 (s.fld Reg.RCL_SCORE Reg.RCL_SCORE_.AGE_UNIT))
  let ec := meanOf (b.members.map fun m => s.wearOf (dieKey m.ch m.die) m.block)
  let unit : Int := max 1 (s.fld Reg.RCL_WEAR Reg.RCL_WEAR_.WEAR_UNIT)
  let fw := min 255 (max 0 (128 + Int.fdiv ((s.meanWear : Int) - ec) unit)).toNat
  let sum := wv + wa + ww
  if sum = 0 then 0 else 256 * (wv * fv + wa * fa + ww * fw) / sum

/-- Write a band record. -/
def State.setBand (s : State) (num : Nat) (b : Band) : State :=
  { s with place := { s.place with bands := s.place.bands.put num b } }

/-- A band whose count is 0 and that is CLOSED or RECLAIMING becomes FREE (R221, R225). -/
def Band.settle (b : Band) : Band :=
  if b.valid = 0 ∧ (b.st = .closed ∨ b.st = .reclaiming) then { b with st := .free } else b

/-- Change a band's valid count and recompute its score (R222, R226). -/
def State.bumpBand (s : State) (addr : Nat) (up : Bool) : State :=
  match s.findUnit addr with
  | none => s
  | some (num, b, _, _) =>
    let b := { b with valid := if up then b.valid + 1 else b.valid - 1 }
    s.setBand num { b.settle with score := s.scoreOf b }

/-- Set a unit's map entry, keeping the valid counts of the bands it leaves and enters (R222). -/
def State.mapSet (s : State) (n : Namespace) (u : Nat) (e : BitVec 40) : State :=
  let old := s.entryOf n u
  let s := if meV old ∧ ¬(meV e ∧ meAddr e = meAddr old) then s.bumpBand (meAddr old) false else s
  let s := if meV e ∧ ¬(meV old ∧ meAddr e = meAddr old) then s.bumpBand (meAddr e) true else s
  s.storeEntry n u e

/-- Close a band early at its last closed stripe, or when it is full (R221, R231). -/
def State.closeBand (s : State) (num : Nat) : State :=
  match s.place.bands.look num with
  | some b =>
    let b := { b with st := .closed, minutes := 0 }
    s.setBand num { b.settle with score := s.scoreOf b }
  | none => s

/-! ## Programming stripes -/

/-- The open band of a stream and layout whose members all take data. -/
def State.openBandOf (s : State) (layout stream : Nat) : Option (Nat × Band) :=
  s.place.bands.find? fun e =>
    decide (e.2.st = .opened ∧ e.2.layout = layout ∧ e.2.stream = stream) &&
      decide (e.2.next < s.bandStripes layout e.2.members) &&
      e.2.members.all fun m => s.dieTakes (dieKey m.ch m.die)

/-- Close the open bands of a stream and layout that cannot take a stripe (R231). -/
def State.closeStale (s : State) (layout stream : Nat) : State :=
  (s.place.bands.filter fun e => decide (e.2.st = .opened ∧ e.2.layout = layout ∧ e.2.stream = stream)).foldl
    (fun s e => s.closeBand e.1) s

/-- The band that takes the next stripe of a stream: its open one, or a new one. -/
def State.bandFor (s : State) (layout stream : Nat) : Option (Nat × State) :=
  match s.openBandOf layout stream with
  | some (num, _) => some (num, s)
  | none => (s.closeStale layout stream).openBand layout stream

/-- Slot k of every unit's information part. -/
def slotInfos (units : List (List Codeword)) (k : Nat) : List (List Byte) :=
  units.map fun u => ((u[k]?).map Codeword.info).getD zeroInfo

/-- The four codewords of P and of Q over the units (R192). -/
def parityUnit (units : List (List Codeword)) (q : Bool) : List Codeword :=
  (List.range 4).map fun k =>
    let l := slotInfos units k
    ofInfo (if q then parityQ ((List.range l.length).zip l) else parityP l)

/-- Whether a unit is a pad unit. -/
def isPadUnit (u : List Codeword) : Bool := u.all fun c => decide (hdKind c.header = kindPad)

/-- Program one stripe: D data units, P and Q (R191, R195); the addresses of the data units. -/
def State.programStripe (s : State) (layout stream : Nat) (units : List (List Codeword)) :
    Option (List Nat × Nat × State) :=
  match s.bandFor layout stream with
  | none => none
  | some (num, s) =>
    match s.place.bands.look num with
    | none => none
    | some b =>
      let w := bandW layout
      let st := b.next
      let slc := bandSlc layout
      let addr (m : Nat) : Nat := ((b.members[m]?).map fun x => s.stripeAddr x st).getD 0
      let addrs := (List.range (bandD layout)).map fun i => addr (memberD w st i)
      let s := (addrs.zip units).foldl
        (fun s e => s.programPlane e.1 slc e.2 (if isPadUnit e.2 then pagePad else pageData) num st) s
      let s := s.programPlane (addr (memberP w st)) slc (parityUnit units false) pageP num st
      let s := s.programPlane (addr (memberQ w st)) slc (parityUnit units true) pageQ num st
      let s := s.count (Reg.PLC_PSTRIPES (quadrantOf (addrDie (addr (memberP w st)) / 16))) 1
      let s := s.setBand num { b with next := st + 1 }
      some (addrs, num, if s.bandStripes layout b.members ≤ st + 1 then s.closeBand num else s)

/-! ## The lost-stripe log (R213 to R215) -/

/-- The entries of the lost-stripe log. -/
def lostMax : Nat := 16384

/-- The distance between two ranges. -/
def rangeGap (a n b m : Nat) : Nat := if a + n ≤ b then b - (a + n) else if b + m ≤ a then a - (b + m) else 0

/-- The range that covers two. -/
def rangeHull (a n b m : Nat) : Nat × Nat := (min a b, max (a + n) (b + m) - min a b)

/-- Widen a lost entry to cover another range too, keeping the older one's cause and place (R215). -/
def LostEntry.merge (e x : LostEntry) : LostEntry :=
  let h := rangeHull e.slba e.nlb x.slba x.nlb
  { (if (x.seq - e.seq).toNat < 2 ^ 63 then e else x) with slba := h.1, nlb := h.2 }

/-- The entry with the smallest value of a measure. -/
def leastBy {α : Type} (f : α → Nat) : List α → Option α
  | [] => none
  | x :: l => some (l.foldl (fun m y => if f y < f m then y else m) x)

/-- Put a new entry into the log (R215). -/
def addLost (m : SMap LostEntry) (e : LostEntry) : SMap LostEntry × Bool :=
  if m.length < lostMax then (m.put (m.firstFree 0) e, false)
  else
    match leastBy (fun x : Nat × LostEntry => x.2.seq.toNat) (m.filter fun x => decide (x.2.st = 2)) with
    | some x => (m.put x.1 e, false)
    | none =>
      match leastBy (fun x : Nat × LostEntry => rangeGap x.2.slba x.2.nlb e.slba e.nlb)
          (m.filter fun x => decide (x.2.nsid = e.nsid)) with
      | some x => (m.put x.1 (x.2.merge e), true)
      | none =>
        -- the namespace with the most entries gives up one by merging its two nearest
        let most := (m.map fun x => x.2.nsid).foldl (fun best n =>
          if (m.filter fun x => decide (x.2.nsid = best)).length < (m.filter fun x => decide (x.2.nsid = n)).length then n
          else best) 0
        let mine := m.filter fun x => decide (x.2.nsid = most)
        let pairs := mine.flatMap fun x => (mine.filter fun y => decide (x.1 < y.1)).map fun y => (x, y)
        match leastBy (fun p : (Nat × LostEntry) × (Nat × LostEntry) =>
            rangeGap p.1.2.slba p.1.2.nlb p.2.2.slba p.2.2.nlb) pairs with
        | some (x, y) => (((m.put x.1 (x.2.merge y.2)).del y.1).put y.1 e, true)
        | none => (m, true)

/-- Mark a run of consecutive units of a namespace lost and log it (R213). -/
def State.loseRun (s : State) (nsid : Nat) (n : Namespace) (cause band stripe first count : Nat) : State :=
  let s := (List.range count).foldl (fun s i =>
    s.mapSet n (first + i) (mkEntry false true (meS (s.entryOf n (first + i))) false 0)) s
  let e : LostEntry := { st := 1, cause := cause, nsid := nsid, band := band, slba := 4 * first, nlb := 4 * count,
                         seq := s.nextStamp, stripe := stripe }
  let r := addLost s.place.lost e
  let s := ({ s with place := { s.place with lost := r.1 } } : State).takeStamps 1
  let s := if r.2 then s.raise 6 19 else s
  let s := s.count Reg.PLC_LOSTUNITS count
  (s.raiseRecord 6 16 0 (leBytes 4 band ++ leBytes 4 stripe)).raiseNs nsid 5

/-- Group rising numbers into runs of consecutive ones: first and length. -/
def runsOf : List Nat → List (Nat × Nat)
  | [] => []
  | x :: l =>
    match runsOf l with
    | (a, k) :: r => if a = x + 1 then (x, k + 1) :: r else (x, 1) :: (a, k) :: r
    | [] => [(x, 1)]

/-- The units of namespaces whose main copy lies at one of some addresses: namespace and unit. -/
def State.unitsAt (s : State) (addrs : List Nat) : List (Nat × Nat) :=
  s.nss.flatMap fun e =>
    ((List.range (e.2.size / 4)).filter fun u =>
      let m := s.entryOf e.2 u
      meV m && addrs.contains (meAddr m)).map fun u => (e.1, u)

/-- Whether a slot of a stripe has more than two codewords unavailable (R213). -/
def State.slotBroken (s : State) (b : Band) (st slot : Nat) : Bool :=
  decide (2 < (b.members.filter fun m => (s.rawCodeword (s.stripeAddr m st) slot).isNone).length)

/-- Mark lost the mapped units of a stripe that have an unavailable codeword in a broken slot (R213). -/
def State.loseStripe (s : State) (num st cause : Nat) : State :=
  match s.place.bands.look num with
  | none => s
  | some b =>
    let bad := b.members.filterMap fun m =>
      let a := s.stripeAddr m st
      if (List.range 4).any fun k => s.slotBroken b st k && (s.rawCodeword a k).isNone then some a else none
    let hit := s.unitsAt bad
    s.nss.foldl (fun s e =>
      (runsOf ((hit.filter fun h => decide (h.1 = e.1)).map fun h => h.2)).foldl
        (fun s r => s.loseRun e.1 e.2 cause num st r.1 r.2) s) s

/-- Whether no unit of a lost entry's range is lost any more. -/
def State.lostOver (s : State) (e : LostEntry) : Bool :=
  match s.nss.look e.nsid with
  | some n => (List.range (e.nlb / 4)).all fun i => !meL (s.entryOf n (e.slba / 4 + i))
  | none => false

/-- Lost entries whose every block has been rewritten or trimmed are CLEARED (R215). -/
def State.clearLost (s : State) : State :=
  let l := s.place.lost.map fun e => if e.2.st = 1 ∧ s.lostOver e.2 then (e.1, { e.2 with st := 2 }) else e
  { s with place := { s.place with lost := l } }

/-! ## Capacity (R239 to R249) -/

/-- The page-planes of a block of a die. -/
def State.blockPlanes (s : State) (dk : Nat) : Nat := (s.dieOf dk).blockPlanes false

/-- The dies that serve. -/
def State.servingDies (s : State) : List Nat := (s.media.dies.map fun e => e.1).filter fun dk => s.dieServes dk

/-- The blocks held for a system namespace (R241). -/
def sysBlocks (g : Nat) : Nat := 2 * g + 12

/-- The segments of a system namespace. -/
def Namespace.segBlocks (n : Namespace) : Nat := max 1 (4 * n.slcPages)
def Namespace.segments (n : Namespace) : Nat := n.size / n.segBlocks

/-- The blocks that system namespaces hold, with the two pairs of R180's system map. -/
def State.systemHeld (s : State) : Nat :=
  4 + (s.nss.map fun e => if e.2.kind = .systemNs then sysBlocks e.2.segments else 0).sum

/-- The blocks of a serving die that C leaves out: staging, flush reserve, flag pair, retired ones (R239). -/
def State.dieLeftOut (s : State) (dk : Nat) : Nat :=
  let d := s.dieOf dk
  d.stageBlocks.length + d.flushBlocks.length + 2 +
    (s.place.retired.filter fun k => decide (k / 2 ^ 25 = dk)).length

/-- C, the capacity in page-planes (R239). The reserves of a carrier lie on its first serving die, those of system
namespaces on the first serving die of all (log entry 14). -/
def State.capacity (s : State) : Nat :=
  let dies := s.servingDies
  let good := (dies.map fun dk => (s.dieBlocks dk - s.dieLeftOut dk) * s.blockPlanes dk).sum
  let reserve := ((List.range 8).map fun c =>
    match dies.find? fun dk => decide (dieCarrier dk = c) with
    | some dk => 34 * s.blockPlanes dk
    | none => 0).sum
  good - reserve - s.systemHeld * (match dies.head? with | some dk => s.blockPlanes dk | none => 0)

/-- Division rounded up. -/
def ceilDiv (a b : Nat) : Nat := (a + b - 1) / b

/-- The commitment of a namespace of `u` map units of a layout (R239). -/
def commitOf (layout u : Nat) : Nat :=
  ceilDiv (u * layoutW layout) (layoutD layout) + ceilDiv u 1344

/-- K, the commitment (R239). -/
def State.committed (s : State) : Nat :=
  (s.nss.map fun e =>
    if e.2.kind = .systemNs then 0 else commitOf (s.localLayout e.2) (e.2.size / 4)).sum

/-- The capacity state of C and K (R242). -/
def capState (c k : Nat) : Nat :=
  if c ≤ k then 3 else if 8 * c ≤ 100 * (c - k) then 0 else if c ≤ 50 * (c - k) then 1 else 2

/-- The device capacity state. -/
def State.deviceCap (s : State) : Nat := capState s.capacity s.committed

/-- The capacity state of a namespace (R242). -/
def State.nsCap (s : State) (n : Namespace) : Nat := if n.fence ≠ 0 then 3 else s.deviceCap

/-- Follow the capacity state and its reason (R242, R496). -/
def State.followCapacity (s : State) : State :=
  let now := s.deviceCap
  let was := s.fld Reg.RCL_CAPSTAT Reg.RCL_CAPSTAT_.STATE
  let s :=
    if now = was then s
    else (((s.setFld Reg.RCL_CAPSTAT Reg.RCL_CAPSTAT_.STATE now).raise 8 16).raiseFns s.fnKeys 4)
  s.reason reasonCapacity (decide (2 ≤ now) || s.nss.any fun e => decide (e.2.fence ≠ 0))

/-- Whether a size in units satisfies 50 (C − K′) ≥ C for a namespace (R249). -/
def State.shrinkFits (s : State) (n : Namespace) (u : Nat) : Bool :=
  let c := s.capacity
  let k := s.committed - commitOf (s.localLayout n) (n.size / 4) + commitOf (s.localLayout n) u
  decide (k ≤ c ∧ c ≤ 50 * (c - k))

/-- The largest number of units up to 2^b − 1 + lo that fits, by bisection. -/
def shrinkFrom (fits : Nat → Bool) : Nat → Nat → Nat
  | 0, lo => lo
  | b + 1, lo => if fits (lo + 2 ^ b) then shrinkFrom fits b (lo + 2 ^ b) else shrinkFrom fits b lo

/-- SHRINK_TO of a namespace in blocks: 0 when no shrink of it alone lifts the fence (R243, R249). -/
def State.shrinkTo (s : State) (n : Namespace) : Nat :=
  4 * shrinkFrom (fun u => decide (u < n.size / 4) && s.shrinkFits n u) 48 0

/-- Write a namespace. -/
def State.setNs (s : State) (nsid : Nat) (n : Namespace) : State := { s with nss := s.nss.put nsid n }

/-- A namespace enters WRITE_FENCED with a cause: 1 no spare, 2 no band can open (R245, R246). `fence` holds 0 or the
cause. -/
def State.fenceNs (s : State) (nsid cause : Nat) : State :=
  match s.nss.look nsid with
  | none => s
  | some n =>
    if n.fence ≠ 0 then s
    else
      let s := s.setNs nsid { n with fence := cause, shrinkTo := if cause = 1 then s.shrinkTo n else 0 }
      (((s.raiseRecord 8 17 0 (leBytes 2 nsid)).raiseNs nsid 3).raiseNs nsid 4).followCapacity

/-- Lift the fences whose cause has ended (R248). -/
def State.reviewFences (s : State) : State :=
  let lift (n : Namespace) : Bool :=
    (decide (n.fence = 1) && decide (s.committed ≤ s.capacity ∧ s.capacity ≤ 50 * (s.capacity - s.committed))) ||
      (decide (n.fence = 2) && s.canOpen (s.localLayout n))
  let hit := s.nss.filter fun e => decide (e.2.fence ≠ 0) && lift e.2
  let s := hit.foldl (fun s e =>
    ((s.setNs e.1 { e.2 with fence := 0, shrinkTo := 0 }).raise 8 18).raiseNs e.1 4) s
  s.followCapacity

/-! ## Redundancy (R189, R211, R496) -/

/-- Whether a layout is in use (R189). -/
def State.layoutUsed (s : State) (layout : Nat) : Bool :=
  s.nss.any fun e => decide (e.2.kind ≠ .systemNs) && !e.2.holding && decide (s.localLayout e.2 = layout)

/-- The live units that rebuild still has to copy: those of bands with a failed member (R212, PLC_REBUILDLEFT). -/
def State.rebuildLeft (s : State) : Nat :=
  (s.place.bands.map fun e => if e.2.failed.isEmpty ∨ e.2.st = .free then 0 else e.2.valid).sum

/-- Follow the reduced-redundancy reason and LAYOUT_UNBUILDABLE (R189, R496). -/
def State.followRedundancy (s : State) : State :=
  let bad := ([0, 1, 2] : List Nat).filter fun l => s.layoutUsed l && !s.buildable l
  let new := bad.any fun l => !s.place.unbuildable.contains l
  let s : State := { s with place := { s.place with unbuildable := bad } }
  let s := if new then s.raise 6 20 else s
  s.reason reasonRedundancy
    (!bad.isEmpty || decide (s.rebuildLeft ≠ 0) || (List.range 8).any fun c => decide (s.carState c = 8))

/-- The members on some dies fail (R211): their bits in MEMBER_FAILED, and a rebuild begins. -/
def State.failMembers (s : State) (hit : Nat → Bool) : State :=
  let was := s.rebuildLeft
  let s : State := { s with place := { s.place with bands := s.place.bands.map fun e =>
      if e.2.st = .free then e
      else
        let f := (List.range e.2.members.length).filter fun i =>
          match e.2.members[i]? with | some m => hit (dieKey m.ch m.die) | none => false
        (e.1, { e.2 with failed := (e.2.failed ++ f).dedup }) } }
  let s := if was = 0 ∧ s.rebuildLeft ≠ 0 then s.raise 6 17 else s
  s.followRedundancy

end Sys2Proof.Machine
end

