-- ==== Sys2Proof/Machine/Wear.lean ====
section
/-! DEFINITION. Erases and wear: erase-intent records (R268 to R270), wear windows (R232, R233), staging swaps (R234), erase
counts (R235), retirement (R237, R238). -/

namespace Sys2Proof.Machine

open Sys2Proof

/-! ## Retirement (R237, R238) -/

/-- Mark a block retired (R238): it leaves every area and is never erased again. -/
def State.retireBlock (s : State) (dk block : Nat) : State :=
  let k := blockKey dk block
  let s := if s.place.retired.contains k then s else s.setReg Reg.RCL_RETIRED (s.reg Reg.RCL_RETIRED + 1)
  let s := s.setBlock dk block { s.blockOf dk block with st := .retired }
  let d := s.dieOf dk
  let s := s.setDie dk { d with stageBlocks := d.stageBlocks.filter fun b => decide (b ≠ block),
                                flushBlocks := d.flushBlocks.filter fun b => decide (b ≠ block) }
  let s : State := { s with place := { s.place with
    retired := if s.place.retired.contains k then s.place.retired else s.place.retired ++ [k]
    retireQueue := s.place.retireQueue.filter fun x => decide (x ≠ k) } }
  (s.raiseRecord 8 20 0 (leBytes 8 k)).followCapacity

/-- Queue a block for retirement; one that is free of data is retired at once (R237, R238). -/
def State.queueRetire (s : State) (dk block : Nat) : State :=
  let k := blockKey dk block
  if s.place.retired.contains k ∨ s.place.retireQueue.contains k then s
  else if s.inBand dk block then
    { s with place := { s.place with retireQueue := s.place.retireQueue ++ [k] } }
  else s.retireBlock dk block

/-! ## The wear window (R232, R233) -/

/-- The band that has a block as member, if it is CLOSED. -/
def State.closedBandOf (s : State) (dk block : Nat) : Option Nat :=
  (s.place.bands.find? fun e =>
    decide (e.2.st = .closed) && e.2.members.any fun m => decide (dieKey m.ch m.die = dk ∧ m.block = block)).map
      fun e => e.1

/-- The mean erase count of a die. -/
def State.dieMean (s : State) (dk : Nat) : Nat :=
  meanOf ((s.media.blocks.filter fun e => decide (e.1 / 2 ^ 25 = dk)).map fun e => (s.place.wears.look e.1).getD 0)

/-- Whether a block that enters the window is cold (R233). -/
def State.isCold (s : State) (dk block : Nat) : Bool :=
  !s.place.touched.contains (blockKey dk block) ||
    decide (s.wearOf dk block + s.fld Reg.RCL_WEAR Reg.RCL_WEAR_.COLD_GAP < s.dieMean dk)

/-- A block leaves the window while its band is still CLOSED: FORCED_LATE, and the band goes first (R233). -/
def State.leaveWindow (s : State) (dk block : Nat) : State :=
  match s.closedBandOf dk block with
  | none => s
  | some num =>
    if s.place.forced.contains num then
      ({ s with place := { s.place with
          forced := num :: s.place.forced.filter fun x => decide (x ≠ num) } } : State).raise 8 22
    else s

/-- A block enters the window: a CLOSED band of a cold block becomes a forced victim (R233). -/
def State.enterWindow (s : State) (dk block : Nat) : State :=
  let cold := s.isCold dk block
  let s : State := { s with place := { s.place with
    touched := s.place.touched.filter fun x => decide (x ≠ blockKey dk block) } }
  match s.closedBandOf dk block with
  | none => s
  | some num =>
    if cold && !s.place.forced.contains num then
      ({ s with place := { s.place with forced := s.place.forced ++ [num] } } : State).count Reg.RCL_FORCED 1
    else s

/-- A die takes a turn (R232). -/
def State.takeTurn (s : State) (dk : Nat) : State :=
  let d := s.dieOf dk
  let b := max 1 (s.dieBlocks dk)
  let s := s.setDie dk { d with window := (d.window + 1) % b, sinceTurn := 0 }
  (s.leaveWindow dk d.window).enterWindow dk ((d.window + 32) % b)

/-! ## Erase counts (R235 to R237) -/

/-- The largest erase count. -/
def wearMax : Nat := 0xFFFFFF

/-- The middle of a list of counts, the lower one of two. -/
def medianOf (l : List Nat) : Nat :=
  let sorted := l.mergeSort
  (sorted[(sorted.length - 1) / 2]?).getD 0

/-- Swap a worn staging block with the least worn free main-area block of its die (R234). -/
def State.swapStaging (s : State) (dk block : Nat) : State :=
  let d := s.dieOf dk
  let main := (s.media.blocks.filter fun e =>
    decide (e.1 / 2 ^ 25 = dk ∧ e.2.st ≠ .retired ∧ e.2.st ≠ .flag) && !d.stageBlocks.contains (e.1 % 2 ^ 25)).map
      fun e => e.1 % 2 ^ 25
  if d.stageBlocks.contains block ∧
      medianOf (main.map fun b => s.wearOf dk b) + 64 * s.fld Reg.RCL_WEAR Reg.RCL_WEAR_.STAGE_GAP < s.wearOf dk block then
    match leastBy (fun b => s.wearOf dk b) (s.erasedMain dk) with
    | some b => s.setDie dk { d with stageBlocks := d.stageBlocks.map fun x => if x = block then b else x }
    | none => s
  else s

/-! ## Staging share and flush reserve (R197, R205, R370) -/

/-- Whether a staging record names a codeword of a block (R205). -/
def State.stageNames (s : State) (dk block : Nat) : Bool :=
  s.place.index.any fun e =>
    (e.2.copyA ++ e.2.copyB).any fun c => decide (c ≠ 0 ∧ addrDie (c % 2 ^ 36) = dk ∧ s.addrBlock (c % 2 ^ 36) = block)

/-- The staging share of a die (R197). -/
def State.stageShare (s : State) (dk : Nat) : Nat :=
  if s.dieServes dk then ceilDiv (s.dieBlocks dk * s.fld Reg.STG_CTRL Reg.STG_CTRL_.PERCENT) 100 else 0

/-- The flush stripes that a set at the current limits needs (R362, R371). -/
def State.flushStripesAt (s : State) : Nat :=
  ceilDiv (ceilDiv (s.fld Reg.PWR_FLUSHLIM Reg.PWR_FLUSHLIM_.MAP + s.fld Reg.PWR_FLUSHLIM Reg.PWR_FLUSHLIM_.GATHER + 8192) 4) 14

/-- The blocks of the flush reserve on each die: one, or two where one holds fewer page-planes than 1.1 times the flush
stripes needed (R370). -/
def State.reserveShare (s : State) : Nat :=
  let one := (s.servingDies.map fun dk => (s.dieOf dk).blockPlanes true).sum
  if 10 * one < 11 * 16 * s.flushStripesAt then 2 else 1

/-- A die brings its flush reserve and its staging area to their shares as far as its erased main-area blocks reach; one
that holds more staging blocks than its share gives up those that no staging record names (R197, R205, R370). -/
def State.settleAreas (s : State) (dk : Nat) : State :=
  let d := s.dieOf dk
  let free := s.erasedMain dk
  let more := s.reserveShare - d.flushBlocks.length
  let flush := if s.dieServes dk then d.flushBlocks ++ free.take more else d.flushBlocks
  let share := s.stageShare dk
  let n := d.stageBlocks.length
  let stage :=
    if n ≤ share then d.stageBlocks ++ (free.drop more).take (share - n)
    else
      let go := (d.stageBlocks.filter fun b => !s.stageNames dk b).take (n - share)
      d.stageBlocks.filter fun b => !go.contains b
  let at' := match d.stageBlocks[d.stageAt]? with
    | some b => if stage.contains b then stage.findIdx fun x => decide (x = b) else 0
    | none => 0
  if flush = d.flushBlocks ∧ stage = d.stageBlocks then s
  else s.setDie dk { d with flushBlocks := flush, stageBlocks := stage, stageAt := at' }

/-- An erase that ended with success: the block is ERASED, its count rises, the die's turn counts (R232, R235). -/
def State.eraseCounts (s : State) (dk block : Nat) : State :=
  let k := blockKey dk block
  let c := min wearMax (s.wearOf dk block + 1)
  let s := s.eraseBlock dk block
  let s : State := { s with place := { s.place with
    wears := s.place.wears.put k c
    touched := if s.place.touched.contains k then s.place.touched else k :: s.place.touched
    deepReads := s.place.deepReads.del k
    erasesSincePersist := s.place.erasesSincePersist + 1 } }
  let d := s.dieOf dk
  let s := s.setDie dk { d with sinceTurn := d.sinceTurn + 1 }
  let s := if s.fld Reg.RCL_WEAR Reg.RCL_WEAR_.TURN ≤ d.sinceTurn + 1 then s.takeTurn dk else s
  if c = wearMax then s.raiseRecord 8 19 0 (leBytes 8 k) else s

/-- What follows an erase of a block that is not of the flag pair: a worn staging block is swapped, a block at its rated
endurance is queued for retirement, and the areas of the die take their shares (R234, R237). -/
def State.erased (s : State) (dk block : Nat) (slc : Bool) : State :=
  let s := (s.eraseCounts dk block).swapStaging dk block
  let d := s.dieOf dk
  let c := s.wearOf dk block
  let rated := (if slc then d.params.slcEndurance else d.params.endurance) *
    min 200 (max 50 (s.fld Reg.RCL_WEAR Reg.RCL_WEAR_.LIMIT_PCT)) / 100
  (if (d.params.endurance ≠ 0 ∧ rated ≤ c) ∨ c = wearMax then s.queueRetire dk block else s).settleAreas dk

/-! ## Erase-intent records (R268 to R270) -/

/-- The codeword slot that carries a flag record, zero-filled (R268, Table 12). -/
def flagCodeword (kind block : Nat) (slc : Bool) (fseq : Word) (suspends erases : Nat) : Codeword :=
  let body := BitVec.ofNat 96 (block % 2 ^ 24 + (if slc then 2 ^ 24 else 0) + kind % 16 * 2 ^ 28 +
    fseq.toNat * 2 ^ 32 + erases % 2 ^ 24 * 2 ^ 64 + suspends % 256 * 2 ^ 88)
  ofInfo (bytesOf body 12 ++ bytesOf (crc32c (bytesOf body 12)) 4 ++ List.replicate 4112 0)

/-- Whether a die's flag pair can take a record. -/
def State.flagReady (s : State) (dk : Nat) : Bool :=
  decide ((s.blockOf dk (s.dieOf dk).flagActive).st = .flag ∧ (s.dieOf dk).flagActive ≠ (s.dieOf dk).flagOther)

/-- Program one flag record into the next page-plane of the active flag block (R268). -/
def State.flagRecord (s : State) (dk kind block : Nat) (slc : Bool) (suspends erases : Nat) : State :=
  let d := s.dieOf dk
  let n := max 1 d.params.planes
  let addr := s.unitAddr dk d.flagActive (d.flagNext / n) (d.flagNext % n)
  let pp : PagePlane :=
    { slots := [flagCodeword kind block slc d.fseq suspends erases, padCodeword, padCodeword, padCodeword]
      trailer := mkTrailer 8 0 d.flagNext s.nextStamp s.mediaEpoch }
  let s : State := { s with media := { s.media with
    pages := s.media.pages.put addr pp
    dies := s.media.dies.put dk { d with flagNext := d.flagNext + 1, fseq := d.fseq + 1 } } }
  (s.takeStamps 1).emit (.flagRecord (dk / 16) (dk % 16) kind block d.fseq)

/-- Make the other flag block active when one page-plane is left (R270). -/
def State.rotateFlag (s : State) (dk : Nat) : State :=
  let d := s.dieOf dk
  if d.flagNext + 1 = d.blockPlanes true then
    let other := d.flagOther
    let s := s.flagRecord dk 1 other true 0 0
    let s := (s.eraseCounts dk other).setBlock dk other { st := .flag, next := 0 }
    let d := s.dieOf dk
    let s := s.setDie dk { d with flagActive := other, flagOther := d.flagActive, flagNext := 0 }
    let s := s.flagRecord dk 2 other true 0 (s.wearOf dk other)
    if d.params.slcEndurance ≠ 0 ∧ d.params.slcEndurance ≤ s.wearOf dk d.flagActive then
      s.record 9 (dk / 16) 0xFF 0 (leBytes 2 dk ++ leBytes 4 d.flagActive)
    else s
  else s

/-- Begin an erase: INTENT is programmed and the block is NEEDS_ERASE (R269, steps 1 and 2). -/
def State.eraseBegin (s : State) (dk block : Nat) (slc : Bool) : State :=
  let s := (s.rotateFlag dk).flagRecord dk 1 block slc 0 0
  s.setBlock dk block { s.blockOf dk block with st := .needsErase }

/-- End an erase: DONE and ERASED, or FAIL and NEEDS_ERASE with the block queued for retirement (R269, step 3; R237). -/
def State.eraseEnd (s : State) (dk block : Nat) (slc ok : Bool) (suspends : Nat) : State :=
  if ok then
    let s := s.erased dk block slc
    (s.rotateFlag dk).flagRecord dk 2 block slc suspends (s.wearOf dk block)
  else
    let s := (s.rotateFlag dk).flagRecord dk 3 block slc suspends (s.wearOf dk block)
    s.queueRetire dk block

/-- An erase that the N9 makes for itself, whole. -/
def State.eraseNow (s : State) (dk block : Nat) (slc : Bool) : State :=
  if s.flagReady dk then (s.eraseBegin dk block slc).eraseEnd dk block slc true 0 else s

/-- A member block of a FREE band is erased, or retired where the queue names it (R223, R225, R238). -/
def eraseMember (slc : Bool) (s : State) (m : Member) : State :=
  let dk := dieKey m.ch m.die
  if s.place.retireQueue.contains (blockKey dk m.block) then s.retireBlock dk m.block
  else if s.dieServes dk then s.eraseNow dk m.block slc
  else s

/-! ## Meanings -/

/-- BAND_ERASE_START (R223, R225, R238): the member blocks of a FREE band are erased, those queued for retirement are
retired, and the band record is given up. Reads end within their own step, so none holds an address of the band. -/
def execBandEraseStart (band : Nat) (s : State) : Host.Outcome State Fault Refusal :=
  match s.place.bands.look band with
  | none => .next s
  | some b =>
    answer (s.up && decide (b.st = .free)) s
      (let s : State := { s with place := { s.place with
          bands := s.place.bands.del band, forced := s.place.forced.filter fun x => decide (x ≠ band) } }
       let s := b.members.foldl (eraseMember (bandSlc b.layout)) s
       s.followRedundancy.reviewFences)

/-- WEAR_PERSIST (R236): after 65,536 erases the counts are persisted. -/
def execWearPersist (s : State) : Host.Outcome State Fault Refusal :=
  answer (s.up && decide (65536 ≤ s.place.erasesSincePersist)) s
    { s with place := { s.place with erasesSincePersist := 0 } }

/-- SCORE_AGE_TICK (R226): every CLOSED band is a minute older and its score is computed again. -/
def execScoreAgeTick (s : State) : Host.Outcome State Fault Refusal :=
  answer s.up s
    (let bands := s.place.bands.map fun e =>
       if e.2.st = .closed then
         let b := { e.2 with minutes := e.2.minutes + 1 }
         (e.1, { b with score := s.scoreOf b })
       else e
     { s with place := { s.place with bands := bands } })

end Sys2Proof.Machine
end

