-- ==== Sys2Proof/Machine/Stage.lean ====
section
/-! DEFINITION. Staging and gathering (R197 to R205), the flush-set charges (R362 to R366), and installs (R202). -/

namespace Sys2Proof.Machine

open Sys2Proof

/-! ## The flush set (R362 to R366) -/

/-- The flush blocks of the map part: pages with DIRTY set. -/
def State.mapLevel (s : State) : Nat := (s.map.dir.filter fun e => e.2.dirty).length

/-- The codeword slots that a gather stripe counts: its filled ones while open, all of them once sealed (R362). -/
def Gather.flushSlots (g : Gather) : Nat :=
  if g.shut then 4 * layoutD g.layout
  else (g.slots.map fun x => (x.cws.filter fun c => c.isSome).length).sum

/-- The flush blocks of the gather part. -/
def State.gatherLevel (s : State) : Nat := (s.place.gathers.map fun e => e.2.flushSlots + 8).sum

/-- Whether a charge of `n` fits a part (R364, R365). -/
def chargeFits (level limit n : Nat) : Bool :=
  decide (n = 0) || (decide (10 * level < 9 * limit) && decide (level + n ≤ limit))

/-- The WSEQ of a page-plane (R275). -/
def PagePlane.wseq (p : PagePlane) : DWord := (p.trailer >>> 128).setWidth 64

/-- Whether the page-planes programmed since H stay within LAG_GIB (R368). -/
def State.lagOk (s : State) : Bool :=
  decide ((s.media.pages.filter fun e =>
      decide ((e.2.wseq - s.power.horizon).toNat < 2 ^ 63)).length ≤
    65536 * max 1 (s.fld Reg.PWR_HORIZON Reg.PWR_HORIZON_.LAG_GIB))

/-- Whether charges can be taken now: `pages` map pages that are clean, `slots` gather slots (R364, R365, R368). -/
def State.chargesFit (s : State) (pages slots : Nat) : Bool :=
  chargeFits s.mapLevel (s.fld Reg.PWR_FLUSHLIM Reg.PWR_FLUSHLIM_.MAP) pages && (decide (pages = 0) || s.lagOk) &&
    chargeFits s.gatherLevel (s.fld Reg.PWR_FLUSHLIM Reg.PWR_FLUSHLIM_.GATHER) slots

/-! ## The staging index (R199) -/

/-- The entries of the staging partition (R204). -/
def indexMax : Nat := 49152

/-- The key of a unit's staging-index entry. -/
def stageKey (nsid unit : Nat) : Nat := nsid * 2 ^ 48 + unit

/-- A staging record without any mark. -/
def StageRec.fresh : StageRec := { join := 0, staged := 0, trimmed := 0, copyA := [0, 0, 0, 0], copyB := [0, 0, 0, 0] }

/-- A unit's staging record. -/
def State.stageOf (s : State) (nsid unit : Nat) : Option StageRec := s.place.index.look (stageKey nsid unit)

/-- A gather stripe that is still open gives up a unit's slot: it drains as a pad (R195, R202). -/
def Gather.abandon (g : Gather) (nsid unit : Nat) : Gather :=
  let slots := g.slots.map fun x =>
    if x.nsid = nsid ∧ x.unit = unit then { x with nsid := 0, cws := [none, none, none, none] } else x
  if g.shut then g else { g with slots := slots }

/-- Remove a unit's staging-index entry and record; its slot in an open gather stripe is abandoned. -/
def State.unstage (s : State) (nsid unit : Nat) : State :=
  { s with place := { s.place with
      index := s.place.index.del (stageKey nsid unit)
      gathers := s.place.gathers.map fun e => (e.1, e.2.abandon nsid unit) } }

/-- Write a unit's staging record. -/
def State.setStage (s : State) (nsid unit : Nat) (r : StageRec) : State :=
  { s with place := { s.place with index := s.place.index.put (stageKey nsid unit) r } }

/-- Block b gets a staging location (R199). -/
def StageRec.stage (r : StageRec) (b a c : Nat) : StageRec :=
  { r with staged := r.staged ||| (1#4 <<< b), trimmed := r.trimmed &&& ~~~(1#4 <<< b),
           copyA := r.copyA.set b a, copyB := r.copyB.set b c }

/-- Block b gets a trimmed mark (R199, R203). -/
def StageRec.trim (r : StageRec) (b : Nat) : StageRec :=
  { r with trimmed := r.trimmed ||| (1#4 <<< b), staged := r.staged &&& ~~~(1#4 <<< b),
           copyA := r.copyA.set b 0, copyB := r.copyB.set b 0 }

/-! ## Staging page-planes (R197, R198, R205) -/

/-- A die whose current staging block can take a page-plane: the die as it stands then, moved on to its next staging
block in order, which is erased when no record names it (R205). -/
def State.stageReady (s : State) (dk : Nat) : Option State :=
  let d := s.dieOf dk
  let usable (b : Nat) : Bool :=
    decide ((s.blockOf dk b).st = .erased ∨
      ((s.blockOf dk b).st = .opened ∧ (s.blockOf dk b).next < d.blockPlanes true))
  match d.stageBlocks[d.stageAt]? with
  | none => none
  | some b =>
    if usable b then some s
    else
      let at' := (d.stageAt + 1) % max 1 d.stageBlocks.length
      match d.stageBlocks[at']? with
      | none => none
      | some b' =>
        let s := s.setDie dk { d with stageAt := at' }
        if usable b' then some s
        else if s.stageNames dk b' ∨ !s.flagReady dk then none
        else some (s.eraseNow dk b' true)

/-- The address of the next staging page-plane of a die. -/
def State.stageAddr (s : State) (dk : Nat) : Nat :=
  let d := s.dieOf dk
  let b := (d.stageBlocks[d.stageAt]?).getD 0
  let n := max 1 d.params.planes
  let k := (s.blockOf dk b).next
  s.unitAddr dk b (k / n) (k % n)

/-- The dies that have a staging page for the next blocks. -/
def State.stageDies (s : State) : List Nat := s.servingDies.filter fun dk => s.dieTakes dk && (s.stageReady dk).isSome

/-- The die pair that takes staged blocks: two dies of different carriers, or of different channels when one carrier is
in service (R197, R198). -/
def State.stagePair (s : State) : Option (Nat × Nat) :=
  match s.stageDies with
  | [] => none
  | a :: l =>
    let far (b : Nat) : Bool :=
      if s.servingCarriers.length ≤ 1 then decide (b / 16 ≠ a / 16) else decide (dieCarrier b ≠ dieCarrier a)
    (l.find? far).map fun b => (a, b)

/-- Program one staging page-plane on a die with up to four codewords; the rest are pads (R197). -/
def State.programStage (s : State) (dk : Nat) (cws : List Codeword) : State × Nat :=
  match s.stageReady dk with
  | none => (s, 0)
  | some s =>
    let a := s.stageAddr dk
    (s.programPlane a true (cws ++ List.replicate (4 - cws.length) padCodeword) pageStaging 0 (a % 2 ^ 25), a)

/-! ## Gather stripes (R200 to R202) -/

/-- The open gather stripe of a stream. -/
def State.openGather (s : State) (stream : Nat) : Option (Nat × Gather) :=
  s.place.gathers.find? fun e => decide (e.2.stream = stream) && !e.2.shut

/-- Write a gather stripe. -/
def State.setGather (s : State) (i : Nat) (g : Gather) : State :=
  { s with place := { s.place with gathers := s.place.gathers.put i g } }

/-- The open gather stripe of a stream, opened when there is none. -/
def State.gatherFor (s : State) (stream layout : Nat) : Nat × Gather × State :=
  match s.openGather stream with
  | some (i, g) => (i, g, s)
  | none =>
    let i := s.place.nextGather
    let g : Gather := { stream := stream, layout := layout, slots := [], shut := false, placed := [], charge := 0 }
    (i, g, { s.setGather i g with place := { (s.setGather i g).place with nextGather := i + 1 } })

/-- A unit joins its stream's open gather stripe, unless it has a slot there: JOIN is stamped into slot and record (R200). -/
def State.joinUnit (s : State) (nsid : Nat) (n : Namespace) (unit : Nat) : State :=
  let r := s.gatherFor n.stream (s.localLayout n)
  let s := r.2.2
  if r.2.1.slots.any fun x => decide (x.nsid = nsid ∧ x.unit = unit) then s
  else
    let join := s.nextStamp
    let slot : GatherSlot := { nsid := nsid, unit := unit, join := join, cws := [none, none, none, none] }
    let s := s.setGather r.1 { r.2.1 with slots := r.2.1.slots ++ [slot] }
    let s := match s.stageOf nsid unit with | some x => s.setStage nsid unit { x with join := join } | none => s
    s.takeStamps 1

/-- Copy a codeword into a unit's slot of the open gather stripe of a stream (R200). -/
def State.fillSlot (s : State) (stream nsid unit b : Nat) (c : Option Codeword) : State :=
  match s.openGather stream with
  | none => s
  | some (i, g) =>
    s.setGather i { g with slots := g.slots.map fun x =>
      if x.nsid = nsid ∧ x.unit = unit then { x with cws := x.cws.set b c } else x }

/-- The codeword as a data codeword of the main area (R300, Table 4; log entry 15). -/
def Codeword.toMain (c : Codeword) : Codeword :=
  { c with header := (c.header &&& ~~~(0xF#128 <<< 20)) ||| (BitVec.ofNat 128 kindData <<< 20), step := some 0 }

/-- The content of one codeword slot of a unit at sealing (R201). -/
def State.sealSlot (s : State) (nsid : Nat) (n : Namespace) (unit b : Nat) (filled : Option Codeword) (wseq : DWord) :
    Codeword :=
  let lba := 4 * unit + b
  let e := s.entryOf n unit
  let trimmed := match s.stageOf nsid unit with | some r => r.trimmed.getLsbD b | none => false
  match filled with
  | some c => c.toMain
  | none =>
    if trimmed || !meV e then marker kindTrimmed nsid lba n.nstag.toNat wseq
    else
      match s.readSlot (meAddr e) b nsid lba n.nstag.toNat with
      | some (c, _) => c
      | none => marker kindUncorr nsid lba n.nstag.toNat wseq

/-- The four codewords of a slot at sealing. -/
def State.sealUnit (s : State) (x : GatherSlot) (wseq : DWord) : List Codeword :=
  match s.nss.look x.nsid with
  | some n => (List.range 4).map fun b => s.sealSlot x.nsid n x.unit b ((x.cws[b]?).getD none) wseq
  | none => List.replicate 4 padCodeword

/-- Fill reads that meet a broken slot mark the stripe lost; a lost unit leaves the stripe by a new JOIN (R200, R213). -/
def State.sealLosses (s : State) (g : Gather) : State :=
  g.slots.foldl (fun s x =>
    match s.nss.look x.nsid with
    | none => s
    | some n =>
      let e := s.entryOf n x.unit
      let needs := (List.range 4).any fun b =>
        ((x.cws[b]?).getD none).isNone && meV e &&
          (s.readSlot (meAddr e) b x.nsid (4 * x.unit + b) n.nstag.toNat).isNone
      if !needs then s
      else
        match s.findUnit (meAddr e) with
        | none => s
        | some (num, bnd, _, st) =>
          if (List.range 4).any fun k => s.slotBroken bnd st k then
            let s := s.loseStripe num st 3
            match s.stageOf x.nsid x.unit with
            | some r => (s.setStage x.nsid x.unit { r with join := s.nextStamp }).takeStamps 1
            | none => s
          else s) s

/-- Drain a sealed gather stripe: programmed as a stripe-aligned one is, when a band can take it (R195, R201). -/
def State.drain (s : State) (i : Nat) : State :=
  match s.place.gathers.look i with
  | none => s
  | some g =>
    let wseq := s.nextStamp
    let units := (g.slots.map fun x => s.sealUnit x wseq) ++
      List.replicate (layoutD g.layout - g.slots.length) (List.replicate 4 padCodeword)
    let s := s.takeStamps 1
    match s.programStripe g.layout g.stream units with
    | some (addrs, _, s) => s.setGather i { g with placed := addrs }
    | none => s

/-- Seal a gather stripe and drain it (R201). -/
def State.sealGather (s : State) (i : Nat) : State :=
  match s.place.gathers.look i with
  | none => s
  | some g =>
    if g.shut then s
    else
      let s := (s.setGather i { g with shut := true }).sealLosses g
      let s := s.count Reg.STG_PADS (layoutD g.layout - g.slots.length)
      s.drain i

/-- Seal the open gather stripe of a stream when all its slots are filled (R201). -/
def State.sealFull (s : State) (stream : Nat) : State :=
  match s.openGather stream with
  | some (i, g) => if layoutD g.layout ≤ g.slots.length then s.sealGather i else s
  | none => s

/-- Seal every open gather stripe (R201, R204, R205, R365). -/
def State.sealAll (s : State) : State :=
  (s.place.gathers.filter fun e => !e.2.shut).foldl (fun s e => s.sealGather e.1) s

/-- Whether a unit's lost mark ends: every block is staged or trimmed again (R201). -/
def StageRec.whole (r : StageRec) : Bool := decide (r.staged ||| r.trimmed = 15)

/-- Fill the slot of a block of a unit from what is staged of it. -/
def fillStaged (nsid : Nat) (n : Namespace) (unit : Nat) (r : StageRec) (s : State) (b : Nat) : State :=
  if r.staged.getLsbD b then
    s.fillSlot n.stream nsid unit b
      ((s.readStaged [(r.copyA[b]?).getD 0, (r.copyB[b]?).getD 0] nsid (4 * unit + b) n.nstag.toNat).map fun x => x.1)
  else s

/-- A unit has changed in the staging area: its L mark, its place in a gather stripe and the copies there follow
(R200, R201, R203). -/
def State.gatherUnit (s : State) (nsid : Nat) (n : Namespace) (unit : Nat) (news : List (Nat × Option Codeword)) : State :=
  match s.stageOf nsid unit with
  | none => s
  | some r =>
    let e := s.entryOf n unit
    if meL e ∧ !r.whole then s.mapSet n unit (mkEntry false true true false 0)
    else
      let s := s.mapSet n unit (mkEntry false false true (meV e) (meAddr e))
      let had := match s.openGather n.stream with
        | some (_, g) => g.slots.any fun x => decide (x.nsid = nsid ∧ x.unit = unit)
        | none => false
      let s := s.joinUnit nsid n unit
      let s := if had then s else
        (List.range 4).foldl (fillStaged nsid n unit r) s
      (news.foldl (fun s x => s.fillSlot n.stream nsid unit x.1 x.2) s).sealFull n.stream

/-- Signal the shortage of index entries or of staging space (R204, R205). -/
def State.stagePressure (s : State) : State :=
  let s :=
    if indexMax - s.place.index.length < 1024 then (s.raise 7 16).sealAll else s
  let total := ((s.servingDies.map fun dk => (s.dieOf dk).stageBlocks.length).sum)
  let free := ((s.servingDies.map fun dk =>
    ((s.dieOf dk).stageBlocks.filter fun b => !s.stageNames dk b).length).sum)
  if 8 * free < total then (s.raise 7 17).sealAll else s

/-- Stage a group of up to four blocks on a die pair, and let their units join (R197 to R200). -/
def State.stageGroup (s : State) (pair : Nat × Nat) (blocks : List (Nat × Nat × Codeword)) : State :=
  let cws := blocks.map fun b => b.2.2
  let r := s.programStage pair.1 cws
  let t := r.1.programStage pair.2 cws
  ((List.range blocks.length).zip blocks).foldl (fun s e =>
    let nsid := e.2.1
    let lba := e.2.2.1
    match s.nss.look nsid with
    | none => s
    | some n =>
      let rec0 := (s.stageOf nsid (lba / 4)).getD StageRec.fresh
      let s := s.setStage nsid (lba / 4) (rec0.stage (lba % 4) (e.1 * 2 ^ 36 + r.2) (e.1 * 2 ^ 36 + t.2))
      s.gatherUnit nsid n (lba / 4) [(lba % 4, some e.2.2.2)]) t.1

/-- Install the slots of a drained stripe whose JOIN still matches (R202). -/
def State.installGather (s : State) (g : Gather) : State :=
  (g.slots.zip g.placed).foldl (fun s e =>
    match s.nss.look e.1.nsid, s.stageOf e.1.nsid e.1.unit with
    | some n, some r =>
      if r.join = e.1.join then
        (s.mapSet n e.1.unit (mkEntry false false false true e.2)).unstage e.1.nsid e.1.unit
      else s
    | _, _ => s) s

/-- GATHER_INSTALL (R202): a stripe that could not be programmed before is drained first. -/
def execGatherInstall (stripe : Nat) (s : State) : Host.Outcome State Fault Refusal :=
  match s.place.gathers.look stripe with
  | none => .next s
  | some g =>
    answer (s.up && decide (s.mode ≠ modeHoldup) && g.shut) s
      (let s := if g.placed.isEmpty then s.drain stripe else s
       match s.place.gathers.look stripe with
       | none => s
       | some g =>
         if g.placed.isEmpty then s
         else
           let s := s.installGather g
           { s with place := { s.place with gathers := s.place.gathers.del stripe } })

/-- GATHER_AGE_EXPIRE (R201): the stream's open gather stripe has been open for AGE_LIMIT ms; 0 disables
age sealing. -/
def execGatherAgeExpire (stream : Nat) (s : State) : Host.Outcome State Fault Refusal :=
  match s.openGather stream with
  | none => .next s
  | some (i, _) => answer (s.up && decide (s.mode ≠ modeHoldup ∧ s.fld Reg.STG_CTRL Reg.STG_CTRL_.AGE_LIMIT ≠ 0)) s
      (s.sealGather i)

end Sys2Proof.Machine
end

