-- ==== Sys2Proof/Machine/Reclaim.lean ====
section
/-! DEFINITION. Copies: reclaim (R224 to R231), local rebuild (R211 to R213), relocation after a deep read (R307), and the
images of map pages in the map bands (R181, R295). -/

namespace Sys2Proof.Machine

open Sys2Proof

/-! ## Copies of units -/

/-- The copy stream of a victim band's stream (R227, Table 3). -/
def copyStreamOf (st : Nat) : Nat :=
  if st = 240 then 241 else if st = 241 then 242 else if st = 242 ∨ st = 243 then 243
  else if st = streamMap ∨ st = streamJournal then st else 240

/-- The four codewords of a unit's main copy at an address, each by the ladder or by parity; none when one of them can be
had by neither (R227, R229). -/
def State.copyUnit (s : State) (nsid unit src : Nat) : Option (List Codeword) :=
  match s.nss.look nsid with
  | none => none
  | some n =>
    let l := (List.range 4).filterMap fun b =>
      (s.readSlot src b nsid (4 * unit + b) n.nstag.toNat).map fun r => { r.1 with step := some 0 }
    if l.length = 4 then some l else none

/-- A unit to copy: namespace, unit, address. -/
abbrev Live := Nat × Nat × Nat

/-- Program one copy stripe of at most D units whose codewords are known, to be installed later (R228). -/
def State.programCopy (s : State) (layout stream : Nat) (rebuild : Bool) (units : List (Live × List Codeword)) : State :=
  let pads := List.replicate (bandD layout - units.length) (List.replicate 4 padCodeword)
  match s.programStripe layout stream ((units.map fun u => u.2) ++ pads) with
  | none => s
  | some (addrs, num, s) =>
    let c : CopyStripe :=
      { band := num, rebuild := rebuild
        items := (units.zip addrs).map fun e => { nsid := e.1.1.1, unit := e.1.1.2.1, src := e.1.1.2.2, dst := e.2 } }
    { s with place := { s.place with copies := s.place.copies.put s.place.nextCopy c, nextCopy := s.place.nextCopy + 1 } }

/-- Split a list into pieces of at most n. -/
def piecesOf {α : Type} (n : Nat) : Nat → List α → List (List α)
  | 0, _ => []
  | fuel + 1, l => if l.isEmpty then [] else l.take n :: piecesOf n fuel (l.drop n)

/-- Units that cannot be read or rebuilt are lost with their stripe (R213, R229). -/
def State.loseUnreadable (s : State) (us : List Live) (cause : Nat → Nat) : State :=
  us.foldl (fun s u =>
    if (s.copyUnit u.1 u.2.1 u.2.2).isSome then s
    else match s.findUnit u.2.2 with
      | some (num, _, _, st) => s.loseStripe num st (cause num)
      | none => s) s

/-- Copy live units into stripes of a stream (R211, R227, R228). -/
def State.copyUnits (s : State) (layout stream : Nat) (rebuild : Bool) (us : List Live) (cause : Nat → Nat) : State :=
  let s := s.loseUnreadable us cause
  let good := us.filterMap fun u => (s.copyUnit u.1 u.2.1 u.2.2).map fun l => (u, l)
  (piecesOf (max 1 (bandD layout)) good.length good).foldl (fun s p => s.programCopy layout stream rebuild p) s

/-- Whether a unit is already being copied from an address. -/
def State.copying (s : State) (u : Live) : Bool :=
  s.place.copies.any fun e => e.2.items.any fun i => decide ((i.nsid, i.unit, i.src) = u)

/-- The live units of some addresses that are not being copied yet. -/
def State.liveAt (s : State) (addrs : List Nat) : List Live :=
  ((s.unitsAt addrs).filterMap fun h =>
    (s.nss.look h.1).map fun n => (h.1, h.2, meAddr (s.entryOf n h.2))).filter fun u => !s.copying u

/-- The addresses of the data units of a stripe. -/
def State.stripeData (s : State) (b : Band) (st : Nat) : List Nat :=
  (List.range (bandD b.layout)).map fun i =>
    ((b.members[memberD (bandW b.layout) st i]?).map fun m => s.stripeAddr m st).getD 0

/-- The live units of a band. -/
def State.liveIn (s : State) (b : Band) : List Live :=
  s.liveAt ((List.range b.next).flatMap fun st => s.stripeData b st)

/-- Relocate a unit recovered with effort as a reclaim copy would be (R307). -/
def State.relocate (s : State) (nsid unit addr : Nat) : State :=
  match s.findUnit addr with
  | none => s
  | some (_, b, _, _) =>
    if s.copying (nsid, unit, addr) then s
    else s.copyUnits b.layout (copyStreamOf b.stream) false [(nsid, unit, addr)] fun _ => 3

/-- A read of a block needed step 9 or higher: the second one between two erases queues it for retirement (R237). -/
def State.noteDeep (s : State) (addr : Nat) : State :=
  let dk := addrDie addr
  let block := s.addrBlock addr
  let k := blockKey dk block
  let n := (s.place.deepReads.look k).getD 0 + 1
  let s : State := { s with place := { s.place with deepReads := s.place.deepReads.put k n } }
  if 2 ≤ n then s.queueRetire dk block else s

/-! ## Installs (R228, R230) -/

/-- Install an item of a verified copy stripe when its map entry is unchanged (R228). -/
def installItem (rebuild : Bool) (s : State) (i : CopyItem) : State :=
  match s.nss.look i.nsid with
  | none => s
  | some n =>
    let e := s.entryOf n i.unit
    if meV e ∧ meAddr e = i.src then
      let s := s.mapSet n i.unit (mkEntry false false (meS e) true i.dst)
      if rebuild then s else s.count Reg.RCL_COPIES 1
    else s

/-- Install the items of a verified copy stripe whose map entry is unchanged (R228). -/
def State.installCopy (s : State) (c : CopyStripe) : State :=
  let was := s.rebuildLeft
  let s := c.items.foldl (installItem c.rebuild) s
  let s := if was ≠ 0 ∧ s.rebuildLeft = 0 then s.raise 6 18 else s
  s.followRedundancy

/-- A copy stripe failed: its band closes, the block is queued for retirement, the contents go into a new stripe (R230,
R231). The failing block is that of the first unit (log entry 14). -/
def State.failCopy (s : State) (c : CopyStripe) : State :=
  let s := s.raise 8 21
  let layout := match s.place.bands.look c.band with | some b => b.layout | none => 0
  let stream := match s.place.bands.look c.band with | some b => b.stream | none => streamCopy
  let s := s.closeBand c.band
  let s := match c.items.head? with
    | some i => s.queueRetire (addrDie i.dst) (s.addrBlock i.dst)
    | none => s
  let us := c.items.filterMap fun i => (s.copyUnit i.nsid i.unit i.src).map fun l => ((i.nsid, i.unit, i.src), l)
  s.programCopy layout stream c.rebuild us

/-- COPY_STRIPE_INSTALL (R228, R230). -/
def execCopyStripeInstall (stripe : Nat) (verified : Bool) (s : State) : Host.Outcome State Fault Refusal :=
  match s.place.copies.look stripe with
  | none => .next s
  | some c =>
    answer (s.up && decide (s.mode ≠ modeHoldup)) s
      (let s : State := { s with place := { s.place with copies := s.place.copies.del stripe } }
       if verified then s.installCopy c else s.failCopy c)

/-- REBUILD_STRIPE (R211 to R213): the live units of one stripe with failed members are copied into a rebuild stream.
CAUSE is 0x01 where more than two members have failed, 0x02 otherwise. -/
def execRebuildStripe (band stripe : Nat) (s : State) : Host.Outcome State Fault Refusal :=
  match s.place.bands.look band with
  | none => .next s
  | some b =>
    answer (s.up && decide (s.mode ≠ modeHoldup ∧ b.st ≠ .free ∧ stripe < b.next) && !b.failed.isEmpty) s
      (s.copyUnits b.layout (if bandSlc b.layout || decide (b.layout = 3) then b.stream else streamRebuild) true
        (s.liveAt (s.stripeData b stripe)) fun num =>
          match s.place.bands.look num with | some x => if 2 < x.failed.length then 1 else 2 | none => 2)

/-! ## Map images (R181, R295) -/

/-- A map line of a page (R146). -/
def State.lineOf (s : State) (mpn line : Nat) : List Byte :=
  let body := (List.range 12).flatMap fun i =>
    bytesOf ((s.map.entries.look (mpn * pageEntries + 12 * line + i)).getD 0) 5
  body ++ bytesOf (crc32c body) 4

/-- The 4,096 bytes of a page (R147). -/
def State.pageBytes (s : State) (mpn : Nat) : List Byte := (List.range 64).flatMap fun l => s.lineOf mpn l

/-- The codeword of a page's image with its persist sequence (R181, R295, R300). -/
def State.imageCodeword (s : State) (mpn : Nat) (pseq : DWord) : Codeword :=
  let data := s.pageBytes mpn
  mkCodeword data (genTally data mpn 0 0) (mkHeader 0 6 false mpn pseq)

/-- Program a page's image into the map bands (R181): a stripe whose first unit holds it in slot 0 (log entry 16). -/
def State.programImage (s : State) (mpn : Nat) (pseq : DWord) : Option (Nat × State) :=
  let img := s.imageCodeword mpn pseq :: List.replicate 3 padCodeword
  match s.programStripe 3 streamMap (img :: List.replicate 13 (List.replicate 4 padCodeword)) with
  | some (addrs, _, s) => some (addrs.headD 0, s)
  | none => none

/-- The directory names a new image; the old one counts as invalid (R181, R222). -/
def State.setImage (s : State) (mpn unit : Nat) : State :=
  let d := s.map.dirOf mpn
  let s := if d.img then s.bumpBand d.unit false else s
  let s := s.bumpBand unit true
  { s with map := s.map.setDir mpn { s.map.dirOf mpn with img := true, blk := 0, unit := unit } }

/-- Move the images of a map band that is reclaimed (R227). -/
def State.moveImages (s : State) (num : Nat) : State :=
  let hit := (s.map.dir.filter fun e => e.2.img &&
    (match s.findUnit e.2.unit with | some (k, _, _, _) => decide (k = num) | none => false)).map fun e => e.1
  hit.foldl (fun s mpn =>
    match s.programImage mpn s.map.pseq with
    | some (u, s) => s.setImage mpn u
    | none => s) s

/-! ## Victims (R224, R225) -/

/-- The good main-area blocks of the carriers in service, and the erased ones among them that no band has (R224). -/
def State.goodBlocks (s : State) : Nat :=
  (s.servingDies.map fun dk => s.dieBlocks dk - s.dieLeftOut dk).sum

def State.freeBlocks (s : State) : Nat := (s.servingDies.map fun dk => (s.erasedMain dk).length).sum

/-- Follow the free fraction: reclaim starts below LOW and stops above HIGH, both in 0.1 % (R224). -/
def State.reclaimWanted (s : State) : Bool :=
  let low := s.fld Reg.RCL_CTRL Reg.RCL_CTRL_.LOW
  let high := s.fld Reg.RCL_CTRL Reg.RCL_CTRL_.HIGH
  let high := if high ≤ low then low + 1 else high
  let f := 1000 * s.freeBlocks
  let g := s.goodBlocks
  if f < low * g then true else if high * g < f then false else s.place.reclaimOn

/-- Whether some write waits for space (R224, R245). -/
def State.spaceWaits (s : State) : Bool := s.cmds.inflight.any fun e => decide (e.2.stage = .waitSpace)

/-- The CLOSED band of the first block queued for retirement (R225, R238). -/
def State.retireVictim (s : State) : Option Nat :=
  (s.place.retireQueue.filterMap fun k => s.closedBandOf (k / 2 ^ 25) (k % 2 ^ 25)).head?

/-- The CLOSED band with the highest score, lowest number on a tie (R225). -/
def State.scoredVictim (s : State) : Option Nat :=
  ((s.place.bands.filter fun e => decide (e.2.st = .closed)).foldl (fun (m : Option (Nat × Nat)) e =>
    match m with
    | none => some (e.1, e.2.score)
    | some x => if x.2 < e.2.score then some (e.1, e.2.score) else some x) none).map fun e => e.1

/-- The next victim (R225). -/
def State.victimBand (s : State) : Option Nat :=
  match s.retireVictim with
  | some b => some b
  | none =>
    match s.place.forced.find? fun k =>
        (match s.place.bands.look k with | some b => decide (b.st = .closed) | none => false) with
    | some b => some b
    | none =>
      let on := if s.fld Reg.RCL_CTRL Reg.RCL_CTRL_.ENABLE = 1 then s.reclaimWanted || s.spaceWaits else s.spaceWaits
      if on then s.scoredVictim else none

/-- A band becomes a victim: FREE at once with no valid unit, else RECLAIMING, and its valid units are copied (R221, R225,
R227). -/
def State.takeVictim (s : State) (num : Nat) : State :=
  match s.place.bands.look num with
  | none => s
  | some b =>
    let s : State := { s with place := { s.place with forced := s.place.forced.filter fun x => decide (x ≠ num) } }
    let s := s.setBand num ({ b with st := .reclaiming } : Band).settle
    if b.valid = 0 then s
    else if b.layout = 3 ∨ b.layout = 4 then s.moveImages num
    else s.copyUnits b.layout (copyStreamOf b.stream) false (s.liveIn b) fun _ => 3

/-- RECLAIM_VICTIM (R224, R225, R227): victims already RECLAIMING have their remaining units copied first. -/
def execReclaimVictim (s : State) : Host.Outcome State Fault Refusal :=
  answer (s.up && decide (s.mode ≠ modeHoldup)) s
    (let s : State := { s with place := { s.place with reclaimOn := s.reclaimWanted } }
     match s.place.bands.find? fun e => decide (e.2.st = .reclaiming) && !(s.liveIn e.2).isEmpty with
     | some (_, b) => s.copyUnits b.layout (copyStreamOf b.stream) false (s.liveIn b) fun _ => 3
     | none =>
       match s.victimBand with
       | some num => s.takeVictim num
       | none => s)

end Sys2Proof.Machine
end

