-- ==== Sys2Proof/Machine/Read.lean ====
section
/-! DEFINITION. System namespaces (R176 to R180) and the reading of a block of a namespace from the local medium (R128,
R144, R199, R299, R305). -/

namespace Sys2Proof.Machine

open Sys2Proof

/-! ## System namespaces -/

/-- The log pairs of a segment, the newest first. -/
def Namespace.pairsOf (n : Namespace) (g : Nat) : List LogPair :=
  (n.sysLogs.filter fun l => decide (l.segment = some g)).mergeSort fun a b => decide (b.age ≤ a.age)

/-- The block of a system namespace at an address: the newest in the segment's log pair, else in its data pair (R179). -/
def Namespace.sysBlock (n : Namespace) (lba : Nat) : Option SysBlock :=
  let g := lba / n.segBlocks
  let k := lba % n.segBlocks
  match ((n.pairsOf g).flatMap fun l => l.entries.reverse).find? fun e => decide (e.1 = k) with
  | some e => some e.2
  | none => n.sysData.look lba

/-- The mirror pair of dies for system blocks: two dies that take new data, of different carriers, or of different channels while one
carrier serves (R176; log entry 14). -/
def State.sysDies (s : State) : Option (Nat × Nat) :=
  match s.servingDies.filter fun dk => s.dieTakes dk with
  | [] => none
  | a :: l =>
    (l.find? fun b =>
      if s.servingCarriers.length ≤ 1 then decide (b / 16 ≠ a / 16) else decide (dieCarrier b ≠ dieCarrier a)).map
        fun b => (a, b)

/-- Apply a log pair's entries to the data pair and free it (R179): a switch merge and a full merge leave the same
blocks. -/
def Namespace.mergePair (n : Namespace) (i : Nat) : Namespace :=
  match n.sysLogs[i]? with
  | none => n
  | some l =>
    match l.segment with
    | none => n
    | some g =>
      { n with sysData := l.entries.foldl (fun m e => m.put (g * n.segBlocks + e.1) e.2) n.sysData
               sysLogs := n.sysLogs.set i { segment := none, age := 0, pages := 0, entries := [] } }

/-- Whether a log pair has `k` free pages. -/
def Namespace.pairRoom (n : Namespace) (l : LogPair) (k : Nat) : Bool := decide (l.pages + k ≤ n.slcPages)

/-- The log pair that takes a write to a segment, associating one when none has room (R178): the namespace then, and the
place of the pair. -/
def Namespace.pairFor (n : Namespace) (g k : Nat) (now : Nat) : Option (Namespace × Nat) :=
  let fresh (n : Namespace) (i : Nat) : Namespace × Nat :=
    ({ n with sysLogs := n.sysLogs.set i { segment := some g, age := now, pages := 0, entries := [] } }, i)
  match n.sysLogs.findIdx? fun l => decide (l.segment = some g) && n.pairRoom l k with
  | some i => some (n, i)
  | none =>
    match n.sysLogs.findIdx? fun l => decide (l.segment = none) with
    | some i => some (fresh n i)
    | none =>
      match leastBy (fun i => ((n.sysLogs[i]?).map fun l => l.age).getD 0) (List.range n.sysLogs.length) with
      | some i => some (fresh (n.mergePair i) i)
      | none => none

/-- Append up to four blocks of one command to the log of their segment (R178). -/
def Namespace.append (n : Namespace) (g now : Nat) (bs : List (Nat × SysBlock)) : Namespace :=
  match n.pairFor g 1 now with
  | none => n
  | some (n, i) =>
    { n with sysLogs := n.sysLogs.modify i fun l => { l with pages := l.pages + 1, entries := l.entries ++ bs } }

/-- Write blocks to a system namespace (R178): pages of up to four blocks, each within one segment. -/
def State.sysWrite (s : State) (nsid : Nat) (blocks : List (Nat × List Byte × BitVec 128)) : State :=
  match s.nss.look nsid, s.sysDies with
  | some n, some (a, b) =>
    let sb (x : Nat × List Byte × BitVec 128) : Nat × SysBlock :=
      (x.1 % n.segBlocks, { data := x.2.1, tally := x.2.2, dieA := a, dieB := b })
    let groups := ((blocks.map fun x => x.1 / n.segBlocks).dedup).flatMap fun g =>
      (piecesOf 4 blocks.length (blocks.filter fun x => decide (x.1 / n.segBlocks = g))).map fun p => (g, p)
    let r := groups.foldl (fun (m : Namespace × DWord) e =>
      (m.1.append e.1 m.2.toNat (e.2.map sb), m.2 + 1)) (n, s.nextStamp)
    (s.setNs nsid r.1).takeStamps groups.length
  | _, _ => s

/-- SYSNS_MERGE (R179, R180). -/
def execSysnsMerge (ns logPair : Nat) (s : State) : Host.Outcome State Fault Refusal :=
  match s.nss.look ns with
  | none => .next s
  | some n =>
    answer (s.up && decide (n.kind = .systemNs)) s (s.setNs ns (n.mergePair logPair))

/-! ## Blocks -/

/-- What the local medium gives for a block. -/
inductive Got
  /-- trimmed or never written: zeros (R128) -/
  | zeros
  /-- a verified block, where it lies and how it was had -/
  | block (c : Codeword) (addr : Nat) (via : Via)
  /-- its copy carries the uncorrectable marker (R300) -/
  | marked
  /-- no level of the local escalation yields it (R305) -/
  | bad (addr : Nat)
  /-- its map entry has L set (R299) -/
  | lost
  deriving DecidableEq, Repr

/-- A block in its main copy (R144, R300). -/
def State.gotMain (s : State) (nsid : Nat) (n : Namespace) (lba : Nat) : Got :=
  let e := s.entryOf n (lba / 4)
  if meL e then .lost
  else if !meV e then .zeros
  else
    match s.readSlot (meAddr e) (lba % 4) nsid lba n.nstag.toNat with
    | none => .bad (meAddr e)
    | some (c, v) =>
      if hdKind c.header = kindTrimmed then .zeros
      else if hdKind c.header = kindUncorr then .marked
      else .block c (meAddr e) v

/-- A block of a namespace: its staged copy, a trimmed mark, or its main copy (R144, R199). -/
def State.gotBlock (s : State) (nsid : Nat) (n : Namespace) (lba : Nat) : Got :=
  if n.kind = .systemNs then
    match n.sysBlock lba with
    | none => .zeros
    | some b =>
      if s.dieServes b.dieA ∨ s.dieServes b.dieB then
        .block (mkCodeword b.data b.tally (mkHeader nsid 9 false lba 0)) 0 (.ladder 0)
      else .bad 0
  else
    match s.stageOf nsid (lba / 4) with
    | none => s.gotMain nsid n lba
    | some r =>
      if r.staged.getLsbD (lba % 4) then
        let copies := [(r.copyA[lba % 4]?).getD 0, (r.copyB[lba % 4]?).getD 0]
        match s.readStaged copies nsid lba n.nstag.toNat with
        | some (c, v) => .block c ((copies.headD 0) % 2 ^ 36) v
        | none => .bad ((copies.headD 0) % 2 ^ 36)
      else if r.trimmed.getLsbD (lba % 4) then .zeros
      else s.gotMain nsid n lba

/-- Whether a block's main unit lies on a failed member (R211, R213). -/
def State.degraded (s : State) (addr : Nat) : Bool :=
  match s.findUnit addr with
  | some (_, b, m, _) => b.failed.contains m
  | none => false

/-- What reading a block leaves behind: counts, the events of parity and deep steps, relocation and the block's second
deep read (R306, R307, R237), and on a degraded read of a broken slot the marking of its stripe (R213). -/
def State.noteRead (s : State) (nsid unit : Nat) (g : Got) : State :=
  match g with
  | .block _ 0 _ => s
  | .block _ addr v =>
    let s := s.countVia addr v
    (match v with
     | .ladder k => if 9 ≤ k then (s.noteDeep addr).relocate nsid unit addr else s
     | .parity => if s.degraded addr then s else s.relocate nsid unit addr)
  | .bad addr =>
    if s.degraded addr then
      match s.findUnit addr with
      | some (num, b, _, st) =>
        if (List.range 4).any fun k => s.slotBroken b st k then s.loseStripe num st 3 else s
      | none => s
    else s
  | _ => s

/-! ## Read-around (R207 to R210) -/

/-- The members of a unit's closed stripe from which it can be rebuilt: available ones other than its own, D of them at
least (R208). -/
def State.aroundMembers (s : State) (addr : Nat) : Option (Band × Nat × List Nat) :=
  match s.findUnit addr with
  | none => none
  | some (_, b, mem, st) =>
    let others := (List.range (bandW b.layout)).filter fun m => decide (m ≠ mem) && !b.failed.contains m
    if b.next ≤ st ∨ others.length < bandD b.layout then none else some (b, st, others)

/-- The counts of a codeword that a read-around has read. -/
def countRead (s : State) (e : Nat × Option Codeword) : State :=
  match e.2 with
  | some c => s.countVia e.1 (.ladder (c.step.getD 0))
  | none => s

/-- Serve the slots of a unit that a read needs by read-around, where the predicted times and the buffers lead to it: bit 0
of a free value says so, its other bits which D members answer first (R208, R209; log entry 1). A member that needs more
than a hard decode, or a rebuilt codeword that fails its checks, sends the read back to the unit itself (R208, R210). Whether
the read-around served the unit. -/
def State.readAround (s : State) (nsid : Nat) (n : Namespace) (addr : Nat) (lbas : List Nat) : Bool × State :=
  match s.aroundMembers addr with
  | none => (false, s)
  | some (b, st, others) =>
    let f := s.takeFree
    if !f.1.getLsbD 0 then (false, f.2)
    else
      let s := f.2.count Reg.PLC_RACOUNT 1
      let chosen := (others.rotateLeft (f.1.toNat / 2 % others.length)).take (bandD b.layout)
      let reads := chosen.flatMap fun m =>
        match b.members[m]? with
        | some x => lbas.map fun l => (s.stripeAddr x st, s.rawCodeword (s.stripeAddr x st) (l % 4))
        | none => []
      let hard := reads.all fun e => match e.2 with | some c => decide (c.step.getD 9 < 9) | none => false
      let sound := lbas.all fun l =>
        match s.rebuildSlot addr (l % 4) with
        | some c => c.sound [kindData, kindTrimmed, kindUncorr] nsid l n.nstag.toNat
        | none => false
      let s := reads.foldl countRead s
      if hard && sound then (true, s) else (false, s.count Reg.PLC_RAFALLBACK 1)

/-- The units of a range of blocks. -/
def unitsOf (slba nlb : Nat) : List Nat :=
  if nlb = 0 then [] else (List.range ((slba + nlb - 1) / 4 + 1 - slba / 4)).map fun i => slba / 4 + i

/-- Try read-around for the units of a read of a deadline class that has one (R207, R208): the units it served. -/
def State.readArounds (s : State) (nsid : Nat) (n : Namespace) (dclass slba nlb : Nat) : List Nat × State :=
  if n.kind = .systemNs ∨ dclass = 3 ∨ s.fld Reg.PLC_RACTRL Reg.PLC_RACTRL_.ENABLE = 0 ∨
      s.fld Reg.PLC_RACTRL Reg.PLC_RACTRL_.MAXINFLIGHT = 0 then ([], s)
  else
    (unitsOf slba nlb).foldl (fun r u =>
      let e := r.2.entryOf n u
      let staged (l : Nat) : Bool :=
        match r.2.stageOf nsid u with
        | some x => x.staged.getLsbD (l % 4) || x.trimmed.getLsbD (l % 4)
        | none => false
      let lbas := ((List.range 4).map fun i => 4 * u + i).filter fun l => decide (slba ≤ l ∧ l < slba + nlb) && !staged l
      if lbas.isEmpty || !meV e || meL e then r
      else
        let t := r.2.readAround nsid n (meAddr e) lbas
        (if t.1 then r.1 ++ [u] else r.1, t.2)) ([], s)

end Sys2Proof.Machine
end

