-- ==== Sys2Proof/Machine/Deferred.lean ====
section
/-! DEFINITION. The deferred-error log (R133 to R138). -/

namespace Sys2Proof.Machine

open Sys2Proof

/-- The entries of the deferred-error log (R138). -/
def deferredMax : Nat := 65536

/-- Whether an entry is open: PENDING or LOST (R133). -/
def DefEntry.isOpen (e : DefEntry) : Bool := decide (e.st = .pending ∨ e.st = .lost)

/-- Whether two ranges adjoin or overlap. -/
def touches (a n b m : Nat) : Bool := decide (a ≤ b + m ∧ b ≤ a + n)

/-- Widen an entry to cover another range: MERGED rises and sticks (R136, R138). -/
def DefEntry.widen (e : DefEntry) (slba nlb : Nat) : DefEntry :=
  let h := rangeHull e.slba e.nlb slba nlb
  { e with slba := h.1, nlb := h.2, merged := min 0xFFFF (e.merged + 1) }

/-- Write an entry. -/
def State.setDef (s : State) (i : Nat) (e : DefEntry) : State := { s with deferred := s.deferred.put i e }

/-- Free an open entry by merging the two nearest of the namespace that has most (R136): the index freed. -/
def freeByMerge (m : SMap DefEntry) : Option (Nat × SMap DefEntry) :=
  let live := m.filter fun e => e.2.isOpen
  let count (n : Nat) : Nat := (live.filter fun e => decide (e.2.nsid = n)).length
  let most := (live.map fun e => e.2.nsid).foldl (fun best n => if count best < count n then n else best) 0
  let mine := live.filter fun e => decide (e.2.nsid = most)
  let pairs := mine.flatMap fun x => (mine.filter fun y => decide (x.1 < y.1)).map fun y => (x, y)
  (leastBy (fun p : (Nat × DefEntry) × (Nat × DefEntry) => rangeGap p.1.2.slba p.1.2.nlb p.2.2.slba p.2.2.nlb)
    pairs).map fun p => (p.2.1, (m.put p.1.1 (p.1.2.widen p.2.2.slba p.2.2.nlb)).del p.2.1)

/-- Raise a deferred error for a range of a namespace (R133, R135, R136). -/
def State.raiseDeferred (s : State) (nsid herd cause slba nlb : Nat) : State :=
  let epoch := (s.reg Reg.HRD_EPOCH).toNat
  let e : DefEntry := { st := .pending, cause := cause, nsid := nsid, herd := herd, merged := 0, slba := slba, nlb := nlb,
                        raisedSeq := s.nextStamp, closedSeq := 0, epoch := epoch, redone := [] }
  match s.deferred.find? fun x =>
      decide (x.2.st = .pending ∧ x.2.nsid = nsid) && touches x.2.slba x.2.nlb slba nlb with
  | some x => ((s.setDef x.1 (x.2.widen slba nlb)).raise 3 18).raise 3 17
  | none =>
    let s := (s.takeStamps 1).raise 3 17
    let free := s.deferred.firstFree 0
    if free < deferredMax then (s.setDef free e).raiseNs nsid 2
    else
      match leastBy (fun x : Nat × DefEntry => x.2.closedSeq.toNat) (s.deferred.filter fun x => !x.2.isOpen) with
      | some x => (s.setDef x.1 e).raiseNs nsid 2
      | none =>
        match leastBy (fun x : Nat × DefEntry => rangeGap x.2.slba x.2.nlb slba nlb)
            (s.deferred.filter fun x => decide (x.2.nsid = nsid)) with
        | some x => (s.setDef x.1 (x.2.widen slba nlb)).raise 3 18
        | none =>
          match freeByMerge s.deferred with
          | some (i, m) => ((({ s with deferred := m.put i e } : State).raise 3 18).raiseNs nsid 2)
          | none => s

/-- Close an entry with CLOSED_SEQ stamped (R135). -/
def State.closeDef (s : State) (i : Nat) (st : DefState) : State :=
  match s.deferred.look i with
  | some e => (s.setDef i { e with st := st, closedSeq := s.nextStamp }).takeStamps 1
  | none => s

/-- Whether ranges cover a range. -/
def coversRange (l : List (Nat × Nat)) (a n : Nat) : Bool :=
  (List.range n).all fun i => l.any fun r => decide (r.1 ≤ a + i ∧ a + i < r.1 + r.2)

/-- A range of a namespace has been rewritten or trimmed: noted in its open entries (R135). -/
def State.noteRedone (s : State) (nsid slba nlb : Nat) : State :=
  { s with deferred := s.deferred.map fun e =>
      if e.2.nsid = nsid ∧ e.2.isOpen = true ∧ slba < e.2.slba + e.2.nlb ∧ e.2.slba < slba + nlb then
        (e.1, { e.2 with redone := e.2.redone ++ [(slba, nlb)] })
      else e }

/-- Whether no block of an entry's range is lost any more (R135). -/
def State.rangeWhole (s : State) (n : Namespace) (slba nlb : Nat) : Bool :=
  (List.range ((nlb + 3) / 4)).all fun i => !meL (s.entryOf n (slba / 4 + i))

/-- Close the entries of a namespace whose condition has ended (R135): `busy` says of a range whether a job still covers
part of it. -/
def State.settleDeferred (s : State) (nsid : Nat) (busy : Nat → Nat → Bool) : State :=
  match s.nss.look nsid with
  | none => s
  | some n =>
    (s.deferred.filter fun e => decide (e.2.nsid = nsid) && e.2.isOpen).foldl (fun s e =>
      if e.2.st = .lost then
        (if s.rangeWhole n e.2.slba e.2.nlb then s.closeDef e.1 .superseded else s)
      else if busy e.2.slba e.2.nlb then s
      else if coversRange e.2.redone e.2.slba e.2.nlb then s.closeDef e.1 .superseded
      else s.closeDef e.1 .resolved) s

/-- The local copy of part of a range is lost before redundancy exists: the entry goes to LOST with CAUSE 0x04 (R135,
R138, R342). -/
def State.loseDeferred (s : State) (nsid slba nlb : Nat) : State :=
  { s with deferred := s.deferred.map fun e =>
      if e.2.nsid = nsid ∧ e.2.st = .pending ∧ slba < e.2.slba + e.2.nlb ∧ e.2.slba < slba + nlb then
        (e.1, { e.2 with st := .lost, cause := 4 })
      else e }

/-- NS_DELETE frees a namespace's entries (R135). -/
def State.freeDeferred (s : State) (nsid : Nat) : State :=
  { s with deferred := s.deferred.filter fun e => decide (e.2.nsid ≠ nsid) }

/-- The bytes of an entry of log 0x02 (R138, Table 8). -/
def DefEntry.bytes (e : DefEntry) : List Byte :=
  let st : Nat := match e.st with | .free => 0 | .pending => 1 | .resolved => 2 | .superseded => 3 | .lost => 4
  leBytes 4 (st * 2 ^ 28 + e.cause * 2 ^ 16 + e.nsid) ++ leBytes 4 (e.herd * 2 ^ 16 + e.merged) ++ leBytes 8 e.slba ++
    leBytes 8 e.nlb ++ leBytes 8 e.raisedSeq.toNat ++ leBytes 8 e.closedSeq.toNat ++ leBytes 8 e.epoch ++
    List.replicate 16 0

/-- DEFERRED_HOURLY_LOG (R137, R507): each entry still open is recorded with kind 0x07. -/
def execDeferredHourlyLog (s : State) : Host.Outcome State Fault Refusal :=
  answer s.up s
    ((s.deferred.filter fun e => e.2.isOpen).foldl (fun s e => s.record 3 0 7 0 (e.2.bytes.take 40)) s)

end Sys2Proof.Machine
end

