-- ==== Sys2Proof/Machine/Spaces.lean ====
section
/-! DEFINITION. Namespaces: creation, deletion, growth, shrinking and trimming (R95, R140 to R142, R176, R177, R203, R206,
R239 to R241, R293). -/

namespace Sys2Proof.Machine

open Sys2Proof

/-! ## Trimming (R203) -/

/-- Note what a trim of some blocks of a unit replaces (R386). -/
def State.noteTrim (s : State) (nsid : Nat) (n : Namespace) (u : Nat) (bs : List Nat) : State :=
  let e := s.entryOf n u
  let r := s.stageOf nsid u
  if !meV e ∧ r.isNone then s
  else
    let t : TrimNote := { seq := s.nextStamp, nsid := nsid, unit := u, blocks := bs, entry := e, stage := r }
    { s with power := { s.power with trims := s.power.trims ++ [t] } }

/-- A TRIM covers a unit whole: T is set, the rest is cleared, its staging-index entry goes (R203). -/
def State.trimUnit (s : State) (nsid : Nat) (n : Namespace) (u : Nat) : State :=
  let s := s.noteTrim nsid n u [0, 1, 2, 3]
  (s.mapSet n u (mkEntry true false false false 0)).unstage nsid u

/-- A TRIM covers some blocks of a unit: they are marked trimmed and the unit joins a gather stripe (R203). -/
def State.trimPart (s : State) (nsid : Nat) (n : Namespace) (u : Nat) (bs : List Nat) : State :=
  let r := bs.foldl (fun r b => r.trim b) ((s.stageOf nsid u).getD StageRec.fresh)
  let s := s.noteTrim nsid n u bs
  (s.setStage nsid u r).gatherUnit nsid n u (bs.map fun b => (b, none))

/-- The blocks of a unit that lie in a range. -/
def blocksIn (u slba nlb : Nat) : List Nat :=
  (List.range 4).filter fun b => decide (slba ≤ 4 * u + b ∧ 4 * u + b < slba + nlb)

/-- Trim a range of blocks (R203): the reads of their units find them trimmed from then on. -/
def State.trimRange (s : State) (nsid slba nlb : Nat) : State :=
  match s.nss.look nsid with
  | none => s
  | some n =>
    let s := (unitsOf slba nlb).foldl (fun s u =>
      let bs := blocksIn u slba nlb
      if bs.length = 4 then s.trimUnit nsid n u else s.trimPart nsid n u bs) s
    s.clearLost

/-- The map units of a range that need a staging-index entry they do not have (R203, R204). -/
def State.newEntries (s : State) (nsid slba nlb : Nat) : Nat :=
  ((unitsOf slba nlb).filter fun u =>
    decide ((blocksIn u slba nlb).length < 4) && (s.stageOf nsid u).isNone).length

/-! ## Extents (R142) -/

/-- The extents of the device. -/
def extentCount : Nat := 32768

/-- The lowest free extents, `k` of them. -/
def State.freeExtents (s : State) (k : Nat) : Option (List Nat) :=
  let used := s.nss.flatMap fun e => e.2.extents
  let l := ((List.range extentCount).filter fun x => !used.contains x).take k
  if l.length = k then some l else none

/-- The extents that a number of units needs. -/
def extentsFor (units : Nat) : Nat := ceilDiv units extentUnits

/-- A page becomes EMPTY; GEN is kept (R150). Its image counts no longer. -/
def State.emptyPage (s : State) (mpn : Nat) : State :=
  let d := s.map.dirOf mpn
  let s := if d.img then s.bumpBand d.unit false else s
  { s with map := s.map.setDir mpn { DirEntry.absent with gen := d.gen } }

/-- Clear the entries of some units of a namespace: they count as never written (R95, R150). -/
def State.dropUnits (s : State) (nsid : Nat) (n : Namespace) (us : List Nat) : State :=
  us.foldl (fun s u =>
    let e := s.entryOf n u
    let s := s.noteTrim nsid n u [0, 1, 2, 3]
    let s := if meV e then s.bumpBand (meAddr e) false else s
    ({ s with map := s.map.setEntry (n.entryKey u) 0 } : State).unstage nsid u) s

/-- The map pages of a namespace from a page index on. -/
def Namespace.pagesFrom (n : Namespace) (units : Nat) : List Nat :=
  let first := ceilDiv units pageEntries
  ((List.range (ceilDiv (n.size / 4) pageEntries)).filter fun i => decide (first ≤ i)).map fun i => n.mpn (i * pageEntries)

/-- Resize a namespace (R95): a shrink discards the blocks beyond the new end, a growth takes extents. None when no extent
is free. -/
def State.resizeNs (s : State) (nsid : Nat) (size : Nat) : Option State :=
  match s.nss.look nsid with
  | none => none
  | some n =>
    let k := extentsFor (size / 4)
    if n.size ≤ size then
      (s.freeExtents (k - n.extents.length)).map fun x =>
        (s.setNs nsid { n with size := size, extents := n.extents ++ x }).followCapacity
    else
      let us := (List.range ((n.size - size) / 4)).map fun i => size / 4 + i
      let s := s.dropUnits nsid n us
      let s := (n.pagesFrom (size / 4)).foldl (fun s m => s.emptyPage m) s
      some (s.setNs nsid { n with size := size, extents := n.extents.take k }).clearLost.reviewFences

/-- Delete a namespace with its entries and key (R95, R135, R150, R215). -/
def State.deleteNs (s : State) (nsid : Nat) : State :=
  match s.nss.look nsid with
  | none => s
  | some n =>
    let s := if n.kind = .systemNs then s else
      let s := s.dropUnits nsid n (List.range (n.size / 4))
      (n.pagesFrom 0).foldl (fun s m => s.emptyPage m) s
    let s := s.freeDeferred nsid
    let drop (g : Gather) : Gather := { g with slots := g.slots.map fun x => if x.nsid = nsid then { x with nsid := 0 } else x }
    let s : State := { s with
      nss := s.nss.del nsid
      place := { s.place with
        lost := s.place.lost.filter fun e => decide (e.2.nsid ≠ nsid)
        gathers := s.place.gathers.map fun e => (e.1, drop e.2) }
      power := { s.power with trims := s.power.trims.filter fun t => decide (t.nsid ≠ nsid) }
      herd := { s.herd with homed := s.herd.homed.del nsid
                            jobs := s.herd.jobs.filter fun e => decide (e.2.hkey ≠ n.hkey) } }
    s.reviewFences

/-! ## Creation (R95, R140, R176, R177, R206, R240, R241) -/

/-- The lowest free NSID of a kind, if its limit is not reached (R95, R140). -/
def State.freeNsid (s : State) (sys : Bool) : Option Nat :=
  let base := if sys then 0xFF00 else 1
  let count := if sys then 8 else 4096
  ((List.range count).map fun i => base + i).find? fun n => (s.nss.look n).isNone

/-- The number of namespaces of a host stream. -/
def State.streamLoad (s : State) (st : Nat) : Nat :=
  (s.nss.filter fun e => decide (e.2.kind ≠ .systemNs ∧ e.2.stream = st)).length

/-- The host stream of a new namespace (R206). -/
def State.streamFor (s : State) (layout : Nat) : Nat :=
  let same := ((s.nss.filter fun e => decide (e.2.kind ≠ .systemNs) && decide (s.localLayout e.2 = layout)).map
    fun e => e.2.stream).dedup
  let used := (s.nss.filter fun e => decide (e.2.kind ≠ .systemNs)).map fun e => e.2.stream
  match leastBy (fun st => s.streamLoad st) same.mergeSort with
  | some st => st
  | none => ((List.range 240).find? fun st => !used.contains st).getD 0

/-- Whether a namespace has a tag. -/
def State.tagTaken (s : State) (t : Half) : Bool := s.nss.any fun e => decide (e.2.nstag = t)

/-- The next namespace tag from a value of the counter on (R293). -/
def State.tagFrom (s : State) : Nat → Half → Half
  | 0, t => t
  | fuel + 1, t => if t = 0 ∨ s.tagTaken t then State.tagFrom s fuel (t + 1) else t

/-- The percentage of C that namespaces may commit (R240). -/
def State.createPart (s : State) : Nat :=
  100 - min 50 (max 8 (s.fld Reg.RCL_CAPCTRL Reg.RCL_CAPCTRL_.CREATE_FLOOR))

/-- Whether a commitment stays within the usable capacity C (R240). -/
def State.commitFits (s : State) (c k : Nat) : Bool := decide (100 * k ≤ c * s.createPart)

/-- The page-planes of a system block, taken from the first serving die (log entry 14). -/
def State.sysPlanes (s : State) : Nat := match s.servingDies.head? with | some dk => s.blockPlanes dk | none => 0

/-- Four empty log pairs (R178). -/
def freshLogs : List LogPair := List.replicate 4 { segment := none, age := 0, pages := 0, entries := [] }

/-- A namespace before its fields are set. -/
def Namespace.blank : Namespace :=
  { kind := .localNs, layout := 0, size := 0, extents := [], nstag := 0, hostTallies := false, encrypted := false,
    attached := [], fence := 0, shrinkTo := 0, keyLoaded := none, keyCheck := none, stream := 0, hkey := 0, herd := 0,
    holding := false, slcPages := 0, sysData := [], sysLogs := [], deposed := none }

/-- Put a new namespace under an NSID, with the next tag unless it brings one (R293). -/
def State.addNs (s : State) (nsid : Nat) (n : Namespace) (tag : Option Half) : State :=
  match tag with
  | some t => (s.setNs nsid { n with nstag := t }).followCapacity
  | none =>
    let t := s.tagFrom 65536 s.place.nstagNext
    ((({ s with place := { s.place with nstagNext := t + 1 } } : State).setNs nsid { n with nstag := t })).followCapacity

/-- Why a namespace is not created: its count, or space. -/
inductive NoSpace
  | count
  | space
  deriving DecidableEq, Repr

/-- Create a system namespace of a size in blocks (R177, R241). -/
def State.createSystem (s : State) (size : Nat) : Except NoSpace (Nat × State) :=
  match s.freeNsid true with
  | none => .error .count
  | some nsid =>
    let p := s.segmentBlocks / 4
    let g := size / max 1 s.segmentBlocks
    if s.commitFits (s.capacity - sysBlocks g * s.sysPlanes) s.committed && s.sysDies.isSome then
      .ok (nsid, s.addNs nsid { Namespace.blank with kind := .systemNs, layout := 0xFF, size := size, slcPages := p,
                                                      sysLogs := freshLogs } none)
    else .error .space

/-- Create a local or herd namespace (R95, R142, R240). -/
def State.createMapped (s : State) (n : Namespace) (tag : Option Half) : Except NoSpace (Nat × State) :=
  match s.freeNsid false with
  | none => .error .count
  | some nsid =>
    match s.freeExtents (extentsFor (n.size / 4)) with
    | none => .error .space
    | some x =>
      let layout := s.localLayout n
      if s.commitFits s.capacity (s.committed + commitOf layout (n.size / 4)) then
        .ok (nsid, (s.addNs nsid { n with extents := x, stream := s.streamFor layout } tag).followRedundancy)
      else .error .space

/-- Whether a namespace can grow to a size (R95, R240). -/
def State.growFits (s : State) (n : Namespace) (size : Nat) : Bool :=
  let layout := s.localLayout n
  s.commitFits s.capacity (s.committed - commitOf layout (n.size / 4) + commitOf layout (size / 4)) &&
    (s.freeExtents (extentsFor (size / 4) - n.extents.length)).isSome

end Sys2Proof.Machine
end

