-- ==== Sys2Proof/Machine/Herd.lean ====
section
/-! DEFINITION. The herd beneath its commands: the map's lookups (R327 to R331), placement (R336), symbols and parity (R335,
R337), links and their frames (R319, R321, R325), jobs (R339 to R342) and reading through the herd (R343). -/

namespace Sys2Proof

/-- The entry of a member, of a herd. -/
def FlockMap.member (m : FlockMap) (id : Nat) : Option MapMember := m.members.find? fun e => decide (e.id = id)
def FlockMap.herd (m : FlockMap) (h : Nat) : Option MapHerd := m.herds.find? fun e => decide (e.herd = h)

/-- Whether a member is IN. -/
def FlockMap.memberIn (m : FlockMap) (id : Nat) : Bool :=
  match m.member id with | some e => decide (e.state = 1) | none => false

/-- The IN members of a list, ascending. -/
def FlockMap.insOf (m : FlockMap) (ids : List Nat) : List Nat := (ids.filter fun i => m.memberIn i).mergeSort

/-- The home of an HKEY under a map for a herd (R331). -/
def FlockMap.homeOf (m : FlockMap) (herd hkey : Nat) : Option Nat :=
  match m.homes.find? fun e => decide (e.hkey = hkey) with
  | some e => some e.home
  | none =>
    let o := hkey / 65536 % 8192
    match m.member o with
    | some e => if e.state = 1 ∧ e.herd = herd then some o else none
    | none => none

end Sys2Proof

namespace Sys2Proof.Machine

open Sys2Proof

/-! ## Identity and map -/

def State.selfId (s : State) : Nat := s.fld Reg.HRD_IDENT Reg.HRD_IDENT_.SELF
def State.herdId (s : State) : Nat := s.fld Reg.HRD_IDENT Reg.HRD_IDENT_.HERD
def State.flockId (s : State) : Nat := s.fld Reg.HRD_IDENT Reg.HRD_IDENT_.FLOCK
def State.joined (s : State) : Bool := decide (s.fld Reg.HRD_IDENT Reg.HRD_IDENT_.JOINED = 1)

/-- The epoch of the map in force (R329). -/
def State.epoch (s : State) : Nat := (s.reg Reg.HRD_EPOCH).toNat

/-- The other IN members of this N9's herd. -/
def State.peers (s : State) : List Nat :=
  match s.herd.map with
  | none => []
  | some m =>
    match m.herd s.herdId with
    | some h => (m.insOf h.members).filter fun i => decide (i ≠ s.selfId)
    | none => []

/-- The herd entry whose shape is in use (R353). -/
def State.herdShape (s : State) : Option MapHerd := s.herd.shape

/-- The placement input of a namespace key under the map in force (R344). -/
def State.placementFor (s : State) (hkey : Nat) : Option Placement :=
  match s.herd.map, s.herdShape with
  | some m, some h =>
    (m.homeOf s.herdId hkey).map fun home =>
      { k := h.k, m := h.m, elig := (m.insOf h.members).filter fun i => decide (i ≠ home), home := home }
  | _, _ => none

/-! ## place() (R336) -/

/-- The score of a candidate for fragment j of a stripe. -/
def placeScore (flock herd hkey h j c : Nat) : Nat :=
  (sha3Head (leBytes 2 flock ++ leBytes 2 herd ++ leBytes 4 hkey ++ leBytes 8 h ++ leBytes 1 j ++ leBytes 2 c)).toNat

/-- The best candidate, lowest first on a tie. -/
def bestOf (score : Nat → Nat) : List Nat → Option Nat
  | [] => none
  | c :: l => some (l.foldl (fun b x => if score b < score x then x else b) c)

/-- The holders of the fragments of a stripe. -/
def placeStripe (flock herd : Nat) (p : Placement) (hkey h : Nat) : List Nat :=
  (List.range (p.k + p.m)).foldl (fun chosen j =>
    match bestOf (fun c => placeScore flock herd hkey h j c) (p.elig.filter fun c => !chosen.contains c) with
    | some c => chosen ++ [c]
    | none => chosen) []

/-- The holders of a stripe of a namespace of this herd. -/
def State.holders (s : State) (p : Placement) (hkey h : Nat) : List Nat := placeStripe s.flockId s.herdId p hkey h

/-! ## Symbols and parity (R335, R337) -/

/-- The symbol of zeros. -/
def zeroSymbol : Symbol := { data := zeroBlock, tally := 0, header := 0 }

/-- The bytes of a symbol, and the symbol of bytes. -/
def symBytes (x : Symbol) : List Byte := x.data ++ bytesOf x.tally 16 ++ bytesOf x.header 16

def symbolOf (l : List Byte) : Symbol :=
  { data := l.take 4096, tally := ofBytes 128 ((l.drop 4096).take 16), header := ofBytes 128 ((l.drop 4112).take 16) }

/-- The coefficient c(r, i) of the parity rows (R337). -/
def cauchy (r i : Nat) : Byte := gfInv (BitVec.ofNat 8 (0xF0 + r) ^^^ BitVec.ofNat 8 i)

/-- Parity row r over the data units' symbol lists: one symbol for each position. -/
def parityRow (r : Nat) (units : List (List Symbol)) : List Symbol :=
  (List.range 16).map fun i =>
    symbolOf (((List.range units.length).zip units).foldl (fun acc u =>
      xorBytes acc (mulBytes (cauchy r u.1) (symBytes ((u.2[i]?).getD zeroSymbol)))) zeroInfo)

/-- The coefficients of fragment `j` over k data units. -/
def fragCoefs (k j : Nat) : List Byte :=
  (List.range k).map fun i => if j < k then (if i = j then 1 else 0) else cauchy (j - k) i

/-- One elimination step: normalise the first row with a pivot in a column and clear the column in the others. -/
def pivotStep (rows : List (List Byte × List Byte)) (col : Nat) : List (List Byte × List Byte) :=
  match (rows.drop col).find? fun r => decide ((r.1[col]?).getD 0 ≠ 0) with
  | none => rows
  | some p =>
    let inv := gfInv ((p.1[col]?).getD 0)
    let q := (mulBytes inv p.1, mulBytes inv p.2)
    let rest := rows.erase p
    let clear (r : List Byte × List Byte) : List Byte × List Byte :=
      let c := (r.1[col]?).getD 0
      (xorBytes r.1 (mulBytes c q.1), xorBytes r.2 (mulBytes c q.2))
    (rest.take col).map clear ++ [q] ++ (rest.drop col).map clear

/-- Solve the k equations of k fragments for data unit `x` (R337). -/
def solveUnit (k x : Nat) (frags : List (Nat × List Byte)) : List Byte :=
  let rows := (frags.take k).map fun f => (fragCoefs k f.1, f.2)
  match ((List.range k).foldl pivotStep rows)[x]? with
  | some r => r.2
  | none => zeroInfo

/-! ## Links (R319, R324 to R326) -/

/-- A link that is closed. -/
def Link.closed : Link :=
  { st := .closed, plane := 0, version := 0, vmax := 0, usable := [], txSeq := 0, rxNext := 0, unacked := [],
    waiting := [], owedAcks := 0, mismatch := false, epoch := 0, fresh := false, down := false, reconciling := false,
    delta := false }

/-- The link with a peer. -/
def State.linkOf (s : State) (peer : Nat) : Link := (s.herd.links.look peer).getD Link.closed

/-- Write a link. -/
def State.setLink (s : State) (peer : Nat) (l : Link) : State :=
  { s with herd := { s.herd with links := s.herd.links.put peer l } }

/-- Whether a link is UP. -/
def State.linkUp (s : State) (peer : Nat) : Bool := decide ((s.linkOf peer).st = .up)

/-- Whether a peer port may send: its Ethernet link is up and ENABLE is 1 (R326, HRD_PORT). -/
def State.portSends (s : State) (q : Nat) : Bool :=
  decide (s.fld (Reg.HRD_PORT q) Reg.HRD_PORT_.LINK = 1 ∧ s.fld (Reg.HRD_PORT q) Reg.HRD_PORT_.ENABLE = 1)

/-- The plane that a link takes: the first usable one from (i + j) mod 4 on (R319). -/
def State.planeOf (s : State) (peer : Nat) : Nat :=
  let first := (s.selfId + peer) % 4
  (((List.range 4).map fun i => (first + i) % 4).find? fun q =>
    s.portSends q && (s.linkOf peer).usable.contains q).getD first

/-- The Aizaik version of an unreliable frame or the link's (R321). -/
def helloVersions : List Half := [0x0103, 0x0102, 0x0101, 0x0100]

/-- The most reliable frames unacknowledged (R325). -/
def unackedMax : Nat := 1024

/-- Send a reliable frame on an UP link; past the limit it waits (R325). -/
def State.sendReliable (s : State) (peer : Nat) (b : FrameBody) : State :=
  let l := s.linkOf peer
  if l.st ≠ .up then s
  else if l.unacked.length < unackedMax ∧ l.waiting.isEmpty then
    (s.setLink peer { l with txSeq := l.txSeq + 1, unacked := l.unacked ++ [{ seq := l.txSeq, body := b }],
                             owedAcks := 0 }).emit (.frame l.plane peer false l.txSeq l.rxNext b)
  else s.setLink peer { l with waiting := l.waiting ++ [b] }

/-- Send frames that waited while there is room (R325). -/
def State.sendWaiting : Nat → State → Nat → State
  | 0, s, _ => s
  | fuel + 1, s, peer =>
    let l := s.linkOf peer
    match l.waiting with
    | [] => s
    | b :: rest =>
      if l.unacked.length < unackedMax then
        let s := (s.setLink peer { l with waiting := rest, txSeq := l.txSeq + 1,
                                          unacked := l.unacked ++ [{ seq := l.txSeq, body := b }],
                                          owedAcks := 0 }).emit (.frame l.plane peer false l.txSeq l.rxNext b)
        State.sendWaiting fuel s peer
      else s

/-- Send an unreliable frame on a plane: SEQ 0 (R321). -/
def State.sendUnreliable (s : State) (plane peer : Nat) (b : FrameBody) : State :=
  let l := s.linkOf peer
  (s.setLink peer { l with owedAcks := 0 }).emit (.frame plane peer false 0 l.rxNext b)

/-- The header of an operation that says only that a holder could not be reached. -/
def absentOp (o : OpHdr) : OpHdr := { o with nblk := 0, first := 0, status := 4, zero := 0 }

/-- Close a link (R325): its frames are dropped and the reads they carried end as unreachable. -/
def State.closeLink (s : State) (peer : Nat) : State :=
  let l := s.linkOf peer
  let lost := (s.herd.asked.filter fun a => decide (a.1 = peer)).map fun a => (absentOp a.2, ([] : List Symbol))
  let s := s.setLink peer { Link.closed with usable := l.usable, vmax := l.vmax, down := l.down, epoch := l.epoch,
                                             mismatch := l.mismatch }
  { s with herd := { s.herd with
      asked := s.herd.asked.filter fun a => decide (a.1 ≠ peer)
      fetched := s.herd.fetched ++ lost
      incoming := s.herd.incoming.filter fun x => decide (x.peer ≠ peer) } }

/-- Close every link. -/
def State.closeLinks (s : State) : State := s.herd.links.keys.foldl (fun s p => s.closeLink p) s

/-- Follow the herd reason: a member of the herd is DOWN, the lease is lost, or a deferred-error entry is open (R326, R332,
R496). -/
def State.followHerd (s : State) : State :=
  s.reason reasonHerd
    ((s.peers.any fun p => (s.linkOf p).down) || (!s.herd.leaseHeld && !s.herd.homed.isEmpty) ||
      s.deferred.any fun e => e.2.isOpen)

/-- A peer is DOWN (R326). -/
def State.peerDown (s : State) (peer : Nat) : State :=
  let was := (s.linkOf peer).down
  let s := s.closeLink peer
  let s := s.setLink peer { s.linkOf peer with down := true, usable := [], fresh := false }
  if was then s else (s.raiseRecord 13 16 0 (leBytes 2 peer)).followHerd

/-- Which peers can be reached for the herd's work: an UP link; a returning one only for writing (R352). -/
def State.readable (s : State) (peer : Nat) : Bool := s.linkUp peer && !(s.linkOf peer).reconciling

/-! ## Leases (R332) -/

/-- Whether more than half of the IN members, this N9 among them, have sent frames with its epoch. -/
def State.majority (s : State) : Bool :=
  let ps := s.peers
  decide (ps.length + 1 < 2 * ((ps.filter fun p => (s.linkOf p).fresh).length + 1))

/-- Whether this N9 homes a namespace. -/
def State.homes (s : State) (nsid : Nat) : Bool := (s.herd.homed.look nsid).isSome

/-- A frame with this N9's epoch came from a peer (R332). -/
def State.freshen (s : State) (peer epoch : Nat) : State :=
  let s := s.setLink peer { s.linkOf peer with epoch := epoch, fresh := (s.linkOf peer).fresh || decide (epoch = s.epoch) }
  if s.majority then { s with herd := { s.herd with leaseHeld := true } } else s

/-! ## Herd stripes of a namespace -/

/-- The blocks and the units of a herd stripe unit (R335). -/
def herdUnitBlocks : Nat := 16

/-- The herd stripe units of a namespace. -/
def Namespace.herdUnits (n : Namespace) : Nat := ceilDiv n.size herdUnitBlocks

/-- The placement that holds for a unit (R344). -/
def Homed.at_ (h : Homed) (u : Nat) : Placement :=
  if h.segments.isEmpty ∨ u < h.boundary then h.target
  else
    match (h.segments.filter fun e => decide (e.1 ≤ u)).getLast? with
    | some e => e.2
    | none => h.target

/-- The namespace of an HKEY that this N9 homes. -/
def State.nsOfKey (s : State) (hkey : Nat) : Option (Nat × Namespace) :=
  s.nss.find? fun e => decide (e.2.kind = .herdNs ∧ e.2.hkey = hkey) && !e.2.holding

/-- A symbol of a block as the local copy gives it; none where it gives none (R335). -/
def State.localSymbol (s : State) (nsid : Nat) (n : Namespace) (lba : Nat) : Option Symbol :=
  if n.size ≤ lba then some zeroSymbol
  else
    match s.gotBlock nsid n lba with
    | .zeros => some zeroSymbol
    | .block c _ _ => some { data := c.data, tally := c.tally, header := c.header }
    | _ => none

/-- The 16 symbols of a unit from the local copy. -/
def State.localUnit (s : State) (nsid : Nat) (n : Namespace) (u : Nat) : Option (List Symbol) :=
  let l := (List.range 16).filterMap fun i => s.localSymbol nsid n (16 * u + i)
  if l.length = 16 then some l else none

/-! ## Jobs (R339) -/

/-- The most jobs of the device. -/
def jobMax : Nat := 262144

/-- A job's stripe. -/
def Job.key (j : Job) : Nat × Nat × Nat := (j.hkey, j.k, j.hstripe)

/-- Create the job of a stripe, or queue a second one behind the one in flight (R339). -/
def State.createJob (s : State) (hkey k h : Nat) : State :=
  match s.herd.jobs.find? fun e => decide (e.2.key = (hkey, k, h)) with
  | some (i, j) =>
    if j.inFlight then { s with herd := { s.herd with jobs := s.herd.jobs.put i { j with again := true } } } else s
  | none =>
    let j : Job := { hkey := hkey, k := k, hstripe := h, inFlight := false, again := false, late := false, stampSeq := 0,
                     holders := [], answered := [], unreadable := [], refused := false }
    { s with herd := { s.herd with jobs := s.herd.jobs.put s.herd.nextJob j, nextJob := s.herd.nextJob + 1 } }

/-- The stripes that a range of blocks of a homed namespace touches, under the placement of each unit. -/
def Homed.stripesOf (h : Homed) (slba nlb : Nat) : List (Nat × Nat) :=
  if nlb = 0 then []
  else
    ((List.range ((slba + nlb - 1) / 16 + 1 - slba / 16)).map fun i =>
      let u := slba / 16 + i
      let k := max 1 (h.at_ u).k
      (k, u / k)).dedup

/-- The jobs for a range written or trimmed (R339; log entry 17 for a TRIM). -/
def State.createJobs (s : State) (nsid slba nlb : Nat) : State :=
  match s.nss.look nsid, s.herd.homed.look nsid with
  | some n, some h =>
    ((h.stripesOf slba nlb).foldl (fun s e => s.createJob n.hkey e.1 e.2) s).noteRedone nsid slba nlb
  | _, _ => s

/-- Whether the jobs that a range would need exceed the limit (R339). -/
def State.jobsFull (s : State) (nsid slba nlb : Nat) : Bool :=
  match s.nss.look nsid, s.herd.homed.look nsid with
  | some n, some h =>
    let new := (h.stripesOf slba nlb).filter fun e =>
      !(s.herd.jobs.any fun j => decide (j.2.key = (n.hkey, e.1, e.2)))
    decide (0 < new.length ∧ jobMax < s.herd.jobs.length + new.length)
  | _, _ => false

/-- Whether a job still covers part of a range of a namespace. -/
def State.jobOver (s : State) (hkey slba nlb : Nat) : Bool :=
  s.herd.jobs.any fun e =>
    decide (e.2.hkey = hkey) && overlaps slba nlb (16 * e.2.k * e.2.hstripe) (16 * e.2.k)

/-- An operation header. -/
def mkOp (hkey k index h : Nat) (epoch : Nat) (seq : DWord) : OpHdr :=
  { hkey := hkey, index := index, k := k, nblk := 0, first := 0, status := 0, zero := 0, hstripe := h,
    stampEpoch := epoch, stampSeq := seq }

/-- The frames of a fragment (R323): eight, of two symbols each; zero symbols are not carried. -/
def fragFrames (type : Nat) (op : OpHdr) (syms : List Symbol) : List FrameBody :=
  (List.range 8).map fun i =>
    let pair := (syms.drop (2 * i)).take 2
    let zero : BitVec 2 := BitVec.ofNat 2
      ((if pair[0]? = some zeroSymbol then 1 else 0) + (if pair[1]? = some zeroSymbol then 2 else 0))
    .frag type { op with first := 2 * i, nblk := 2, zero := zero } (pair.filter fun x => decide (x ≠ zeroSymbol))

/-- Send a fragment to its holder (R339). -/
def State.sendFragment (s : State) (peer type : Nat) (op : OpHdr) (syms : List Symbol) : State :=
  (fragFrames type op syms).foldl (fun s f => s.sendReliable peer f) s

/-- Note in a peer's miss log what could not be sent to it (R351). -/
def State.noteMiss (s : State) (peer hkey k h : Nat) : State :=
  let m := (s.herd.missLogs.look peer).getD { stripes := [], discards := [], incomplete := false }
  let l := if m.stripes.contains (hkey, k, h) then m.stripes else m.stripes ++ [(hkey, k, h)]
  let max := s.fld Reg.HRD_RETAIN Reg.HRD_RETAIN_.MISSLOG_MAX
  let m := { m with stripes := l, incomplete := m.incomplete || decide (max < l.length) }
  { s with herd := { s.herd with missLogs := s.herd.missLogs.put peer m } }

/-- Send a discard, or owe it to a peer that is DOWN (R346, R351). -/
def State.sendDiscard (s : State) (peer : Nat) (op : OpHdr) : State :=
  if s.linkUp peer then s.sendReliable peer (.frag 0x24 op [])
  else if (s.linkOf peer).down then
    let m := (s.herd.missLogs.look peer).getD { stripes := [], discards := [], incomplete := false }
    { s with herd := { s.herd with missLogs := s.herd.missLogs.put peer { m with discards := m.discards ++ [op] } } }
  else s

/-- The units of a stripe with their parity rows: the k + m fragments (R337, R339). -/
def fragmentsOf (p : Placement) (units : List (List Symbol)) : List (List Symbol) :=
  units ++ (List.range p.m).map fun r => parityRow r units

/-- Send all fragments of a stripe to its holders with a stamp (R338, R339). -/
def State.sendStripe (s : State) (p : Placement) (hkey h epoch : Nat) (seq : DWord) (units : List (List Symbol)) : State :=
  let frags := fragmentsOf p units
  let hs := s.holders p hkey h
  ((List.range frags.length).zip (frags.zip hs)).foldl (fun s e =>
    if s.linkUp e.2.2 then s.sendFragment e.2.2 0x20 (mkOp hkey p.k e.1 h epoch seq) e.2.1
    else if (s.linkOf e.2.2).down then s.noteMiss e.2.2 hkey p.k h
    else s) s

/-- The herd entry of the range of a stripe, widened to whole stripe units (R138). -/
def stripeRange (k h : Nat) : Nat × Nat := (16 * k * h, 16 * k)

/-- The local copy of part of a stripe is lost before redundancy exists (R342): L is set, the lost-stripe log gets an entry
with CAUSE 0x04, the deferred entry goes to LOST, and the job ends. -/
def State.loseHerdUnits (s : State) (nsid : Nat) (n : Namespace) (job k h : Nat) : State :=
  let r := stripeRange k h
  let bad := ((unitsOf r.1 (min r.2 (n.size - r.1))).filter fun u =>
    (List.range 4).any fun b => (s.localSymbol nsid n (4 * u + b)).isNone)
  let s := (runsOf bad).foldl (fun s x => s.loseRun nsid n 4 0xFFFF_FFFF (h % 2 ^ 32) x.1 x.2) s
  let s := if s.deferred.any fun e => decide (e.2.nsid = nsid ∧ e.2.st = .pending) && overlaps e.2.slba e.2.nlb r.1 r.2
    then s else s.raiseDeferred nsid n.herd 4 r.1 r.2
  let s := s.loseDeferred nsid r.1 r.2
  ({ s with herd := { s.herd with jobs := s.herd.jobs.del job } } : State).followHerd

/-- A job reads its stripe from the local copy and sends the fragments (R339). -/
def State.startJob (s : State) (job : Nat) : State :=
  match s.herd.jobs.look job with
  | none => s
  | some j =>
    match s.nsOfKey j.hkey with
    | none => { s with herd := { s.herd with jobs := s.herd.jobs.del job } }
    | some (nsid, n) =>
      match s.herd.homed.look nsid with
      | none => s
      | some hd =>
        let p := { (hd.at_ (j.k * j.hstripe)) with k := j.k }
        let units := (List.range j.k).filterMap fun i => s.localUnit nsid n (j.k * j.hstripe + i)
        if units.length < j.k then s.loseHerdUnits nsid n job j.k j.hstripe
        else
          let seq := s.nextStamp
          let hs := s.holders p j.hkey j.hstripe
          let j' := { j with inFlight := true, again := false, stampSeq := seq, holders := hs, answered := [],
                             unreadable := [], refused := false }
          let s : State := { s with herd := { s.herd with jobs := s.herd.jobs.put job j' } }
          (s.takeStamps 1).sendStripe p j.hkey j.hstripe hd.stampEpoch seq units

/-- Whether every holder of a job has answered (R339). -/
def Job.established (j : Job) (m : Nat) : Bool :=
  decide (j.holders.length = j.k + m) && (List.range (j.k + m)).all fun i => j.answered.contains i

/-- End the reconciliation of the links that no job waits for any more (R352). -/
def State.endReconcile (s : State) : State :=
  s.herd.links.keys.foldl (fun s p =>
    let l := s.linkOf p
    if l.reconciling && !(s.herd.jobs.any fun j => j.2.holders.contains p || !j.2.inFlight) then
      (s.setLink p { l with reconciling := false }).raiseRecord 13 29 0 (leBytes 2 p ++ [if l.delta then 1 else 0])
    else s) s

/-- A job is established, or starts again for the writes that came meanwhile (R339). -/
def State.finishJob (s : State) (job : Nat) (j : Job) : State :=
  let jobs := if j.again then s.herd.jobs.put job { j with inFlight := false, again := false } else s.herd.jobs.del job
  let s : State := { s with herd := { s.herd with jobs := jobs } }
  let s := match s.nsOfKey j.hkey with
    | some (nsid, _) => s.settleDeferred nsid fun a n => s.jobOver j.hkey a n
    | none => s
  s.endReconcile.followHerd

/-! ## Reading through the herd (R343) -/

/-- A symbol of a frame, by its place within the fragment: zero ones are not carried (R323). -/
def frameSymbol (op : OpHdr) (syms : List Symbol) (i : Nat) : Option Symbol :=
  if op.first ≤ i ∧ i < op.first + op.nblk then
    let b := i - op.first
    if op.zero.getLsbD b then some zeroSymbol
    else syms[((List.range b).filter fun x => !op.zero.getLsbD x).length]?
  else none

/-- The frames of one fragment that have come. -/
def State.fetchedOf (s : State) (hkey k h j : Nat) : List (OpHdr × List Symbol) :=
  s.herd.fetched.filter fun e => decide (e.1.hkey = hkey ∧ e.1.k = k ∧ e.1.hstripe = h ∧ e.1.index = j)

/-- The symbols of a fragment whose frames are all there. -/
def wholeFragment (l : List (OpHdr × List Symbol)) : Option (List Symbol) :=
  let syms := (List.range 16).filterMap fun i => (l.findSome? fun e => frameSymbol e.1 e.2 i)
  if (l.all fun e => decide (e.1.status = 0)) && decide (syms.length = 16) then some syms else none

/-- Whether a fragment has answered: whole, or with another status than OK. -/
def fragmentDone (l : List (OpHdr × List Symbol)) : Bool :=
  (l.any fun e => decide (e.1.status ≠ 0)) || (wholeFragment l).isSome

/-- The checks of a data symbol that came through the herd (R297, R343): tally and header address; the header's NSID is the
one of the home that wrote it (log entry 18). -/
def symSound (x : Symbol) (lba nstag : Nat) : Bool :=
  decide (x = zeroSymbol) ||
    (decide (hdLba x.header = lba % 2 ^ 48 ∧ tallyLba x.tally = lba % 2 ^ 32 ∧ tallyNstag x.tally = nstag) &&
      decide (tallyCrc x.tally = crc64 x.data))

/-- Whether the symbols of a unit are sound. -/
def unitSound (u nstag : Nat) (syms : List Symbol) : Bool :=
  ((List.range 16).zip syms).all fun e => symSound e.2 (16 * u + e.1) nstag

/-- What the herd gives for a unit. -/
inductive HerdGot
  | have (syms : List Symbol)
  | wait
  | gone (cause : Nat)
  deriving DecidableEq, Repr

/-- Ask a holder for a fragment (R323, R343). -/
def State.askFragment (s : State) (peer hkey k h j : Nat) : State :=
  let op := mkOp hkey k j h 0 0
  let s := s.sendReliable peer (.frag 0x22 op [])
  { s with herd := { s.herd with asked := s.herd.asked ++ [(peer, op)] } }

/-- Whether a fragment has been asked for and has not answered. -/
def State.asking (s : State) (hkey k h j : Nat) : Bool :=
  s.herd.asked.any fun a => decide (a.2.hkey = hkey ∧ a.2.k = k ∧ a.2.hstripe = h ∧ a.2.index = j)

/-- Decode a unit from k fragments of one stamp, the highest that k of them carry (R343). -/
def State.decodeUnit (s : State) (p : Placement) (hkey h x : Nat) : Option (List Symbol) :=
  let got := (List.range (p.k + p.m)).filterMap fun j =>
    let l := s.fetchedOf hkey p.k h j
    match wholeFragment l, l.head? with
    | some syms, some e => some (j, (e.1.stampEpoch, e.1.stampSeq), syms)
    | _, _ => none
  let later (a b : Nat × DWord) : Bool := decide (b.1 < a.1) || (decide (a.1 = b.1) && decide ((a.2 - b.2).toNat < 2 ^ 63))
  let stamps := ((got.map fun g => g.2.1).dedup).filter fun t =>
    decide (p.k ≤ (got.filter fun g => decide (g.2.1 = t)).length)
  match stamps with
  | [] => none
  | t :: ts =>
    let best := ts.foldl (fun b x => if later x b then x else b) t
    let use := got.filter fun g => decide (g.2.1 = best)
    some ((List.range 16).map fun i =>
      symbolOf (solveUnit p.k x (use.map fun g => (g.1, symBytes ((g.2.2[i]?).getD zeroSymbol)))))

/-- Obtain a unit at the herd level under a placement (R343): asked of its holder first, then of all. CAUSE is 0x01 where too
few members could be reached, 0x02 where a fragment was unreadable (R349). -/
def State.herdUnit (s : State) (p : Placement) (hkey nstag u : Nat) : HerdGot × State :=
  let k := max 1 p.k
  let h := u / k
  let x := u % k
  let hs := s.holders p hkey h
  let can (j : Nat) : Option Nat := (hs[j]?).filter fun c => s.readable c
  let mine := s.fetchedOf hkey k h x
  match (wholeFragment mine).filter fun l => unitSound u nstag l with
  | some l => (.have l, s)
  | none =>
    if s.asking hkey k h x then (.wait, s)
    else
      match mine.isEmpty, can x with
      | true, some c => (.wait, s.askFragment c hkey k h x)
      | _, _ =>
        let js := (List.range (p.k + p.m)).filter fun j => decide (j ≠ x)
        let toAsk := js.filterMap fun j =>
          if (s.fetchedOf hkey k h j).isEmpty && !s.asking hkey k h j then (can j).map fun c => (c, j) else none
        if !toAsk.isEmpty then (.wait, toAsk.foldl (fun s e => s.askFragment e.1 hkey k h e.2) s)
        else if js.any fun j => s.asking hkey k h j then (.wait, s)
        else
          match (s.decodeUnit p hkey h x).filter fun l => unitSound u nstag l with
          | some l => (.have l, s)
          | none =>
            let reached := ((List.range (p.k + p.m)).filter fun j => (can j).isSome).length
            (.gone (if reached < p.k then 1 else 2), s)

/-- Forget the fragments fetched of a stripe. -/
def State.dropFetched (s : State) (hkey k h : Nat) : State :=
  let keep (e : OpHdr × List Symbol) : Bool := !decide (e.1.hkey = hkey ∧ e.1.k = k ∧ e.1.hstripe = h)
  { s with herd := { s.herd with fetched := s.herd.fetched.filter keep } }

/-- Whether the herd level is open to a unit: no job and no open deferred entry for its stripe (R343). -/
def State.herdLevelOpen (s : State) (nsid : Nat) (n : Namespace) (k h : Nat) : Bool :=
  let r := stripeRange k h
  !(s.jobOver n.hkey r.1 r.2) &&
    !(s.deferred.any fun e => decide (e.2.nsid = nsid) && e.2.isOpen && overlaps e.2.slba e.2.nlb r.1 r.2)

/-- The codeword of a symbol as this N9 keeps it, under its own NSID. -/
def symCodeword (x : Symbol) (nsid lba nstag : Nat) (wseq : DWord) : Codeword :=
  if x = zeroSymbol then marker kindTrimmed nsid lba nstag wseq
  else mkCodeword x.data x.tally (mkHeader nsid kindData (x.header.getLsbD 19) lba wseq)

/-- Write a unit obtained through the herd into the local main area, its map units that hold data or were lost (R307, R343,
R347). -/
def State.restoreUnit (s : State) (nsid u : Nat) (syms : List Symbol) : State :=
  match s.nss.look nsid with
  | none => s
  | some n =>
    let layout := s.localLayout n
    let need := (List.range 4).filter fun i =>
      decide (16 * u + 4 * i < n.size) &&
        (((syms.drop (4 * i)).take 4).any fun x => decide (x ≠ zeroSymbol)) && (s.stageOf nsid (4 * u + i)).isNone
    let wseq := s.nextStamp
    let units := need.map fun i =>
      (List.range 4).map fun b =>
        symCodeword ((syms[4 * i + b]?).getD zeroSymbol) nsid (16 * u + 4 * i + b) n.nstag.toNat wseq
    if units.isEmpty then s
    else
      let pads := List.replicate (bandD layout - units.length) (List.replicate 4 padCodeword)
      match (s.takeStamps 1).programStripe layout streamRebuild (units ++ pads) with
      | none => s
      | some (addrs, _, s) =>
        ((need.zip addrs).foldl (fun s e => s.mapSet n (4 * u + e.1) (mkEntry false false false true e.2)) s).count
          Reg.ECC_PARITYREC 1

end Sys2Proof.Machine
end

