-- ==== Sys2Proof/Machine/HerdMap.lean ====
section
/-! DEFINITION. Flock maps and what follows from one: validity (R328), acceptance (R329), eviction and deposition (R330, R333),
new homes (R347), sizes (R348), the shape in use (R353), sweeps (R344 to R346, R349) and returning members (R351, R352). -/

namespace Sys2Proof.Machine

open Sys2Proof

/-! ## Validity of a map (R328) -/

/-- The offsets of the parts of a map (R327, Table 5). -/
def mapMemberAt (i : Nat) : Nat := 64 + 48 * i
def mapHerdAt (m : FlockMap) (i : Nat) : Nat := 64 + 48 * m.members.length + 80 * i
def mapHomeAt (m : FlockMap) (i : Nat) : Nat := 64 + 48 * m.members.length + 80 * m.herds.length + 16 * i

/-- The LENGTH that a map's counts give (R327). -/
def mapLength (m : FlockMap) : Nat := mapHomeAt m m.homes.length + 3405

/-- Whether numbers rise strictly. -/
def rising : List Nat → Bool
  | a :: b :: l => decide (a < b) && rising (b :: l)
  | _ => true

/-- The first entry of a list that fails a check, with its place. -/
def firstBad {α : Type} (f : α → Bool) (l : List α) : Option Nat := l.findIdx? fun x => !f x

/-- Whether a member entry is in order: its range, its state, a serial of its own, and a herd that lists it. -/
def memberOk (m : FlockMap) (e : MapMember) : Bool :=
  decide (e.id < 8192 ∧ (e.state = 1 ∨ e.state = 2)) &&
    decide ((m.members.filter fun x => decide (x.serial = e.serial)).length = 1) &&
    (decide (e.herd = 0) || (match m.herd e.herd with | some h => h.members.contains e.id | none => false))

/-- Whether a herd entry is in order (R327, R328). -/
def herdOk (m : FlockMap) (h : MapHerd) : Bool :=
  decide (1 ≤ h.herd ∧ h.herd ≤ 4095 ∧ 1 ≤ h.k ∧ h.k ≤ 30 ∧ 1 ≤ h.m ∧ h.m ≤ 4 ∧ h.layout ≤ 2) &&
    decide (3 ≤ h.members.length ∧ h.members.length ≤ 32) && rising h.members &&
    (h.members.all fun i => match m.member i with | some e => decide (e.herd = h.herd) | none => false) &&
    decide (h.k + h.m + 1 ≤ (m.insOf h.members).length)

/-- Whether a home entry is in order (R327, R328). -/
def homeOk (m : FlockMap) (e : MapHome) : Bool :=
  (match m.herd e.herd with
   | some h => h.members.contains e.home && m.memberIn e.home
   | none => false) &&
    (m.member (e.hkey / 65536)).isSome && decide (e.size ≠ 0 ∧ e.size % 4 = 0)

/-- The first failing byte offset of a map for a flock and its authority keys; none when the map is valid (R328). -/
def mapFault (m : FlockMap) (flock keys : Nat) : Option Nat :=
  if m.magic ≠ 0xF10C4A3B then some 0
  else if m.format ≠ 1 then some 4
  else if m.flock ≠ flock ∨ flock = 0 then some 6
  else if m.length ≠ mapLength m then some 16
  else if m.members.length = 0 ∨ 8192 < m.members.length then some 20
  else if 2730 < m.herds.length then some 22
  else if 65536 < m.homes.length then some 24
  else if !Config.signatureOk (Config.flockMapDigest m) m.signature keys then some (m.length - 3405)
  else if !m.reservedZero then some 28
  else if !rising (m.members.map fun e => e.id) then some (mapMemberAt 0)
  else
    match firstBad (memberOk m) m.members with
    | some i => some (mapMemberAt i)
    | none =>
      if !rising (m.herds.map fun h => h.herd) then some (mapHerdAt m 0)
      else
        match firstBad (herdOk m) m.herds with
        | some i => some (mapHerdAt m i)
        | none =>
          if !rising (m.homes.map fun h => h.hkey) then some (mapHomeAt m 0)
          else (firstBad (homeOk m) m.homes).map fun i => mapHomeAt m i

/-! ## Versions and shape (R353) -/

/-- The herd version (R353). -/
def State.herdVersion (s : State) : Nat :=
  (s.peers.map fun p => let v := (s.linkOf p).vmax; if v = 0 then 0x0100 else v).foldl min 0x0103

/-- Whether a herd entry needs no feature that is off. -/
def State.shapeAllowed (s : State) (h : MapHerd) : Bool :=
  (decide (h.m ≤ 2) || decide (0x0101 ≤ s.herdVersion)) &&
    (match s.herd.shape with
     | some o => decide (o.herd ≠ h.herd) || decide (o.k = h.k ∧ o.m = h.m) || decide (0x0102 ≤ s.herdVersion)
     | none => true)

/-- Take the herd entry of the map in force into use, or hold it (R353). -/
def State.followShape (s : State) : State :=
  match s.herd.map with
  | none => { s with herd := { s.herd with shape := none, shapeHeld := false } }
  | some m =>
    match m.herd s.herdId with
    | none => { s with herd := { s.herd with shape := none, shapeHeld := false } }
    | some h =>
      if s.shapeAllowed h then { s with herd := { s.herd with shape := some h, shapeHeld := false } }
      else
        let was := s.herd.shapeHeld
        let s : State := { s with herd := { s.herd with shapeHeld := true } }
        if was then s else s.raise 13 24

/-! ## Sweeps (R344) -/

/-- Write what the home keeps for a namespace. -/
def State.setHomed (s : State) (nsid : Nat) (h : Homed) : State :=
  { s with herd := { s.herd with homed := s.herd.homed.put nsid h } }

/-- The segments above a boundary: those that reach past it, the straddling one starting at it (R344). -/
def segmentsAbove (b : Nat) : List (Nat × Placement) → List (Nat × Placement)
  | [] => []
  | [e] => [(max e.1 b, e.2)]
  | e :: f :: l => if f.1 ≤ b then segmentsAbove b (f :: l) else (max e.1 b, e.2) :: segmentsAbove b (f :: l)

/-- Start a sweep toward a new placement input, or hold it (R344). -/
def State.startSweep (s : State) (nsid : Nat) (h : Homed) (p : Placement) : State :=
  if h.target = p then s.setHomed nsid { h with held := none }
  else
    let segs :=
      if h.segments.isEmpty then [(0, h.target)]
      else (if h.boundary = 0 then [] else [(0, h.target)]) ++ segmentsAbove h.boundary h.segments
    if 4 < segs.length then (s.setHomed nsid { h with held := some p }).raise 13 23
    else
      (s.setHomed nsid { h with segments := segs, target := p, boundary := 0, checkpoint := 0, sweeping := true,
                                held := none, ahead := [] }).raise 13 21

/-! ## Deposition and eviction (R330, R333) -/

/-- Whether a command in flight has passed validation and names a namespace. -/
def State.nsBusy (s : State) (nsid : Nat) : Bool :=
  s.cmds.inflight.any fun e =>
    decide (pkNsid e.2.packet = nsid ∧ e.2.judged = 10 ∧ e.2.stage ≠ .waitHeld) && isIo (pkOpcode e.2.packet)

/-- Delete a deposed namespace whose commands have ended (R333, steps 3 and 4). -/
def State.dropDeposed (s : State) (nsid : Nat) (n : Namespace) (newHome : Nat) : State :=
  ((s.deleteNs nsid).raiseRecord 13 25 0 (leBytes 4 n.hkey ++ leBytes 2 newHome)).followHerd

/-- Depose a namespace (R333): detached at once, deleted when no command past validation is left. -/
def State.depose (s : State) (nsid : Nat) (newHome : Nat) : State :=
  match s.nss.look nsid with
  | none => s
  | some n =>
    if s.nsBusy nsid then s.setNs nsid { n with attached := [], deposed := some newHome }
    else s.dropDeposed nsid n newHome

/-- A deposed namespace is dropped once no command is left on it (R333). -/
def reapNs (s : State) (e : Nat × Namespace) : State :=
  match e.2.deposed with
  | some h => if s.nsBusy e.1 then s else s.dropDeposed e.1 e.2 h
  | none => s

/-- Delete the deposed namespaces whose commands have ended. -/
def State.reapDeposed (s : State) : State :=
  s.nss.foldl reapNs s

/-- The N9 is evicted (R330). -/
def State.evict (s : State) : State :=
  let s := s.herd.homed.keys.foldl (fun s k =>
    s.depose k (match s.nss.look k, s.herd.map with
      | some n, some m => (m.homeOf s.herdId n.hkey).getD 0xFFFF
      | _, _ => 0xFFFF)) s
  let s := s.closeLinks
  ({ s with herd := { s.herd with frags := [], evicted := true } } : State).raise 13 26

/-! ## Sizes and new homes (R347, R348) -/

/-- A conflict of a home entry: the event and its record. -/
def State.homeConflict (s : State) (data : List Byte) : State := s.raiseRecord 13 30 0 data

/-- Send FRAG_DISCARD for every herd stripe of a namespace wholly beyond an end (R348). -/
def State.discardBeyond (s : State) (n : Namespace) (h : Homed) (size : Nat) : State :=
  let p := h.target
  let k := max 1 p.k
  let last := ceilDiv n.size (16 * k)
  let first := ceilDiv size (16 * k)
  ((List.range (last - first)).map fun i => first + i).foldl (fun s x =>
    (((List.range (s.holders p n.hkey x).length).zip (s.holders p n.hkey x))).foldl (fun s e =>
      s.sendDiscard e.2 (mkOp n.hkey k e.1 x h.stampEpoch s.nextStamp)) s) s

/-- Follow the SIZE of a home entry (R348). -/
def State.followSize (s : State) (nsid : Nat) (n : Namespace) (h : Homed) (size : Nat) : State :=
  if n.size = size then s
  else if n.size < size then
    if s.growFits n size then (s.resizeNs nsid size).getD s
    else s.homeConflict (leBytes 4 n.hkey ++ leBytes 8 n.size ++ leBytes 8 size)
  else
    match s.resizeNs nsid size with
    | none => s
    | some s =>
      let s := s.discardBeyond n h size
      if size % (16 * max 1 h.target.k) = 0 then s else s.createJobs nsid (size - 1) 1

/-- Become home of a namespace that this N9 does not hold (R347). -/
def State.takeHome (s : State) (e : MapHome) (old new : Placement) : State :=
  if s.nss.any fun x => decide (x.2.nstag = e.nstag) then s.homeConflict (leBytes 4 e.hkey ++ leBytes 2 e.nstag.toNat)
  else
    let n : Namespace := { Namespace.blank with
      kind := .herdNs, layout := 3, size := e.size, hostTallies := e.hostTallies, encrypted := e.encrypted,
      hkey := e.hkey, herd := e.herd }
    match s.createMapped n (some e.nstag) with
    | .error _ => s.homeConflict (leBytes 4 e.hkey ++ leBytes 8 e.size)
    | .ok (nsid, s) =>
      (s.setHomed nsid { segments := [(0, old)], target := new, boundary := 0, checkpoint := 0, sweeping := true,
                         held := none, rebuilding := true, ahead := [], stampEpoch := s.epoch }).raise 13 21

/-! ## Acceptance (R329) -/

/-- What an accepted map does to a namespace homed here. -/
def State.followHomed (s : State) (m : FlockMap) (nsid : Nat) : State :=
  match s.nss.look nsid, s.herd.homed.look nsid with
  | some n, some h =>
    let home := m.homeOf s.herdId n.hkey
    if n.deposed.isSome then s
    else if home ≠ some s.selfId ∨ (m.herd s.herdId).isNone then s.depose nsid (home.getD 0xFFFF)
    else
      let entry := m.homes.find? fun e => decide (e.hkey = n.hkey)
      let h := if h.stampEpoch = 0 ∧ entry.isSome then { h with stampEpoch := m.epoch } else h
      let s := s.setHomed nsid h
      let s := match s.placementFor n.hkey with | some p => s.startSweep nsid h p | none => s
      match entry with
      | some e => s.followSize nsid n ((s.herd.homed.look nsid).getD h) e.size
      | none => s
  | _, _ => s

/-- The placement of a key under a map other than the one in force. -/
def placementUnder (m : FlockMap) (herd hkey : Nat) : Option Placement :=
  match m.herd herd, m.homeOf herd hkey with
  | some h, some home =>
    some { k := h.k, m := h.m, elig := (m.insOf h.members).filter fun i => decide (i ≠ home), home := home }
  | _, _ => none

/-- The homes that an accepted map newly gives this N9 (R347). -/
def State.newHomes (s : State) (old : Option FlockMap) (m : FlockMap) : State :=
  (m.homes.filter fun e => decide (e.home = s.selfId ∧ e.herd = s.herdId)).foldl (fun s e =>
    if (s.nsOfKey e.hkey).isSome then s
    else
      match s.placementFor e.hkey with
      | none => s
      | some p =>
        let was := (match old with | some o => placementUnder o s.herdId e.hkey | none => none).getD p
        s.takeHome e was p) s

/-- Send HELLO on the first-choice plane, or on each usable plane in turn (R324). -/
def State.sendHello (s : State) (peer : Nat) : State := s.emit (.hello (s.planeOf peer) peer helloVersions)

/-- Keep links with the members of the herd and with no other (R324). -/
def State.followLinks (s : State) : State :=
  let ps := s.peers
  let gone := s.herd.links.keys.filter fun p => !ps.contains p
  let s := gone.foldl (fun s p =>
    let s := s.closeLink p
    { s with herd := { s.herd with links := s.herd.links.del p, missLogs := s.herd.missLogs.del p } }) s
  ps.foldl (fun s p =>
    if (s.herd.links.look p).isSome then s
    else if s.selfId < p then (s.setLink p { Link.closed with st := .helloSent }).sendHello p
    else s.setLink p Link.closed) s

/-- The herd of this N9 under a map. -/
def herdUnder (m : FlockMap) (id : Nat) : Nat := match m.member id with | some e => e.herd | none => 0

/-- Put a valid newer map in force (R329). -/
def State.installMap (s : State) (m : FlockMap) : State :=
  let old := s.herd.map
  let s := s.setReg Reg.HRD_EPOCH (BitVec.ofNat 64 m.epoch)
  let s := s.setFld Reg.HRD_IDENT Reg.HRD_IDENT_.HERD (herdUnder m s.selfId)
  let s : State := { s with herd := { s.herd with map := some m, transfer := none } }
  let listed := (match m.member s.selfId with
    | some e => decide (e.state = 1 ∧ e.serial = s.reg Reg.FUS_SERIAL)
    | none => false)
  let s := s.raiseRecord 13 18 0 (leBytes 8 m.epoch)
  if !listed then s.followShape.evict.followHerd
  else
    let s : State := { s with herd := { s.herd with evicted := false } }
    let s := s.followShape
    let s := s.herd.homed.keys.foldl (fun s k => s.followHomed m k) s
    let s := (s.newHomes old m).followLinks
    let s := { s with herd := { s.herd with leaseHeld := s.herd.leaseHeld && s.majority } }
    (s.herd.links.keys.foldl (fun s p => s.sendReliable p .mapOffer) s).followHerd

/-- A map arrives (R328, R329): valid and newer it is accepted, equal and different it is a conflict. -/
def State.offerMap (s : State) (m : FlockMap) : State :=
  match mapFault m s.flockId (s.herd.keys.getD 0) with
  | some off => (s.count Reg.HRD_MAPREJECT 1).raiseRecord 13 19 0 (leBytes 8 m.epoch ++ leBytes 4 off)
  | none =>
    if s.epoch < m.epoch then s.installMap m
    else if m.epoch = s.epoch ∧ s.herd.map ≠ some m then s.raise 13 20
    else s

/-! ## Sweeping (R345 to R347, R349) -/

/-- Mark a unit of a sweep lost (R349). -/
def State.loseSwept (s : State) (nsid u cause h : Nat) : State :=
  match s.nss.look nsid with
  | none => s
  | some n =>
    let k := min 4 ((n.size - 16 * u) / 4)
    if k = 0 then s else s.loseRun nsid n cause 0xFFFF_FFFF (h % 2 ^ 32) (4 * u) k

/-- Whether a unit of a new home must still come from the herd (R347). -/
def Homed.mustFetch (h : Homed) (u : Nat) : Bool :=
  h.rebuilding && decide (h.boundary ≤ u) && !h.ahead.contains (u / max 1 h.target.k)

/-- The placement that a unit's fragments had before the sweep reached it. -/
def Homed.source (h : Homed) (u : Nat) : Placement :=
  match (h.segments.filter fun e => decide (e.1 ≤ u)).getLast? with
  | some e => e.2
  | none => h.target

/-- What the herd gives for several units, each under its placement; none while one of them has not been answered. -/
def State.herdUnits (s : State) (n : Namespace) (us : List (Nat × Placement)) :
    Option (List (Nat × Placement × HerdGot)) × State :=
  let r := us.foldl (fun (r : List (Nat × Placement × HerdGot) × State) e =>
    let x := r.2.herdUnit e.2 n.hkey n.nstag.toNat e.1
    (r.1 ++ [(e.1, e.2, x.1)], x.2)) ([], s)
  (if r.1.any fun e => decide (e.2.2 = .wait) then none else some r.1, r.2)

/-- What the members answered for one unit. -/
def takeGot (nsid : Nat) (lose : Bool) (s : State) (e : Nat × Placement × HerdGot) : State :=
  match e.2.2 with
  | .have syms => s.restoreUnit nsid e.1 syms
  | .gone cause => if lose then s.loseSwept nsid e.1 cause (e.1 / max 1 e.2.1.k) else s
  | .wait => s

/-- Take what the herd gave into the local copy (R307, R343); a unit that neither has is lost where `lose` says so (R349). -/
def State.takeUnits (s : State) (nsid : Nat) (n : Namespace) (lose : Bool) (l : List (Nat × Placement × HerdGot)) : State :=
  let s := l.foldl (takeGot nsid lose) s
  l.foldl (fun s e => s.dropFetched n.hkey (max 1 e.2.1.k) (e.1 / max 1 e.2.1.k)) s

/-- A unit of a sweep as the local copy has it; none where the herd level must give it (R345, R347). -/
def State.ownUnit (s : State) (nsid : Nat) (n : Namespace) (h : Homed) (u : Nat) : Option (List Symbol) :=
  if n.herdUnits ≤ u then some (List.replicate 16 zeroSymbol)
  else if h.mustFetch u then none
  else s.localUnit nsid n u

/-- Sweep one target stripe (R345): false while it must wait for a job's lock or for the herd. -/
def State.sweepOne (s : State) (nsid h : Nat) : Bool × State :=
  match s.nss.look nsid, s.herd.homed.look nsid with
  | some n, some hd =>
    let p := hd.target
    let k := max 1 p.k
    if s.herd.jobs.any fun e => decide (e.2.key = (n.hkey, k, h)) && e.2.inFlight then (false, s)
    else
      let us := (List.range k).map fun i => k * h + i
      let need := us.filter fun u => (s.ownUnit nsid n hd u).isNone
      let r := s.herdUnits n (need.map fun u => (u, hd.source u))
      match r.1 with
      | none => (false, r.2)
      | some got =>
        let units := us.map fun u =>
          match s.ownUnit nsid n hd u, got.find? fun e => decide (e.1 = u) with
          | some l, _ => l
          | none, some (_, _, .have l) => l
          | none, _ => List.replicate 16 zeroSymbol
        let t := r.2.takeUnits nsid n true got
        let t' := (t.takeStamps 1).sendStripe p n.hkey h hd.stampEpoch t.nextStamp units
        let far := (t.holders p n.hkey h).any fun c => !t.linkUp c
        (true, if far then t'.createJob n.hkey k h else t')
  | _, _ => (false, s)

/-- The DISCARD of an old holder of a fragment, unless it holds that fragment under the new placement too. -/
def discardAt (new : List Nat) (hkey k x epoch : Nat) (s : State) (e : Nat × Nat) : State :=
  if new[e.1]? = some e.2 then s else s.sendDiscard e.2 (mkOp hkey k e.1 x epoch s.nextStamp)

/-- The fragments of a segment's stripe that the target does not place on the same holder (R346). -/
def State.discardStripe (s : State) (hkey : Nat) (seg target : Placement) (epoch x : Nat) : State :=
  let old := s.holders seg hkey x
  let new := if seg.k = target.k then s.holders target hkey x else []
  ((List.range old.length).zip old).foldl (discardAt new hkey seg.k x epoch) s

/-- Discard the older segments' stripes that end above `lo` and at or below `hi` units (R346). -/
def State.discardRange (s : State) (n : Namespace) (h : Homed) (lo hi : Nat) : State :=
  h.segments.foldl (fun s e =>
    let k := max 1 e.2.k
    let first := if lo = 0 then e.1 / k else max (e.1 / k) (lo / k)
    ((List.range (hi / k - first)).map fun i => first + i).foldl
      (fun s x => s.discardStripe n.hkey e.2 h.target h.stampEpoch x) s) s

/-- A sweep ends (R346): one placement is left, the old fragments go, SWEEP_DONE is sent, a held input starts. -/
def State.endSweep (s : State) (nsid : Nat) (n : Namespace) (h : Homed) : State :=
  let s := s.discardRange n h h.checkpoint (n.herdUnits + max 1 h.target.k * 1024)
  let p := h.target
  let done : Homed := { h with segments := [], boundary := 0, checkpoint := 0, sweeping := false, rebuilding := false,
                               ahead := [] }
  let s := (s.setHomed nsid done).raise 13 22
  let s := if 0x0101 ≤ s.herdVersion then
      p.elig.foldl (fun s c => s.sendReliable c (.sweepDone n.hkey p.k p.m p.home p.elig)) s
    else s
  match h.held with
  | some q => s.startSweep nsid done q
  | none => s

/-- Advance the boundary past a swept stripe, with its checkpoint (R345, R346). -/
def State.advanceSweep (s : State) (nsid : Nat) : State :=
  match s.nss.look nsid, s.herd.homed.look nsid with
  | some n, some h =>
    let k := max 1 h.target.k
    let b := h.boundary + k
    let h := { h with boundary := b, ahead := h.ahead.filter fun x => decide (b ≤ x * k) }
    if n.herdUnits ≤ b then s.endSweep nsid n h
    else if b / k % 1024 = 0 then (s.discardRange n h h.checkpoint b).setHomed nsid { h with checkpoint := b }
    else s.setHomed nsid h
  | _, _ => s

/-! ## Returning members (R351, R352) -/

/-- Whether a member is a holder of a stripe. -/
def State.holds (s : State) (c : Nat) (p : Placement) (hkey h : Nat) : Bool := (s.holders p hkey h).contains c

/-- The job of a stripe that a peer holds. -/
def redoStripe (peer : Nat) (p : Placement) (hkey k : Nat) (s : State) (h : Nat) : State :=
  if s.holds peer p hkey h then s.createJob hkey k h else s

/-- A full reconciliation of one namespace with a peer: everything that it holds is discarded and made again. -/
def reconcileNs (peer : Nat) (s : State) (e : Nat × Homed) : State :=
  match s.nss.look e.1 with
  | none => s
  | some n =>
    let p := e.2.target
    let k := max 1 p.k
    let all : OpHdr := { mkOp n.hkey k 0xFF (2 ^ 64 - 1) e.2.stampEpoch s.nextStamp with index := 0xFF }
    let s := s.sendReliable peer (.frag 0x24 all [])
    (List.range (ceilDiv n.herdUnits k)).foldl (redoStripe peer p n.hkey k) s

/-- The home reconciles a returning member: delta from a complete miss log on a link of 1.3 or higher, else in full
(R352). -/
def State.reconcile (s : State) (peer : Nat) : State :=
  let m := s.herd.missLogs.look peer
  let delta := (match m with | some x => !x.incomplete | none => true) && decide (0x0103 ≤ (s.linkOf peer).version)
  let s : State := { s with herd := { s.herd with missLogs := s.herd.missLogs.del peer } }
  let s := s.setLink peer { s.linkOf peer with reconciling := true, delta := delta }
  let s :=
    if delta then
      match m with
      | some x =>
        let s := x.stripes.foldl (fun s e => s.createJob e.1 e.2.1 e.2.2) s
        x.discards.foldl (fun s d => s.sendReliable peer (.frag 0x24 d [])) s
      | none => s
    else
      s.herd.homed.foldl (reconcileNs peer) s
  s.endReconcile

/-- MISSLOG_EXPIRE (R351). -/
def execMisslogExpire (peer : Nat) (s : State) : Host.Outcome State Fault Refusal :=
  match s.herd.missLogs.look peer with
  | none => .next s
  | some m =>
    let m := { m with stripes := [], discards := [], incomplete := true }
    answer s.up s { s with herd := { s.herd with missLogs := s.herd.missLogs.put peer m } }

/-! ## Peer ports (R316, R318, R496) -/

/-- Follow the peer-port reason: an enabled port without a link while joined (R496). -/
def State.followPeerPorts (s : State) : State :=
  s.reason reasonPeerPort (s.joined && (List.range 4).any fun q =>
    decide (s.fld (Reg.HRD_PORT q) Reg.HRD_PORT_.ENABLE = 1 ∧ s.fld (Reg.HRD_PORT q) Reg.HRD_PORT_.LINK = 0))

/-- Every link that uses a plane closes (R318); it is set up again by HELLO. -/
def State.closePlane (s : State) (q : Nat) : State :=
  (s.herd.links.filter fun e => decide (e.2.plane = q ∧ e.2.st = .up)).foldl (fun s e => s.closeLink e.1) s

end Sys2Proof.Machine
end

