-- ==== Sys2Proof/Machine/Io.lean ====
section
/-! DEFINITION. What the I/O commands do once they hold their locks: reads and compares (R90, R127, R128, R297, R299, R343,
R415), writes by both paths (R126, R194 to R200, R204, R244 to R246, R294, R364), trims (R203). -/

namespace Sys2Proof.Machine

open Sys2Proof

/-- How a command goes on: it is over with a status, or waits at a stage. -/
inductive Turn
  | over (x : Status)
  | wait (st : Stage)
  deriving DecidableEq, Repr

/-- What a command's operation answers. -/
abbrev Turned := Turn × State

/-! ## Host data -/

/-- A block of the host's data; a block that the host side does not give reads as zeros with a tally of 0. -/
def hostBlock (h : HostSide) (i : Nat) : HostBlock := (h.blocks[i]?).getD { data := zeroBlock, tally := 0 }

/-- The entry check of a host-supplied tally (R294). -/
def entryOk (c : Cmd) (nstag lba : Nat) (b : HostBlock) : Bool :=
  decide (tallyCrc b.tally = crc64 b.data ∧ tallyLba b.tally = lba % 2 ^ 32 ∧ tallyNstag b.tally = nstag) &&
    (!pkAtc c.packet || decide (tallyTag b.tally = pkApptag c.packet))

/-- The pieces of a run of bytes at an offset into an element list (R86, R412). -/
def scatter : List SgElem → Nat → List Byte → List (Nat × List Byte)
  | [], _, _ => []
  | e :: l, off, bs =>
    let n := e.length.toNat
    if n ≤ off then scatter l (off - n) bs
    else
      let k := n - off
      (e.address.toNat + off, bs.take k) :: (if bs.length ≤ k then [] else scatter l 0 (bs.drop k))

/-- The pieces of a run of bytes at an offset into a command's data buffer (R84, R86). -/
def bufferPieces (c : Cmd) (off : Nat) (bs : List Byte) : List (Nat × List Byte) :=
  if pkDpt c.packet then scatter c.host.list off bs else [(pkDptr c.packet + off, bs)]

/-- Write bytes into a command's data buffer (R125). -/
def State.toHost (s : State) (c : Cmd) (off : Nat) (bs : List Byte) : State :=
  (bufferPieces c off bs).foldl (fun s e => s.emit (.hostWrite c.fn (BitVec.ofNat 64 e.1) e.2)) s

/-! ## Map pages (R163 to R165) -/

/-- Whether a lookup of a unit's entry can be served: its sector is in the map cache or an eviction buffer, its page is in
SDRAM or EMPTY, or the command has waited out the page's fetch (R163, R164). -/
def State.lookupReady (s : State) (c : Cmd) (n : Namespace) (u : Nat) : Bool :=
  let mpn := n.mpn u
  let line := u % pageEntries / 12
  let hit (x : CacheLine) : Bool :=
    decide (x.set = lineSet (lineAddr mpn line) ∧ x.tag = lineTag (lineAddr mpn line)) && x.valid.getLsbD (line % 8)
  !s.map.away mpn || s.map.cache.any hit || s.map.evict.any hit || (c.pages.contains mpn && !(s.map.dirOf mpn).busy)

/-- Start the fetches that lookups of some units need: whether one of them must wait. -/
def State.fetchForLookup (s : State) (c : Cmd) (n : Namespace) (us : List Nat) : Bool × State :=
  let l := ((us.filter fun u => !s.lookupReady c n u).map fun u => n.mpn u).dedup
  (!l.isEmpty, l.foldl (fun s m => s.startFetch m false) s)

/-- Start the fetches that stores into some units' entries need (R165). -/
def State.fetchForStore (s : State) (n : Namespace) (us : List Nat) : Bool × State :=
  let l := ((us.map fun u => n.mpn u).dedup).filter fun m => s.map.away m
  (!l.isEmpty, l.foldl (fun s m => s.startFetch m true) s)

/-! ## Reads -/

/-- How one block of a read came out. -/
inductive BlockOut
  | good (data : List Byte) (tally : BitVec 128)
  | bad (x : Status)
  deriving DecidableEq, Repr

/-- The status of a block that no level yields: MEDIUM_LOST once L is set, else MEDIUM_UNCORRECTABLE (R299). -/
def State.badStatus (s : State) (n : Namespace) (lba : Nat) : Status :=
  if n.kind ≠ .systemNs ∧ meL (s.entryOf n (lba / 4)) then stLost lba else stUncorrectable lba

/-- The internal check failures that block `i` of a command meets (R298). -/
def faultsOf (h : HostSide) (i : Nat) : List InternalFault := h.faults.filter fun f => decide (f.block = i)

/-- Whether the repeat after an internal check failure fails too, for block `i` of a command (R298). -/
def failsInside (h : HostSide) (i : Nat) : Bool := (faultsOf h i).any fun f => f.again

/-- An internal check failure is counted, raised and recorded with its point; a failed proof counts in XTS_ROUNDTRIP too
(R296, R298). -/
def State.noteCheck (s : State) (f : InternalFault) : State :=
  let s := (s.count Reg.ECC_INTERNAL 1).raiseRecord 11 16 0 [f.point]
  if f.proof then (s.count Reg.XTS_ROUNDTRIP 1).raise 12 18 else s

/-- The failures of a list, each repeated where the repeat failed too. -/
def State.noteChecks (s : State) (l : List InternalFault) : State :=
  l.foldl (fun s f => if f.again then (s.noteCheck f).noteCheck f else s.noteCheck f) s

/-- One block of a read: the medium, then the internal checks on its way, then the ATC comparison; zeros for a block trimmed
or never written (R127, R128, R297 to R299). `gone` lists the herd stripe units that the herd did not yield (R347), `around`
the map units that read-around served. -/
def State.readBlock (s : State) (c : Cmd) (n : Namespace) (gone around : List Nat) (lba : Nat) : BlockOut × State :=
  let nsid := pkNsid c.packet
  let i := lba - pkSlba c.packet
  let g := if gone.contains (lba / 16) then Got.bad 0 else s.gotBlock nsid n lba
  let s := if around.contains (lba / 4) then s else s.noteRead nsid (lba / 4) g
  let s := match g with | .block _ _ _ => s.noteChecks (faultsOf c.host i) | _ => s
  match g with
  | .zeros => (.good zeroBlock (genTally zeroBlock lba n.nstag.toNat 0), s)
  | .block w _ _ =>
    if failsInside c.host i = true ∨ (pkAtc c.packet ∧ tallyTag w.tally ≠ pkApptag c.packet) then (.bad (stTally lba), s)
    else (.good w.data w.tally, s)
  | .marked => (.bad (stUncorrectable lba), s)
  | .bad _ => (.bad (s.badStatus n lba), s)
  | .lost => (.bad (stLost lba), s)

/-- One block of a COMPARE: the entry check comes before the medium, the comparison after it (R90, R299). -/
def State.compareBlock (s : State) (c : Cmd) (n : Namespace) (gone around : List Nat) (i : Nat) : BlockOut × State :=
  let lba := pkSlba c.packet + i
  let b := hostBlock c.host i
  if n.hostTallies && !entryOk c n.nstag.toNat lba b then (.bad (stTally lba), s)
  else
    match s.readBlock c n gone around lba with
    | (.good d t, s) => if d = b.data then (.good d t, s) else (.bad (stMiscompare lba), s)
    | r => r

/-- The blocks of a read in order until the first that fails: the blocks below it, and its status (R127, R299). -/
def readFrom (f : State → Nat → BlockOut × State) : Nat → Nat → State →
    List (List Byte × BitVec 128) × Option Status × State
  | 0, _, s => ([], none, s)
  | k + 1, i, s =>
    match f s i with
    | (.bad x, s) => ([], some x, s)
    | (.good d t, s) =>
      let r := readFrom f k (i + 1) s
      ((d, t) :: r.1, r.2)

/-- The pieces of a gathered read: each symbol of the source at its place of the transform (R415). -/
def gatherPieces (n sym lanes : Nat) (src : List Byte) : List (Nat × List Byte) :=
  (List.range (src.length / sym)).map fun i =>
    (i % lanes * (n / lanes) + i / lanes * sym, (src.drop (i * sym)).take sym)

/-- Hand the good blocks of a read to the host (R125, R297, R415). -/
def State.deliver (s : State) (c : Cmd) (good : List (List Byte × BitVec 128)) : State :=
  let p := c.packet
  let blocks := (List.range good.length).zip good
  if pkOpcode p = opGatherRead then
    (gatherPieces (pkNlb p * 4096) (2 ^ pkSpec p 0 2) (pkSpec p 2 6 + 1) (good.flatMap fun b => b.1)).foldl
      (fun s e => s.toHost c e.1 e.2) s
  else
    let s := blocks.foldl (fun s e => s.toHost c (4096 * e.1) e.2.1) s
    if pkTret p then
      blocks.foldl (fun s e =>
        s.emit (.hostWrite c.fn (BitVec.ofNat 64 (pkTptr p + 16 * e.1)) (bytesOf e.2.2 16))) s
    else s

/-- The herd stripe units of a range that the local copy does not give: the blocks of the range that are bad, or a unit of
a new home that the sweep has not reached (R305, R343, R347). -/
def State.herdNeeds (s : State) (nsid : Nat) (n : Namespace) (h : Homed) (slba nlb : Nat) : List Nat :=
  ((List.range ((slba + nlb - 1) / 16 + 1 - slba / 16)).map fun i => slba / 16 + i).filter fun u =>
    h.mustFetch u || ((List.range 16).any fun i =>
      decide (slba ≤ 16 * u + i ∧ 16 * u + i < slba + nlb) &&
        (match s.gotBlock nsid n (16 * u + i) with | .bad _ => true | _ => false))

/-- The units of a herd-level stripe that cannot be read any more are lost, with the job of the stripe as the cause. -/
def State.loseLevel (s : State) (nsid : Nat) (n : Namespace) (k u : Nat) : State :=
  let job := (s.herd.jobs.find? fun e => decide (e.2.key = (n.hkey, k, u / k))).map fun e => e.1
  s.loseHerdUnits nsid n (job.getD s.herd.nextJob) k (u / k)

/-- Bring in from the herd what a read needs (R342, R343, R347): whether it must wait, and the units not yielded. -/
def State.readHerd (s : State) (nsid : Nat) (n : Namespace) (slba nlb : Nat) : Option (List Nat) × State :=
  match s.herd.homed.look nsid with
  | none => (some [], s)
  | some h =>
    let us := s.herdNeeds nsid n h slba nlb
    let place (u : Nat) : Placement := if h.mustFetch u then h.source u else h.at_ u
    let open_ (u : Nat) : Bool :=
      h.mustFetch u || s.herdLevelOpen nsid n (max 1 (place u).k) (u / max 1 (place u).k)
    let shut := us.filter fun u => !open_ u
    let s := shut.foldl (fun s u => s.loseLevel nsid n (max 1 (place u).k) u) s
    let r := s.herdUnits n ((us.filter open_).map fun u => (u, place u))
    match r.1 with
    | none => (none, r.2)
    | some got =>
      (some (got.filterMap fun e => match e.2.2 with | .gone _ => some e.1 | _ => none), r.2.takeUnits nsid n false got)

/-- Note an uncorrectable read (R306, R314). -/
def State.noteUncorrectable (s : State) (x : Option Status) : State :=
  match x with
  | some y => if y.cls = 3 ∧ y.detail = 2 then (s.count Reg.ECC_UNCORR 1).raise 11 17 else s
  | none => s

/-- One block of a READ, GATHER_READ or COMPARE. -/
def readOne (c : Cmd) (n : Namespace) (gone around : List Nat) (s : State) (i : Nat) : BlockOut × State :=
  if pkOpcode c.packet = opCompare then s.compareBlock c n gone around i
  else s.readBlock c n gone around (pkSlba c.packet + i)

/-- READ, COMPARE and GATHER_READ (R90, R127, R299). -/
def State.readTurn (s : State) (slot : Nat) (c : Cmd) (n : Namespace) : Turned :=
  let p := c.packet
  let nsid := pkNsid p
  let us := unitsOf (pkSlba p) (pkNlb p)
  let f := if n.kind = .systemNs then (false, s) else s.fetchForLookup c n us
  if f.1 then (.wait .waitMap, f.2)
  else if pkOpcode p = opCompare ∧ c.host.dataAnswer ≠ .ok then (.over (stFenced 1), f.2.readFailed slot c)
  else
    let h := f.2.readHerd nsid n (pkSlba p) (pkNlb p)
    match h.1 with
    | none => (.wait .waitHerd, h.2)
    | some gone =>
      let s := if n.kind = .systemNs then h.2 else h.2.walk c.cls n us
      let a := s.readArounds nsid n (pkDclass p) (pkSlba p) (pkNlb p)
      let r := readFrom (readOne c n gone a.1) (pkNlb p) 0 a.2
      let s := r.2.2.noteUncorrectable r.2.1
      let s := if pkOpcode p = opCompare then s else s.deliver c r.1
      let s := match s.cmds.inflight.look slot with
        | some c => s.setCmd slot { c with changed := c.changed || !r.1.isEmpty }
        | none => s
      (.over (r.2.1.getD (stOk 0)), s)

/-! ## Grants (R244 to R246) -/

/-- The free page-planes above the reserves that no grant and no gather stripe to come has taken (R225, R244). -/
def State.freePlanes (s : State) : Nat :=
  let erased := (s.servingDies.map fun dk => ((s.erasedMain dk).length - s.dieReserve) * s.blockPlanes dk).sum
  let room := (s.place.bands.map fun e =>
    if e.2.st = .opened ∧ hostStream e.2.stream = true then
      (s.bandStripes e.2.layout e.2.members - e.2.next) * bandW e.2.layout
    else 0).sum
  let owed := (s.place.gathers.map fun e => if e.2.placed.isEmpty then layoutW e.2.layout else 0).sum +
    (s.cmds.inflight.map fun e => e.2.grant).sum
  erased + room - owed

/-- The page-planes of invalid data units in CLOSED and RECLAIMING bands (R245). -/
def State.invalidPlanes (s : State) : Nat :=
  (s.place.bands.map fun e =>
    if e.2.st = .closed ∨ e.2.st = .reclaiming then e.2.next * bandD e.2.layout - e.2.valid else 0).sum

/-- The grant of a write (R244). -/
def grantOf (layout slba nlb : Nat) : Nat :=
  max 1 (ceilDiv (((slba + nlb - 1) / 4 + 1 - slba / 4) * layoutW layout) (layoutD layout))

/-- Take the grant of a write: none with the state once it is taken, else how the write goes on (R245, R246). -/
def State.takeGrant (s : State) (slot : Nat) (c : Cmd) (n : Namespace) : Option Turn × State :=
  let p := c.packet
  let layout := s.localLayout n
  let g := grantOf layout (pkSlba p) (pkNlb p)
  if c.grant ≠ 0 then (none, s)
  else if !s.canOpen layout then (some (.over stSpace), s.fenceNs (pkNsid p) 2)
  else if g ≤ s.freePlanes then (none, s.setCmd slot { c with grant := g })
  else if g ≤ s.freePlanes + s.invalidPlanes then (some (.wait .waitSpace), s)
  else (some (.over stSpace), s.fenceNs (pkNsid p) 1)

/-! ## Writes -/

/-- The blocks of a write before the first whose host data and supplied tally disagree, or whose repeated path fails an
internal check (R126, R294, R298). -/
def writeGood (c : Cmd) (n : Namespace) : Nat :=
  let nlb := pkNlb c.packet
  let supplied := decide (pkOpcode c.packet = opWrite) && n.hostTallies
  ((List.range nlb).find? fun i =>
    failsInside c.host i ||
      (supplied && !entryOk c n.nstag.toNat (pkSlba c.packet + i) (hostBlock c.host i))).getD nlb

/-- The internal check failures that a write meets up to the block that ends it. -/
def writeFaults (c : Cmd) (n : Namespace) : List InternalFault :=
  c.host.faults.filter fun f => decide (f.block ≤ writeGood c n ∧ f.block < pkNlb c.packet)

/-- The codeword of a block of a write (R294, R300). -/
def writeCodeword (c : Cmd) (n : Namespace) (kind i : Nat) (wseq : DWord) : Codeword :=
  let p := c.packet
  let lba := pkSlba p + i
  let b := if pkOpcode p = opWrite then hostBlock c.host i else { data := zeroBlock, tally := 0 }
  let t := if pkOpcode p = opWrite ∧ n.hostTallies = true then b.tally
    else genTally b.data lba n.nstag.toNat (pkApptag p)
  mkCodeword b.data t (mkHeader (pkNsid p) kind n.encrypted lba wseq)

/-- The status a write ends with (R126). -/
def writeStatus (c : Cmd) (n : Namespace) : Status :=
  let good := writeGood c n
  if good < pkNlb c.packet then stTally (pkSlba c.packet + good) else stOk 0

/-- Store the entries of some units through the map cache (R165, R171, R173). -/
def State.storeLines (s : State) (c : Cmd) (n : Namespace) (us : List Nat) : State :=
  let lines := (us.map fun u => (n.mpn u, u % pageEntries / 12)).dedup
  let cls := s.cacheClass c.cls
  lines.foldl (fun s l =>
    let whole := decide (12 ≤ (us.filter fun u => decide ((n.mpn u, u % pageEntries / 12) = l)).length)
    s.cacheStore cls l.1 l.2 whole) s

/-- One stripe of the stripe-aligned path from block `i` of the command on (R195); none when no band takes it. -/
def State.alignedStripe (s : State) (c : Cmd) (n : Namespace) (i : Nat) : Option State :=
  let layout := s.localLayout n
  let nsid := pkNsid c.packet
  let first := (pkSlba c.packet + i) / 4
  let us := (List.range (layoutD layout)).map fun k => first + k
  let wseq := s.nextStamp
  let units := (List.range (layoutD layout)).map fun k =>
    (List.range 4).map fun b => writeCodeword c n kindData (i + 4 * k + b) wseq
  match (s.takeStamps 1).programStripe layout n.stream units with
  | none => none
  | some (addrs, _, s) =>
    let s := (us.zip addrs).foldl (fun s e =>
      (s.mapSet n e.1 (mkEntry false false false true e.2)).unstage nsid e.1) s
    some (s.storeLines c n us)

/-- The pages of some units that are clean (R364). -/
def State.cleanPages (s : State) (n : Namespace) (us : List Nat) : Nat :=
  (((us.map fun u => n.mpn u).dedup).filter fun m => !(s.map.dirOf m).dirty).length

/-- The gather stripes that some units would open (R200). -/
def State.newStripes (s : State) (nsid : Nat) (n : Namespace) (us : List Nat) : Nat :=
  let d := layoutD (s.localLayout n)
  match s.openGather n.stream with
  | none => ceilDiv us.length d
  | some (_, g) =>
    let new := us.filter fun u => !(g.slots.any fun x => decide (x.nsid = nsid ∧ x.unit = u))
    ceilDiv (new.length - (d - g.slots.length)) d

/-- A die pair's key in the list of blocks that wait for their page-plane. -/
def pairKey (p : Nat × Nat) : Nat := p.1 * 2048 + p.2

def keyPair (k : Nat) : Nat × Nat := (k / 2048, k % 2048)

/-- The first blocks that wait for a die pair, up to four. -/
def State.packHead (s : State) (key : Nat) : List (Nat × Nat × Nat) :=
  (s.place.packs.filter fun e => decide (e.1 = key)).take 4

/-- The pair that takes a page-plane now: the one the blocks wait for, or another with a free staging page (R198, R205). -/
def State.readyPair (s : State) (key : Nat) : Option (Nat × Nat) :=
  let p := keyPair key
  if s.stageDies.contains p.1 && s.stageDies.contains p.2 then some p else s.stagePair

/-- Program the first group of blocks that waits for a die pair (R197 to R200). -/
def State.packGroup (s : State) (key : Nat) : State :=
  match s.readyPair key with
  | none => s
  | some pair =>
    let l := s.packHead key
    let wseq := s.nextStamp
    let blocks := l.filterMap fun e =>
      match s.cmds.inflight.look e.2.1 with
      | none => none
      | some c =>
        (s.nss.look (pkNsid c.packet)).map fun n =>
          (pkNsid c.packet, pkSlba c.packet + e.2.2, writeCodeword c n kindStaged e.2.2 wseq)
    let s : State := { s with place := { s.place with packs := s.place.packs.filter fun e => !l.contains e } }
    if blocks.isEmpty then s else (s.takeStamps 1).stageGroup pair blocks

/-- Program groups of a pair: whole ones, and the rest too when `rest` says so. -/
def State.packFlush (rest : Bool) : Nat → State → Nat → State
  | 0, s, _ => s
  | fuel + 1, s, key =>
    let n := (s.packHead key).length
    if n = 4 ∨ (rest = true ∧ n ≠ 0) then State.packFlush rest fuel (s.packGroup key) key else s

/-- Whether blocks of a command wait for their page-plane. -/
def State.packWaits (s : State) (slot : Nat) : Bool := s.place.packs.any fun e => decide (e.2.1 = slot)

/-- Stage a window of blocks of a command (R197, R198). -/
def State.stageWindow (s : State) (slot : Nat) (c : Cmd) (n : Namespace) (pair : Nat × Nat) (i k : Nat) : State :=
  let key := pairKey pair
  let new := (List.range k).map fun j => (key, slot, i + j)
  let s : State := { s with place := { s.place with packs := s.place.packs ++ new } }
  let s := State.packFlush (decide (s.fld Reg.STG_CTRL Reg.STG_CTRL_.PACK_WINDOW = 0)) (s.place.packs.length + 1) s key
  s.storeLines c n (unitsOf (pkSlba c.packet + i) k)

/-- Change a command in flight. -/
def State.updCmd (s : State) (slot : Nat) (f : Cmd → Cmd) : State :=
  { s with cmds := { s.cmds with inflight := s.cmds.inflight.upd slot f } }

/-- The blocks of the next window of a write: a stripe of the stripe-aligned path, or up to 64 staged ones (R126, R194,
R398). -/
def State.writeWindow (s : State) (c : Cmd) (n : Namespace) : Bool × Nat :=
  let p := c.packet
  let layout := s.localLayout n
  let good := writeGood c n
  let stripe := 4 * layoutD layout
  if alignedPath layout (pkSlba p) (pkNlb p) && decide (c.moved + stripe ≤ good) then (true, stripe)
  else (false, min 64 (good - c.moved))

/-- Write the windows that are left (R195, R197, R204, R364): how the command waits, or none once all is written. -/
def State.writeWindows (slot : Nat) (n : Namespace) : Nat → State → Option Stage × State
  | 0, s => (none, s)
  | fuel + 1, s =>
    match s.cmds.inflight.look slot with
    | none => (none, s)
    | some c =>
      let w := s.writeWindow c n
      if w.2 = 0 then (none, s)
      else
        let p := c.packet
        let nsid := pkNsid p
        let us := unitsOf (pkSlba p + c.moved) w.2
        let f := s.fetchForStore n us
        if f.1 then (some .waitMap, f.2)
        else
          let s := f.2
          let slots := if w.1 then 0 else w.2 + 8 * s.newStripes nsid n us
          if !s.chargesFit (s.cleanPages n us) slots then (some .waitCharge, s)
          else
            let after (s : State) : State :=
              s.updCmd slot fun c => { c with moved := c.moved + w.2, changed := true }
            if w.1 then
              match s.alignedStripe c n c.moved with
              | none => (some .waitSpace, s)
              | some t => State.writeWindows slot n fuel (after t)
            else
              let new := us.filter fun u => (s.stageOf nsid u).isNone
              match decide (s.place.index.length + new.length ≤ indexMax), s.stagePair with
              | true, some pair => State.writeWindows slot n fuel (after (s.stageWindow slot c n pair c.moved w.2))
              | _, _ => (some .waitEntry, s.stagePressure)

/-- The end of a write: what follows its completion point (R133, R204, R205, R215, R339). -/
def State.writeEnd (s : State) (c : Cmd) (n : Namespace) : State :=
  let good := writeGood c n
  let s := (s.noteChecks (writeFaults c n)).clearLost
  let s := if good = 0 then s else s.createJobs (pkNsid c.packet) (pkSlba c.packet) good
  s.stagePressure

/-- Sweep one stripe ahead of the boundary, unless one before it could not be. -/
def sweepAhead (nsid : Nat) (h : Homed) (r : Bool × State) (x : Nat) : Bool × State :=
  let now := (r.2.herd.homed.look nsid).getD h
  if !r.1 ∨ 65536 ≤ now.ahead.length then (false, r.2)
  else
    let t := r.2.sweepOne nsid x
    if t.1 then (true, t.2.setHomed nsid { now with ahead := now.ahead ++ [x] }) else (false, t.2)

/-- The stripes of a new home that a write or trim needs swept first (R347). -/
def State.sweepFirst (s : State) (nsid : Nat) (slba nlb : Nat) : Bool × State :=
  match s.herd.homed.look nsid with
  | none => (true, s)
  | some h =>
    let k := max 1 h.target.k
    let us := (List.range ((slba + nlb - 1) / 16 + 1 - slba / 16)).map fun i => slba / 16 + i
    let hs := ((us.filter fun u => h.mustFetch u).map fun u => u / k).dedup
    hs.foldl (sweepAhead nsid h) (true, s)

/-- WRITE and WRITE_ZEROES to a system namespace (R178): its tallies are generated, so only an internal check can fail a
block. While no mirror pair of dies serves, the write waits. -/
def State.sysWriteTurn (s : State) (slot : Nat) (c : Cmd) : Turned :=
  let p := c.packet
  if pkOpcode p = opWrite ∧ c.host.dataAnswer ≠ .ok then (.over (stFenced 1), s.readFailed slot c)
  else if s.sysDies.isNone then (.wait .waitSpace, s)
  else
    match s.nss.look (pkNsid p) with
    | none => (.over (stFenced 4), s)
    | some n =>
      let s := (s.noteChecks (writeFaults c n)).sysWrite (pkNsid p) ((List.range (writeGood c n)).map fun i =>
        let w := writeCodeword c n 9 i 0
        (pkSlba p + i, w.data, w.tally))
      (.over (writeStatus c n), s.updCmd slot fun c => { c with changed := true })

/-- WRITE and WRITE_ZEROES (R194, R244, R347). -/
def State.writeTurn (s : State) (slot : Nat) (c : Cmd) (n : Namespace) : Turned :=
  let p := c.packet
  let nsid := pkNsid p
  if n.kind = .systemNs then s.sysWriteTurn slot c
  else if s.jobsFull nsid (pkSlba p) (pkNlb p) then (.wait .waitCharge, s)
  else
    let g := s.takeGrant slot c n
    match g.1 with
    | some t => (t, g.2)
    | none =>
      if pkOpcode p = opWrite ∧ c.host.dataAnswer ≠ .ok then (.over (stFenced 1), g.2.readFailed slot c)
      else
        let w := g.2.sweepFirst nsid (pkSlba p) (pkNlb p)
        if !w.1 then (.wait .waitHerd, w.2)
        else
          let r := State.writeWindows slot n (pkNlb p + 1) w.2
          match r.1 with
          | some st => (.wait st, r.2)
          | none => if r.2.packWaits slot then (.wait .waitPack, r.2) else (.over (writeStatus c n), r.2.writeEnd c n)

/-- Finish the writes whose last blocks have been programmed (R125, R198). -/
def State.finishPacked (s : State) : State :=
  (s.cmds.inflight.filter fun e => decide (e.2.stage = .waitPack)).foldl (fun s e =>
    if s.packWaits e.1 then s
    else
      match s.nss.look (pkNsid e.2.packet) with
      | some n => (s.writeEnd e.2 n).complete e.1 (writeStatus e.2 n)
      | none => s.complete e.1 (stFenced 4)) s

/-! ## Trims -/

/-- The end of the map page that a block lies in. -/
def pageEnd (lba : Nat) : Nat := (lba / (4 * pageEntries) + 1) * (4 * pageEntries)

/-- Trim page by page (R203, R204, R364): how the command waits, or none once all is trimmed. -/
def State.trimWindows (slot : Nat) (n : Namespace) : Nat → State → Option Stage × State
  | 0, s => (none, s)
  | fuel + 1, s =>
    match s.cmds.inflight.look slot with
    | none => (none, s)
    | some c =>
      let p := c.packet
      let nsid := pkNsid p
      let lo := pkSlba p + c.moved
      let hi := min (pageEnd lo) (pkSlba p + pkNlb p)
      if hi ≤ lo then (none, s)
      else
        let us := unitsOf lo (hi - lo)
        let part := us.filter fun u => decide ((blocksIn u lo (hi - lo)).length < 4)
        let f := s.fetchForStore n us
        if f.1 then (some .waitMap, f.2)
        else if !f.2.chargesFit (f.2.cleanPages n us) (8 * f.2.newStripes nsid n part) then (some .waitCharge, f.2)
        else if indexMax < f.2.place.index.length + f.2.newEntries nsid lo (hi - lo) then
          (some .waitEntry, f.2.stagePressure)
        else
          let s := (f.2.trimRange nsid lo (hi - lo)).storeLines c n us
          State.trimWindows slot n fuel
            (s.updCmd slot fun c => { c with moved := c.moved + (hi - lo), changed := true })

/-- TRIM (R203; log entry 17 for a herd namespace). -/
def State.trimTurn (s : State) (slot : Nat) (c : Cmd) (n : Namespace) : Turned :=
  let p := c.packet
  let nsid := pkNsid p
  if s.jobsFull nsid (pkSlba p) (pkNlb p) then (.wait .waitCharge, s)
  else
    let w := s.sweepFirst nsid (pkSlba p) (pkNlb p)
    if !w.1 then (.wait .waitHerd, w.2)
    else
      let r := State.trimWindows slot n (pkNlb p + 1) w.2
      match r.1 with
      | some st => (.wait st, r.2)
      | none => (.over (stOk 0), (r.2.createJobs nsid (pkSlba p) (pkNlb p)).stagePressure)

/-! ## NS_RESIZE -/

/-- NS_RESIZE under its lock (R95, R240): the page that a shrink cuts is brought into its frame first. -/
def State.resizeTurn (s : State) (c : Cmd) (n : Namespace) : Turned :=
  let size := pkSlba c.packet
  let nsid := pkNsid c.packet
  if n.size < size then
    if s.growFits n size then
      match s.resizeNs nsid size with
      | some t => (.over (stOk 0), t)
      | none => (.over stSpace, s)
    else (.over stSpace, s)
  else
    let cut := if size / 4 % pageEntries = 0 ∨ size = n.size then [] else [size / 4]
    let f := s.fetchForStore n cut
    if f.1 then (.wait .waitMap, f.2)
    else if !f.2.chargesFit (f.2.cleanPages n cut) 0 then (.wait .waitCharge, f.2)
    else
      match f.2.resizeNs nsid size with
      | some t => (.over (stOk 0), if cut.isEmpty then t else { t with map := t.map.soil (n.mpn (size / 4)) t.nextStamp })
      | none => (.over stSpace, f.2)

end Sys2Proof.Machine
end

