-- ==== Sys2Proof/Machine/Firmware.lean ====
section
/-! DEFINITION. Fuses (R462 to R464), signed objects (R466, R467), images and manifests (R469, R470), staging (R482), the
firmware checks (R483 to R485), castling (R484 to R490) and its log (R491). -/

namespace Sys2Proof.Machine

open Sys2Proof

/-! ## The fuse row (R462 to R464) -/

/-- `n` fuse bits from bit `lo`. -/
def fuseBits (r : BitVec 4096) (lo n : Nat) : Nat := (r >>> lo).toNat % 2 ^ n

/-- The serial identity, the device secret. -/
def fuseSerial (r : BitVec 4096) : Nat := fuseBits r 0 64
def fuseSecret (r : BitVec 4096) : Nat := fuseBits r 1792 256

/-- The signer key hash of a slot. -/
def fuseHash (r : BitVec 4096) (k : Nat) : Nat := fuseBits r (96 + 416 * k) 384

/-- Whether the CRCs of the row's fields match (R463). -/
def serialOk (r : BitVec 4096) : Bool := decide ((crc32c (leBytes 8 (fuseSerial r))).toNat = fuseBits r 64 32)
def secretOk (r : BitVec 4096) : Bool := decide ((crc32c (leBytes 32 (fuseSecret r))).toNat = fuseBits r 2048 32)
def slotCrcOk (r : BitVec 4096) (k : Nat) : Bool :=
  decide ((crc32c (leBytes 48 (fuseHash r k))).toNat = fuseBits r (96 + 416 * k + 384) 32)

/-- An empty slot (R463). -/
def slotEmpty (r : BitVec 4096) (k : Nat) : Bool := decide (fuseBits r (96 + 416 * k) 416 = 0)

/-- A nibble counts as blown when at least two of its bits are 1 (R463). -/
def nibbleBlown (n : Nat) : Bool := decide (2 ≤ ((List.range 4).map fun i => n / 2 ^ i % 2).sum)

/-- A revoked slot (R463). -/
def slotRevoked (r : BitVec 4096) (k : Nat) : Bool := nibbleBlown (fuseBits r (1760 + 4 * k) 4)

/-- A slot neither empty nor invalid (R463, FUS_STATE.SLOT_VALID). -/
def slotValid (r : BitVec 4096) (k : Nat) : Bool := !slotEmpty r k && slotCrcOk r k

/-- The lifecycle count: blown nibbles up to the first unblown one (R464). -/
def lifecycle (r : BitVec 4096) : Nat :=
  ((List.range 4).takeWhile fun i => nibbleBlown (fuseBits r (1776 + 4 * i) 4)).length

/-- The minimum security version: blown bits of MIN_SVN. -/
def minSvn (r : BitVec 4096) : Nat := ((List.range 64).map fun i => fuseBits r (2080 + i) 1).sum

/-- A mask of the slots 0 to 3 that have a property. -/
def slotMask (f : Nat → Bool) : Nat := ((List.range 4).map fun k => if f k then 2 ^ k else 0).sum

/-! ## Signed objects (R466, R467) -/

/-- Whether a slot is accepted: before the guard set is written SIGNERS holds every slot, afterwards its mask (R467,
R476). -/
def State.slotAccepted (s : State) (k : Nat) : Bool :=
  decide (k < 4) && slotValid s.boot.fuses k && !slotRevoked s.boot.fuses k &&
    (s.fld Reg.GRD_POLICY Reg.GRD_POLICY_.SIGNERS).testBit k

/-- Whether a signed object is accepted (R467): `Config.signatureOk` stands for both signatures and the reserved bytes. -/
def State.signedOk (s : State) (digest slot signer signature : Nat) : Bool :=
  s.slotAccepted slot && decide (fuseHash s.boot.fuses slot = signer) && Config.signatureOk digest signature signer

/-- Whether a manifest is accepted (R467, R470). -/
def State.manifestOk (s : State) (m : Manifest) : Bool :=
  decide (m.magic = 0x4E394D46 ∧ m.format = 0x0400) &&
    s.signedOk (Config.manifestDigest m) m.signSlot m.signer m.signature

/-! ## Images (R469, R470) -/

/-- The largest length of a section kind (R469, Table 7). -/
def sectionMax (kind : Nat) : Nat :=
  if kind = 1 then 0x40000 else if kind ≤ 4 then 0x10000 else if kind = 5 then 0x100000 else 0x400000

/-- Whether an image's header is in order (R469). -/
def headerOk (i : Image) : Bool :=
  decide (i.magic = 0x4E394948 ∧ i.format = 0x0400) && i.crcOk &&
    decide (4 ≤ i.nblk ∧ i.nblk ≤ 2048 ∧ i.tblk = ceilDiv i.nblk 1024 ∧ i.manifestBlk + 2 = i.nblk) &&
    decide (5 ≤ i.sections.length ∧ i.sections.length ≤ 16) &&
    (i.sections.all fun x => decide (1 ≤ x.kind ∧ x.kind ≤ 6 ∧ x.length ≤ sectionMax x.kind ∧ i.tblk < x.firstBlk ∧
      4096 * x.firstBlk + x.length ≤ 4096 * i.manifestBlk)) &&
    (List.range 5).all fun k => decide ((i.sections.filter fun x => decide (x.kind = k + 1)).length = 1)

/-- The first section whose hash differs from the manifest's, by its first block (R470). -/
def badSection (i : Image) : Option Nat :=
  ((i.sections.zip (i.manifest.sectHashes ++ List.replicate 16 0)).find? fun e => decide (e.1.hash ≠ e.2)).map
    fun e => e.1.firstBlk

/-- Whether the LOADER section's hash matches. -/
def loaderOk (i : Image) : Bool :=
  (i.sections.zip (i.manifest.sectHashes ++ List.replicate 16 0)).all fun e =>
    decide (e.1.kind = 1 → e.1.hash = e.2)

/-- The byte offset of the manifest in its image. -/
def manifestAt (i : Image) : Nat := 4096 * i.manifestBlk

/-- The version of a group of an image. -/
def versionOf (m : Manifest) (g : Nat) : Nat := (m.versions[g]?).getD 0

/-! ## Versions beside each other (R484) -/

/-- Whether a manifest's group g may run beside version w of group h. -/
def besideOk (m : Manifest) (g h w : Nat) : Bool :=
  match (m.beside[g]?).bind fun l => l[h]? with
  | some r => decide (r.min ≤ w ∧ w ≤ r.max)
  | none => false

/-- The groups and manifests present at a stage: groups before it run the staged image, groups after it the running one,
its own group both; stage 3 is the final state. -/
def atStage (old new : Manifest) (stage : Nat) : List (Nat × Manifest) :=
  (List.range 3).flatMap fun g =>
    if g < stage then [(g, new)] else if g = stage then [(g, old), (g, new)] else [(g, old)]

/-- Whether the versions of two images are compatible at every stage. -/
def versionsOk (old new : Manifest) : Bool :=
  (List.range 4).all fun st =>
    let l := atStage old new st
    l.all fun a => l.all fun b => besideOk a.2 a.1 b.1 (versionOf b.2 b.1)

/-! ## The cores in handover order (R486) -/

/-- The core at a place of the handover order. -/
def coreAt (k : Nat) : CoreId :=
  if k < 4 then { group := .housekeeping, idx := k }
  else if k < 8 then { group := .media, idx := k - 4 }
  else { group := .command, idx := k - 8 }

/-- The number of a core group (R470). -/
def groupNum : CoreGroup → Nat
  | .housekeeping => 0
  | .media => 1
  | .command => 2
  | .boot => 3

/-- The core whose handover is due next: forward in a castling, backward in an abort, failed cores left out. -/
def State.dueCore (s : State) (c : Castle) : Option Nat :=
  let ok (k : Nat) : Bool := !s.failedCores.contains (coreAt k)
  match c.abort with
  | none => (List.range 24).find? fun k => decide (c.handed ≤ k) && ok k
  | some _ => ((List.range 24).filter fun k => decide (k < c.handed) && ok k).getLast?

/-- Whether a core is stopped for its handover. -/
def State.coreStopped (s : State) (g : CoreGroup) (i : Nat) : Bool :=
  match s.boot.castle with
  | some c => c.stopped && decide ((s.dueCore c).map coreAt = some { group := g, idx := i })
  | none => false

/-- The image that the core at a place of the handover order runs. -/
def State.imageOn (s : State) (k : Nat) : Option Image :=
  match s.boot.castle with
  | some c => if k < c.handed then some c.image else s.boot.running
  | none => s.boot.running

/-! ## FWU_STATE and FWU_VERS (R492) -/

/-- The PHASE of FWU_STATE. -/
def BootState.phase (b : BootState) : Nat :=
  match b.castle with
  | some c => if c.abort.isSome then 5 else if c.inBoot then 7 else 4
  | none => if b.staging.image.isSome then 1 else 0

/-- Bring FWU_STATE and FWU_VERS up to the firmware state. -/
def State.syncFwu (s : State) : State :=
  let due := match s.boot.castle with | some c => (s.dueCore c).map coreAt | none => none
  let v (k g : Nat) : Nat := match s.imageOn k with | some i => versionOf i.manifest g | none => 0
  let s := s.setFld Reg.FWU_STATE Reg.FWU_STATE_.PHASE s.boot.phase
  let s := s.setFld Reg.FWU_STATE Reg.FWU_STATE_.GROUP (match due with | some c => groupNum c.group | none => 0)
  let s := s.setFld Reg.FWU_STATE Reg.FWU_STATE_.CORE (match due with | some c => c.idx | none => 0)
  let s := s.setFld Reg.FWU_STATE Reg.FWU_STATE_.OWNER s.boot.staging.owner
  let s := s.setFld Reg.FWU_STATE Reg.FWU_STATE_.STAGED s.boot.staging.blocks.length
  let s := s.setFld Reg.FWU_VERS Reg.FWU_VERS_.HOUSEKEEPING (v 0 0)
  let s := s.setFld Reg.FWU_VERS Reg.FWU_VERS_.MEDIA (v 4 1)
  s.setFld Reg.FWU_VERS Reg.FWU_VERS_.COMMAND (v 8 2)

/-- Change the firmware state. -/
def State.setBoot (s : State) (b : BootState) : State := ({ s with boot := b } : State).syncFwu

/-- An empty staging area. -/
def Staging.empty : Staging := { owner := 0, image := none, blocks := [] }

/-- Discard the staging area (R482). -/
def State.discardStaging (s : State) : State := s.setBoot { s.boot with staging := Staging.empty }

/-! ## Staging (R482, R483) -/

/-- A firmware failure (R483): INVALID_FIELD with the offset of Table 14 and the check code. -/
def stFirmware (code offset : Nat) : Status := stInvalidField (offset * 2 ^ 32 + code)

/-- Whether the mode takes FW_STAGE and FW_CASTLE (R483, R489). -/
def State.fwMode (s : State) : Bool := decide (s.mode = modeServe ∨ s.mode = modeDegraded)

/-- Whether a piece is a valid first piece: at offset 0, over blocks 0 to TBLK, within NBLK. -/
def firstPieceOk (offset count : Nat) (p : FwPiece) : Bool :=
  match p.image with
  | some i => decide (offset = 0 ∧ i.tblk + 1 ≤ count ∧ count ≤ i.nblk)
  | none => decide (offset = 0 ∧ 1 ≤ count)

/-- The blocks of a piece up to the first that fails its CRC, and that one (R482). -/
def pieceBlocks (i : Image) (first : Nat) (oks : List Bool) : List Nat × Option Nat :=
  let l := (List.range oks.length).zip oks
  let good := l.takeWhile fun e => e.2 || decide (first + e.1 ≤ i.tblk)
  (good.map fun e => first + e.1, if good.length < oks.length then some (first + good.length) else none)

/-- Keep the blocks of a piece; a failing block ends it (R482). -/
def State.keepBlocks (s : State) (i : Image) (first : Nat) (p : FwPiece) : Status × State :=
  let r := pieceBlocks i first p.blockCrcOk
  let st := s.boot.staging
  let s := s.setBoot { s.boot with staging := { st with blocks := ((st.blocks ++ r.1).dedup).mergeSort } }
  match r.2 with
  | some b => (stFirmware 1 (4096 * b), s.raise 22 16)
  | none => (stOk 0, s)

/-- A piece of an image from an owner at a byte offset (R482, R483): the mode is checked first (R489), then the piece,
then a first piece's header, then the blocks. -/
def State.fwStage (s : State) (owner offset count : Nat) (first : Bool) (p : FwPiece) : Status × State :=
  if !s.fwMode then (stFirmware 0xB 0, s)
  else if first then
    let s := s.setBoot { s.boot with staging := { Staging.empty with owner := owner } }
    if !firstPieceOk offset count p then (stFirmware 3 offset, s)
    else
      match p.image with
      | none => (stFirmware 2 0, s)
      | some i =>
        if !headerOk i then (stFirmware 2 0, s)
        else (s.setBoot { s.boot with staging := { owner := owner, image := some i, blocks := [] } }).keepBlocks i 0 p
  else
    match s.boot.staging.image with
    | none => (stFirmware 3 offset, s)
    | some i =>
      if s.boot.staging.owner ≠ owner ∨ i.nblk < offset / 4096 + count then (stFirmware 3 offset, s)
      else s.keepBlocks i (offset / 4096) p

/-! ## FW_CASTLE (R483 to R485) -/

/-- The window bits that a partition mask means: windows 1 to 26 of both masks (R478). -/
def partBits : DWord := 0x07FF_FFFE_07FF_FFFE

/-- Whether every PART[g] permits nothing that GRD_PART[g] forbids. -/
def State.partsOk (s : State) (m : Manifest) : Bool :=
  (List.range 3).all fun g =>
    decide (((m.part[g]?).getD 0) &&& ~~~(s.reg (Reg.GRD_PART g)) &&& partBits = 0)

/-- The DIE_PROFILES section of an image. -/
def profilesOf (i : Image) : Option Section := i.sections.find? fun x => decide (x.kind = 5)

/-- Whether every usable die matches exactly one profile of an image. -/
def State.profilesFit (s : State) (i : Image) : Bool :=
  match profilesOf i with
  | none => false
  | some x => s.media.dies.all fun e => !s.dieUsable e.1 || decide (Config.dieProfiles x.hash e.2.params = 1)

/-- The image copy that does not hold the committed image (R485). -/
def FwStore.spare (x : FwStore) : Nat :=
  if x.committed.isSome && decide ((x.copies[0]?).getD none = x.committed) then 1 else 0

/-- The checks of FW_CASTLE on an image in the order of Table 14: code and offset of the first that fails. The store's copy
can be written while two dies of different carriers serve (R485; log entry 19). -/
def State.castleFault (s : State) (owner : Nat) : Option (Nat × Nat) :=
  let st := s.boot.staging
  if !s.fwMode || decide (st.owner ≠ owner) then some (0xB, 0)
  else
    match st.image with
    | none => some (4, 0)
    | some i =>
      match (List.range i.nblk).find? fun b => !st.blocks.contains b with
      | some b => some (4, 4096 * b)
      | none =>
        if !s.manifestOk i.manifest then some (6, manifestAt i + 1024)
        else if i.hdrHash ≠ i.manifest.hdrHash then some (5, 0)
        else
          match badSection i with
          | some b => some (5, 4096 * b)
          | none =>
            if i.manifest.svn < minSvn s.boot.fuses then some (7, manifestAt i + 8)
            else if i.manifest.exportFmt ≠ 0x0200 then some (0xA, manifestAt i + 10)
            else if !s.partsOk i.manifest then some (9, manifestAt i + 64)
            else if !s.profilesFit i then some (0xD, ((profilesOf i).map fun x => 4096 * x.firstBlk).getD 0)
            else if !(match s.boot.running with | some r => versionsOk r.manifest i.manifest | none => true) then
              some (8, manifestAt i + 24)
            else if s.sysDies.isNone then some (0xC, 0)
            else none

/-- Enter CASTLING with the staged image in the store (R485, R486). -/
def State.startCastle (s : State) (i : Image) : State :=
  let x := s.boot.store
  let c : Castle := { image := i, handed := 0, stopped := false, abort := none, inBoot := false, seq := s.nextStamp }
  let s := (s.takeStamps 1).setBoot { s.boot with
    store := { x with copies := x.copies.set x.spare (some i) }, castle := some c }
  (s.enterMode modeCastling).raise 22 17

/-- FW_CASTLE by an owner. -/
def State.fwCastle (s : State) (owner : Nat) : Status × State :=
  match s.castleFault owner with
  | some (code, off) => (stFirmware code off, s)
  | none =>
    match s.boot.staging.image with
    | some i => (stOk 0, s.startCastle i)
    | none => (stOk 0, s)

/-! ## The end of BOOT and of a castling -/

/-- BOOT is left for SERVE or DEGRADED; held ENABLEs take effect (R494, R451). -/
def State.leaveBoot (s : State) : State := (s.enterMode s.serviceMode).releaseEnables

/-- The versions of an image's three groups. -/
def imageVersions : Option Image → List Nat
  | some i => (List.range 3).map fun g => versionOf i.manifest g
  | none => [0, 0, 0]

/-- Enter a castling's end into the history (R491): newest first, 16 entries. DURATION is a free value (log entry 1). -/
def State.noteCastle (s : State) (c : Castle) (result core : Nat) : State :=
  let h : History := { seq := c.seq, old := imageVersions s.boot.running, new := imageVersions (some c.image),
                       result := result, core := core, duration := s.takeFree.1 }
  let s := s.takeFree.2
  { s with boot := { s.boot with history := (h :: s.boot.history).take 16 } }

/-- A castling is over: no core is left to hand over; staging is discarded, the mode follows (R482, R486, R488, R494). -/
def State.closeCastle (s : State) (c : Castle) : State :=
  let s := s.setBoot { s.boot with castle := none, staging := Staging.empty }
  if c.inBoot then s.leaveBoot else s.enterMode s.serviceMode

/-- Commit the new image after the last core (R486). -/
def State.commitCastle (s : State) (c : Castle) (ok : Bool) : State :=
  let s := s.noteCastle c (if !ok then 5 else if c.inBoot then 4 else 0) 0xFF
  let x := s.boot.store
  let store : FwStore := if ok then { x with committed := some c.image, commitSeq := x.commitSeq + 1 } else x
  let s : State := { s with boot := { s.boot with running := some c.image, store := store } }
  let s := if ok then (s.count Reg.FWU_CASTLES 1).raise 22 18 else s.raise 22 20
  s.closeCastle c

/-- The last core of an aborted castling is back (R488). -/
def State.endAbort (s : State) (c : Castle) (result core : Nat) : State :=
  let s := s.noteCastle c result core
  ((s.count Reg.FWU_ABORTS 1).raise 22 19).closeCastle c

/-- A castling aborts: the cores handed over are handed back in reverse order (R488). -/
def State.abortCastle (s : State) (result core : Nat) : State :=
  match s.boot.castle with
  | none => s
  | some c =>
    if c.abort.isSome then s
    else
      let c := { c with stopped := false, abort := some (result, core) }
      let s := s.setBoot { s.boot with castle := some c }
      match s.dueCore c with
      | some _ => s
      | none => s.endAbort c result core

/-- HOLDUP or chip reset cuts a castling short (R489, R491). -/
def State.cutCastle (s : State) : State :=
  match s.boot.castle with
  | none => s
  | some c =>
    let s := s.noteCastle c 3 (min 23 c.handed)
    s.setBoot { s.boot with castle := none }

/-! ## Handover of one core (R486 to R488) -/

/-- CORE_HANDOVER (R486, Table 16, steps 1 to 5): dispatch to the core stops, its armings end. -/
def execCoreHandover (s : State) : Host.Outcome State Fault Refusal :=
  match s.boot.castle with
  | none => .next s
  | some c =>
    match s.dueCore c with
    | none => .next s
    | some k =>
      answer (s.running && !c.stopped && decide (s.mode = modeCastling ∨ (c.inBoot = true ∧ s.mode = modeBoot))) s
        ((s.setBoot { s.boot with castle := some { c with stopped := true } }).disarmAll (.core (coreAt k)))

/-- A handover ended well: the next core is due, or the castling commits or has been reverted. -/
def State.handedOver (s : State) (c : Castle) (k : Nat) (commitOk : Bool) : State :=
  match c.abort with
  | none =>
    let c := { c with stopped := false, handed := k + 1 }
    let s := s.setBoot { s.boot with castle := some c }
    if (s.dueCore c).isNone then s.commitCastle c commitOk else s
  | some (result, core) =>
    let c := { c with stopped := false, handed := k }
    let s := s.setBoot { s.boot with castle := some c }
    if (s.dueCore c).isNone then s.endAbort c result core else s

/-- HANDOVER_IMPORT_DONE (R486, Table 16, steps 6 and 7). -/
def execHandoverImportDone (commitOk : Bool) (s : State) : Host.Outcome State Fault Refusal :=
  match s.boot.castle with
  | none => .next s
  | some c =>
    match s.dueCore c with
    | none => .next s
    | some k => answer (s.running && c.stopped && decide (s.mode ≠ modeHoldup)) s (s.handedOver c k commitOk)

/-- HANDOVER_TIMEOUT (R488): the core is back on its old half and the castling aborts. -/
def execHandoverTimeout (s : State) : Host.Outcome State Fault Refusal :=
  match s.boot.castle with
  | none => .next s
  | some c =>
    match s.dueCore c with
    | none => .next s
    | some k =>
      answer (s.running && c.stopped && c.abort.isNone && decide (s.mode ≠ modeHoldup)) s (s.abortCastle 1 k)

/-! ## The firmware log (R491) -/

/-- A history entry's 32 bytes. -/
def History.bytes (h : History) : List Byte :=
  leBytes 8 h.seq.toNat ++ h.old.flatMap (leBytes 2) ++ h.new.flatMap (leBytes 2) ++ leBytes 1 h.result ++
    leBytes 1 h.core ++ leBytes 2 0 ++ leBytes 8 h.duration.toNat

/-- Pad a list of bytes with zeros to a length. -/
def padTo (n : Nat) (l : List Byte) : List Byte := l ++ List.replicate (n - l.length) 0

/-- Log 0x06: MANIFEST is the digest that stands for the running manifest's hash. -/
def State.firmwareLog (s : State) : List Byte :=
  let on (k g : Nat) : Nat := match s.imageOn k with | some i => versionOf i.manifest g | none => 0
  let m := s.boot.running.map fun i => i.manifest
  let head := leBytes 2 (on 0 0) ++ leBytes 2 (on 4 1) ++ leBytes 2 (on 8 2) ++
    (imageVersions s.boot.store.committed).flatMap (leBytes 2) ++
    leBytes 2 ((m.map fun x => x.svn).getD 0) ++ leBytes 2 (minSvn s.boot.fuses) ++
    leBytes 4 ((m.map fun x => x.supportEnd).getD 0) ++
    leBytes 1 (s.fld Reg.BOT_STATUS Reg.BOT_STATUS_.SLOT) ++ leBytes 1 (lifecycle s.boot.fuses) ++
    leBytes 1 (slotMask (slotRevoked s.boot.fuses)) ++ leBytes 1 s.debugLevel ++
    leBytes 8 s.boot.store.norCseq.toNat ++ leBytes 48 ((m.map Config.manifestDigest).getD 0) ++
    leBytes 4 s.boot.staging.blocks.length ++ leBytes 2 s.boot.staging.owner
  padTo 640 (padTo 128 head ++ s.boot.history.flatMap History.bytes)

end Sys2Proof.Machine
end

