-- ==== Sys2Proof/Machine/Admin.lean ====
section
/-! DEFINITION. The administrative commands (R91 to R106): HELLO (R102, R103), rings (R92, R94), namespaces (R95), Host Map
Regions (R151, R157), the logs (R105 and the rules of their formats), features (R104), keys (R313), herd membership (R354
to R356). -/

namespace Sys2Proof.Machine

open Sys2Proof

/-! ## HELLO (R102, R103) -/

/-- The CCP versions of the N9, the highest first. -/
def ccpVersions : List Nat := [0x0301, 0x0300, 0x0204]

/-- The versions that a HELLO lists. -/
def helloList (p : BitVec 512) : List Nat := (List.range 4).map fun i => pkSpec p (16 * i) 16

/-- HELLO (R102). -/
def State.helloTurn (s : State) (c : Cmd) : Status × State :=
  let fk := c.fn.key
  match ccpVersions.find? fun v => (helloList c.packet).contains v with
  | some v =>
    (stOk (v + 8192 * 2 ^ 16 + s.maxSq fk * 2 ^ 32 + s.maxCq fk * 2 ^ 48),
      s.setFld (Reg.CCP_FSTAT fk) Reg.CCP_FSTAT_.VERSION v)
  | none => (stVersion (0x0301 + 0x0300 * 2 ^ 16 + 0x0204 * 2 ^ 32), s)

/-! ## Rings (R71, R92 to R94) -/

/-- The rings of each kind that the device holds at most (R71). -/
def ringMax : Nat := 8192

/-- The lowest free index of a kind, from 1 on, up to the function's highest (R71). -/
def freeRing {α : Type} (m : SMap α) (fk top : Nat) : Option Nat :=
  (List.range top).find? (fun i => (m.look (ringKey fk (i + 1))).isNone) |>.map fun i => i + 1

/-- RING_CREATE (R71, R92, R216, R396). -/
def State.ringCreate (s : State) (c : Cmd) : Status × State :=
  let p := c.packet
  let fk := c.fn.key
  let base := BitVec.ofNat 64 (pkDptr p)
  if pkSpec p 63 1 = 0 then
    match freeRing s.cmds.sqs fk (s.maxSq fk) with
    | some i =>
      if ringMax ≤ s.cmds.sqs.length then (stQuota 1, s)
      else
        (stOk i, s.setSq (ringKey fk i) (freshSq base (pkNlb p) (pkSpec p 0 16) (pkSpec p 16 4)
          (s.newRingClass fk (pkSpec p 20 6)) s.homeCore))
    | none => (stQuota 1, s)
  else
    match freeRing s.cmds.cqs fk (s.maxCq fk) with
    | some i =>
      if ringMax ≤ s.cmds.cqs.length then (stQuota 1, s)
      else
        (stOk i, s.setCq (ringKey fk i) (freshCq base (pkNlb p) (pkSpec p 0 16) (pkSpec p 16 8) (pkSpec p 24 8)
          (decide (pkSpec p 32 1 = 1)) (decide (pkSpec p 33 1 = 1))))
    | none => (stQuota 1, s)

/-- The commands of a ring still in flight. -/
def State.ringSlots (s : State) (f : Fn) (ring : Nat) : List Nat :=
  (s.cmds.inflight.filter fun e => decide (e.2.fn = f ∧ e.2.ring = ring)).map fun e => e.1

/-- Abort the commands of a ring that have changed and written nothing (R94). -/
def State.abortRing (s : State) (f : Fn) (ring : Nat) : Nat × State :=
  let hit := s.cmds.inflight.filter fun e =>
    decide (e.2.fn = f ∧ e.2.ring = ring ∧ e.2.stage ≠ .waitHeld) && !e.2.changed
  (hit.length, hit.foldl (fun s e =>
    let s : State := { s with place := { s.place with packs := s.place.packs.filter fun x => decide (x.2.1 ≠ e.1) } }
    s.complete e.1 stAbortedHost) s)

/-- RING_DELETE of a submission ring stops it and discards its unfetched slots; the command waits for the ring's last
record (R94). RESULT is kept in the command. -/
def State.ringStop (s : State) (slot : Nat) (c : Cmd) : State :=
  let p := c.packet
  let f := c.fn
  let i := pkSpec p 0 16
  match s.cmds.sqs.look (ringKey f.key i) with
  | none => s
  | some r =>
    let left := r.rung - r.fetched
    let s := s.setSq (ringKey f.key i) { r with stopped := true, rung := r.fetched, bells := [] }
    let a := if pkSpec p 16 1 = 1 then s.abortRing f i else (0, s)
    a.2.updCmd slot fun c => { c with result := left + a.1 * 2 ^ 32, stage := .waitRingEnd }

/-- A submission ring is gone, and with it what was noted of it (R120). -/
def State.dropSq (s : State) (f : Fn) (ring : Nat) : State :=
  let forget (l : List (Nat × Nat)) : List (Nat × Nat) := l.filter fun x => decide (x.1 ≠ ring)
  { s with cmds := { s.cmds with
      sqs := (s.cmds.sqs.del (ringKey f.key ring)).map fun e =>
        if e.1 / 65536 = f.key then
          (e.1, { e.2 with bells := e.2.bells.map fun b => { b with notes := forget b.notes } })
        else e
      inflight := s.cmds.inflight.map fun e =>
        if e.2.fn = f then (e.1, { e.2 with notes := forget e.2.notes }) else e } }

/-- A RING_DELETE that waits ends once the ring has no command left (R94). -/
def State.ringEnd (s : State) (slot : Nat) (c : Cmd) : State :=
  let i := pkSpec c.packet 0 16
  if (s.ringSlots c.fn i).isEmpty then
    (s.dropSq c.fn i).complete slot (stOk c.result)
  else s

/-- RING_DELETE (R92, R94). -/
def State.ringDelete (s : State) (slot : Nat) (c : Cmd) : State :=
  let p := c.packet
  if pkSpec p 63 1 = 1 then
    ({ s with cmds := { s.cmds with cqs := s.cmds.cqs.del (ringKey c.fn.key (pkSpec p 0 16)) } } : State).complete slot
      (stOk 0)
  else
    let s := s.ringStop slot c
    match s.cmds.inflight.look slot with
    | some c => s.ringEnd slot c
    | none => s

/-! ## Namespaces (R95) -/

/-- The NS_CREATE of a local or herd namespace: its record before placement. -/
def newNamespace (p : BitVec 512) : Namespace :=
  { Namespace.blank with
    kind := if pkSpec p 0 2 = 3 then .herdNs else .localNs
    layout := pkSpec p 0 2
    size := pkSlba p
    hostTallies := decide (pkSpec p 2 1 = 1)
    encrypted := decide (pkSpec p 3 1 = 1)
    herd := pkSpec p 16 16 }

/-- A herd namespace that this N9 creates gets its key and is homed here (R331, R344). -/
def State.homeNew (s : State) (nsid : Nat) : State :=
  match s.nss.look nsid with
  | none => s
  | some n =>
    if n.kind ≠ .herdNs then s
    else
      let hkey := s.selfId * 65536 + nsid
      let s := s.setNs nsid { n with hkey := hkey }
      match s.placementFor hkey with
      | some p =>
        s.setHomed nsid { segments := [], target := p, boundary := 0, checkpoint := 0, sweeping := false, held := none,
                          rebuilding := false, ahead := [], stampEpoch := s.epoch }
      | none => s

/-- NS_CREATE (R95, R140). -/
def State.nsCreate (s : State) (c : Cmd) : Status × State :=
  let p := c.packet
  let r := if pkSpec p 4 1 = 1 then s.createSystem (pkSlba p) else s.createMapped (newNamespace p) none
  match r with
  | .ok (nsid, t) => (stOk nsid, t.homeNew nsid)
  | .error .count => (stQuota 4, s)
  | .error .space => (stSpace, s)

/-- The function that NS_ATTACH names. -/
def attachTarget (p : BitVec 512) : Fn := { port := Port.ofNum (pkSpec p 16 1), idx := pkSpec p 0 16 }

/-- Whether a command of a function past validation names a namespace (R95). -/
def State.fnBusy (s : State) (f : Fn) (nsid : Nat) : Bool :=
  s.cmds.inflight.any fun e =>
    decide (e.2.fn = f ∧ pkNsid e.2.packet = nsid ∧ e.2.judged = 10 ∧ e.2.stage ≠ .waitHeld) && isIo (pkOpcode e.2.packet)

/-- A detach that waits ends once no validated command of the target is left (R95). -/
def State.detachEnd (s : State) (slot : Nat) (c : Cmd) : State :=
  if s.fnBusy (attachTarget c.packet) (pkNsid c.packet) then s.updCmd slot fun c => { c with stage := .waitDetach }
  else s.complete slot (stOk 0)

/-- NS_ATTACH (R95, R99). -/
def State.nsAttach (s : State) (slot : Nat) (c : Cmd) : State :=
  let p := c.packet
  let f := attachTarget p
  match s.nss.look (pkNsid p) with
  | none => s.complete slot (stFenced 4)
  | some n =>
    if pkSpec p 17 1 = 1 then
      (s.setNs (pkNsid p) { n with attached := n.attached.filter fun x => decide (x ≠ f) }).detachEnd slot c
    else if n.kind = .herdNs ∧ s.version f.key = 0x0204 then s.complete slot (stVersion 0)
    else if n.attached.contains f then s.complete slot (stOk 0)
    else (s.setNs (pkNsid p) { n with attached := n.attached ++ [f] }).complete slot (stOk 0)

/-! ## Host Map Regions (R151, R157) -/

/-- MAP_REGION_ADD (R151). -/
def State.regionAdd (s : State) (c : Cmd) : Status × State :=
  let p := c.packet
  match s.map.regionRefusal c.fn.port (pkDptr p) (pkNlb p) with
  | some off => (stInvalidField off, s)
  | none =>
    let r := s.map.addRegion c.fn.port (BitVec.ofNat 64 (pkDptr p)) (pkNlb p) (pkSpec p 0 16)
    (stOk r.1, { s with map := r.2 })

/-- Whether reads issued to host memory are still outstanding at a port for pages that have left their slots (R157). -/
def State.regionReads (s : State) (p : Port) : Bool :=
  (s.portOf p).tags.any fun t =>
    match t.owner with
    | .mapPage m => !t.quarantined && !(s.map.fetches.any fun f => decide (f.mpn = m) && f.fromHost)
    | _ => false

/-- A region's removal ends once its reads have completed or timed out (R157). -/
def State.regionEnd (s : State) (slot : Nat) (c : Cmd) : State :=
  if s.regionReads c.fn.port then s.updCmd slot fun c => { c with stage := .waitRegion }
  else
    ({ s with map := s.map.setRegions (s.map.regions.del (pkSpec c.packet 0 16)) } : State).complete slot (stOk 0)

/-- MAP_REGION_REMOVE (R151, R157): pages fetched from the region go on from flash. -/
def State.regionRemove (s : State) (slot : Nat) (c : Cmd) : State :=
  let id := pkSpec c.packet 0 16
  match s.map.regions.look id with
  | none => s.complete slot (stInvalidField 56)
  | some r =>
    if r.port ≠ c.fn.port then s.complete slot (stInvalidField 56)
    else
      let inIt (mpn : Nat) : Bool :=
        decide ((s.map.dirOf mpn).loc = .host ∧ (s.map.dirOf mpn).port = r.port) &&
          (match slotPlace (s.map.regionsOf r.port) (s.map.dirOf mpn).index with
           | some (i, _) => decide (i = id)
           | none => false)
      let fs := fetchesToFlash s.map.fetches inIt
      let m := s.map.releaseSlots fun i => decide (i = id)
      ({ s with map := { m with regions := m.regions.put id { r with removing := true }, fetches := fs } } : State).regionEnd
        slot c

/-! ## Logs (R105, Table 17) -/

/-- The entry of log 0x02 under an index as a function sees it (R138). -/
def State.deferredEntry (s : State) (f : Fn) (i : Nat) : List Byte :=
  match s.deferred.look i with
  | some e =>
    let seen := decide (f.idx = 0) || (match s.nss.look e.nsid with | some n => n.attached.contains f | none => false)
    if seen then e.bytes else List.replicate 64 0
  | none => List.replicate 64 0

/-- The entry of log 0x03 under an index (R214, Table 9). -/
def State.lostEntry (s : State) (i : Nat) : List Byte :=
  match s.place.lost.look i with
  | some e =>
    padTo 64 (leBytes 4 (e.st * 2 ^ 28 + e.cause * 2 ^ 16 + e.nsid) ++ leBytes 4 e.band ++ leBytes 8 e.slba ++
      leBytes 8 e.nlb ++ leBytes 8 e.seq.toNat ++ leBytes 4 e.stripe)
  | none => List.replicate 64 0

/-- An entry of the event log (R507, Table 8). -/
def LogEntry.bytes (e : LogEntry) : List Byte :=
  padTo 64 (leBytes 8 e.seq.toNat ++ leBytes 8 e.time.toNat ++ leBytes 2 e.window ++ leBytes 2 e.unit ++
    leBytes 1 e.kind ++ leBytes 1 e.detail ++ leBytes 2 e.severity ++ e.data)

/-- Log 0x04 (R508). -/
def State.eventLog (s : State) : List Byte :=
  let seqOf (e : Option LogEntry) : Nat := match e with | some x => x.seq.toNat | none => 0
  padTo 64 (leBytes 8 s.evlog.length ++ leBytes 8 (seqOf s.evlog.head?) ++ leBytes 8 (seqOf s.evlog.getLast?)) ++
    s.evlog.flatMap LogEntry.bytes

/-- The spare share in 0.01 % (R239, RCL_CAPSTAT.SPARE). -/
def State.spare (s : State) : Nat :=
  if s.capacity ≤ s.committed then 0 else 10000 * (s.capacity - s.committed) / s.capacity

/-- The open entries of the deferred-error log (R137, ORD_DEFOPEN). -/
def State.openDeferred (s : State) : Nat := (s.deferred.filter fun e => e.2.isOpen).length

/-- Log 0x05 (R509, Table 9). -/
def State.healthLog (s : State) : List Byte :=
  padTo 64 (leBytes 1 (s.reg Reg.MOD_STATE).toNat ++ leBytes 1 s.deviceCap ++ leBytes 2 s.spare ++
    leBytes 4 (s.reg Reg.MOD_REASON).toNat ++ leBytes 2 (s.reg Reg.PWR_TEMP).toNat ++
    leBytes 2 (s.fld Reg.PWR_ENERGY Reg.PWR_ENERGY_.FACTOR) ++ leBytes 4 (s.fld Reg.MOD_HALT Reg.MOD_HALT_.LAST_CAUSE) ++
    leBytes 8 (s.reg Reg.MOD_HOURS).toNat ++ leBytes 4 (s.fld Reg.PWR_HOLDUPS ctrCount) ++
    leBytes 4 (s.reg Reg.RCL_RETIRED).toNat ++ leBytes 4 (s.fld Reg.ECC_UNCORR ctrCount) ++
    leBytes 4 (s.fld Reg.PLC_LOSTUNITS ctrCount) ++ leBytes 4 s.openDeferred)

/-- The bytes of a flock map (R327, Tables 5 and 6). -/
def mapBytes (m : FlockMap) : List Byte :=
  let member (e : MapMember) : List Byte :=
    padTo 48 (leBytes 2 e.id ++ leBytes 2 e.state ++ leBytes 4 e.herd ++ leBytes 8 e.serial.toNat ++
      padTo 24 (e.macs.flatMap fun x => (leBytes 6 x.toNat).reverse))
  let herd (h : MapHerd) : List Byte :=
    leBytes 2 h.herd ++ leBytes 1 h.k ++ leBytes 1 h.m ++ leBytes 1 h.layout ++ leBytes 1 h.members.length ++
      List.replicate 10 0 ++ (List.range 32).flatMap fun i => leBytes 2 ((h.members[i]?).getD 0xFFFF)
  let home (e : MapHome) : List Byte :=
    leBytes 4 e.hkey ++ leBytes 2 e.herd ++
      leBytes 2 (e.home + (if e.hostTallies then 2 ^ 13 else 0) + if e.encrypted then 2 ^ 14 else 0) ++
      leBytes 6 e.size ++ leBytes 2 e.nstag.toNat
  padTo 64 (leBytes 4 m.magic.toNat ++ leBytes 2 m.format.toNat ++ leBytes 2 m.flock ++ leBytes 8 m.epoch ++
    leBytes 4 m.length ++ leBytes 2 m.members.length ++ leBytes 2 m.herds.length ++ leBytes 4 m.homes.length) ++
    m.members.flatMap member ++ m.herds.flatMap herd ++ m.homes.flatMap home ++ leBytes 3405 m.signature

/-- A member entry of log 0x07; SILENT is the free value `silent` (R357). -/
def State.memberEntry (s : State) (e : MapMember) (silent : DWord) : List Byte :=
  let l := s.linkOf e.id
  let st : Nat := match l.st with | .closed => 0 | .helloSent => 1 | .up => 2
  let log := match s.herd.missLogs.look e.id with
    | some m => m.stripes.length + if m.incomplete then 2 ^ 31 else 0
    | none => 0
  padTo 32 (leBytes 2 e.id ++ leBytes 1 e.state ++ leBytes 1 (st + l.plane * 16) ++
    leBytes 2 (if l.st = .up then l.version else 0) ++ leBytes 2 l.vmax ++ leBytes 4 silent.toNat ++ leBytes 4 log)

/-- A namespace entry of log 0x07 (R357). -/
def State.homedEntry (s : State) (nsid : Nat) (n : Namespace) (h : Homed) : List Byte :=
  let flag (b : Bool) (v : Nat) : Nat := if b then v else 0
  leBytes 4 n.hkey ++ leBytes 2 nsid ++ leBytes 1 (max 1 h.segments.length) ++
    leBytes 1 (flag h.sweeping 1 + flag h.rebuilding 2 + flag h.held.isSome 4) ++ leBytes 8 h.boundary ++
    leBytes 8 (s.herd.jobs.filter fun e => decide (e.2.hkey = n.hkey)).length ++ leBytes 8 h.stampEpoch

/-- The members of this N9's herd in the map in force. -/
def State.herdMembers (s : State) : List MapMember :=
  match s.herd.map with
  | none => []
  | some m =>
    match m.herd s.herdId with
    | some h => h.members.filterMap fun i => m.member i
    | none => []

/-- Log 0x07 (R357, Table 10); the SILENT fields are the next free values. -/
def State.herdLog (s : State) : List Byte :=
  let ms := s.herdMembers
  let homed := s.herd.homed.filterMap fun e => (s.nss.look e.1).map fun n => (e.1, n, e.2)
  let flag (b : Bool) (v : Nat) : Nat := if b then v else 0
  let map := match s.herd.map with | some m => mapBytes m | none => []
  let head := leBytes 2 s.flockId ++ leBytes 2 s.selfId ++ leBytes 2 s.herdId ++
    leBytes 1 ((s.herd.shape.map fun h => h.k).getD 0) ++ leBytes 1 ((s.herd.shape.map fun h => h.m).getD 0) ++
    leBytes 8 s.epoch ++ leBytes 2 s.herdVersion ++ leBytes 1 ms.length ++
    leBytes 1 (flag s.joined 1 + flag s.herd.leaseHeld 2 + flag s.herd.evicted 4 + flag s.herd.shapeHeld 8) ++
    leBytes 4 homed.length ++ leBytes 4 (1088 + 32 * homed.length) ++ leBytes 4 map.length
  padTo 64 head ++
    padTo 1024 (((List.range ms.length).zip ms).flatMap fun e =>
      s.memberEntry e.2 (Config.freeWord (s.free + e.1))) ++
    (homed.flatMap fun e => s.homedEntry e.1 e.2.1 e.2.2) ++ map

/-- An entry of log 0x08 (R186, Table 23). -/
def State.nsEntry (s : State) (nsid : Nat) (n : Namespace) : List Byte :=
  let flag (b : Bool) (v : Nat) : Nat := if b then v else 0
  let kind : Nat := match n.kind with | .localNs => 0 | .herdNs => 1 | .systemNs => 2
  let sys := decide (n.kind = .systemNs)
  let mapped := ((List.range (n.size / 4)).filter fun u => meV (s.entryOf n u) || meS (s.entryOf n u)).length
  padTo 64 (leBytes 2 nsid ++ leBytes 1 kind ++ leBytes 1 (if sys then 0xFF else n.layout) ++
    leBytes 2 (if kind = 1 then n.herd else 0) ++
    leBytes 1 (flag n.hostTallies 1 + flag n.encrypted 2 + flag n.keyLoaded.isSome 4) ++ leBytes 1 (s.nsCap n) ++
    leBytes 8 n.size ++ leBytes 8 (if sys then 0 else mapped) ++ leBytes 4 n.attached.length ++
    leBytes 4 (if sys then 4 * n.slcPages else 0))

/-- Log 0x08 as a function sees it (R186). -/
def State.nsList (s : State) (f : Fn) : List Byte :=
  let l := s.nss.filter fun e => decide (f.idx = 0) || e.2.attached.contains f
  padTo 64 (leBytes 4 l.length) ++ l.flatMap fun e => s.nsEntry e.1 e.2

/-- The bytes of a log as a function sees it (R105). -/
def State.logBytes (s : State) (f : Fn) (id : Nat) : List Byte :=
  if id = 1 then (s.fnOf f.key).errLog.flatMap fun e => bytesOf e 64
  else if id = 2 then (List.range deferredMax).flatMap fun i => s.deferredEntry f i
  else if id = 3 then (List.range lostMax).flatMap fun i => s.lostEntry i
  else if id = 4 then s.eventLog
  else if id = 5 then s.healthLog
  else if id = 6 then s.firmwareLog
  else if id = 7 then s.herdLog
  else if id = 8 then s.nsList f
  else []

/-- Part of a log: zeros beyond its end (R105). -/
def logPart (l : List Byte) (off n : Nat) : List Byte := padTo n ((l.drop off).take n)

/-- The free values that reading a log takes: the SILENT fields of log 0x07. -/
def State.afterLog (s : State) (id : Nat) : State :=
  if id = 7 then { s with free := s.free + s.herdMembers.length } else s

/-- LOG_GET (R105). -/
def State.logGet (s : State) (c : Cmd) : Status × State :=
  let p := c.packet
  let id := pkSpec p 0 8
  let l := s.logBytes c.fn id
  let t := if pkDlen p = 0 then s
    else s.emit (.hostWrite c.fn (BitVec.ofNat 64 (pkDptr p)) (logPart l (pkSlba p) (pkDlen p)))
  (stOk l.length, t.afterLog id)

/-! ## Features (R104, Table 16) -/

/-- The value of feature 0x0003 (R243, Table 5). -/
def State.capFeature (s : State) (n : Namespace) : Nat :=
  n.shrinkTo * 2 ^ 16 + n.fence * 2 ^ 12 + s.deviceCap * 2 ^ 8 + s.nsCap n

/-- The value of a feature for a function; `nsid` names the namespace, `target` the VF of feature 0x0001. -/
def State.featureGet (s : State) (f : Fn) (feat nsid target : Nat) : Nat :=
  if feat = 1 then
    let x := s.fnOf (f.port.num * 512 + target)
    x.maxSq + x.maxCq * 2 ^ 16 + x.cls * 2 ^ 32
  else if feat = 2 then
    match s.nss.look nsid with
    | some n => (if n.hostTallies then 1 else 0) + n.nstag.toNat * 2 ^ 16
    | none => 0
  else if feat = 3 then (match s.nss.look nsid with | some n => s.capFeature n | none => 0)
  else if feat = 4 then s.fld (Reg.HST_CTO f.port.num) Reg.HST_CTO_.CTO_US
  else if feat = 5 then s.fld Reg.HRD_CTRL Reg.HRD_CTRL_.ETHERTYPE
  else (s.reg (Reg.EVT_FEVTEN f.key)).toNat

/-- Write a feature (R104). A new EtherType closes every link (R320); new enables signal the events set (R48). -/
def State.featureSet (s : State) (f : Fn) (feat target value : Nat) : State :=
  if feat = 1 then
    let k := f.port.num * 512 + target
    s.setFn k { s.fnOf k with maxSq := value % 65536, maxCq := value / 65536 % 65536, cls := value / 2 ^ 32 % 64 }
  else if feat = 4 then s.setFld (Reg.HST_CTO f.port.num) Reg.HST_CTO_.CTO_US value
  else if feat = 5 then (s.setFld Reg.HRD_CTRL Reg.HRD_CTRL_.ETHERTYPE value).closeLinks
  else if feat = 6 then
    let a := Reg.EVT_FEVTEN f.key
    let old := s.reg a
    (s.setReg a (BitVec.ofNat 64 value)).signalSet (a - 8) (BitVec.ofNat 64 value &&& ~~~old)
  else s

/-- The VF that feature 0x0001 names: 0 names the issuing VF itself (R104). -/
def featureTarget (f : Fn) (tgt : Nat) : Nat := if tgt = 0 then f.idx else tgt

/-! ## Keys (R313) -/

/-- The checks of KEY_LOAD, in the order of Table 9. -/
def State.keyFault (s : State) (p : BitVec 512) (n : Namespace) (k : KeyBlock) : Option Status :=
  let slot := pkSpec p 0 8
  let id := (fuseSecret s.boot.fuses * 65536 + pkNsid p) * 4 + slot
  if !n.encrypted then some (stInvalidField 4)
  else if 3 < slot then some (stInvalidField 56)
  else if pkDlen p ≠ 1168 then some (stInvalidField 40)
  else if k.format ≠ 1 ∨ k.nsid.toNat ≠ pkNsid p ∨ k.slot ≠ slot ∨ !k.reservedZero then some (stInvalidField 32)
  else if !(s.fld Reg.XTS_SLOTS Reg.XTS_SLOTS_.ENABLED).testBit slot then some (stFenced 3)
  else if !Config.keyUnwraps id k.body then some (stFenced 5)
  else
    match n.keyCheck with
    | some v => if v = Config.keyCheckValue (Config.unwrappedKey k.body) then none else some (stFenced 5)
    | none => none

/-- KEY_LOAD (R310, R313). -/
def State.keyLoad (s : State) (c : Cmd) : Status × State :=
  let p := c.packet
  match s.nss.look (pkNsid p), c.host.key with
  | some n, some k =>
    match s.keyFault p n k with
    | some x => (x, (s.count Reg.XTS_LOADFAIL 1).raise 12 17)
    | none =>
      let key := Config.unwrappedKey k.body
      if n.keyLoaded = some key then (stOk 0, s)
      else
        (stOk 0, (s.setNs (pkNsid p) { n with keyLoaded := some key,
                                               keyCheck := some (Config.keyCheckValue key) }).raise 12 16)
  | some _, none => (stFenced 1, s)
  | none, _ => (stFenced 4, s)

/-! ## Herd membership (R354 to R356) -/

/-- A descriptor fault at an offset (R354). -/
def stDescriptor (offset : Nat) : Status := stInvalidField (offset * 2 ^ 32 + 32)

/-- The state with the identity and the map of a descriptor. -/
def State.takeIdentity (s : State) (d : JoinDescriptor) : State :=
  let s : State := { s with herd := { s.herd with keys := some d.keys } }
  let s := s.setFld Reg.HRD_IDENT Reg.HRD_IDENT_.FLOCK d.flock
  let s := s.setFld Reg.HRD_IDENT Reg.HRD_IDENT_.SELF d.self
  let s := s.setFld Reg.HRD_IDENT Reg.HRD_IDENT_.JOINED 1
  s.installMap d.map

/-- The holding namespace of a descriptor (R334). -/
def State.holdingNs (s : State) (d : JoinDescriptor) : Option State :=
  if d.holdBlocks = 0 then some s
  else
    match s.createMapped { Namespace.blank with kind := .herdNs, layout := 3, size := d.holdBlocks, holding := true,
                                                 herd := s.herdId } none with
    | .ok (_, t) => some t
    | .error _ => none

/-- HERD_JOIN (R354). -/
def State.herdJoin (s : State) (d : JoinDescriptor) : Status × State :=
  let lists := match d.map.member d.self with
    | some e => decide (e.state = 1 ∧ e.serial = s.reg Reg.FUS_SERIAL)
    | none => false
  if d.format ≠ 1 then (stDescriptor 0, s)
  else if s.joined then (stDescriptor 2, s)
  else if 8192 ≤ d.self then (stDescriptor 4, s)
  else if !d.reservedZero then (stDescriptor 6, s)
  else if d.holdBlocks % 20 ≠ 0 then (stDescriptor 8, s)
  else
    match mapFault d.map d.flock d.keys with
    | some off => (stDescriptor (2080 + off), s)
    | none =>
      if !lists then (stDescriptor 4, s)
      else
        match (s.takeIdentity d).holdingNs d with
        | some t => (stOk t.herdId, t.followPeerPorts)
        | none => (stDescriptor 8, s)

/-- HERD_LEAVE (R355). -/
def State.herdLeave (s : State) : State :=
  let s := s.closeLinks
  let s := (s.nss.filter fun e => e.2.holding).foldl (fun s e => s.deleteNs e.1) s
  let s := (s.setReg Reg.HRD_IDENT 0).setReg Reg.HRD_EPOCH 0
  let s : State := { s with herd := State.reset.herd }
  s.followHerd.followPeerPorts

/-- HERD_RESHAPE (R328, R356). -/
def State.herdReshape (s : State) (m : FlockMap) : Status × State :=
  if !s.joined then (stDescriptor 0, s)
  else
    match mapFault m s.flockId (s.herd.keys.getD 0) with
    | some off => (stDescriptor off, s.offerMap m)
    | none => if m.epoch ≤ s.epoch then (stDescriptor 8, s) else (stOk 0, s.installMap m)

/-! ## Administrative commands past validation -/

/-- The staging owner of a physical function (R482). -/
def stagingOwner (f : Fn) : Nat := f.port.num + 1

/-- The descriptor commands whose read of host memory failed (R454). -/
def descriptorFailed (c : Cmd) : Bool :=
  let op := pkOpcode c.packet
  decide (c.host.dataAnswer ≠ .ok) &&
    (decide (op = opFwStage ∨ op = opHerdJoin ∨ op = opHerdReshape) || decide (op = opKeyLoad ∧ pkDlen c.packet ≠ 0))

/-- An administrative command that takes no lock (R91): it completes, or waits for its own end. -/
def State.adminTurn (s : State) (slot : Nat) (c : Cmd) : State :=
  let p := c.packet
  let op := pkOpcode p
  let done (r : Status × State) : State := r.2.complete slot r.1
  if descriptorFailed c then (s.readFailed slot c).complete slot (stFenced 1)
  else if op = opHello then done (s.helloTurn c)
  else if op = opRingCreate then done (s.ringCreate c)
  else if op = opRingDelete then s.ringDelete slot c
  else if op = opNsCreate then done (s.nsCreate c)
  else if op = opNsDelete then done (stOk 0, s.deleteNs (pkNsid p))
  else if op = opNsAttach then s.nsAttach slot c
  else if op = opRegionAdd then done (s.regionAdd c)
  else if op = opRegionRemove then s.regionRemove slot c
  else if op = opLogGet then done (s.logGet c)
  else if op = opFeatureSet then
    done (stOk 0, s.featureSet c.fn (pkSpec p 0 16) (featureTarget c.fn (pkSpec p 16 16)) (pkSlba p))
  else if op = opFeatureGet then
    done (stOk (s.featureGet c.fn (pkSpec p 0 16) (pkNsid p) (featureTarget c.fn (pkSpec p 16 16))), s)
  else if op = opFwStage then
    match c.host.piece with
    | some x => done (s.fwStage (stagingOwner c.fn) (pkSlba p) (pkDlen p / 4096) (decide (pkSpec p 0 1 = 1)) x)
    | none => s.complete slot (stFenced 1)
  else if op = opFwCastle then done (s.fwCastle (stagingOwner c.fn))
  else if op = opHerdJoin then
    match c.host.join with
    | some d => done (s.herdJoin d)
    | none => s.complete slot (stFenced 1)
  else if op = opHerdLeave then done (stOk 0, s.herdLeave)
  else if op = opHerdReshape then
    match c.host.map with
    | some m => done (s.herdReshape m)
    | none => s.complete slot (stFenced 1)
  else if op = opKeyLoad then done (s.keyLoad c)
  else s

end Sys2Proof.Machine
end

