-- ==== Sys2Proof/Machine/Pipeline.lean ====
section
/-! DEFINITION. The way of a command from its fetch to its record: validation (R89), order (R120 to R122), pips (R399),
admission and range locks (R111 to R118), its operation, and the events that let a waiting command go on. -/

namespace Sys2Proof.Machine

open Sys2Proof

/-! ## Order (R120 to R122) -/

/-- Whether packets of a ring up to a noted count are still unfetched and may yet run (R79, R94, R120). -/
def State.unfetched (s : State) (f : Fn) (ring count : Nat) : Bool :=
  match s.cmds.sqs.look (ringKey f.key ring) with
  | some r => !r.faulted && !r.stopped && decide (r.fetched < count)
  | none => false

/-- Whether a barrier's noted packets have not all been admitted (R120). -/
def State.barrierWaits (s : State) (slot : Nat) (c : Cmd) : Bool :=
  decide (pkOpcode c.packet = opBarrier) && (c.notes.any fun x =>
    s.unfetched c.fn x.1 x.2 || (s.cmds.inflight.any fun e =>
      decide (e.1 ≠ slot ∧ e.2.fn = c.fn ∧ e.2.ring = x.1 ∧ e.2.number < x.2) && beforeAdmission e.2))

/-- Whether the command that an order-after token names may still run (R121). -/
def State.tokenWaits (s : State) (slot : Nat) (c : Cmd) : Bool :=
  let ring := pkOaRing c.packet
  pkOa c.packet && (s.cmds.sqs.look (ringKey c.fn.key ring)).isSome &&
    ((c.notes.any fun x => decide (x.1 = ring) && s.unfetched c.fn ring x.2) ||
      (s.cmds.inflight.any fun e =>
        decide (e.1 ≠ slot ∧ e.2.fn = c.fn ∧ e.2.ring = ring ∧ pkCid e.2.packet = pkOaCid c.packet)))

/-- The NS_RESIZE commands of a namespace that have passed validation; `result` holds their order of arrival (R95). -/
def State.resizes (s : State) (nsid : Nat) : List (Nat × Cmd) :=
  s.cmds.inflight.filter fun e =>
    decide (pkOpcode e.2.packet = opNsResize ∧ pkNsid e.2.packet = nsid ∧ e.2.judged = 10 ∧ e.2.result ≠ 0)

/-- Whether an NS_RESIZE waits for one that arrived before it, as a token naming that one would have it (R95). -/
def State.resizeWaits (s : State) (slot : Nat) (c : Cmd) : Bool :=
  decide (pkOpcode c.packet = opNsResize) &&
    (s.resizes (pkNsid c.packet)).any fun e => decide (e.1 ≠ slot ∧ e.2.result < c.result)

/-- Whether a command is held outside the admission order (R95, R122). -/
def State.orderWaits (s : State) (slot : Nat) (c : Cmd) : Bool :=
  s.barrierWaits slot c || s.tokenWaits slot c || s.resizeWaits slot c

/-! ## Operation -/

/-- What an I/O command does under its locks: it is judged again under check 7 (R95). -/
def State.ioTurn (s : State) (slot : Nat) (c : Cmd) (n : Namespace) : Turned :=
  let p := c.packet
  let op := pkOpcode p
  if n.size < pkSlba p + pkNlb p then (.over (stOutOfRange n.size), s)
  else if op = opBarrier then (.over (stOk 0), s)
  else if op = opTrim then s.trimTurn slot c n
  else if op = opWrite ∨ op = opWriteZeroes then s.writeTurn slot c n
  else s.readTurn slot c n

/-- Follow what an operation answered: the command ends, or waits at a stage. -/
def Turned.follow (r : Turned) (slot : Nat) : State :=
  match r.1 with
  | .over x => r.2.complete slot x
  | .wait st => r.2.updCmd slot fun c => { c with stage := st }

/-- A command's operation, begun or resumed under its locks. -/
def State.perform (s : State) (slot : Nat) : State :=
  match s.cmds.inflight.look slot with
  | none => s
  | some c =>
    let op := pkOpcode c.packet
    let t :=
      if isIo op ∨ op = opNsResize then
        match s.nss.look (pkNsid c.packet) with
        | none => s.complete slot (stFenced 4)
        | some n => (if op = opNsResize then s.resizeTurn c n else s.ioTurn slot c n).follow slot
      else s.adminTurn slot c
    t.finishPacked.reapDeposed

/-! ## Admission (R116 to R118) -/

/-- The lock entries of a command (R111 to R114). -/
def State.lockList (s : State) (slot : Nat) (c : Cmd) : List Lock :=
  let p := c.packet
  let op := pkOpcode p
  let nsid := pkNsid p
  let range (excl : Bool) (a n : Nat) : List Lock := if n = 0 then [] else rangeLocks excl nsid a (a + n - 1) slot
  if op = opBarrier ∧ pkNlb p = 0 then [wholeLock nsid slot]
  else if op = opBarrier ∨ changesBlocks op then range true (pkSlba p) (pkNlb p)
  else if movesData op then range false (pkSlba p) (pkNlb p)
  else if op = opNsResize then
    match s.nss.look nsid with
    | some n => range true (min n.size (pkSlba p)) (max n.size (pkSlba p) - min n.size (pkSlba p))
    | none => []
  else []

/-- Whether the cover of a command's range is coarsened (R114, R139). -/
def State.lockCoarse (s : State) (c : Cmd) : Bool :=
  let p := c.packet
  let op := pkOpcode p
  let of (a n : Nat) : Bool := decide (n ≠ 0) && coarsened (a / 4) ((a + n - 1) / 4)
  if isIo op then of (pkSlba p) (pkNlb p)
  else if op = opNsResize then
    match s.nss.look (pkNsid p) with
    | some n => of (min n.size (pkSlba p)) (max n.size (pkSlba p) - min n.size (pkSlba p))
    | none => false
  else false

/-- Insert a command's entries and query with each: it proceeds, or waits for earlier locks (R116). -/
def State.admitNow (s : State) (slot : Nat) (c : Cmd) : State :=
  let locks := s.cmds.locks ++ s.lockList slot c
  let s := if s.lockCoarse c then s.count Reg.ORD_COARSENED 1 else s
  let s : State := { s with cmds := { s.cmds with locks := locks } }
  let s := s.updCmd slot fun c => { c with stage := .waitLock }
  if lockBlocked locks slot then s else s.perform slot

/-- Whether the range-lock partition has room for a command's entries (R118). -/
def State.lockRoom (s : State) (slot : Nat) (c : Cmd) : Bool :=
  decide (s.cmds.locks.length + (s.lockList slot c).length ≤ lockEntries)

/-- A command comes to the admission order: it is admitted, or waits behind those before it (R116, R118). -/
def State.enterAdmission (s : State) (slot : Nat) (c : Cmd) : State :=
  if s.cmds.admission.isEmpty && s.lockRoom slot c then s.admitNow slot c
  else
    let s := if s.cmds.admission.isEmpty then (s.raise 3 16).count Reg.ORD_STALLS 1 else s
    let s : State := { s with cmds := { s.cmds with admission := s.cmds.admission ++ [slot] } }
    s.updCmd slot fun c => { c with stage := .waitAdmit }

/-- A command has its pips and comes to the admission order (R399). -/
def State.reserve (s : State) (slot : Nat) (c : Cmd) : State :=
  let d := s.demand c.packet
  let c : Cmd := { c with cmdPip := true, sramPips := d.1, sdramPips := d.2 }
  (s.setCmd slot c).enterAdmission slot c

/-- Ask for a command's demand; without free pips, or behind others of its class, it waits and holds nothing (R399). -/
def State.askPips (s : State) (slot : Nat) (c : Cmd) : State :=
  if s.classWaits c.cls || !s.pipsFree c.cls (s.demand c.packet) then
    let s : State := { s with pools := { s.pools with pipWaits := s.pools.pipWaits ++ [(c.cls, slot)] } }
    s.updCmd slot fun c => { c with stage := .waitPips }
  else s.reserve slot c

/-- A validated command goes into order (R120 to R122). -/
def State.order (s : State) (slot : Nat) (c : Cmd) : State :=
  if s.orderWaits slot c then s.updCmd slot fun c => { c with stage := .waitOrder } else s.askPips slot c

/-! ## Interpretation -/

/-- Whether the home core of a command's ring takes packets: neither failed nor stopped for its handover (R216, R486,
R498). -/
def State.coreTakes (s : State) (c : Cmd) : Bool :=
  match s.cmds.sqs.look (ringKey c.fn.key c.ring) with
  | some r => !s.coreFailed .command r.home && !s.coreStopped .command r.home
  | none => false

/-- Whether an I/O command names a namespace that this N9 homes while it has no lease (R332). -/
def State.noLease (s : State) (p : BitVec 512) : Bool :=
  isIo (pkOpcode p) && s.homes (pkNsid p) && !s.herd.leaseHeld

/-- The place of arrival of the next NS_RESIZE of a namespace. -/
def State.nextResize (s : State) (nsid : Nat) : Nat :=
  1 + (s.resizes nsid).foldl (fun m e => max m e.2.result) 0

/-- Validate a fetched command (R89): the first check that fails ends it; one that passes them all goes into order. -/
def State.interpret (s : State) (slot : Nat) (c : Cmd) : State :=
  match s.validate slot c.fn c.ring c.cls c.packet c.host with
  | (n, some x) =>
    let s := if n = 7 ∧ s.listTimedOut c.fn c.packet c.host then s.hostTimeout c.fn.port (.command slot) else s
    (s.setCmd slot { c with judged := n }).complete slot x
  | (n, none) =>
    let c : Cmd := { c with judged := n }
    let c : Cmd :=
      if pkOpcode c.packet = opNsResize then { c with result := s.nextResize (pkNsid c.packet) } else c
    let s := s.setCmd slot c
    if s.noLease c.packet then s.complete slot (stFenced 4) else s.order slot c

/-- The command of an opcode fetched into a slot, with what host memory holds for it, if it is its turn (R116, R122). -/
def State.runnable (s : State) (slot : Nat) (ok : Nat → Bool) : Option Cmd :=
  match s.cmds.inflight.look slot with
  | none => none
  | some c =>
    if s.serving && decide (c.stage = .fetched) && ok (pkOpcode c.packet) && s.isTurn c && s.coreTakes c then some c
    else none

/-- Run a fetched command of an opcode. -/
def runCommand (op slot : Nat) (h : HostSide) (s : State) : Host.Outcome State Fault Refusal :=
  match s.runnable slot fun x => decide (x = op) with
  | none => .next s
  | some c => .next (s.interpret slot { c with host := h })

/-! ## The commands of Tables 11 and 12 -/

/-- READ (R90, R127, R297, R299). -/
def execRead (slot : Nat) (h : HostSide) (s : State) : Host.Outcome State Fault Refusal :=
  runCommand opRead slot h s

/-- WRITE (R126, R194 to R205). -/
def execWrite (slot : Nat) (h : HostSide) (s : State) : Host.Outcome State Fault Refusal :=
  runCommand opWrite slot h s

/-- TRIM (R203). -/
def execTrim (slot : Nat) (h : HostSide) (s : State) : Host.Outcome State Fault Refusal :=
  runCommand opTrim slot h s

/-- WRITE_ZEROES (R90, R194). -/
def execWriteZeroes (slot : Nat) (h : HostSide) (s : State) : Host.Outcome State Fault Refusal :=
  runCommand opWriteZeroes slot h s

/-- COMPARE (R90, R299). -/
def execCompare (slot : Nat) (h : HostSide) (s : State) : Host.Outcome State Fault Refusal :=
  runCommand opCompare slot h s

/-- ORDER_BARRIER (R120). -/
def execOrderBarrier (slot : Nat) (h : HostSide) (s : State) : Host.Outcome State Fault Refusal :=
  runCommand opBarrier slot h s

/-- GATHER_READ (R415). -/
def execGatherRead (slot : Nat) (h : HostSide) (s : State) : Host.Outcome State Fault Refusal :=
  runCommand opGatherRead slot h s

/-- HELLO (R102, R103). -/
def execHello (slot : Nat) (h : HostSide) (s : State) : Host.Outcome State Fault Refusal :=
  runCommand opHello slot h s

/-- RING_CREATE (R71, R92). -/
def execRingCreate (slot : Nat) (h : HostSide) (s : State) : Host.Outcome State Fault Refusal :=
  runCommand opRingCreate slot h s

/-- RING_DELETE (R94). -/
def execRingDelete (slot : Nat) (h : HostSide) (s : State) : Host.Outcome State Fault Refusal :=
  runCommand opRingDelete slot h s

/-- NS_CREATE (R95, R140, R177, R240, R331). -/
def execNsCreate (slot : Nat) (h : HostSide) (s : State) : Host.Outcome State Fault Refusal :=
  runCommand opNsCreate slot h s

/-- NS_DELETE (R95, R135, R150). -/
def execNsDelete (slot : Nat) (h : HostSide) (s : State) : Host.Outcome State Fault Refusal :=
  runCommand opNsDelete slot h s

/-- NS_ATTACH (R95). -/
def execNsAttach (slot : Nat) (h : HostSide) (s : State) : Host.Outcome State Fault Refusal :=
  runCommand opNsAttach slot h s

/-- NS_RESIZE (R95, R240). -/
def execNsResize (slot : Nat) (h : HostSide) (s : State) : Host.Outcome State Fault Refusal :=
  runCommand opNsResize slot h s

/-- MAP_REGION_ADD (R151). -/
def execMapRegionAdd (slot : Nat) (h : HostSide) (s : State) : Host.Outcome State Fault Refusal :=
  runCommand opRegionAdd slot h s

/-- MAP_REGION_REMOVE (R151, R157). -/
def execMapRegionRemove (slot : Nat) (h : HostSide) (s : State) : Host.Outcome State Fault Refusal :=
  runCommand opRegionRemove slot h s

/-- LOG_GET (R105). -/
def execLogGet (slot : Nat) (h : HostSide) (s : State) : Host.Outcome State Fault Refusal :=
  runCommand opLogGet slot h s

/-- FEATURE_SET (R104). -/
def execFeatureSet (slot : Nat) (h : HostSide) (s : State) : Host.Outcome State Fault Refusal :=
  runCommand opFeatureSet slot h s

/-- FEATURE_GET (R104). -/
def execFeatureGet (slot : Nat) (h : HostSide) (s : State) : Host.Outcome State Fault Refusal :=
  runCommand opFeatureGet slot h s

/-- FW_STAGE (R482). -/
def execFwStage (slot : Nat) (h : HostSide) (s : State) : Host.Outcome State Fault Refusal :=
  runCommand opFwStage slot h s

/-- FW_CASTLE (R483). -/
def execFwCastle (slot : Nat) (h : HostSide) (s : State) : Host.Outcome State Fault Refusal :=
  runCommand opFwCastle slot h s

/-- KEY_LOAD (R313). -/
def execKeyLoad (slot : Nat) (h : HostSide) (s : State) : Host.Outcome State Fault Refusal :=
  runCommand opKeyLoad slot h s

/-! ## Waits that end -/

/-- Go on with a command at a stage when a condition holds. -/
def State.goOn (s : State) (slot : Nat) (st : Stage) (ok : Cmd → Bool) (f : State → Cmd → State) : State :=
  match s.cmds.inflight.look slot with
  | none => s
  | some c => if decide (c.stage = st) && ok c then f s c else s

/-- Begin a waiting command's operation again. -/
def State.retry (s : State) (slot : Nat) (st : Stage) : State :=
  s.goOn slot st (fun _ => true) fun s _ => s.perform slot

/-- The commands at a stage. -/
def State.slotsAt (s : State) (st : Stage) : List Nat :=
  (s.cmds.inflight.filter fun e => decide (e.2.stage = st)).map fun e => e.1

/-- The commands that wait for fragments look again whether those have come (R343). -/
def State.wakeHerd (s : State) : State :=
  (s.slotsAt .waitHerd).foldl (fun s slot => s.retry slot .waitHerd) s

/-- The map pages that a command's lookups and stores need. -/
def State.pagesOf (s : State) (c : Cmd) : List Nat :=
  match s.nss.look (pkNsid c.packet) with
  | none => []
  | some n =>
    if pkOpcode c.packet = opNsResize then [n.mpn (pkSlba c.packet / 4)]
    else ((unitsOf (pkSlba c.packet) (pkNlb c.packet)).map fun u => n.mpn u).dedup

/-- A command that waits for a map page goes on when the page is one of its pages. -/
def wakeSlot (mpn : Nat) (s : State) (slot : Nat) : State :=
  s.goOn slot .waitMap (fun c => (s.pagesOf c).contains mpn) fun s c =>
    (s.setCmd slot { c with pages := mpn :: c.pages }).perform slot

/-- The commands that wait for a page go on: the operation on it has ended (R164). -/
def State.wakeMap (s : State) (mpn : Nat) : State :=
  (s.slotsAt .waitMap).foldl (wakeSlot mpn) s

/-- HERD_JOIN (R354). -/
def execHerdJoin (slot : Nat) (h : HostSide) (s : State) : Host.Outcome State Fault Refusal :=
  runCommand opHerdJoin slot h s

/-- HERD_LEAVE (R355). -/
def execHerdLeave (slot : Nat) (h : HostSide) (s : State) : Host.Outcome State Fault Refusal :=
  runCommand opHerdLeave slot h s

/-- HERD_RESHAPE (R356): commands that wait for fragments look again under the new map. -/
def execHerdReshape (slot : Nat) (h : HostSide) (s : State) : Host.Outcome State Fault Refusal :=
  match s.runnable slot fun x => decide (x = opHerdReshape) with
  | none => .next s
  | some c => .next (s.interpret slot { c with host := h }).wakeHerd

/-- COMMAND_ADMIT (R116, R118): the first command in admission order, once the partition has room. -/
def execCommandAdmit (s : State) : Host.Outcome State Fault Refusal :=
  match s.cmds.admission with
  | [] => .next s
  | slot :: rest =>
    match s.cmds.inflight.look slot with
    | none => .next { s with cmds := { s.cmds with admission := rest } }
    | some c =>
      answer (s.serving && s.lockRoom slot c) s
        (({ s with cmds := { s.cmds with admission := rest } } : State).admitNow slot c)

/-- LOCK_WAIT_END (R116). -/
def execLockWaitEnd (slot : Nat) (s : State) : Host.Outcome State Fault Refusal :=
  answer (s.serving && !lockBlocked s.cmds.locks slot) s (s.retry slot .waitLock)

/-- BARRIER_WAIT_END (R120, R122). -/
def execBarrierWaitEnd (slot : Nat) (s : State) : Host.Outcome State Fault Refusal :=
  answer s.serving s
    (s.goOn slot .waitOrder (fun c => decide (pkOpcode c.packet = opBarrier) && !s.orderWaits slot c) fun s c =>
      s.askPips slot c)

/-- OA_WAIT_END (R121, R122; R95 for an NS_RESIZE behind another). -/
def execOaWaitEnd (slot : Nat) (s : State) : Host.Outcome State Fault Refusal :=
  answer s.serving s
    (s.goOn slot .waitOrder
      (fun c => (pkOa c.packet || decide (pkOpcode c.packet = opNsResize)) && !s.orderWaits slot c) fun s c =>
      s.askPips slot c)

/-- PIP_RESERVE_GRANT (R399): the first command of a class that waits. -/
def execPipReserveGrant (cls : Nat) (s : State) : Host.Outcome State Fault Refusal :=
  match s.pools.pipWaits.find? fun e => decide (e.1 = cls) with
  | none => .next s
  | some e =>
    match s.cmds.inflight.look e.2 with
    | none => .next { s with pools := { s.pools with pipWaits := s.pools.pipWaits.erase e } }
    | some c =>
      answer (s.serving && s.pipsFree cls (s.demand c.packet)) s
        (({ s with pools := { s.pools with pipWaits := s.pools.pipWaits.erase e } } : State).reserve e.2 c)

/-- SPACE_GRANT (R245): a write that waits for space tries for its grant again. -/
def execSpaceGrant (slot : Nat) (s : State) : Host.Outcome State Fault Refusal :=
  answer s.serving s (s.retry slot .waitSpace)

/-- STAGING_ENTRY_GRANT (R204). -/
def execStagingEntryGrant (slot : Nat) (s : State) : Host.Outcome State Fault Refusal :=
  answer s.serving s (s.retry slot .waitEntry)

/-- CHARGE_GRANT (R364). -/
def execChargeGrant (slot : Nat) (s : State) : Host.Outcome State Fault Refusal :=
  answer s.serving s (s.retry slot .waitCharge)

/-- RING_DELETE_COMPLETE (R94). -/
def execRingDeleteComplete (slot : Nat) (s : State) : Host.Outcome State Fault Refusal :=
  answer s.up s (s.goOn slot .waitRingEnd (fun _ => true) fun s c => s.ringEnd slot c)

/-- NS_DETACH_COMPLETE (R95). -/
def execNsDetachComplete (slot : Nat) (s : State) : Host.Outcome State Fault Refusal :=
  answer s.up s (s.goOn slot .waitDetach (fun _ => true) fun s c => s.detachEnd slot c)

/-- MAP_REGION_REMOVE_COMPLETE (R157). -/
def execMapRegionRemoveComplete (slot : Nat) (s : State) : Host.Outcome State Fault Refusal :=
  answer s.up s (s.goOn slot .waitRegion (fun _ => true) fun s c => s.regionEnd slot c)

/-- PACK_WINDOW_EXPIRE (R198). -/
def execPackWindowExpire (dieA dieB : Nat) (s : State) : Host.Outcome State Fault Refusal :=
  answer s.serving s
    (State.packFlush true (s.place.packs.length + 1) s (pairKey (dieA, dieB))).finishPacked.reapDeposed

/-! ## Map pages (R155 to R165, R181 to R183) -/

/-- Give back the tag of a page's read at a port. -/
def State.dropPageTag (s : State) (mpn : Nat) : State :=
  let drop (s : State) (p : Port) : State := s.setPort p ((s.portOf p).dropMapTag mpn)
  drop (drop s .a) .b

/-- HMR_FETCH_COMPLETE (R155, R156, R158, R163, R164): data that comes after the fall-back to flash is discarded. -/
def execHmrFetchComplete (mpn : Nat) (a : HmrAnswer) (s : State) : Host.Outcome State Fault Refusal :=
  let held := [Port.a, Port.b].any fun p =>
    (s.portOf p).tags.any fun t => decide (t.owner = .mapPage mpn) && !t.quarantined
  answer (s.up && held) s
    (let s := s.dropPageTag mpn
     match s.map.fetchOf mpn with
     | none => s
     | some f =>
       if !f.fromHost then s
       else
         match a with
         | .error => s.fetchError mpn
         | .page pg =>
           match s.pageCheck mpn (s.map.dirOf mpn) pg with
           | some k => s.sealFail mpn k
           | none =>
             let s : State := { s with map := s.map.hostFetched mpn f.forStore }
             (List.range 8).foldl (fun s i => s.cacheFill mpn (8 * i)) (s.wakeMap mpn))

/-- HMR_FETCH_TIMEOUT (R158): the flash fetch starts at once; the tag stays held until its read ends. -/
def execHmrFetchTimeout (mpn : Nat) (s : State) : Host.Outcome State Fault Refusal :=
  match s.map.fetchOf mpn with
  | none => .next s
  | some f =>
    answer (s.up && f.fromHost && decide (s.fld Reg.MAP_HMRCTRL Reg.MAP_HMRCTRL_.FETCH_LIMIT ≠ 0)) s
      (s.fetchError mpn)

/-- MAP_FLASH_FETCH_DONE (R163, R164, R183). -/
def execMapFlashFetchDone (mpn : Nat) (readable : Bool) (s : State) : Host.Outcome State Fault Refusal :=
  match s.map.fetchOf mpn with
  | none => .next s
  | some f => answer (s.up && !f.fromHost) s ((s.flashFetched mpn readable).wakeMap mpn)

/-- A page is persisted (R173, R181, R182): write-back and snapshot, the image, its journal record, and the directory. -/
def State.persistPage (s : State) (mpn : Nat) : Option State :=
  let pseq := s.map.pseq + 1
  let m := s.map.writeBack mpn
  let m := m.setDir mpn { m.dirOf mpn with dirty := false, since := 0 }
  match ({ s with map := { m with pseq := pseq } } : State).programImage mpn pseq with
  | none => none
  | some (unit, t) =>
    let t := t.setImage mpn unit
    some { t with map := { t.map with journal := t.map.journal + 1 } }

/-- MAP_PAGE_PERSIST (R181). -/
def execMapPagePersist (mpn : Nat) (s : State) : Host.Outcome State Fault Refusal :=
  let d := s.map.dirOf mpn
  if !(s.up && d.dirty && !d.busy) then .next s
  else
    match s.persistPage mpn with
    | some t => .next t
    | none => .next s

/-- DIRECTORY_SNAPSHOT (R182): the journal starts again behind the snapshot. -/
def execDirectorySnapshot (s : State) : Host.Outcome State Fault Refusal :=
  answer (s.up && decide (1048576 ≤ s.map.journal)) s
    { s with map := { s.map with journal := s.map.journal - 1048576, snapshots := s.map.snapshots + 1 } }

/-! ## Command cores (R218) -/

/-- The entry of a list with the largest value, the first on a tie. -/
def mostOf {α : Type} (f : α → Nat) : List α → Option α
  | [] => none
  | x :: l =>
    match mostOf f l with
    | some y => if f x < f y then some y else some x
    | none => some x

/-- The ring of a core that has the most commands in flight: what the model takes as its busiest one. -/
def State.busiestRing (s : State) (core : Nat) : Option (Nat × SubRing) :=
  mostOf (fun e => (s.cmds.inflight.filter fun c =>
      decide (ringKey c.2.fn.key c.2.ring = e.1)).length)
    (s.cmds.sqs.filter fun e => decide (e.2.home = core))

/-- The busiest ring of a core goes to another core. -/
def moveBusiest (least : Nat) (s : State) (i : Nat) : State :=
  match s.busiestRing i with
  | some e => if i = least then s else s.setSq e.1 { e.2 with home := least }
  | none => s

/-- Move the busiest ring of each core whose busy share lies more than SKEW points above the mean to the least busy core
(R218). `busy` gives each core's share in percent. -/
def State.rebalance (s : State) (busy : List Nat) : State :=
  let cores := (List.range 16).filter fun i => !s.coreFailed .command i
  let share (i : Nat) : Nat := (busy[i]?).getD 0
  let total := (cores.map share).sum
  let skew := s.fld Reg.PLC_CORECTRL Reg.PLC_CORECTRL_.SKEW
  let busyOnes := cores.filter fun i => decide (total + skew * cores.length < share i * cores.length)
  match leastBy share cores with
  | none => s
  | some least =>
    busyOnes.foldl (moveBusiest least) s

/-- CORE_REBALANCE (R218). -/
def execCoreRebalance (busy : List Nat) (s : State) : Host.Outcome State Fault Refusal :=
  answer (s.serving && decide (s.fld Reg.PLC_CORECTRL Reg.PLC_CORECTRL_.INTERVAL ≠ 0)) s (s.rebalance busy)

end Sys2Proof.Machine
end

