-- ==== Sys2Proof/Machine/Channels.lean ====
section
/-! DEFINITION. The channel engines: descriptors and their queues (R260 to R264), suspension (R265, R266), the
unerased-program guard and MARK (R272, R273), failures of dies and channels (R276), rates and training (R253), and the
registers of the CHN_ block (R289). -/

namespace Sys2Proof.Machine

open Sys2Proof

/-! ## Descriptor fields (R261, Table 7) -/

/-- Bits `lo` to `lo + n - 1` of a descriptor. -/
def descBits (d : BitVec 256) (lo n : Nat) : Nat := (d >>> lo).toNat % 2 ^ n

def Desc.op (d : Desc) : Nat := descBits d.bits 0 8
def Desc.fence (d : Desc) : Bool := d.bits.getLsbD 9
def Desc.noSuspend (d : Desc) : Bool := d.bits.getLsbD 10
def Desc.slc (d : Desc) : Bool := d.bits.getLsbD 11
def Desc.die (d : Desc) : Nat := descBits d.bits 12 4
def Desc.tag (d : Desc) : Nat := descBits d.bits 16 16
def Desc.block (d : Desc) : Nat := descBits d.bits 32 24
def Desc.planes (d : Desc) : List Nat := (List.range 8).filter fun p => d.bits.getLsbD (56 + p)
def Desc.retry (d : Desc) : Nat := descBits d.bits 72 4
def Desc.slots (d : Desc) : List Nat := (List.range 4).filter fun k => d.bits.getLsbD (76 + k)
def Desc.page (d : Desc) : Nat := descBits d.bits 80 16
def Desc.deadline (d : Desc) : Nat := descBits d.bits 96 32
def Desc.buf (d : Desc) : Nat := descBits d.bits 128 64
def Desc.ctx (d : Desc) : Nat := descBits d.bits 192 32
def Desc.value (d : Desc) : Nat := descBits d.bits 224 32

/-- Whether the operation reads or changes the array or the block states of the die (Table 8). -/
def Desc.onArray (d : Desc) : Bool := decide ([1, 2, 3, 4, 9].contains d.op)

/-- A channel engine. -/
def State.chanOf (s : State) (ch : Nat) : Chan :=
  (s.media.chans.look ch).getD { queue := [], posted := 0, cring := [], seq := 0 }

/-- Write a channel engine. -/
def State.setChan (s : State) (ch : Nat) (c : Chan) : State :=
  { s with media := { s.media with chans := s.media.chans.put ch c } }

/-! ## Completion records (R264, Table 9) -/

/-- Whether a mule descriptor names a fabric address as its source or destination (R411). -/
def muleNames (d : BitVec 256) (addr : Nat) : Bool :=
  (decide (descBits d 222 2 = 0) && decide (descBits d 64 64 = addr)) ||
    (decide (descBits d 220 2 = 0) && decide (descBits d 128 64 = addr))

/-- Whether a mule or channel descriptor in progress names a buffer (R393). -/
def State.bufBusy (s : State) (addr : Nat) : Bool :=
  let runs (o : Option DieOp) : Bool := match o with | some x => decide (x.desc.buf = addr) | none => false
  (s.mules.any fun e => match e.2.cur with | some d => muleNames d addr | none => false) ||
    (s.media.chans.any fun e => e.2.queue.any fun d => decide (d.buf = addr)) ||
    (s.media.dies.any fun e => runs e.2.cur || runs e.2.susp)

/-- The releases that waited for a descriptor take place once none names their buffer (R393). -/
def State.sweepReleases (s : State) : State :=
  ((s.pools.bufs.filter fun b => b.releasing && !s.bufBusy b.addr).map fun b => b.addr).foldl
    (fun s a => s.freeBuf a) s

/-- A descriptor ends with a code: its record goes to the engine or to the completion ring. -/
def State.endDesc (s : State) (d : Desc) (ch code suspends stat elapsed : Nat) : State :=
  let c := s.chanOf ch
  let seq := c.seq + 1
  let r := BitVec.ofNat 128 (code % 256 + d.die * 2 ^ 12 + d.tag * 2 ^ 16 + min 0xFFFF elapsed * 2 ^ 32 +
    stat % 256 * 2 ^ 48 + suspends % 256 * 2 ^ 56 + d.ctx * 2 ^ 64 + seq.toNat * 2 ^ 96)
  let s :=
    if d.byCore then s.setChan ch { c with seq := seq, cring := c.cring ++ [r] }
    else (s.setChan ch { c with seq := seq }).emit (.chnRecord ch r)
  if s.pools.bufs.isEmpty then s else s.sweepReleases

/-- A descriptor ends where the status byte and the time are open: they are free values. -/
def State.endFree (s : State) (d : Desc) (ch code suspends : Nat) : State :=
  let r := s.takeFree
  r.2.endDesc d ch code suspends (r.1.toNat % 256) (r.1.toNat / 256 % 65536)

/-- The SEQ of a completion record. -/
def recordSeq (r : BitVec 128) : Word := (r >>> 96).setWidth 32

/-! ## Failures (R276) -/

/-- The dies that hold the journal copies (R378; log entry 14): the first dies in service, on different carriers as far
as there are any, then on different channels. -/
def State.journalDies (s : State) : List Nat :=
  let dies := s.servingDies
  let firsts := (List.range 8).filterMap fun c => dies.find? fun dk => decide (dieCarrier dk = c)
  let more := (List.range 128).filterMap fun ch => dies.find? fun dk => decide (dk / 16 = ch)
  (firsts ++ more.filter fun dk => !firsts.contains dk).take 3

/-- The journal copies after a change of the media since `old`: a copy that was lost is opened again where dies allow, and
fewer than three is a reason of DEGRADED (R379, R496). -/
def State.followJournal (s old : State) : State :=
  let s := if (old.power.journal.all fun dk => s.dieServes dk) then s else s.raiseRecord 18 18 0 []
  let l := s.journalDies
  ({ s with power := { s.power with journal := l } } : State).reason reasonJournal (decide (l.length < 3))

/-- What follows a change of the media since `old`: capacity, fences, redundancy, journal copies, Catalogue. During start-up recovery its
last step does this (R380, R496). -/
def State.mediaChanged (s old : State) : State :=
  if s.mode = modeBoot ∧ s.power.recStep < 10 then s.followGen old
  else (((s.followCapacity.reviewFences).followRedundancy).followJournal old).followGen old

/-- The descriptors of some dies end: those in progress or suspended with DIE_GONE, the queued ones with ABORTED. -/
def State.dropDescs (s : State) (dks : List Nat) : State :=
  dks.foldl (fun s dk =>
    let ch := dk / 16
    let d := s.dieOf dk
    let s := if d.cur.isSome ∨ d.susp.isSome then s.setDie dk { d with cur := none, susp := none } else s
    let s := match d.cur with | some o => s.endFree o.desc ch 6 o.suspends | none => s
    let s := match d.susp with | some o => s.endFree o.desc ch 6 o.suspends | none => s
    let c := s.chanOf ch
    let mine := c.queue.filter fun x => decide (x.die = dk % 16)
    if mine.isEmpty then s
    else
      let s := s.setChan ch { c with queue := c.queue.filter fun x => decide (x.die ≠ dk % 16) }
      mine.foldl (fun s x => s.endFree x ch 7 0) s) s

/-- The OPEN bands with a member on some dies close at their last closed stripe (R231, R283). -/
def State.closeBandsOn (s : State) (hit : Nat → Bool) : State :=
  (s.place.bands.filter fun e =>
      decide (e.2.st = .opened) && e.2.members.any fun m => hit (dieKey m.ch m.die)).foldl
    (fun s e => s.closeBand e.1) s

/-- Dies fail: out of USABLE, in FAILED, their descriptors end, their bands close and their members fail (R211, R276). -/
def State.failDies (s : State) (dks : List Nat) : State :=
  let s := dks.foldl (fun s dk =>
    let a := Reg.CHN_DIEMAP (dk / 16)
    s.setReg a ((s.reg a &&& ~~~((1 : DWord) <<< (32 + dk % 16))) ||| ((1 : DWord) <<< (16 + dk % 16)))) s
  let hit (dk : Nat) : Bool := dks.contains dk
  ((s.dropDescs dks).closeBandsOn hit).failMembers hit

/-- The dies of a channel that are usable. -/
def State.usableDies (s : State) (ch : Nat) : List Nat :=
  ((List.range 16).map fun d => dieKey ch d).filter fun dk => s.dieUsable dk

/-- Whether a channel has failed: dies of it failed, and none is usable any more; or its island is isolated. -/
def State.chanFailed (s : State) (ch : Nat) : Bool :=
  (decide (s.fld (Reg.CHN_DIEMAP ch) Reg.CHN_DIEMAP_.FAILED ≠ 0) && (s.usableDies ch).isEmpty) || s.isIsolated ch

/-- Whether a channel has a die (R251). -/
def State.chanPresent (s : State) (ch : Nat) : Bool :=
  decide (s.fld (Reg.CHN_DIEMAP ch) Reg.CHN_DIEMAP_.PRESENT ≠ 0)

/-- A carrier slot. -/
def State.carrier (s : State) (c : Nat) : Carrier :=
  (s.media.carriers.look c).getD
    { record := none, dieHash := 0, departure := none, locate := false, delta := false, minimal := false, atStop := none }

/-- Write a carrier slot. -/
def State.setCarrier (s : State) (c : Nat) (x : Carrier) : State :=
  { s with media := { s.media with carriers := s.media.carriers.put c x } }

/-- The record of a carrier that departs: its newest programmed EPOCH, CARRIER_ID, DIEHASH and block states (R286). -/
def State.departureOf (s : State) (c : Nat) : Departure :=
  { epoch := s.reg (Reg.CAR_EPOCH c), carrierId := s.reg (Reg.CAR_ID c), dieHash := (s.carrier c).dieHash
    blocks := s.media.blocks.filter fun e => decide (dieCarrier (e.1 / 2 ^ 25) = c) }

/-- Set a carrier's state with the indicator of Table 17; LOCATE shows FAST until the next command or press (R278). -/
def State.setCarState (s : State) (c st : Nat) : State :=
  let s := s.setFld (Reg.CAR_STATE c) Reg.CAR_STATE_.STATE st
  let ind := if st ≤ 1 then 0 else if st = 5 then 1 else if st = 8 then 3 else 2
  if (s.carrier c).locate then s else s.setFld (Reg.CAR_STATE c) Reg.CAR_STATE_.INDICATOR ind

/-- The dies of a carrier. -/
def carrierDies (c : Nat) : List Nat := (List.range 256).map fun i => 256 * c + i

/-- The block states of a carrier return to UNKNOWN and its channels to their state without dies (R272, R289). -/
def State.clearCarrier (s : State) (c : Nat) : State :=
  let s : State := { s with media := { s.media with
    blocks := s.media.blocks.filter fun e => decide (dieCarrier (e.1 / 2 ^ 25) ≠ c) } }
  (List.range 16).foldl (fun s i =>
    let ch := 16 * c + i
    let s := (s.setReg (Reg.CHN_DIEMAP ch) 0).setFld (Reg.CHN_CTRL ch) Reg.CHN_CTRL_.ENABLE 0
    let s := (s.setFld (Reg.CHN_RATE ch) Reg.CHN_RATE_.CURRENT 0).setFld (Reg.CHN_RATE ch) Reg.CHN_RATE_.SUPPORTED 0
    s.setFld (Reg.CHN_RATE ch) Reg.CHN_RATE_.FALLBACK 0) s

/-- The record that the N9 writes to a carrier with the media epoch in force; its EPOCH is what CAR_EPOCH shows (R279,
R280). -/
def State.writeRecord (s : State) (c flags : Nat) : State :=
  let r : CarrierRecord :=
    { valid := true, slot := c, departed := decide (flags % 2 = 1), evacuated := decide (flags / 2 % 2 = 1)
      carrierId := s.reg (Reg.CAR_ID c), owner := s.reg Reg.FUS_SERIAL, epoch := s.mediaEpoch, dieHash := (s.carrier c).dieHash }
  ((s.setCarrier c { s.carrier c with record := some r }).setReg (Reg.CAR_EPOCH c) s.mediaEpoch).emit
    (.carrierRecord c s.mediaEpoch flags)

/-- The media epoch advances, and every ACTIVE carrier gets a record that carries it (R280). -/
def State.advanceEpoch (s : State) : State :=
  let s := s.setReg Reg.CAR_MEDIAEPOCH (s.mediaEpoch + 1)
  ((List.range 8).filter fun c => decide (s.carState c = 5)).foldl (fun s c => s.writeRecord c 0) s

/-- The staging copies on a carrier that leaves are not read again (R287): the records give them up. -/
def State.dropStaged (s : State) (c : Nat) : State :=
  let cut (l : List Nat) : List Nat := l.map fun x => if dieCarrier (addrDie (x % 2 ^ 36)) = c then 0 else x
  { s with place := { s.place with
      index := s.place.index.map fun e => (e.1, { e.2 with copyA := cut e.2.copyA, copyB := cut e.2.copyB }) } }

/-- Each erase that the end of a die's power cuts short sets ERASE_REDONE (R271). -/
def State.cutErases (s : State) (dks : List Nat) : State :=
  dks.foldl (fun s dk =>
    let d := s.dieOf dk
    let isErase (o : Option DieOp) : Bool := match o with | some x => decide (x.desc.op = 3) | none => false
    if isErase d.cur || isErase d.susp then
      s.raiseRecord 9 21 (dk / 16) [BitVec.ofNat 8 (dk / 16), BitVec.ofNat 8 (dk % 16)]
    else s) s

/-- A carrier's power is switched off and its channels stand without dies. -/
def State.switchOff (s : State) (c : Nat) : State :=
  let s := s.setFld (Reg.CAR_STATE c) Reg.CAR_STATE_.POWER 0
  (((s.cutErases (carrierDies c)).dropDescs (carrierDies c)).clearCarrier c).dropStaged c

/-- What a carrier that has been in service leaves behind: its departure record, its members failed (R211, R286). -/
def State.leaveService (s : State) (c : Nat) : State :=
  let hit (dk : Nat) : Bool := decide (dieCarrier dk = c)
  let s := (s.closeBandsOn hit).setCarrier c { s.carrier c with departure := some (s.departureOf c) }
  s.failMembers hit

/-- A powered carrier departs at once (R283): to EMPTY on presence loss, to FAILED otherwise. One that was not yet in
service leaves the departure record of its slot as it is. -/
def State.depart (s : State) (c : Nat) (gone : Bool) : State :=
  let was := s.carState c
  let s := if 5 ≤ was then s.leaveService c else s
  let s := ((s.switchOff c).setCarState c (if gone then 0 else 8)).advanceEpoch
  let s := s.raiseRecord 10 (if gone then 18 else 23) c [BitVec.ofNat 8 c]
  s.recordFault 10 c 3 [BitVec.ofNat 8 c]

/-- The carriers all of whose channels with dies have failed depart (R276). -/
def State.failCarrierIf (s : State) (c : Nat) : State :=
  let chs := ((List.range 16).map fun i => 16 * c + i).filter fun ch => s.chanPresent ch || s.isIsolated ch
  if s.fld (Reg.CAR_STATE c) Reg.CAR_STATE_.POWER = 1 ∧ !chs.isEmpty ∧ (chs.all fun ch => s.chanFailed ch) then
    s.depart c false
  else s

/-- A channel fails: every die of it is treated as failed (R276). -/
def State.failChannel (s : State) (ch : Nat) : State :=
  let s := s.failDies (s.usableDies ch)
  let s := (s.raiseRecord 9 18 ch [BitVec.ofNat 8 ch]).recordFault 9 ch 2 [BitVec.ofNat 8 ch]
  s.failCarrierIf (carrierOf ch)

/-- A die fails; with the last usable die its channel fails (R276). -/
def State.failDie (s : State) (dk : Nat) : State :=
  let ch := dk / 16
  let part := [BitVec.ofNat 8 ch, BitVec.ofNat 8 (dk % 16)]
  let s := s.failDies [dk]
  let s := (s.raiseRecord 9 17 ch part).recordFault 9 ch 1 part
  if (s.usableDies ch).isEmpty then s.failChannel ch else s

/-! ## Posting (R260, R261) -/

/-- Whether a die, its channel or its carrier has failed or departed (Table 10, DIE_GONE). -/
def State.descGone (s : State) (ch die : Nat) : Bool :=
  (s.reg (Reg.CHN_DIEMAP ch)).getLsbD (16 + die) || s.isIsolated ch ||
    decide (s.fld (Reg.CAR_STATE (carrierOf ch)) Reg.CAR_STATE_.POWER = 0 ∨ s.carState (carrierOf ch) < 3)

/-- Whether the fields of a descriptor are right and its die may do its operation (R261). -/
def State.descOk (s : State) (ch : Nat) (d : Desc) : Bool :=
  !d.bits.getLsbD 8 && decide (descBits d.bits 64 8 = 0 ∧ d.retry ≤ 12) &&
    decide (d.op = 6 ∨ d.op = 9 ∨ d.op = 11 ∨ d.value = 0) &&
    (!d.onArray || s.dieUsable (dieKey ch d.die)) &&
    (decide (d.op ≠ 11) || (decide (d.value / 256 % 16 ≤ 7) &&
      ((s.reg (Reg.CHN_DIEMAP ch)).getLsbD (48 + d.die) || decide (s.carState (carrierOf ch) = 3))))

/-- Whether the address of a descriptor lies within the geometry of its die (R258, R261). -/
def State.descAddrOk (s : State) (ch : Nat) (d : Desc) : Bool :=
  let dk := dieKey ch d.die
  let p := (s.dieOf dk).params
  let block := decide (d.block < s.dieBlocks dk)
  let page := decide (d.page < if d.slc then p.slcPages else p.pages) && d.planes.all fun x => decide (x < p.planes)
  match d.op with
  | 1 | 2 | 4 => block && page
  | 3 | 9 => block
  | _ => true

/-- The code with which a descriptor ends at posting, if it does. -/
def State.postCode (s : State) (ch : Nat) (d : Desc) : Option Nat :=
  if s.descGone ch d.die then some 6
  else if 256 ≤ ((s.chanOf ch).queue.filter fun x => decide (x.queue = d.queue)).length then some 11
  else if !s.descOk ch d then some 8
  else if !s.descAddrOk ch d then some 9
  else if s.mode = modeHoldup then some 7
  else none

/-- Post a descriptor to a queue (R260). -/
def State.post (s : State) (ch queue : Nat) (byCore : Bool) (bits : BitVec 256) : State :=
  let c := s.chanOf ch
  let d : Desc := { bits := bits, queue := queue, byCore := byCore, order := c.posted, starved := false }
  match s.postCode ch d with
  | some code => (s.setChan ch { c with posted := c.posted + 1 }).endFree d ch code 0
  | none => s.setChan ch { c with posted := c.posted + 1, queue := c.queue ++ [d] }

/-- A descriptor of operation `op` is posted (R260, R261). -/
def postAs (op ch queue : Nat) (byCore : Bool) (d : BitVec 256) (s : State) : Host.Outcome State Fault Refusal :=
  answer (s.running && decide (ch < 128 ∧ queue < 4 ∧ descBits d 0 8 = op)) s (s.post ch queue byCore d)

/-! ## Starting (R262, R263, R272, R273) -/

/-- Whether a queued descriptor may start on its idle die now, the suspended operation of the die aside. -/
def State.mayStart (s : State) (ch : Nat) (d : Desc) : Bool :=
  let c := s.chanOf ch
  let dk := dieKey ch d.die
  let earlier := c.queue.filter fun x => decide (x.die = d.die ∧ x.order < d.order)
  (decide (s.fld (Reg.CHN_CTRL ch) Reg.CHN_CTRL_.ENABLE = 1 ∨ (5 ≤ d.op ∧ d.op ≤ 8) ∨ d.op = 10 ∨ d.op = 11)) &&
    (!d.byCore || decide (c.cring.length < 128)) &&
    (!d.fence || (earlier.isEmpty && (s.dieOf dk).susp.isNone)) &&
    (decide (d.op ≠ 2 ∧ d.op ≠ 3) ||
      !(earlier.any fun x => decide ((x.op = 2 ∨ x.op = 3) ∧ x.block = d.block)))

/-- The sort key of a queue 0 descriptor: the earliest DEADLINE first, 0 as latest, posting order among equals. -/
def Desc.urgency (d : Desc) : Nat := (if d.deadline = 0 then 2 ^ 32 else d.deadline) * 2 ^ 64 + d.order

/-- The queue 0 reads that wait for a die and may start. -/
def State.urgentReads (s : State) (ch die : Nat) : List Desc :=
  (s.chanOf ch).queue.filter fun x =>
    decide (x.die = die ∧ x.queue = 0 ∧ (x.op = 1 ∨ x.op = 4)) && s.mayStart ch x

/-- The descriptor that starts next on an idle die (R262). -/
def State.pickDesc (s : State) (ch die : Nat) : Option Desc :=
  let mine := (s.chanOf ch).queue.filter fun x => decide (x.die = die)
  let head (q : Nat) : Option Desc :=
    ((mine.filter fun x => decide (x.queue = q)).head?).filter fun x => s.mayStart ch x
  match mine.find? fun x => x.starved && s.mayStart ch x with
  | some x => some x
  | none =>
    match leastBy Desc.urgency (mine.filter fun x => decide (x.queue = 0) && s.mayStart ch x) with
    | some x => some x
    | none => ([1, 2, 3].filterMap head).head?

/-- A descriptor leaves its queue. -/
def State.takeDesc (s : State) (ch : Nat) (d : Desc) : State :=
  let c := s.chanOf ch
  s.setChan ch { c with queue := c.queue.filter fun x => decide (x.order ≠ d.order) }

/-- The page-planes that a PROGRAM names, in plane order (R272, R273). -/
def State.descPlanes (s : State) (dk : Nat) (d : Desc) : List Nat :=
  d.planes.map fun p => d.page * max 1 (s.dieOf dk).params.planes + p

/-- What the guard answers to a PROGRAM: 3 NOT_ERASED, 4 OUT_OF_ORDER, none when it may be issued (R273). -/
def State.guardCode (s : State) (dk : Nat) (d : Desc) : Option Nat :=
  let e := s.blockOf dk d.block
  let l := s.descPlanes dk d
  if (e.st ≠ .erased ∧ e.st ≠ .opened) ∨ l.any (fun x => decide (x < e.next)) then some 3
  else if l ≠ (List.range l.length).map (fun i => e.next + i) then some 4
  else none

/-- The code of a block state (R272, Table 13). -/
def BlockSt.code : BlockSt → Nat
  | .unknown => 0
  | .erased => 1
  | .opened => 2
  | .written => 3
  | .needsErase => 4
  | .retired => 5
  | .flag => 6

/-- The effect of a MARK, or none when its transition is not allowed (R272). -/
def State.markBlock (s : State) (dk block value : Nat) : Option State :=
  let e := s.blockOf dk block
  let d := s.dieOf dk
  let flag : State :=
    let s := s.setBlock dk block { e with st := .flag }
    if (s.blockOf dk d.flagActive).st ≠ .flag ∨ d.flagActive = block then
      s.setDie dk { d with flagActive := block, flagNext := 0 }
    else s.setDie dk { d with flagOther := block }
  match value, e.st with
  | 3, .opened => some (s.setBlock dk block { e with st := .written })
  | 3, .unknown => some (s.setBlock dk block { e with st := .written })
  | 4, .unknown => some (s.setBlock dk block { e with st := .needsErase })
  | 5, .flag => if d.flagActive = block then none else some (s.retireBlock dk block)
  | 5, _ => some (s.retireBlock dk block)
  | 6, .erased => some flag
  | 6, .unknown => some flag
  | _, _ => none

/-- The die begins a descriptor's operation. -/
def State.beginDesc (s : State) (ch : Nat) (d : Desc) : State :=
  let dk := dieKey ch d.die
  (s.setDie dk { s.dieOf dk with cur := some { desc := d, suspends := 0, served := 0 } }).emit (.onfi ch d.die d.op)

/-- Start a descriptor on its idle die. -/
def State.startDesc (s : State) (ch : Nat) (d : Desc) : State :=
  let dk := dieKey ch d.die
  let s := s.takeDesc ch d
  let e := s.blockOf dk d.block
  if (d.op = 2 ∨ d.op = 3) ∧ (e.st = .retired ∨ e.st = .flag) then s.endFree d ch 10 0
  else if d.op = 2 then
    match s.guardCode dk d with
    | some code =>
      ((s.count (Reg.CHN_GUARD ch) 1).raiseRecord 9 16 ch
        (leBytes 4 d.block ++ leBytes 1 e.st.code ++ leBytes 3 e.next ++ bytesOf d.bits 32)).endFree d ch code 0
    | none => s.beginDesc ch d
  else if d.op = 3 then
    if s.flagReady dk then (s.eraseBegin dk d.block d.slc).beginDesc ch d
    else (s.endFree d ch 12 0).failDie dk
  else if d.op = 9 then
    match s.markBlock dk d.block d.value with
    | some t => t.endFree d ch 0 0
    | none => s.endFree d ch 10 0
  else s.beginDesc ch d

/-- A die falls idle, or has a suspended operation (R262, R266). -/
def State.dispatchDie (s : State) (ch die : Nat) : State :=
  let dk := dieKey ch die
  let d := s.dieOf dk
  match d.cur, d.susp with
  | some _, _ => s
  | none, some o =>
    let resume : State :=
      (s.setDie dk { d with cur := some { o with served := 0 }, susp := none }).emit (.onfi ch die o.desc.op)
    if max 1 (s.fld Reg.CHN_SUSP Reg.CHN_SUSP_.BATCH) ≤ o.served then resume
    else
      match leastBy Desc.urgency (s.urgentReads ch die) with
      | some x => (s.setDie dk { d with susp := some { o with served := o.served + 1 } }).startDesc ch x
      | none => resume
  | none, none => match s.pickDesc ch die with | some x => s.startDesc ch x | none => s

/-! ## Ending (R264, R275, Table 8) -/

/-- `n` bytes of free values. -/
def State.takeBytes (s : State) (n : Nat) : List Byte × State :=
  let k := (n + 7) / 8
  (((List.range k).flatMap fun i => bytesOf (Config.freeWord (s.free + i)) 8).take n, { s with free := s.free + k })

/-- The 4,640 bytes of a codeword as a READ transfers them: the block, tally and header where the codeword decodes at the
retry step, free values for its parity and for all of one that does not. -/
def State.rawBytes (s : State) (addr slot retry : Nat) : List Byte × State :=
  match (s.media.pages.look addr).bind fun p => p.slots[slot]? with
  | none => (List.replicate 4640 0xFF, s)
  | some c =>
    if (match c.step with | some n => decide (n ≤ retry) | none => false) then
      let r := s.takeBytes 512
      (c.info ++ r.1, r.2)
    else s.takeBytes 4640

/-- The data of an ended READ, slot by slot and plane by plane (Table 8). -/
def State.readOut (s : State) (dk : Nat) (d : Desc) : State :=
  let l := d.planes.flatMap fun p => d.slots.map fun k => (s.unitAddr dk d.block d.page p, k)
  ((List.range l.length).zip l).foldl (fun s e =>
    let r := s.rawBytes e.2.1 e.2.2 d.retry
    r.2.store (d.buf + 4640 * e.1) r.1) s

/-- The trailers of an ended READ_TRAILER. -/
def State.trailersOut (s : State) (dk : Nat) (d : Desc) : State :=
  ((List.range d.planes.length).zip d.planes).foldl (fun s e =>
    let t := match s.media.pages.look (s.unitAddr dk d.block d.page e.2) with
      | some p => bytesOf p.trailer 32
      | none => List.replicate 32 0xFF
    s.store (d.buf + 32 * e.1) t) s

/-- The trailer that the engine completes: EPOCH and CRC behind the 24 bytes of the requester (R275). -/
def State.fillTrailer (s : State) (l : List Byte) : BitVec 256 :=
  let body := l ++ bytesOf s.mediaEpoch 4
  ofBytes 256 (body ++ bytesOf (crc32c body) 4)

/-- The page-planes of an ended PROGRAM, from its buffer; of a failed one no codeword decodes. -/
def State.programmed (s : State) (dk : Nat) (d : Desc) (ok : Bool) : State :=
  let s := ((List.range d.planes.length).zip d.planes).foldl (fun s e =>
    let a := d.buf + 18592 * e.1
    let s := s.touch a 18592 false
    let slots := (List.range 4).map fun k =>
      { ofInfo (readBytes s.ram (a + 4640 * k) 4128) with step := if ok then some 0 else none }
    let pp : PagePlane := { slots := slots, trailer := s.fillTrailer (readBytes s.ram (a + 18560) 24) }
    { s with media := { s.media with pages := s.media.pages.put (s.unitAddr dk d.block d.page e.2) pp } }) s
  if ok then
    s.setBlock dk d.block ((s.blockOf dk d.block).programmed d.planes.length ((s.dieOf dk).blockPlanes d.slc))
  else s

/-- The operation on a die ends as the die reports (R264, Table 10). -/
def State.completeOp (s : State) (ch die : Nat) (o : DieOp) (ok : Bool) (stat elapsed : Nat) : State :=
  let dk := dieKey ch die
  let d := o.desc
  let s := s.setDie dk { s.dieOf dk with cur := none }
  let free (n : Nat) : State := let r := s.takeBytes n; r.2.store d.buf r.1
  let r : Nat × State :=
    match d.op with
    | 1 => (0, s.readOut dk d)
    | 2 => (if ok then 0 else 1, s.programmed dk d ok)
    | 3 => (if ok then 0 else 2, s.eraseEnd dk d.block d.slc ok o.suspends)
    | 4 => (0, s.trailersOut dk d)
    | 5 => (0, free 4)
    | 7 => (0, free 272)
    | 10 => (0, free 8)
    | 11 =>
      if ok then (0, s.setFld (Reg.CHN_RATE ch) Reg.CHN_RATE_.CURRENT (d.value / 256 % 16)) else (13, s)
    | _ => (0, s)
  r.2.endDesc d ch r.1 o.suspends stat elapsed

/-! ## Suspension (R265) -/

/-- Whether the operation of a die may be suspended after it has run `ran` µs since its start or last resume. -/
def State.maySuspend (s : State) (ch die ran : Nat) (o : DieOp) : Bool :=
  let p := (s.dieOf (dieKey ch die)).params
  let prog := decide (o.desc.op = 2)
  let least := if prog then max p.minProgRun (s.fld Reg.CHN_SUSP Reg.CHN_SUSP_.MIN_PROG_RUN)
    else max p.minEraseRun (s.fld Reg.CHN_SUSP Reg.CHN_SUSP_.MIN_ERASE_RUN)
  let e := s.fld Reg.CHN_SUSP Reg.CHN_SUSP_.MAX_ERASE_SUSP
  let most := if prog then s.fld Reg.CHN_SUSP Reg.CHN_SUSP_.MAX_PROG_SUSP else if e = 0 then 16 else e
  decide (o.desc.op = 2 ∨ o.desc.op = 3) && !o.desc.noSuspend && (s.dieOf (dieKey ch die)).susp.isNone &&
    decide (least ≤ ran ∧ o.suspends < most) && !(s.urgentReads ch die).isEmpty

/-! ## Rates and training (R253) -/

/-- The highest code that every usable die of a channel supports. -/
def State.supportedRate (s : State) (ch : Nat) : Nat :=
  match s.usableDies ch with
  | [] => 0
  | l => l.foldl (fun m dk => min m (s.dieOf dk).params.maxRate) 7

/-- Train a channel from code `code` down; `trains` says of each code tried whether training succeeds at it, and of codes
beyond the list it succeeds. Code 0x0 needs no training. None: training failed at code 0x1. -/
def trainFrom : Nat → List Bool → Option Nat
  | 0, _ => some 0
  | c + 1, [] => some (c + 1)
  | c + 1, true :: _ => some (c + 1)
  | 0 + 1, false :: _ => none
  | c + 2, false :: l => trainFrom (c + 1) l

/-- Train a channel at the rule of R253. -/
def State.trainChannel (s : State) (ch : Nat) (trains : List Bool) : State :=
  if (s.usableDies ch).isEmpty then s
  else
    let sup := s.supportedRate ch
    let lim := min sup (s.fld (Reg.CHN_RATE ch) Reg.CHN_RATE_.TARGET)
    let s := s.setFld (Reg.CHN_RATE ch) Reg.CHN_RATE_.SUPPORTED sup
    match trainFrom lim trains with
    | some code =>
      let s := s.setFld (Reg.CHN_RATE ch) Reg.CHN_RATE_.CURRENT code
      let s := s.setFld (Reg.CHN_RATE ch) Reg.CHN_RATE_.FALLBACK (if code < lim then 1 else 0)
      if code < lim then s.raiseRecord 9 19 ch [BitVec.ofNat 8 ch] else s
    | none => s.failChannel ch

/-! ## Meanings -/

/-- CHN_READ (R261): posted to a queue. -/
def execChnRead (ch queue : Nat) (byCore : Bool) (d : BitVec 256) (s : State) : Host.Outcome State Fault Refusal :=
  postAs 1 ch queue byCore d s

/-- CHN_PROGRAM (R261, R273): posted; the guard checks it when it would be issued. -/
def execChnProgram (ch queue : Nat) (byCore : Bool) (d : BitVec 256) (s : State) : Host.Outcome State Fault Refusal :=
  postAs 2 ch queue byCore d s

/-- CHN_ERASE (R261, R269). -/
def execChnErase (ch queue : Nat) (byCore : Bool) (d : BitVec 256) (s : State) : Host.Outcome State Fault Refusal :=
  postAs 3 ch queue byCore d s

/-- CHN_READ_TRAILER (R261). -/
def execChnReadTrailer (ch queue : Nat) (byCore : Bool) (d : BitVec 256) (s : State) :
    Host.Outcome State Fault Refusal :=
  postAs 4 ch queue byCore d s

/-- CHN_GET_FEATURES (R261). -/
def execChnGetFeatures (ch queue : Nat) (byCore : Bool) (d : BitVec 256) (s : State) :
    Host.Outcome State Fault Refusal :=
  postAs 5 ch queue byCore d s

/-- CHN_SET_FEATURES (R261). -/
def execChnSetFeatures (ch queue : Nat) (byCore : Bool) (d : BitVec 256) (s : State) :
    Host.Outcome State Fault Refusal :=
  postAs 6 ch queue byCore d s

/-- CHN_READ_PARAMETER (R255, R261). -/
def execChnReadParameter (ch queue : Nat) (byCore : Bool) (d : BitVec 256) (s : State) :
    Host.Outcome State Fault Refusal :=
  postAs 7 ch queue byCore d s

/-- CHN_RESET_DIE (R261). -/
def execChnResetDie (ch queue : Nat) (byCore : Bool) (d : BitVec 256) (s : State) :
    Host.Outcome State Fault Refusal :=
  postAs 8 ch queue byCore d s

/-- CHN_MARK (R261, R272). -/
def execChnMark (ch queue : Nat) (byCore : Bool) (d : BitVec 256) (s : State) : Host.Outcome State Fault Refusal :=
  postAs 9 ch queue byCore d s

/-- CHN_READ_ID (R261). -/
def execChnReadId (ch queue : Nat) (byCore : Bool) (d : BitVec 256) (s : State) : Host.Outcome State Fault Refusal :=
  postAs 10 ch queue byCore d s

/-- CHN_TRAIN (R261). -/
def execChnTrain (ch queue : Nat) (byCore : Bool) (d : BitVec 256) (s : State) : Host.Outcome State Fault Refusal :=
  postAs 11 ch queue byCore d s

/-- DIE_DISPATCH (R262, R266, R272, R273). -/
def execDieDispatch (ch die : Nat) (s : State) : Host.Outcome State Fault Refusal :=
  answer (s.running && decide (ch < 128 ∧ die < 16)) s ((s.dispatchDie ch die).mediaChanged s)

/-- DIE_OP_COMPLETE (R264). -/
def execDieOpComplete (ch die : Nat) (result : DieResult) (dieStat : Byte) (elapsed : Nat) (s : State) :
    Host.Outcome State Fault Refusal :=
  match (s.dieOf (dieKey ch die)).cur with
  | none => .next s
  | some o =>
    answer s.running s
      ((s.completeOp ch die o (decide (result = .ok)) dieStat.toNat elapsed).mediaChanged s)

/-- SUSPEND_ISSUE (R265). -/
def execSuspendIssue (ch die : Nat) (ran : Nat) (s : State) : Host.Outcome State Fault Refusal :=
  let dk := dieKey ch die
  match (s.dieOf dk).cur with
  | none => .next s
  | some o =>
    answer (s.running && s.maySuspend ch die ran o) s
      ((s.setDie dk { s.dieOf dk with cur := none, susp := some { o with suspends := o.suspends + 1, served := 0 } }).count
        (Reg.CHN_SUSPENDS ch) 1)

/-- DIE_TIMEOUT (R271, R276): the operation ends with DIE_TIMEOUT, and RESET LUN ends a suspended one too; a die that does
not return ready fails. -/
def execDieTimeout (ch die : Nat) (resetReady : Bool) (s : State) : Host.Outcome State Fault Refusal :=
  let dk := dieKey ch die
  let d := s.dieOf dk
  match d.cur with
  | none => .next s
  | some o =>
    answer s.running s
      (let t := (s.setDie dk { d with cur := none, susp := none }).endFree o.desc ch 5 o.suspends
       let t := t.count (Reg.CHN_TIMEOUTS ch) 1
       let erase := decide (o.desc.op = 3) || (match d.susp with | some x => decide (x.desc.op = 3) | none => false)
       let t := match d.susp with | some x => t.endFree x.desc ch (if resetReady then 5 else 6) x.suspends | none => t
       let t := if erase && resetReady then t.raiseRecord 9 21 ch [BitVec.ofNat 8 ch, BitVec.ofNat 8 die] else t
       (if resetReady then t else t.failDie dk).mediaChanged s)

/-- DESCRIPTOR_STARVE (R262): the oldest descriptor of a queue for a die has waited STARVE ms. -/
def execDescriptorStarve (ch queue die : Nat) (s : State) : Host.Outcome State Fault Refusal :=
  let c := s.chanOf ch
  match c.queue.find? fun x => decide (x.queue = queue ∧ x.die = die) with
  | none => .next s
  | some d =>
    answer (s.running && decide (s.fld Reg.CHN_TIMING Reg.CHN_TIMING_.STARVE ≠ 0)) s
      (s.setChan ch { c with queue := c.queue.map fun x => if x.order = d.order then { x with starved := true } else x })

/-- CHN_CHEAD_WRITE (R264, R289): a SEQ among the records held releases it and those before it; any other value is
ignored. -/
def execChnCheadWrite (src : Source) (ch : Nat) (value : Word) (s : State) : Host.Outcome State Fault Refusal :=
  answer (s.up && decide (ch < 128)) s
    (s.access src (Reg.CHN_CHEAD ch) 4 fun s =>
      let c := s.chanOf ch
      match c.cring.findIdx? fun r => decide (recordSeq r = value) with
      | some i =>
        (s.setChan ch { c with cring := c.cring.drop (i + 1) }).setReg (Reg.CHN_CHEAD ch) (value.setWidth 64)
      | none => s)

/-- CHN_RETRAIN (R253, R289). -/
def execChnRetrain (src : Source) (ch : Nat) (trains : List Bool) (s : State) : Host.Outcome State Fault Refusal :=
  answer (s.up && decide (ch < 128)) s
    (s.access src (Reg.CHN_CTRL ch) 4 fun t => (t.trainChannel ch trains).mediaChanged t)

/-- CHN_RATE_TARGET_WRITE (R253, R289): a change retrains. -/
def execChnRateTargetWrite (src : Source) (ch : Nat) (value : Word) (trains : List Bool) (s : State) :
    Host.Outcome State Fault Refusal :=
  answer (s.up && decide (ch < 128)) s
    (s.access src (Reg.CHN_RATE ch) 4 fun s => s.keyed src 9 fun t =>
      let n := value.toNat / 2 ^ 20 % 16
      if t.fld (Reg.CHN_RATE ch) Reg.CHN_RATE_.TARGET = n then t
      else ((t.setFld (Reg.CHN_RATE ch) Reg.CHN_RATE_.TARGET n).trainChannel ch trains).mediaChanged t)

/-- CHANNEL_ISLAND_FAULT (R21, R276). -/
def execChannelIslandFault (ch : Nat) (s : State) : Host.Outcome State Fault Refusal :=
  answer (s.running && decide (ch < 128) && !s.isIsolated ch) s
    (((s.isolate ch).failChannel ch).mediaChanged s)

/-- CODEWORD_DECODE (R304, R306): a decode of a codeword at a ladder step ends. It decodes at that step from then on, or
goes to the next step; beyond MAX_STEP it decodes at none. -/
def execCodewordDecode (unit slot step : Nat) (decodes : Bool) (s : State) : Host.Outcome State Fault Refusal :=
  let k := unit * 4 + slot
  let at_ := (s.media.ladder.look k).getD 0
  match (s.media.pages.look unit).bind fun p => p.slots[slot]? with
  | none => .next s
  | some c =>
    answer (s.running && decide (slot < 4 ∧ step = at_ ∧ step ≤ s.maxStep)) s
      (let put (x : Option Nat) : SMap PagePlane := s.media.pages.upd unit fun p =>
         { p with slots := p.slots.set slot { c with step := x } }
       if decodes then
         { s with media := { s.media with pages := put (some step), ladder := s.media.ladder.del k } }
       else if step < s.maxStep then
         { s with media := { s.media with ladder := s.media.ladder.put k (step + 1) } }
       else { s with media := { s.media with pages := put none, ladder := s.media.ladder.del k } })

end Sys2Proof.Machine
end

