-- ==== Sys2Proof/Machine/Carriers.lean ====
section
/-! DEFINITION. The media carriers (R277 to R288): presence and power, discovery (R254 to R257), orderly removal with its
evacuation (R281, R282), and reconciliation (R285 to R287). -/

namespace Sys2Proof.Machine

open Sys2Proof

/-! ## Discovery (R254 to R257) -/

/-- Whether a die meets its profile match and the limits of Table 5 (R256, R257). -/
def State.dieSupported (s : State) (p : DieParams) : Bool :=
  p.crcOk && p.suspendOk &&
    decide (p.profiles = 1 ∧ p.pageBytes = 16384 ∧ 2208 ≤ p.spareBytes ∧
      (p.planes = 1 ∨ p.planes = 2 ∨ p.planes = 4 ∨ p.planes = 8) ∧
      p.pages ≤ 2 ^ s.pageBits ∧ 4 * p.slcPages ≤ p.pages ∧ 0 < p.slcPages ∧ 256 ≤ min p.blocks (2 ^ s.blockBits) ∧
      2 ≤ p.bitsPerCell ∧ p.bitsPerCell ≤ 4)

/-- A die found at a place: what is known of it stands if it is the same die, else it is new (R259). -/
def State.takeDie (s : State) (dk : Nat) (p : DieParams) : State :=
  let d := s.dieOf dk
  if d.params.present && decide (d.params.uniqueId = p.uniqueId) then
    s.setDie dk { d with params := p, cur := none, susp := none }
  else
    let other (k : Nat) : Bool := decide (k / 2 ^ 25 ≠ dk)
    let s := s.setDie dk { Die.absent with params := p }
    { s with
      media := { s.media with
        pages := s.media.pages.filter fun e => decide (addrDie e.1 ≠ dk)
        ladder := s.media.ladder.filter fun e => decide (addrDie (e.1 / 4) ≠ dk) }
      place := { s.place with
        wears := s.place.wears.filter fun e => other e.1
        retired := s.place.retired.filter other
        retireQueue := s.place.retireQueue.filter other } }

/-- One die of a channel is taken as it is found; one that is not supported is an event. -/
def State.takeOneDie (s : State) (ch d : Nat) (p : DieParams) (bad : Bool) : State :=
  let s := if p.present then s.takeDie (dieKey ch d) p else s
  if bad then s.raiseRecord 9 20 ch [BitVec.ofNat 8 ch, BitVec.ofNat 8 d] else s

/-- One channel's dies as discovery reports them (R254, Table 3; R256): CHN_DIEMAP, the rate, ENABLE. -/
def State.takeChannel (s : State) (ch : Nat) (dies : List DieParams) : State :=
  let ps := (List.range 16).map fun d => (dies[d]?).getD DieParams.absent
  let mask (f : DieParams → Bool) : Nat :=
    ((List.range 16).map fun d => if f ((ps[d]?).getD DieParams.absent) then 2 ^ d else 0).sum
  let ok (p : DieParams) : Bool := p.present && s.dieSupported p
  let bad (p : DieParams) : Bool := p.present && !s.dieSupported p
  let s := s.setReg (Reg.CHN_DIEMAP ch)
    (BitVec.ofNat 64 (mask DieParams.present * 2 ^ 48 + mask ok * 2 ^ 32 + mask bad))
  let s := ((List.range 16).zip ps).foldl (fun s e => s.takeOneDie ch e.1 e.2 (bad e.2)) s
  let s := s.trainChannel ch []
  s.setFld (Reg.CHN_CTRL ch) Reg.CHN_CTRL_.ENABLE (if mask ok = 0 then 0 else 1)

/-! ## Reconciliation (R285, R286) -/

/-- The usable dies of a carrier. -/
def State.carrierUsable (s : State) (c : Nat) : List Nat := (carrierDies c).filter fun dk => s.dieUsable dk

/-- Whether reconciliation is delta (R285). -/
def State.isDelta (s : State) (c : Nat) (r : CarrierRecord) (dieHash : Word) : Bool :=
  match (s.carrier c).departure with
  | none => false
  | some d =>
    r.valid && decide (r.owner = s.reg Reg.FUS_SERIAL ∧ r.slot = c ∧ r.carrierId = d.carrierId ∧ r.epoch = d.epoch ∧
      dieHash = d.dieHash)

/-- The flag pair of a die that is used for the first time: blocks 0 and 1 (R268; log entry 14). -/
def State.firstFlags (s : State) (dk : Nat) : State :=
  let d := s.dieOf dk
  if d.flagActive ≠ d.flagOther then s else s.setDie dk { d with flagActive := 0, flagOther := 1, flagNext := 0 }

/-- The state that a block takes in reconciliation (R285): flag pair and retired blocks stand; in a delta reconciliation a
block in use stands WRITTEN; every other one needs an erase, those found ERASED too, which no MARK can set (R272). -/
def State.reconciledState (s : State) (dk block : Nat) (delta : Bool) (old : SMap BlockEntry) : BlockEntry :=
  let d := s.dieOf dk
  let was := (old.look (blockKey dk block)).getD { st := .unknown, next := 0 }
  if block = d.flagActive ∨ block = d.flagOther then { st := .flag, next := 0 }
  else if s.place.retired.contains (blockKey dk block) then { st := .retired, next := 0 }
  else if delta ∧ was.st = .written ∧ s.inBand dk block then was
  else { st := .needsErase, next := 0 }

/-- Every block of a die takes its state (R272, R274, R285). -/
def State.setBlocks (s : State) (dk : Nat) (f : Nat → BlockEntry) : State :=
  (List.range (s.dieBlocks dk)).foldl (fun s b => s.setBlock dk b (f b)) s

/-- Reconciliation begins (R285): delta or full, and the block states that it gives. A full one ends the retention of the
slot's departure record (R286). -/
def State.beginReconcile (s : State) (c : Nat) : State :=
  let x := s.carrier c
  let r := x.record.getD { valid := false, slot := 0, departed := false, evacuated := false, carrierId := 0, owner := 0,
                           epoch := 0, dieHash := 0 }
  let delta := s.isDelta c r x.dieHash
  let old : SMap BlockEntry := match x.departure with | some d => d.blocks | none => []
  let fresh := s.takeFree
  let s := if r.valid then s else fresh.2
  let s := s.setReg (Reg.CAR_ID c) (if r.valid then r.carrierId else fresh.1)
  let s := if delta then s else s.setReg (Reg.CAR_EPOCH c) 0
  let s := s.setCarrier c { x with delta := delta, departure := if delta then x.departure else none }
  (s.carrierUsable c).foldl (fun s dk =>
    let s := s.firstFlags dk
    s.setBlocks dk fun b => s.reconciledState dk b delta old) s

/-- The bands not yet FREE with a failed member on a carrier (R285). -/
def State.bandsFailedOn (s : State) (c : Nat) : List Nat :=
  (s.place.bands.filter fun e => decide (e.2.st ≠ .free) && e.2.failed.any fun i =>
    match e.2.members[i]? with | some m => decide (carrierOf m.ch = c) | none => false).map fun e => e.1

/-- The trailers of these bands' members on a carrier are current: their bits in MEMBER_FAILED are cleared (R285). -/
def State.clearFailedOn (s : State) (c : Nat) (nums : List Nat) : State :=
  let off (b : Band) (i : Nat) : Bool :=
    match b.members[i]? with | some m => decide (carrierOf m.ch ≠ c) | none => true
  let clear (b : Band) : Band := { b with failed := b.failed.filter (off b) }
  { s with place := { s.place with
      bands := s.place.bands.map fun e => if nums.contains e.1 then (e.1, clear e.2) else e } }

/-- A carrier comes into service: its dies take their flush reserve and staging shares, and redundancy, capacity and the
journal follow. -/
def State.intoService (s : State) (c : Nat) : State :=
  let t := s.setCarState c 5
  (s.carrierUsable c).foldl (fun s dk => s.settleAreas dk) t

/-! ## Power and presence (R278, R283, R284) -/

/-- A carrier is powered up (R284, Table 20, step 1). -/
def State.powerUp (s : State) (c : Nat) : State :=
  (s.setFld (Reg.CAR_STATE c) Reg.CAR_STATE_.POWER 1).setCarState c 2

/-- A carrier not yet in service is powered off, back to OFF (R284). -/
def State.backOff (s : State) (c : Nat) : State := (s.switchOff c).setCarState c 1

/-- A command or a press on a slot ends LOCATE (R278). -/
def State.endLocate (s : State) (c : Nat) : State :=
  if (s.carrier c).locate then (s.setCarrier c { s.carrier c with locate := false }).setCarState c (s.carState c) else s

/-! ## Removal (R281, R282) -/

/-- The capacity without a carrier. -/
def State.capacityWithout (s : State) (c : Nat) : Nat :=
  (s.setFld (Reg.CAR_STATE c) Reg.CAR_STATE_.STATE 1).capacity

/-- A removal is refused (R281): the carrier stays ACTIVE, its indicator blinks, REFUSE says why. -/
def State.refuse (s : State) (c why : Nat) : State :=
  let s := s.setFld (Reg.CAR_STATE c) Reg.CAR_STATE_.REFUSE why
  let s := if (s.carrier c).locate then s else s.setFld (Reg.CAR_STATE c) Reg.CAR_STATE_.INDICATOR 2
  s.raiseRecord 10 19 c [BitVec.ofNat 8 c, BitVec.ofNat 8 why]

/-- A removal starts, or is refused (R281, Table 19, step 1). -/
def State.startRemoval (s : State) (c : Nat) : State :=
  if s.capacityWithout c ≤ s.committed then s.refuse c 1
  else if (List.range 8).any fun x => decide (x ≠ c ∧ s.carState x = 6) then s.refuse c 2
  else
    let min := decide (s.fld Reg.CAR_CTRL Reg.CAR_CTRL_.REMOVE_POLICY = 1)
    (s.setCarrier c { s.carrier c with minimal := min }).setCarState c 6

/-- The removal is cancelled (R281). -/
def State.cancelRemoval (s : State) (c : Nat) : State := s.setCarState c 5

/-- Whether a stripe would have a codeword slot with more than two unavailable codewords without a carrier (R282). -/
def State.needsEvac (s : State) (b : Band) (st c : Nat) : Bool :=
  (List.range 4).any fun k => decide (2 < (b.members.filter fun m =>
    decide (carrierOf m.ch = c) || (s.rawCodeword (s.stripeAddr m st) k).isNone).length)

/-- The addresses on a carrier from which the removal moves live units. -/
def State.evacAddr (s : State) (c addr : Nat) : Bool :=
  decide (dieCarrier (addrDie addr) = c) &&
    (!(s.carrier c).minimal ||
      (match s.findUnit addr with | some (_, b, _, st) => s.needsEvac b st c | none => false))

/-- The live units on a carrier that the removal still has to copy. -/
def State.evacUnits (s : State) (c : Nat) : List Live :=
  s.nss.flatMap fun e =>
    ((List.range (e.2.size / 4)).filter fun u =>
      let m := s.entryOf e.2 u
      meV m && s.evacAddr c (meAddr m)).map fun u => (e.1, u, meAddr (s.entryOf e.2 u))

/-- The map images on a carrier that the removal still has to move. -/
def State.evacImages (s : State) (c : Nat) : List Nat :=
  (s.map.dir.filter fun e => e.2.img && s.evacAddr c e.2.unit).map fun e => e.1

/-- The staged blocks with a copy on a carrier: index key, block, whether it is copy A. -/
def State.evacStaged (s : State) (c : Nat) : List (Nat × Nat × Bool) :=
  s.place.index.flatMap fun e =>
    ((List.range 4).filter fun b => e.2.staged.getLsbD b).flatMap fun b =>
      let on (l : List Nat) : Bool := decide (dieCarrier (addrDie (((l[b]?).getD 0) % 2 ^ 36)) = c)
      (if on e.2.copyA then [(e.1, b, true)] else []) ++ (if on e.2.copyB then [(e.1, b, false)] else [])

/-- The blocks of system namespaces with a copy on a carrier. -/
def State.evacSystem (s : State) (c : Nat) : Nat :=
  let on (x : SysBlock) : Bool := decide (dieCarrier x.dieA = c ∨ dieCarrier x.dieB = c)
  (s.nss.map fun e => (e.2.sysData.filter fun x => on x.2).length +
    (e.2.sysLogs.map fun l => (l.entries.filter fun x => on x.2).length).sum).sum

/-- What the removal of a carrier still has to move (CAR_LEFT). -/
def State.evacLeft (s : State) (c : Nat) : Nat :=
  (s.evacUnits c).length + (s.evacImages c).length + (s.evacStaged c).length + s.evacSystem c

/-- The die that takes the copy of something whose other copy lies on a die: one that takes new data, off that die's
carrier while more than one serves (R176, R197; log entry 14). -/
def State.dieBeside (s : State) (dies : List Nat) (other : Nat) : Option Nat :=
  dies.find? fun dk =>
    if s.servingCarriers.length ≤ 1 then decide (dk / 16 ≠ other / 16) else decide (dieCarrier dk ≠ dieCarrier other)

/-- Stage one copy of a block again elsewhere (R281, Table 19, step 2). -/
def State.restage (s : State) (e : Nat × Nat × Bool) : State :=
  match s.place.index.look e.1, s.nss.look (e.1 / 2 ^ 48) with
  | some r, some n =>
    let keep := (((if e.2.2 then r.copyB else r.copyA)[e.2.1]?).getD 0)
    let move := (((if e.2.2 then r.copyA else r.copyB)[e.2.1]?).getD 0)
    let lba := 4 * (e.1 % 2 ^ 48) + e.2.1
    match s.readStaged [keep, move] (e.1 / 2 ^ 48) lba n.nstag.toNat, s.dieBeside s.stageDies (addrDie (keep % 2 ^ 36)) with
    | some (c, _), some dk =>
      let p := s.programStage dk [{ c with step := some 0 }]
      let r := if e.2.2 then { r with copyA := r.copyA.set e.2.1 p.2 } else { r with copyB := r.copyB.set e.2.1 p.2 }
      { p.1 with place := { p.1.place with index := p.1.place.index.put e.1 r } }
    | _, _ => s
  | _, _ => s

/-- Move the system blocks' copies off a carrier (R281, Table 19, step 2). -/
def State.moveSystem (s : State) (c : Nat) : State :=
  let dies := s.servingDies.filter fun dk => s.dieTakes dk
  let move (x : SysBlock) : SysBlock :=
    let x := if dieCarrier x.dieA = c then { x with dieA := (s.dieBeside dies x.dieB).getD x.dieA } else x
    if dieCarrier x.dieB = c then { x with dieB := (s.dieBeside dies x.dieA).getD x.dieB } else x
  let ns (n : Namespace) : Namespace :=
    { n with
      sysData := n.sysData.map fun e => (e.1, move e.2)
      sysLogs := n.sysLogs.map fun l => { l with entries := l.entries.map fun e => (e.1, move e.2) } }
  { s with nss := s.nss.map fun e => (e.1, ns e.2) }

/-- Copy units of one layout that lie on a carrier. -/
def State.evacCopy (s : State) (c : Nat) : State :=
  let us := (s.evacUnits c).filter fun u => !s.copying u
  let bandOf (u : Live) : Option Band := (s.findUnit u.2.2).map fun x => x.2.1
  match us.head?.bind bandOf with
  | none => s
  | some b =>
    let same (u : Live) : Bool := decide ((bandOf u).map Band.layout = some b.layout)
    s.copyUnits b.layout (copyStreamOf b.stream) false ((us.filter same).take (bandD b.layout)) fun _ => 2

/-- Place one map image that lies on a carrier again. -/
def State.evacImage (s : State) (c : Nat) : State :=
  match s.evacImages c with
  | [] => s
  | mpn :: _ => match s.programImage mpn s.map.pseq with | some (u, s) => s.setImage mpn u | none => s

/-- One pass of the evacuation: a stripe of live units, a map image, the staged copies of a page-plane, the system
blocks' copies. -/
def State.evacuate (s : State) (c : Nat) : State :=
  let s := (s.evacCopy c).evacImage c
  let s := ((s.evacStaged c).take 4).foldl (fun s e => s.restage e) s
  s.moveSystem c

/-- Whether no descriptor of a carrier is queued or runs. -/
def State.carrierIdle (s : State) (c : Nat) : Bool :=
  ((List.range 16).all fun i => (s.chanOf (16 * c + i)).queue.isEmpty) &&
    (carrierDies c).all fun dk => (s.dieOf dk).cur.isNone && (s.dieOf dk).susp.isNone

/-! ## Meanings -/

/-- Whether a carrier event is acted upon: never in HOLDUP (R288). -/
def State.carEvent (s : State) (c : Nat) : Bool := s.running && decide (c < 8 ∧ s.mode ≠ modeHoldup)

/-- Whether the N9 acts on a slot's inputs: while the slot face applies (R277, R528); the command stands for that moment. -/
def State.slotInput (s : State) (c : Nat) : Bool := s.carEvent c && decide (s.pins.face = .slot)

/-- CARRIER_PRESENCE_CHANGE (R278, R283, R284, R288). -/
def execCarrierPresenceChange (c : Nat) (present : Bool) (s : State) : Host.Outcome State Fault Refusal :=
  answer (s.slotInput c) s
    (let st := s.carState c
     let t := s.setFld (Reg.CAR_STATE c) Reg.CAR_STATE_.PRESENT (if present then 1 else 0)
     if present then
       if st = 0 then
         let t := (t.setCarState c 1).raiseRecord 10 16 c [BitVec.ofNat 8 c]
         if t.fld Reg.CAR_CTRL Reg.CAR_CTRL_.AUTO_ON = 1 then t.powerUp c else t
       else t
     else if 2 ≤ st ∧ st ≤ 7 then (t.depart c true).mediaChanged s
     else t.setCarState c 0)

/-- CARRIER_BUTTON_PRESS (R278, R281, R284, R288). -/
def execCarrierButtonPress (c : Nat) (s : State) : Host.Outcome State Fault Refusal :=
  answer (s.slotInput c) s
    (let t := (s.endLocate c).raiseRecord 10 22 c [BitVec.ofNat 8 c]
     match s.carState c with
     | 1 | 8 => t.powerUp c
     | 2 | 3 | 4 => (t.backOff c).mediaChanged s
     | 5 => (t.startRemoval c).mediaChanged s
     | 6 => (t.cancelRemoval c).mediaChanged s
     | _ => t)

/-- A write of CAR_CMD. -/
def State.carCommand (s : State) (src : Source) (c : Nat) (f : State → State) : Host.Outcome State Fault Refusal :=
  answer (s.running && decide (c < 8)) s
    (s.access src (Reg.CAR_CMD c) 4 fun t =>
      if t.mode = modeHoldup then t else (f (t.endLocate c)).mediaChanged t)

/-- CARRIER_REMOVE (R281, R290). -/
def execCarrierRemove (src : Source) (c : Nat) (s : State) : Host.Outcome State Fault Refusal :=
  s.carCommand src c fun t => if t.carState c = 5 then t.startRemoval c else t

/-- CARRIER_CANCEL (R281, R284, R290). -/
def execCarrierCancel (src : Source) (c : Nat) (s : State) : Host.Outcome State Fault Refusal :=
  s.carCommand src c fun t =>
    if t.carState c = 6 then t.cancelRemoval c
    else if 2 ≤ t.carState c ∧ t.carState c ≤ 4 then t.backOff c else t

/-- CARRIER_INSERT (R284, R290). -/
def execCarrierInsert (src : Source) (c : Nat) (s : State) : Host.Outcome State Fault Refusal :=
  s.carCommand src c fun t => if t.carState c = 1 ∨ t.carState c = 8 then t.powerUp c else t

/-- CARRIER_LOCATE (R278, R290): FAST until the next command or press on the slot. -/
def execCarrierLocate (src : Source) (c : Nat) (s : State) : Host.Outcome State Fault Refusal :=
  s.carCommand src c fun t =>
    (t.setCarrier c { t.carrier c with locate := true }).setFld (Reg.CAR_STATE c) Reg.CAR_STATE_.INDICATOR 3

/-- CARRIER_POWER_DELAY (R284, Table 20, step 2). -/
def execCarrierPowerDelay (c : Nat) (s : State) : Host.Outcome State Fault Refusal :=
  answer (s.carEvent c && decide (s.carState c = 2)) s (s.setCarState c 3)

/-- CARRIER_DISCOVERY_DONE (R254 to R257, R284, Table 20, step 3; R288): `dies` are the 16 positions of each of the 16
channels in order. In BOOT every slot is discovered: one where no die answers is EMPTY, and any other carrier waits for
recovery to resume it or to reconcile it. -/
def execCarrierDiscoveryDone (c : Nat) (dies : List DieParams) (record : CarrierRecord) (dieHash : Word) (s : State) :
    Host.Outcome State Fault Refusal :=
  answer (s.carEvent c && decide (s.carState c = 3)) s
    (if s.mode = modeBoot ∧ !(dies.any fun d => d.present) then
      ((s.setFld (Reg.CAR_STATE c) Reg.CAR_STATE_.POWER 0).setFld (Reg.CAR_STATE c) Reg.CAR_STATE_.PRESENT 0).setCarState c 0
    else
      let t := (List.range 16).foldl (fun s i => s.takeChannel (16 * c + i) ((dies.drop (16 * i)).take 16)) s
      let t := (t.setCarrier c { t.carrier c with record := some record, dieHash := dieHash }).setCarState c 4
      let t := t.setFld (Reg.CAR_STATE c) Reg.CAR_STATE_.PRESENT 1
      (if t.mode = modeBoot then t else t.beginReconcile c).mediaChanged s)

/-- CARRIER_RECONCILE_DONE (R280, R284, Table 20, step 5; R285): `currentBands` are the bands whose members' trailers on
the carrier were found current. In BOOT it waits for recovery step 9 (R288). -/
def execCarrierReconcileDone (c : Nat) (currentBands : List Nat) (s : State) : Host.Outcome State Fault Refusal :=
  answer (s.carEvent c && decide (s.carState c = 4 ∧ (s.mode ≠ modeBoot ∨ 9 ≤ s.power.recStep))) s
    (let x := s.carrier c
     let t := if x.delta then s.clearFailedOn c currentBands else s
     let t := t.setCarrier c { x with departure := none }
     let t := (t.intoService c).advanceEpoch
     let t := t.setFld (Reg.CAR_STATE c) Reg.CAR_STATE_.RECON (if x.delta then 1 else 2)
     (t.raiseRecord 10 (if x.delta then 20 else 21) c [BitVec.ofNat 8 c]).mediaChanged s)

/-- EVACUATION_COPY (R281, R282, Table 19, step 2). -/
def execEvacuationCopy (c : Nat) (s : State) : Host.Outcome State Fault Refusal :=
  answer (s.carEvent c && decide (s.carState c = 6)) s (s.evacuate c)

/-- EVACUATION_DONE (R281, Table 19, step 3). -/
def execEvacuationDone (c : Nat) (s : State) : Host.Outcome State Fault Refusal :=
  answer (s.carEvent c && decide (s.carState c = 6 ∧ s.evacLeft c = 0)) s ((s.setCarState c 7).mediaChanged s)

/-- CARRIER_QUIESCE_DONE (R281, Table 19, steps 4 and 5): the record, the departure, the media epoch, power off. -/
def execCarrierQuiesceDone (c : Nat) (s : State) : Host.Outcome State Fault Refusal :=
  answer (s.carEvent c && decide (s.carState c = 7) && s.carrierIdle c) s
    (let t := (s.writeRecord c 3).leaveService c
     let t := ((t.switchOff c).setCarState c 1).advanceEpoch
     (t.raiseRecord 10 17 c [BitVec.ofNat 8 c]).mediaChanged s)

/-- REFUSE_BLINK_EXPIRE (R281): the indicator of a refused carrier returns to ON. -/
def execRefuseBlinkExpire (c : Nat) (s : State) : Host.Outcome State Fault Refusal :=
  answer (s.carEvent c && decide (s.carState c = 5 ∧ s.fld (Reg.CAR_STATE c) Reg.CAR_STATE_.REFUSE ≠ 0)) s
    (s.setCarState c 5)

/-- DEPARTURE_RECORD_EXPIRE (R286, R290): CAR_EPOCH and CAR_ID of an empty slot read 0 then. -/
def execDepartureRecordExpire (c : Nat) (s : State) : Host.Outcome State Fault Refusal :=
  answer (s.running && decide (c < 8) && (s.carrier c).departure.isSome) s
    (let t := s.setCarrier c { s.carrier c with departure := none }
     if s.fld (Reg.CAR_STATE c) Reg.CAR_STATE_.POWER = 1 then t
     else (t.setReg (Reg.CAR_EPOCH c) 0).setReg (Reg.CAR_ID c) 0)

end Sys2Proof.Machine
end

