-- ==== Sys2Proof/Machine/Power.lean ====
section
/-! DEFINITION. The bank and the flush set's limits (R359, R363, R366, R367), entry to HOLDUP (R359 to R361), the flush
(R369 to R374), the persist horizon (R368), and halts (R500, R501). -/

namespace Sys2Proof.Machine

open Sys2Proof

/-! ## The bank (R359, R363) -/

/-- The rate of a channel code in MB/s (R253, Table 2): an 8-bit bus. -/
def rateOf (code : Nat) : Nat := (([10, 800, 1200, 1600, 2400, 3200, 3600, 4800] : List Nat)[code]?).getD 0

/-- The rates of the channels that hold a usable die, together, in MB/s (R363). -/
def State.rateSum (s : State) : Nat :=
  ((List.range 128).map fun ch =>
    if (s.usableDies ch).isEmpty then 0 else rateOf (s.fld (Reg.CHN_RATE ch) Reg.CHN_RATE_.CURRENT)).sum

/-- The bank voltage in µV at a sample code. -/
def State.bankUv (s : State) : Nat :=
  s.fld Reg.PWR_SENSE Reg.PWR_SENSE_.CODE * s.fld Reg.PWR_BANK Reg.PWR_BANK_.SCALE_UV

/-- Twice the bank energy available, in mJ × 10^12: CAP_MF × (V² − VMIN²) in µV² (R363). -/
def State.bankTwice (s : State) : Nat :=
  let v := s.bankUv
  let m := 1000 * s.fld Reg.PWR_BANK Reg.PWR_BANK_.VMIN_MV
  s.fld Reg.PWR_BANK Reg.PWR_BANK_.CAP_MF * (v * v - m * m)

/-- FACTOR: f in steps of 1/256, rounded down (R363): 0 while SCALE_UV, CAP_MF or FULL_MJ is 0. -/
def State.factor (s : State) : Nat :=
  let full := s.fld Reg.PWR_BANK Reg.PWR_BANK_.FULL_MJ
  if s.fld Reg.PWR_BANK Reg.PWR_BANK_.SCALE_UV = 0 ∨ s.fld Reg.PWR_BANK Reg.PWR_BANK_.CAP_MF = 0 ∨ full = 0 then 0
  else
    let den := 2 * 10 ^ 12
    min 256 (min (256 * s.rateSum / 307200) (256 * (4 * s.bankTwice - full * den) / (3 * full * den)))

/-- Whether a part of the flush set lies over its limit (R366). -/
def State.setOver (s : State) : Bool :=
  decide (s.fld Reg.PWR_FLUSHLIM Reg.PWR_FLUSHLIM_.MAP < s.mapLevel ∨
    s.fld Reg.PWR_FLUSHLIM Reg.PWR_FLUSHLIM_.GATHER < s.gatherLevel)

/-- Compute the factor and the limits again (R363, R366, R367). -/
def State.recompute (s : State) : State :=
  let old := s.fld Reg.PWR_ENERGY Reg.PWR_ENERGY_.FACTOR
  let f := s.factor
  let t := s.setFld Reg.PWR_ENERGY Reg.PWR_ENERGY_.FACTOR f
  let t := t.setFld Reg.PWR_ENERGY Reg.PWR_ENERGY_.AVAIL_MJ (min 0xFFFF (s.bankTwice / (2 * 10 ^ 12)))
  let t := t.setFld Reg.PWR_FLUSHLIM Reg.PWR_FLUSHLIM_.MAP (524288 * f / 256)
  let t := t.setFld Reg.PWR_FLUSHLIM Reg.PWR_FLUSHLIM_.GATHER (516096 * f / 256)
  let t := if t.setOver && !s.setOver then t.raise 18 16 else t
  let t := if f < 32 ∧ 32 ≤ old then t.raise 18 17 else t
  t.reason reasonHoldup (decide (f < 32))

/-- A sample of HOLDUP_SENSE (R359): CODE follows the pin, BANK_MV is 0 while SCALE_UV is 0. -/
def State.takeSample (s : State) (code : BitVec 10) : State :=
  let s := s.setFld Reg.PWR_SENSE Reg.PWR_SENSE_.CODE code.toNat
  s.setFld Reg.PWR_SENSE Reg.PWR_SENSE_.BANK_MV (min 0xFFFF (s.bankUv / 1000))

/-! ## Entry to HOLDUP (R359 to R361, R371) -/

/-- The descriptors at the entry (R371, Table 3, step 3): the queued ones end with ABORTED, erases and reads end, suspended
programs resume. -/
def State.stopDescs (s : State) : State :=
  let s : State := { s with media := { s.media with dies := s.media.dies.map fun e =>
    let d := e.2
    let isProg (o : DieOp) : Bool := decide (o.desc.op = 2)
    let cur := (d.cur.filter isProg).or (d.susp.filter isProg)
    (e.1, { d with cur := cur, susp := none }) } }
  s.media.chans.foldl (fun s e =>
    let c := s.chanOf e.1
    let s := s.setChan e.1 { c with queue := [] }
    c.queue.foldl (fun s x => s.endFree x e.1 7 0) s) s

/-- HOLDUP is entered (R359, R361, R371): steps 1 to 3 of Table 3; from BOOT the N9 flushes nothing and stops. A castling
is cut short (R489). -/
def State.enterHoldup (s : State) (bySense : Bool) : State :=
  let boot := decide (s.mode = modeBoot)
  let t := ((s.enterMode modeHoldup).count Reg.PWR_HOLDUPS 1).stopDescs
  let t := t.cutCastle.discardStaging
  { t with
    power := { t.power with flush := if boot then .stopped else .entered, cut := false, bySense := bySense, lowAbort := 0,
                            flushStripes := 0, flushBand := [] }
    pins := { t.pins with stopped := boot } }

/-- Whether HOLDUP can be entered now: in any mode but HOLDUP and FROZEN (R494). -/
def State.mayHold (s : State) : Bool := s.running && decide (s.mode ≠ modeHoldup ∧ s.mode ≠ modeFrozen)

/-! ## Halts (R500, R501) -/

/-- A halt (R500): HOLDUP with steps 1 to 3 of the flush and nothing further; MOD_HALT records it (R501). During a flush
it cuts the flush short (R495). -/
def State.haltNow (s : State) (cause island : Nat) : State :=
  if !s.running then s
  else
    let t := if s.mode = modeHoldup then s else s.enterHoldup false
    let t := t.record 26 0 6 cause [BitVec.ofNat 8 island]
    let t := t.setFld Reg.MOD_HALT Reg.MOD_HALT_.CAUSE cause
    let t := t.setFld Reg.MOD_HALT Reg.MOD_HALT_.ISLAND (if cause = 4 then island else 0)
    let t := t.setFld Reg.MOD_HALT Reg.MOD_HALT_.DSEQ (s.reg Reg.MOD_DSEQ).toNat
    { t with power := { t.power with flush := .stopped, cut := true }, pins := { t.pins with stopped := true } }

/-! ## The flush (R371 to R374) -/

/-- The flush band: 16 dies with a reserve block under the spread rules, relaxed where those cannot be met (R370). -/
def State.chooseFlush (s : State) : List Nat :=
  let dies := s.servingDies.filter fun dk => !(s.dieOf dk).flushBlocks.isEmpty
  let firsts := (List.range 128).filterMap fun ch => dies.find? fun dk => decide (dk / 16 = ch)
  let of_ (c : Nat) : List Nat := firsts.filter fun dk => decide (dieCarrier dk = c)
  let take (rounds : Nat) : List Nat :=
    (List.range rounds).flatMap fun r => (List.range 8).filterMap fun c => (of_ c)[r]?
  let strict := take (s.perCarrier 1)
  (if 16 ≤ strict.length then strict else take 16).take 16

/-- The flush stripes of the set as it stands (R362, R371). -/
def State.flushNeeded (s : State) : Nat := ceilDiv (ceilDiv (s.mapLevel + s.gatherLevel + 8192) 4) 14

/-- Dirty sectors are written back and the flush set is fixed (R173, R174, R371, step 4). -/
def State.fixSet (s : State) : State :=
  let clean (l : CacheLine) : CacheLine := { l with dirty := 0 }
  { s with
    map := { s.map with cache := s.map.cache.map clean, evict := [] }
    power := { s.power with flush := .fixed, flushBand := s.chooseFlush } }

/-- The flush sequencer stops (R371, step 8): clean with the CLEAN record on the medium. -/
def State.endFlush (s : State) (us : Nat) : State :=
  let clean := decide (s.power.flush = .programmed) && !s.power.cut && !s.power.journal.isEmpty
  { s with
    power := { s.power with
      flush := .stopped
      flushUs := if clean then us else 0
      cleanSession := if clean then some s.power.session else none }
    pins := { s.pins with stopped := true } }

/-! ## The persist horizon (R368) -/

/-- H: the oldest stamp of a change that no persisted image carries; the next stamp where there is none (R368). -/
def State.horizonNow (s : State) : DWord :=
  (s.map.dir.filter fun e => e.2.dirty).foldl
    (fun m e => if (m - e.2.since).toNat < 2 ^ 63 then e.2.since else m) s.nextStamp

/-- H is written to the device records; what trims before it replaced is gone for good (R368, R386). -/
def State.writeHorizon (s : State) : State :=
  let h := s.horizonNow
  { s with power := { s.power with
      horizon := h, trims := s.power.trims.filter fun t => decide ((t.seq - h).toNat < 2 ^ 63) } }

/-! ## Meanings -/

/-- POWER_FAIL (R359). -/
def execPowerFail (s : State) : Host.Outcome State Fault Refusal :=
  answer s.mayHold s
    (let t := s.enterHoldup false
     { t with power := { t.power with pwrFailLow := true } })

/-- BANK_SAMPLE (R359, R374): the third consecutive sample below ENTER enters HOLDUP, below ABORT it cuts the flush short. -/
def execBankSample (code : BitVec 10) (s : State) : Host.Outcome State Fault Refusal :=
  answer (s.running && decide (s.mode ≠ modeFrozen)) s
    (let t := s.takeSample code
     let enter := t.fld Reg.PWR_THRESH Reg.PWR_THRESH_.ENTER
     let abort := t.fld Reg.PWR_THRESH Reg.PWR_THRESH_.ABORT
     let lowE := if code.toNat < enter ∧ t.fld Reg.PWR_CTRL Reg.PWR_CTRL_.SENSE_EN = 1 then t.power.lowEnter + 1 else 0
     let lowA := if t.mode = modeHoldup ∧ code.toNat < abort then t.power.lowAbort + 1 else 0
     let t : State := { t with power := { t.power with lowEnter := min 3 lowE, lowAbort := min 3 lowA } }
     if t.mode = modeHoldup then
       if 3 ≤ lowA then { t with power := { t.power with cut := true } } else t
     else if 3 ≤ lowE then t.enterHoldup true
     else t)

/-- ENERGY_RECOMPUTE (R363, R366, R367). -/
def execEnergyRecompute (s : State) : Host.Outcome State Fault Refusal :=
  answer (s.running && decide (s.mode ≠ modeHoldup)) s s.recompute

/-- HORIZON_WRITE (R368). -/
def execHorizonWrite (s : State) : Host.Outcome State Fault Refusal :=
  answer s.serving s s.writeHorizon

/-- FLUSH_WRITEBACK_DONE (R371, step 4). -/
def execFlushWritebackDone (s : State) : Host.Outcome State Fault Refusal :=
  answer (s.running && decide (s.power.flush = .entered)) s s.fixSet

/-- FLUSH_STRIPE_DONE (R371, step 6; R373, R374): a failed stripe is programmed again, and the first reserve block of its
first member is queued for retirement (log entry 14); nothing is programmed once the flush is cut short, or without a
flush band. -/
def execFlushStripeDone (ok : Bool) (s : State) : Host.Outcome State Fault Refusal :=
  answer (s.running && decide (s.power.flush = .fixed) && !s.power.cut && decide (s.power.flushBand.length = 16)) s
    (if ok then
      let n := s.power.flushStripes + 1
      { s with power := { s.power with
          flushStripes := n, flush := if s.flushNeeded ≤ n then .programmed else .fixed } }
    else
      let dk := s.power.flushBand.headD 0
      match (s.dieOf dk).flushBlocks.head? with
      | some b => { s with place := { s.place with retireQueue := s.place.retireQueue ++ [blockKey dk b] } }
      | none => s)

/-- FLUSH_COMPLETE (R371, steps 7 and 8; R373, R374): the flush has been programmed, or nothing more of it can be. -/
def execFlushComplete (us : Nat) (s : State) : Host.Outcome State Fault Refusal :=
  answer (s.running && decide (s.mode = modeHoldup ∧ s.power.flush ≠ .entered ∧ s.power.flush ≠ .stopped) &&
      (decide (s.power.flush = .programmed) || s.power.cut || decide (s.power.flushBand.length < 16))) s
    (s.endFlush us)

end Sys2Proof.Machine
end

