-- ==== Sys2Proof/Machine/Pools.lean ====
section
/-! DEFINITION. The buffer pool manager's firmware requests (R392 to R394, R401 to R403) and the match array's firmware
operations, slides and scan (R404 to R409). -/

namespace Sys2Proof.Machine

open Sys2Proof

/-! ## Allocation (R392, R394, R401) -/

/-- The pool that serves a request: the smallest of its memory that is large enough (R392). -/
def poolFor (sdram : Bool) (bytes : Nat) : Option Nat :=
  if sdram then (if bytes ≤ 0x10000 then some 2 else if bytes ≤ 0x80000 then some 3 else none)
  else if bytes ≤ 0x1000 then some 0
  else if bytes ≤ 0x4000 then some 1
  else none

/-- The pips that a buffer of a pool costs (R397). -/
def poolPips (p : Nat) : Nat := if p = 1 then 4 else if p = 3 then 8 else 1

/-- The tier of a class; 3 is taken as 2 (R395, R421). -/
def State.tierOf (s : State) (cls : Nat) : Nat := min 2 (s.fld (Reg.BPM_QUOTA cls) Reg.BPM_QUOTA_.TIER)

/-- Whether a pool's level lets a class allocate (R401, Table 4). -/
def State.tierServed (s : State) (p cls : Nat) : Bool :=
  let l := s.poolLevel p
  let t := s.tierOf cls
  decide (t = 0) || (decide (t = 1) && decide (l < if cls < 56 then 2 else 3)) || decide (l = 0)

/-- The whole quota of a class for a pool's memory, and what of it is in use. -/
def State.poolQuota (s : State) (p cls : Nat) : Nat × Nat :=
  let q := s.quota cls
  let u := s.pipsUsed cls
  if p < 2 then (q.2.1, u.2.1) else (q.2.2, u.2.2)

/-- Whether an allocation of a class from a pool can be served now (R399, R401). -/
def State.canAlloc (s : State) (p cls : Nat) : Bool :=
  let q := s.poolQuota p cls
  decide (q.2 + poolPips p ≤ q.1) && decide (0 < s.poolFree p) && s.tierServed p cls

/-- The lowest buffer of a pool that is free and there. -/
def State.freeBufNum (s : State) (p : Nat) : Nat :=
  ((List.range (s.poolSize p)).find? fun n =>
    s.bufferThere p n && !(s.pools.bufs.any fun b => decide (b.pool = p ∧ b.num = n))).getD 0

/-- Set the answer that a source reads in BPM_ALLOCRESP. -/
def State.setAllocResp (s : State) (src : Source) (r : AllocResp) : State :=
  { s with pools := { s.pools with resp := (src, r) :: s.pools.resp.filter fun e => decide (e.1 ≠ src) } }

/-- Grant a buffer of a pool to a source. -/
def State.grantBuf (s : State) (src : Source) (p cls : Nat) : State :=
  let n := s.freeBufNum p
  let b : Buf := { addr := bufferAddr p n, pool := p, num := n, cls := cls, pips := poolPips p, src := src, releasing := false }
  let s : State := { s with pools := { s.pools with bufs := s.pools.bufs ++ [b] } }
  (s.followPool p).setAllocResp src (.granted p b.addr)

/-- Whether a source's request is still pending. -/
def State.allocPending (s : State) (src : Source) : Bool :=
  s.pools.resp.any fun e => decide (e.1 = src ∧ e.2 = .pending)

/-- A firmware allocation (R392, R394): refused, granted, or waiting behind those that go before it. -/
def State.allocate (s : State) (src : Source) (cls : Nat) (p : Nat) : State :=
  if (s.poolQuota p cls).1 < poolPips p then s.setAllocResp src .refused
  else if s.canAlloc p cls && !(s.pools.waits.any fun w => decide (w.pool = p ∧ s.tierOf w.cls ≤ s.tierOf cls)) then
    s.grantBuf src p cls
  else
    let w : AllocWait := { src := src, pool := p, cls := cls, order := s.pools.nextOrder }
    let s : State := { s with pools := { s.pools with
      waits := s.pools.waits ++ [w], nextOrder := s.pools.nextOrder + 1 } }
    (s.setAllocResp src .pending).count (Reg.BPM_WAITS p) 1

/-- The waiting allocation of a pool that is served next: tier 0 first, then in arrival order, those of one class in
theirs (R399, R401). -/
def State.nextAlloc (s : State) (p : Nat) : Option AllocWait :=
  let l := s.pools.waits.filter fun w => decide (w.pool = p)
  let ok := l.filter fun w =>
    s.canAlloc p w.cls && !(l.any fun x => decide (x.cls = w.cls ∧ x.order < w.order))
  leastBy (fun w => s.tierOf w.cls * 2 ^ 64 + w.order) ok

/-- BPM_ALLOC_REQUEST (R394). -/
def execBpmAllocRequest (src : Source) (value : Word) (s : State) : Host.Outcome State Fault Refusal :=
  answer s.up s (s.access src Reg.BPM_ALLOCREQ 4 fun s =>
    if s.allocPending src then s.raise 14 25
    else
      let v := value.setWidth 64
      let s := s.setReg Reg.BPM_ALLOCREQ (v &&& 0xBF0F_FFFF)
      match poolFor (v.getLsbD 31) (Reg.BPM_ALLOCREQ_.BYTES.get v) with
      | none => s.setAllocResp src .refused
      | some p => s.allocate src (Reg.BPM_ALLOCREQ_.CLASS.get v) p)

/-- BPM_RELEASE (R393). -/
def execBpmRelease (src : Source) (value : DWord) (s : State) : Host.Outcome State Fault Refusal :=
  answer s.up s (s.access src Reg.BPM_RELEASE 8 fun s =>
    let addr := value.toNat % 2 ^ 48
    match s.pools.bufs.find? fun b => decide (b.addr = addr) with
    | none => s.raiseRecord 14 24 0 (leBytes 8 addr)
    | some b =>
      if b.src ≠ src then s
      else if s.bufBusy addr then
        let mark (x : Buf) : Buf := if x.addr = addr then { x with releasing := true } else x
        { s with pools := { s.pools with bufs := s.pools.bufs.map mark } }
      else s.freeBuf addr)

/-- ALLOC_GRANT (R401). -/
def execAllocGrant (pool : Nat) (s : State) : Host.Outcome State Fault Refusal :=
  match s.nextAlloc pool with
  | none => .next s
  | some w =>
    answer s.up s
      (({ s with pools := { s.pools with waits := s.pools.waits.filter fun x => decide (x.order ≠ w.order) } } : State).grantBuf
        w.src pool w.cls)

/-! ## The match array (R404 to R409) -/

/-- The addresses of the partition that holds an entry: first and past the last (R404, Table 5). -/
def partitionAt (a : Nat) : Nat × Nat :=
  if a < 8192 then (0, 8192) else if a < 73728 then (8192, 73728) else if a < 122880 then (73728, 122880) else (122880, 131072)

/-- Whether a source may use MAT_CMD on an address (R409). -/
def State.matPermitted (s : State) (src : Source) (a : Nat) : Bool :=
  match src with
  | .core c =>
    if c.group = .boot ∧ !s.guardLocked then decide (a < 8192) else decide (122880 ≤ a ∧ a < 131072)
  | _ => decide (122880 ≤ a ∧ a < 131072)

/-- Set the answer that a source reads in MAT_RESP. -/
def State.setMatResp (s : State) (src : Source) (r : MatResp) : State :=
  { s with mat := { s.mat with resp := (src, r) :: s.mat.resp.filter fun e => decide (e.1 ≠ src) } }

/-- Refuse a MAT_CMD operation with a reason (R409, R422). -/
def State.matRefuse (s : State) (src : Source) (reason : Nat) : State :=
  (s.setMatResp src (.refused reason)).raise 15 18

/-- Whether a source's operation is still busy (R409). -/
def State.matBusy (s : State) (src : Source) : Bool :=
  s.mat.resp.any fun e => decide (e.1 = src ∧ e.2 = .busy)

/-- The entry that the MAT_ registers hold (R422). -/
def State.matOperand (s : State) : MatEntry :=
  let hi := s.reg Reg.MAT_KEYHI
  { key := BitVec.ofNat 72 (Reg.MAT_KEYHI_.KEYHI.get hi * 2 ^ 64 + (s.reg Reg.MAT_KEY).toNat)
    mask := BitVec.ofNat 72 (Reg.MAT_KEYHI_.MASKHI.get hi * 2 ^ 64 + (s.reg Reg.MAT_MASK).toNat)
    result := (s.reg Reg.MAT_RESULT).setWidth 32 }

/-- Load an entry into the MAT_ registers. -/
def State.loadMat (s : State) (e : MatEntry) : State :=
  let s := s.setReg Reg.MAT_KEY (e.key.setWidth 64)
  let s := s.setReg Reg.MAT_MASK (e.mask.setWidth 64)
  let s := s.setReg Reg.MAT_KEYHI (BitVec.ofNat 64 (e.mask.toNat / 2 ^ 64 * 256 + e.key.toNat / 2 ^ 64))
  s.setReg Reg.MAT_RESULT (e.result.setWidth 64)

/-- The entry that a READ finds: what an invalid entry holds is open (log entry 1). -/
def State.matAt (s : State) (a : Nat) : MatEntry × State :=
  match s.mat.entries.look a with
  | some e => (e, s)
  | none =>
    let w (i : Nat) : DWord := Config.freeWord (s.free + i)
    ({ key := (w 0).setWidth 72 ||| ((w 1).setWidth 72 <<< 64), mask := (w 2).setWidth 72 ||| ((w 3).setWidth 72 <<< 64)
       result := (w 4).setWidth 32 }, { s with free := s.free + 5 })

/-- Write the entries of the fence and firmware partitions. -/
def State.setMat (s : State) (m : SMap MatEntry) : State := { s with mat := { s.mat with entries := m } }

/-- An ordered insert at an address of its partition (R407): every entry from there on moves down by one. -/
def insertOrdered (m : SMap MatEntry) (a hi : Nat) (e : MatEntry) : SMap MatEntry :=
  let shifted := m.map fun x => if a ≤ x.1 ∧ x.1 < hi then (x.1 + 1, x.2) else x
  SMap.put shifted a e

/-- An ordered delete (R407): every entry after it moves up by one. -/
def deleteOrdered (m : SMap MatEntry) (a hi : Nat) : SMap MatEntry :=
  (m.del a).map fun x => if a < x.1 ∧ x.1 < hi then (x.1 - 1, x.2) else x

/-- A MAT_CMD write that names an operation, with its effect where it is permitted (R409). -/
def State.matCmd (s : State) (src : Source) (a : Nat) (f : State → State) : State :=
  s.access src Reg.MAT_CMD 4 fun s =>
    if s.matBusy src then s
    else
      let s := s.setFld Reg.MAT_CMD Reg.MAT_CMD_.ADDR a
      if s.matPermitted src a then f s else s.matRefuse src 1

/-- Whether an address fits the ADDR field. -/
def matAddrOk (a : Nat) : Bool := decide (a < 131072)

/-- Queue a slide and answer busy (R407). -/
def State.queueSlide (s : State) (src : Source) (a : Nat) (e : Option MatEntry) : State :=
  let x : Slide := { partition := (partitionAt a).1, addr := a, entry := e, src := src }
  ({ s with mat := { s.mat with slides := s.mat.slides ++ [x] } } : State).setMatResp src .busy

/-- MAT_LOOKUP (R405, R409): the registers hold the query. -/
def execMatLookup (src : Source) (addr : Nat) (s : State) : Host.Outcome State Fault Refusal :=
  answer (s.up && matAddrOk addr) s (s.matCmd src addr fun s =>
    let q := s.matOperand
    let r := partitionAt addr
    match matLookup s.mat.entries r.1 r.2 q.key q.mask with
    | some (a, _) => s.setMatResp src (.done true a)
    | none => s.setMatResp src (.done false 0))

/-- MAT_READ (R409, R422). -/
def execMatRead (src : Source) (addr : Nat) (s : State) : Host.Outcome State Fault Refusal :=
  answer (s.up && matAddrOk addr) s (s.matCmd src addr fun s =>
    let r := s.matAt addr
    (r.2.loadMat r.1).setMatResp src (.done false 0))

/-- MAT_WRITE (R409). -/
def execMatWrite (src : Source) (addr : Nat) (s : State) : Host.Outcome State Fault Refusal :=
  answer (s.up && matAddrOk addr) s (s.matCmd src addr fun s =>
    (s.setMat (s.mat.entries.put addr s.matOperand)).setMatResp src (.done false 0))

/-- MAT_INSERT (R407, R409): refused when the partition's last address is valid. -/
def execMatInsert (src : Source) (addr : Nat) (s : State) : Host.Outcome State Fault Refusal :=
  answer (s.up && matAddrOk addr) s (s.matCmd src addr fun s =>
    if (s.mat.entries.look ((partitionAt addr).2 - 1)).isSome then s.matRefuse src 2
    else s.queueSlide src addr (some s.matOperand))

/-- MAT_DELETE (R407, R409). -/
def execMatDelete (src : Source) (addr : Nat) (s : State) : Host.Outcome State Fault Refusal :=
  answer (s.up && matAddrOk addr) s (s.matCmd src addr fun s => s.queueSlide src addr none)

/-- MAT_INVALIDATE (R409). -/
def execMatInvalidate (src : Source) (addr : Nat) (s : State) : Host.Outcome State Fault Refusal :=
  answer (s.up && matAddrOk addr) s (s.matCmd src addr fun s =>
    (s.setMat (s.mat.entries.del addr)).setMatResp src (.done false 0))

/-- MATCH_SLIDE_DONE (R407): the oldest queued slide of a partition, named by its first address, is done at once for
every lookup. -/
def execMatchSlideDone (partition : Nat) (s : State) : Host.Outcome State Fault Refusal :=
  match s.mat.slides.find? fun x => decide (x.partition = partition) with
  | none => .next s
  | some x =>
    answer s.up s
      (let s : State := { s with mat := { s.mat with slides := s.mat.slides.erase x } }
       let hi := (partitionAt x.addr).2
       match x.entry with
       | some e =>
         if (s.mat.entries.look (hi - 1)).isSome then s.matRefuse x.src 2
         else (s.setMat (insertOrdered s.mat.entries x.addr hi e)).setMatResp x.src (.done false 0)
       | none => (s.setMat (deleteOrdered s.mat.entries x.addr hi)).setMatResp x.src (.done false 0))

/-- Repair an entry that failed its parity check (R408): a firmware entry is invalidated, every other rewritten. -/
def State.repairMat (s : State) (a : Nat) : State :=
  let s := (s.count Reg.MAT_PARITY 1).raiseRecord 15 16 (a / 32768) (leBytes 4 a)
  if 122880 ≤ a then (s.setMat (s.mat.entries.del a)).raiseRecord 15 17 (a / 32768) (leBytes 4 a) else s

/-- MATCH_SCAN (R408): `bad` are the entries whose parity fails. -/
def execMatchScan (bad : List Nat) (late : Bool) (s : State) : Host.Outcome State Fault Refusal :=
  answer s.up s
    (let s := (bad.filter matAddrOk).foldl (fun s a => s.repairMat a) s
     if late then s.raise 15 19 else s)

end Sys2Proof.Machine
end

