-- ==== Sys2Proof/Machine/Mules.lean ====
section
/-! DEFINITION. The mules: native rings, descriptors, element lists, tallies, the interleave transform, pacing and errors
(R410 to R419, R423), and K7 register mode (R420). -/

namespace Sys2Proof.Machine

open Sys2Proof

/-! ## Fabric addresses (R413, R429) -/

/-- Whether `n` bytes from an address lie in staging SRAM, in map cache scratch, or in any memory of the fabric (R413). -/
def inStaging (a n : Nat) : Bool := decide (stagingBase ≤ a ∧ a + n ≤ stagingBase + 2 ^ 27)

def State.inScratch (s : State) (a n : Nat) : Bool :=
  decide (scratchBase ≤ a ∧ a + n ≤ scratchBase + s.scratchWays * 2 ^ 22)

def State.fabricOk (s : State) (a n : Nat) : Bool := inStaging a n || s.inSdram a n || s.inScratch a n

/-- Where the model keeps the tally of the 4 KiB of data at a fabric address: the sideband has no address of its own
(R391, R414). -/
def sidebandAt (a : Nat) : Nat := 2 ^ 64 + a

/-! ## Descriptors (R411, Table 7) -/

def mdInt (d : BitVec 256) : Bool := d.getLsbD 30
def mdSrcSg (d : BitVec 256) : Bool := d.getLsbD 29
def mdDstSg (d : BitVec 256) : Bool := d.getLsbD 28
def mdXform (d : BitVec 256) : Bool := d.getLsbD 27
def mdTally (d : BitVec 256) : Bool := d.getLsbD 26
def mdTag (d : BitVec 256) : Nat := descBits d 0 16
def mdLen (d : BitVec 256) : Nat := descBits d 32 32
def mdSrc (d : BitVec 256) : Nat := descBits d 64 64
def mdDst (d : BitVec 256) : Nat := descBits d 128 64
def mdSrcSp (d : BitVec 256) : Nat := descBits d 222 2
def mdDstSp (d : BitVec 256) : Nat := descBits d 220 2
def mdFunc (d : BitVec 256) : Nat := descBits d 211 9
def mdSym (d : BitVec 256) : Nat := 2 ^ descBits d 204 2
def mdLanes (d : BitVec 256) : Nat := descBits d 198 6 + 1

/-- The function whose host space a descriptor uses through a space code. -/
def mdFn (d : BitVec 256) (sp : Nat) : Fn := { port := if sp = 2 then .b else .a, idx := mdFunc d }

/-- The functions that a descriptor names (R419). -/
def mdFns (d : BitVec 256) : List Nat :=
  ([mdSrcSp d, mdDstSp d].filter fun x => decide (x ≠ 0)).map fun x => (mdFn d x).key

/-- Whether a descriptor's reserved bits are 0 and its spaces are codes of Table 7. -/
def mdReservedOk (d : BitVec 256) : Bool :=
  decide (descBits d 24 2 = 0 ∧ descBits d 206 5 = 0 ∧ descBits d 192 6 = 0 ∧ mdSrcSp d ≠ 3 ∧ mdDstSp d ≠ 3)

/-- Whether the transform's length is right (R415). -/
def mdXformOk (d : BitVec 256) : Bool := !mdXform d || decide (mdLen d % (mdLanes d * mdSym d) = 0)

/-- The elements of a list that adds up to `left` bytes, with LAST on its last element alone (R412). -/
def sgElems (m : List Host.Cell) : Nat → Nat → Nat → Option (List (Nat × Nat))
  | 0, _, _ => none
  | fuel + 1, a, left =>
    let addr := leNat (readBytes m a 8)
    let len := leNat (readBytes m (a + 8) 4)
    let flags := leNat (readBytes m (a + 12) 4)
    if len = 0 ∨ left < len ∨ 1 < flags then none
    else if len = left then (if flags = 1 then some [(addr, len)] else none)
    else if flags = 1 then none
    else (sgElems m fuel (a + 16) (left - len)).map fun l => (addr, len) :: l

/-- Split bytes that go to an offset of an element list over its elements. -/
def spread : List (Nat × Nat) → Nat → List Byte → List (Nat × List Byte)
  | [], _, _ => []
  | (a, n) :: es, off, l =>
    if l.isEmpty then []
    else if n ≤ off then spread es (off - n) l
    else (a + off, l.take (n - off)) :: spread es 0 (l.drop (n - off))

/-! ## Rings -/

/-- A ring beside its registers. -/
def State.mule (s : State) (r : Nat) : MuleRing :=
  (s.mules.look r).getD { cur := none, addr := 0, idle := false, cut := none, pendingBack := none }

/-- Write a ring. -/
def State.setMule (s : State) (r : Nat) (x : MuleRing) : State := { s with mules := s.mules.put r x }

/-- Whether a ring is enabled, halted. -/
def State.ringEnabled (s : State) (r : Nat) : Bool := decide (s.fld (Reg.MUL_RCTRL r) Reg.MUL_RCTRL_.ENABLE = 1)
def State.ringHalted (s : State) (r : Nat) : Bool := decide (s.fld (Reg.MUL_RSTAT r) Reg.MUL_RSTAT_.HALTED = 1)

/-- The fill level that paces a ring (R416). -/
def State.paceLevel (s : State) (r : Nat) : Nat :=
  let used (p : Port) : Nat := ((s.portOf p).tags.filter fun t => !t.quarantined).length * 256 / 8192
  match s.fld (Reg.MUL_RPACE r) Reg.MUL_RPACE_.SRC with
  | 1 => used .a
  | 2 => used .b
  | _ => s.fld (Reg.MUL_PACELEVEL r) Reg.MUL_PACELEVEL_.LEVEL

/-- HIGH, and LOW as it is taken (R416). -/
def State.paceHigh (s : State) (r : Nat) : Nat := s.fld (Reg.MUL_RPACE r) Reg.MUL_RPACE_.HIGH
def State.paceLow (s : State) (r : Nat) : Nat := min (s.fld (Reg.MUL_RPACE r) Reg.MUL_RPACE_.LOW) (s.paceHigh r - 1)

/-- Whether a ring pauses now. -/
def State.paceStops (s : State) (r : Nat) : Bool := decide (s.paceHigh r ≠ 0 ∧ s.paceHigh r ≤ s.paceLevel r)

/-- Halt a ring at a failing address: direction 0 read, 1 write; kind 0 fetch, 1 status write-back (R417). -/
def State.haltRing (s : State) (r dir kind addr : Nat) : State :=
  let s := s.setReg (Reg.MUL_RERR r) (BitVec.ofNat 64 (dir * 2 ^ 63 + kind * 2 ^ 62 + addr % 2 ^ 48))
  (s.setFld (Reg.MUL_RSTAT r) Reg.MUL_RSTAT_.HALTED 1).raiseRecord 16 16 (r / 64) (leBytes 2 r ++ leBytes 8 addr)

/-- Store bytes in the function's host memory or in the fabric. -/
def State.putOut (s : State) (d : BitVec 256) (addr : Nat) (l : List Byte) : State :=
  if mdDstSp d = 0 then s.store addr l else s.emit (.hostWrite (mdFn d (mdDstSp d)) (BitVec.ofNat 64 addr) l)

/-- The status of a descriptor is written back: DONE first, then the word with STATUS and OWN cleared (R418). -/
def State.writeBackDesc (s : State) (r : Nat) (d : BitVec 256) (status done : Nat) : State :=
  let a := (s.mule r).addr
  let s := s.store (a + 28) (leBytes 4 done)
  let s := s.store a (leBytes 4 ((d.toNat % 2 ^ 16) + status * 2 ^ 16 + descBits d 24 7 * 2 ^ 24))
  let s := s.setMule r { s.mule r with cur := none, cut := none, pendingBack := none }
  let s := s.setFld (Reg.MUL_RSTAT r) Reg.MUL_RSTAT_.ACTIVE 0
  let s := if status = 0 then s else s.raise 16 17
  let s := if mdInt d then s.emit (.muleSignal r (mdTag d)) else s
  s.sweepReleases

/-- A descriptor has ended with a status: it is written back, or the write-back fails and halts the ring (R417). -/
def State.endMule (s : State) (r : Nat) (d : BitVec 256) (status done : Nat) (ok : Bool) : State :=
  if ok then s.writeBackDesc r d status done
  else
    let x := s.mule r
    (s.setMule r { x with pendingBack := some (BitVec.ofNat 8 status, BitVec.ofNat 32 done) }).haltRing r 1 1 x.addr

/-! ## What a descriptor moves -/

/-- Where a descriptor's move ends: bytes of the source moved, and the status. -/
structure MoveEnd where
  bytes : Nat
  status : Nat
  deriving DecidableEq, Repr

/-- The earlier of two ends; the first of them where they meet. -/
def MoveEnd.first (a b : MoveEnd) : MoveEnd := if b.bytes < a.bytes then b else a

/-- The element list of one side, with what is left of the host's bytes: none where the list is malformed. `direct` is the
address when there is no list. -/
def State.sideElems (s : State) (sg : Bool) (sp addr len : Nat) (data : List Byte) :
    Option (List (Nat × Nat)) × List Byte :=
  if !sg then (some [(addr, len)], data)
  else if sp = 0 then (sgElems s.ram (len + 1) addr len, data)
  else
    match sgElems (writeBytes [] 0 data) (len + 1) 0 len with
    | some l => (some l, data.drop (16 * l.length))
    | none => (none, data)

/-- The bytes of an element list before the first element that R413 refuses. -/
def State.allowedBytes (s : State) (d : BitVec 256) (sp : Nat) (write : Bool) (els : List (Nat × Nat)) : Nat :=
  ((els.takeWhile fun e =>
    if sp = 0 then s.fabricOk e.1 e.2 else s.rangeOk (mdFn d sp) e.1 e.2 write).map fun e => e.2).sum

/-- The 4 KiB blocks of a move with the fabric addresses at which they lie in an element list (R414). -/
def blockPlaces (els : List (Nat × Nat)) (n : Nat) : List Nat :=
  (List.range (n / 4096)).map fun i => ((spread els (4096 * i) [0]).head?.map fun e => e.1).getD 0

/-- Where the tally check of blocks going to the host fails first (R414). -/
def State.tallyEnd (s : State) (els : List (Nat × Nat)) (src : List Byte) (len : Nat) : MoveEnd :=
  let l := blockPlaces els len
  match (List.range l.length).find? fun i =>
    decide (leNat (readBytes s.ram (sidebandAt ((l[i]?).getD 0)) 8) ≠ (crc64 ((src.drop (4096 * i)).take 4096)).toNat) with
  | some i => ⟨4096 * i, 3⟩
  | none => ⟨len, 0⟩

/-- Generate the tally CRC of the blocks that came from the host (R414). -/
def State.makeTallies (s : State) (els : List (Nat × Nat)) (src : List Byte) : State :=
  let l := blockPlaces els src.length
  ((List.range l.length).zip l).foldl (fun s e =>
    s.store (sidebandAt e.2) (bytesOf (crc64 ((src.drop (4096 * e.1)).take 4096)) 8)) s

/-- Move the first `n` bytes of a descriptor's source to its destination, through the transform where it is asked for
(R411, R415). -/
def State.moveBytes (s : State) (d : BitVec 256) (src : List Byte) (dst : List (Nat × Nat)) : State :=
  let pieces := if mdXform d then gatherPieces (mdLen d) (mdSym d) (mdLanes d) src else [(0, src)]
  (pieces.flatMap fun e => spread dst e.1 e.2).foldl (fun s e => s.putOut d e.1 e.2) s

/-- Run a descriptor whose lists are in hand. `data` are the bytes that the host gave for its source, `cut` the status of
an early end, after as many bytes as `data` holds. -/
def State.runMove (s : State) (d : BitVec 256) (srcs dst : List (Nat × Nat)) (data : List Byte) (cut : Option Nat) :
    MoveEnd × State :=
  let len := mdLen d
  let src := if mdSrcSp d = 0 then srcs.flatMap fun e => readBytes s.ram e.1 e.2
    else data ++ List.replicate (len - data.length) 0
  let fence := ((⟨s.allowedBytes d (mdSrcSp d) false srcs, 2⟩ : MoveEnd).first ⟨s.allowedBytes d (mdDstSp d) true dst, 2⟩)
  let fence : MoveEnd := if fence.bytes < len then fence else ⟨len, 0⟩
  let e := match cut with | some st => fence.first ⟨min data.length (len - 1), st⟩ | none => fence
  let check := mdTally d && decide (mdDstSp d ≠ 0 ∧ mdSrcSp d = 0)
  let e := if check then e.first (s.tallyEnd srcs src len) else e
  let n := if mdXform d then e.bytes / mdSym d * mdSym d else e.bytes
  let moved := src.take n
  let s := if mdSrcSp d = 0 then srcs.foldl (fun s e => s.touch e.1 e.2 false) s else s
  let t := s.moveBytes d moved dst
  let t := if mdTally d && decide (mdSrcSp d ≠ 0 ∧ mdDstSp d = 0) then t.makeTallies dst moved else t
  (⟨n, e.status⟩, t)

/-- A descriptor's whole run: its status and DONE, or the fabric address of a list that could not be fetched (R417). -/
def State.runDesc (s : State) (d : BitVec 256) (data : List Byte) (cut : Option Nat) : (MoveEnd ⊕ Nat) × State :=
  let badList (sg : Bool) (sp addr : Nat) : Bool := sg && decide (sp = 0) && !s.fabricOk addr 16
  let refused (sg : Bool) (sp addr : Nat) : Bool := sg && decide (sp ≠ 0) && !s.rangeOk (mdFn d sp) addr 16 false
  if !mdReservedOk d || !mdXformOk d then (.inl ⟨0, 4⟩, s)
  else if badList (mdSrcSg d) (mdSrcSp d) (mdSrc d) then (.inr (mdSrc d), s)
  else if badList (mdDstSg d) (mdDstSp d) (mdDst d) then (.inr (mdDst d), s)
  else if refused (mdSrcSg d) (mdSrcSp d) (mdSrc d) || refused (mdDstSg d) (mdDstSp d) (mdDst d) then (.inl ⟨0, 2⟩, s)
  else
    let a := s.sideElems (mdSrcSg d) (mdSrcSp d) (mdSrc d) (mdLen d) data
    let b := s.sideElems (mdDstSg d) (mdDstSp d) (mdDst d) (mdLen d) a.2
    match a.1, b.1 with
    | some x, some y =>
      let r := s.runMove d x y b.2 cut
      (.inl r.1, r.2)
    | _, _ => (.inl ⟨0, match cut with | some st => st | none => 4⟩, s)

/-! ## Ring commands (R410, R417, R419) -/

/-- A write to MUL_RCTRL of a ring. -/
def State.ringWrite (s : State) (src : Source) (ring : Nat) (f : State → State) : Host.Outcome State Fault Refusal :=
  answer (s.up && decide (ring < 256)) s (s.access src (Reg.MUL_RCTRL ring) 4 f)

/-- MULE_RING_ENABLE (R410, R423): the head is set to 0 on enabling; a ring that is enabled runs on. -/
def execMuleRingEnable (src : Source) (ring : Nat) (s : State) : Host.Outcome State Fault Refusal :=
  s.ringWrite src ring fun s =>
    if s.ringEnabled ring then s
    else
      let s := s.setFld (Reg.MUL_RCTRL ring) Reg.MUL_RCTRL_.ENABLE 1
      (s.setFld (Reg.MUL_RSTAT ring) Reg.MUL_RSTAT_.HEAD 0).setMule ring { s.mule ring with idle := false }

/-- MULE_RING_DISABLE (R417, R419): the descriptor in progress ends; a halted ring is abandoned. -/
def execMuleRingDisable (src : Source) (ring : Nat) (s : State) : Host.Outcome State Fault Refusal :=
  s.ringWrite src ring fun s =>
    let s := s.setFld (Reg.MUL_RCTRL ring) Reg.MUL_RCTRL_.ENABLE 0
    let s := s.setFld (Reg.MUL_RSTAT ring) Reg.MUL_RSTAT_.PACED 0
    if s.ringHalted ring then
      let s := (s.setFld (Reg.MUL_RSTAT ring) Reg.MUL_RSTAT_.HALTED 0).setFld (Reg.MUL_RSTAT ring) Reg.MUL_RSTAT_.ACTIVE 0
      (s.setMule ring { s.mule ring with cur := none, cut := none, pendingBack := none }).sweepReleases
    else s

/-- MULE_RING_RESUME (R417): a halted ring retries and continues. -/
def execMuleRingResume (src : Source) (ring : Nat) (s : State) : Host.Outcome State Fault Refusal :=
  s.ringWrite src ring fun s =>
    if s.ringHalted ring then s.setFld (Reg.MUL_RSTAT ring) Reg.MUL_RSTAT_.HALTED 0 else s

/-- MULE_RING_KICK (R410): the mule looks at OWN at its head again. -/
def execMuleRingKick (src : Source) (ring : Nat) (s : State) : Host.Outcome State Fault Refusal :=
  s.ringWrite src ring fun s => s.setMule ring { s.mule ring with idle := false }

/-- A port's requests for a descriptor's source hold a tag (R452). -/
def State.takeMuleTag (s : State) (r : Nat) (d : BitVec 256) : State :=
  let f := mdFn d (mdSrcSp d)
  if mdSrcSp d = 1 ∨ mdSrcSp d = 2 then (if s.mayWriteHost f.key then s.takeTag f.port (.muleData r) else s) else s

/-- Give back the tags of a ring's requests. -/
def State.dropMuleTags (s : State) (r : Nat) : State :=
  [Port.a, Port.b].foldl (fun s p =>
    let x := s.portOf p
    if x.tags.any (fun t => decide (t.owner = .muleData r) && !t.quarantined) then
      s.setPort p { x with tags := x.tags.filter fun t => !(decide (t.owner = .muleData r) && !t.quarantined) }
    else s) s

/-- A read of a descriptor's source timed out (R454). -/
def State.muleTimeout (s : State) (r : Nat) (d : BitVec 256) : State :=
  if mdSrcSp d = 0 then s else (s.dropMuleTags r).hostTimeout (mdFn d (mdSrcSp d)).port (.muleData r)

/-- Start the descriptor at a ring's head, or idle at it (R410). A descriptor whose function may issue no request is to
end with ABORTED (R419). -/
def State.startMule (s : State) (r : Nat) (fetchOk : Bool) : State :=
  let head := s.fld (Reg.MUL_RSTAT r) Reg.MUL_RSTAT_.HEAD
  let a := s.fld (Reg.MUL_RBASE r) Reg.MUL_RBASE_.BASE * 4096 + 32 * head
  if !fetchOk || !s.fabricOk a 32 then s.haltRing r 0 0 a
  else
    let s := s.touch a 32 false
    let d := BitVec.ofNat 256 (leNat (readBytes s.ram a 32))
    if !d.getLsbD 31 then s.setMule r { s.mule r with idle := true }
    else
      let stopped := (mdFns d).any fun fk => !s.mayWriteHost fk
      let s := s.setMule r { cur := some d, addr := a, idle := false, cut := if stopped then some 5 else none,
                             pendingBack := none }
      let s := s.setFld (Reg.MUL_RSTAT r) Reg.MUL_RSTAT_.ACTIVE 1
      let size := 2 ^ s.fld (Reg.MUL_RCTRL r) Reg.MUL_RCTRL_.SIZE_LOG2
      (s.setFld (Reg.MUL_RSTAT r) Reg.MUL_RSTAT_.HEAD ((head + 1) % size)).takeMuleTag r d

/-- MULE_DESCRIPTOR (R410, R416, R417). -/
def execMuleDescriptor (ring : Nat) (fetchOk : Bool) (s : State) : Host.Outcome State Fault Refusal :=
  answer (s.up && decide (ring < 256) && s.ringEnabled ring && !s.ringHalted ring && !(s.mule ring).idle &&
      (s.mule ring).cur.isNone) s
    (if s.paceStops ring then s.setFld (Reg.MUL_RSTAT ring) Reg.MUL_RSTAT_.PACED 1
    else if s.fld (Reg.MUL_RSTAT ring) Reg.MUL_RSTAT_.PACED = 1 then s
    else s.startMule ring fetchOk)

/-- MULE_DESCRIPTOR_DONE (R411 to R418). `data` are the bytes that the host gave to the descriptor's reads in order:
source list, destination list, source; a failed answer ends the move after them. -/
def execMuleDescriptorDone (ring : Nat) (data : List Byte) (dataAnswer : HostAnswer) (writeBackOk : Bool) (s : State) :
    Host.Outcome State Fault Refusal :=
  match (s.mule ring).cur with
  | none => .next s
  | some d =>
    answer (s.up && !s.ringHalted ring) s
      (match (s.mule ring).pendingBack with
       | some (st, n) => s.endMule ring d st.toNat n.toNat writeBackOk
       | none =>
         let cut := match (s.mule ring).cut with
           | some x => some x.toNat
           | none => if dataAnswer = .ok then none else some 1
         let s := if dataAnswer = .timedOut then s.muleTimeout ring d else s
         let r := s.runDesc d data cut
         match r.1 with
         | .inl e => (r.2.dropMuleTags ring).endMule ring d e.status e.bytes writeBackOk
         | .inr a => s.haltRing ring 0 0 a)

/-- MULE_PACE_RESUME (R416). -/
def execMulePaceResume (ring : Nat) (s : State) : Host.Outcome State Fault Refusal :=
  answer (s.up && decide (ring < 256) && decide (s.fld (Reg.MUL_RSTAT ring) Reg.MUL_RSTAT_.PACED = 1) &&
      (decide (s.paceHigh ring = 0) || decide (s.paceLevel ring ≤ s.paceLow ring))) s
    (s.setFld (Reg.MUL_RSTAT ring) Reg.MUL_RSTAT_.PACED 0)

/-- A reset of a function, or the clearing of its bus mastering, strikes the descriptors that name it (R419). -/
def State.abortMules (s : State) (fk : Nat) : State :=
  { s with mules := s.mules.map fun e =>
      match e.2.cur with
      | some d => if (mdFns d).contains fk then (e.1, { e.2 with cut := some 5 }) else e
      | none => e }

/-! ## K7 register mode (R420) -/

/-- One side of a K7 move: whether its address is allowed for the source that wrote START. -/
def State.k7Ok (s : State) (src : Source) (addr count : Nat) (write : Bool) : Bool :=
  if addr.testBit 63 then s.inScratch (addr % 2 ^ 63) count
  else
    match src with
    | .pf p => s.mayWriteHost (p.num * 512) && s.rangeOk { port := p, idx := 0 } addr count write
    | _ => false

/-- A K7 move ends: the bytes of its source go to the destination, in the fabric or in the host memory of the physical
function of port `p`; `ok` is false when the move ends in an error. -/
def State.k7Finish (s : State) (p : Port) (n : Nat) (got : List Byte) (ok : Bool) : State :=
  let cnt := Reg.MUL_K7CNT n
  let b := (s.reg (Reg.MUL_K7DST n)).toNat
  let s := (s.setFld cnt Reg.MUL_K7CNT_.BUSY 0).setFld cnt Reg.MUL_K7CNT_.ERR (if ok then 0 else 1)
  if got.isEmpty then s
  else if b.testBit 63 then s.store (b % 2 ^ 63) got
  else s.emit (.hostWrite { port := p, idx := 0 } (BitVec.ofNat 64 b) got)

/-- A K7 move that START begins. A host source whose bytes have not come yet holds a tag (R452). -/
def State.k7Move (s : State) (src : Source) (n : Nat) (data : List Byte) (ans : HostAnswer) : State :=
  let a := (s.reg (Reg.MUL_K7SRC n)).toNat
  let b := (s.reg (Reg.MUL_K7DST n)).toNat
  let count := s.fld (Reg.MUL_K7CNT n) Reg.MUL_K7CNT_.COUNT
  if count = 0 ∨ !s.k7Ok src a count false ∨ !s.k7Ok src b count true then s.k7Finish src.port n [] false
  else if a.testBit 63 then s.k7Finish src.port n (readBytes s.ram (a % 2 ^ 63) count) true
  else if ans ≠ .ok then
    (if ans = .timedOut then s.hostTimeout src.port (.k7 n) else s).k7Finish src.port n (data.take (count - 1)) false
  else if data.isEmpty then
    let s := (s.setFld (Reg.MUL_K7CNT n) Reg.MUL_K7CNT_.ERR 0).setFld (Reg.MUL_K7CNT n) Reg.MUL_K7CNT_.BUSY 1
    s.takeTag src.port (.k7 n)
  else s.k7Finish src.port n ((data ++ List.replicate (count - data.length) 0).take count) true

/-- K7_START (R420): ignored below debug level DIAG, and while the channel is busy. `data` are the bytes that the
host gave for a host source; with none, the request is on its way. -/
def execK7Start (src : Source) (channel : Nat) (data : List Byte) (dataAnswer : HostAnswer) (s : State) :
    Host.Outcome State Fault Refusal :=
  answer (s.up && decide (channel < 16)) s
    (s.access src (Reg.MUL_K7CNT channel) 4 fun s =>
      if s.debugLevel = 0 then s.raise 16 18
      else if s.fld (Reg.MUL_K7CNT channel) Reg.MUL_K7CNT_.BUSY = 1 then s.raise 16 19
      else s.k7Move src channel data dataAnswer)

end Sys2Proof.Machine
end

