-- ==== Sys2Proof/Machine/Endpoint.lean ====
section
/-! DEFINITION. The host endpoint: configuration writes (R443 to R448), host reads and their tags (R452 to R455), bus
mastering, function-level reset and D3hot (R445, R456 to R458), port resets and links (R459 to R461), and the end of a
function's service (R83). -/

namespace Sys2Proof.Machine

open Sys2Proof

/-! ## Host reads (R454, R455) -/

/-- What the owner of a host read does when the read fails (R454, Table 9). -/
def State.ownerFails (s : State) (p : Port) (o : TagOwner) : State :=
  match o with
  | .packet f ring => s.faultSq f.key ring 3
  | .command slot => s.complete slot (stFenced 1)
  | .mapPage mpn =>
    match s.map.fetchOf mpn with
    | some f => if f.fromHost then s.fetchError mpn else s
    | none => s
  | .muleData r => s.setMule r { s.mule r with cut := some 1 }
  | .k7 n => s.k7Finish p n [] false

/-- Remove a tag from its port. -/
def State.dropTag (s : State) (p : Port) (t : Tag) : State :=
  let x := s.portOf p
  s.setPort p { x with tags := x.tags.erase t }

/-- Abandon every read outstanding for a function: its tags are quarantined (R456, step 3). -/
def State.abandonReads (s : State) (fk : Nat) : State :=
  let p := Port.ofNum (fk / 512)
  let x := s.portOf p
  let mine (t : Tag) : Bool := !t.quarantined && decide (s.ownerFn p t.owner = fk)
  let k7s := (x.tags.filter mine).filterMap fun t => match t.owner with | .k7 n => some n | _ => none
  let mark (t : Tag) : Tag := if mine t then { t with quarantined := true } else t
  let s := if x.tags.any mine then s.setPort p { x with tags := x.tags.map mark } else s
  k7s.foldl (fun s n => s.k7Finish p n [] false) s

/-! ## Bus mastering, D3hot and function-level reset (R456 to R458) -/

/-- The commands of a function that still need its host end with ABORTED_FUNCTION_RESET (R456, step 4). -/
def State.abortHostCmds (s : State) (fk : Nat) : State :=
  (((s.cmds.inflight.filter fun e => decide (e.2.fn.key = fk) && needsHost e.2).map fun e => e.1).foldl
    (fun s slot => s.complete slot stAbortedReset) s).reapDeposed

/-- A function may issue no request any more (R456): reads abandoned, commands ended, mule descriptors struck, the
regions of a physical function dropped (R161). -/
def State.stopMaster (s : State) (fk : Nat) : State :=
  let s := ((s.abandonReads fk).abortMules fk).abortHostCmds fk
  if fk % 512 = 0 then s.dropRegions (Port.ofNum (fk / 512)) true else s

/-- A function may issue requests again: held records are written in order and pending messages sent (R457). -/
def State.resumeMaster (s : State) (fk : Nat) : State :=
  let held (s : State) : List (Nat × Nat) :=
    (s.cmds.cqs.filter fun e => decide (e.1 / 65536 = fk)).map fun e => (e.1 % 65536, e.2.held.length)
  ((held s).foldl (fun s e => (List.range e.2).foldl (fun s _ => s.postHeld fk e.1) s) s).sendAllPending fk

/-- The registers of a function window return to their reset values. -/
def State.resetFnRegs (s : State) (fk : Nat) : State :=
  let lo := 0x1_0000_0000 + fk * 0x10000
  let mine (a : Nat) : Bool := decide (lo ≤ a ∧ a < lo + 0x10000)
  { s with regs := s.regs.filter fun e => !mine e.1, stat := s.stat.filter fun e => !mine e.1 }

/-- What a function-level reset does to one function (R446, R456): its recorded feature 0x0001 and its attachments stay. -/
def State.resetFn (s : State) (fk : Nat) : State :=
  let p := Port.ofNum (fk / 512)
  let s := ((s.abandonReads fk).abortMules fk).discardFn fk
  let f := s.fnOf fk
  let s := (s.resetFnRegs fk).setFn fk { FnState.reset with maxSq := f.maxSq, maxCq := f.maxCq, cls := f.cls }
  let s : State := { s with hosts := { s.hosts with vecs := s.hosts.vecs.filter fun e => decide (e.1 / 2048 ≠ fk) } }
  (if fk % 512 = 0 then (s.disarmAll (.pf p)).dropRegions p false else s).reapDeposed

/-- The keys of the VFs of a port that exist. -/
def State.vfKeys (s : State) (p : Port) : List Nat :=
  let x := s.portOf p
  if x.vfEnable then (List.range (min 511 x.numVFs)).map fun i => p.num * 512 + i + 1 else []

/-- Remove every VF of a port (R448). -/
def State.removeVfs (s : State) (p : Port) : State :=
  let s := (s.vfKeys p).foldl (fun s fk => s.resetFn fk) s
  s.setPort p { s.portOf p with vfEnable := false }

/-- Every function of a port as in a function-level reset, and the SR-IOV capability at its reset values (R447, R448,
R459). -/
def State.resetFns (s : State) (p : Port) : State :=
  let s := (s.removeVfs p).resetFn (p.num * 512)
  s.setPort p { s.portOf p with vfMse := false, numVFs := 0, pageSize := 1 }

/-- A configuration request of a function's host: refused while Request Retry Status holds, else its effect (R444). -/
def configRequest (f : Fn) (s : State) (ok : Bool) (t : State) : Host.Outcome State Fault Refusal :=
  if !(s.up && s.fnExists f && !(s.portOf f.port).inReset) then .next s
  else if (s.portOf f.port).retry then .next (s.emit (.requestRetry f))
  else .next (if ok then t else s)

/-- BUS_MASTER_CLEAR (R456). -/
def execBusMasterClear (f : Fn) (s : State) : Host.Outcome State Fault Refusal :=
  let x := s.fnOf f.key
  configRequest f s x.busMaster
    (let t := s.setFn f.key { x with busMaster := false }
     if x.d3hot then t else (t.stopMaster f.key).raiseHst f.port 21)

/-- BUS_MASTER_SET (R457). -/
def execBusMasterSet (f : Fn) (s : State) : Host.Outcome State Fault Refusal :=
  let x := s.fnOf f.key
  configRequest f s (!x.busMaster) ((s.setFn f.key { x with busMaster := true }).resumeMaster f.key)

/-- D3HOT_ENTRY (R445, R456): as the clearing of Bus Master Enable. -/
def execD3hotEntry (f : Fn) (s : State) : Host.Outcome State Fault Refusal :=
  let x := s.fnOf f.key
  configRequest f s (!x.d3hot)
    (let t := s.setFn f.key { x with d3hot := true }
     if x.busMaster then (t.stopMaster f.key).raiseHst f.port 21 else t)

/-- D0_RETURN (R445, R457). -/
def execD0Return (f : Fn) (s : State) : Host.Outcome State Fault Refusal :=
  let x := s.fnOf f.key
  configRequest f s x.d3hot ((s.setFn f.key { x with d3hot := false }).resumeMaster f.key)

/-- FLR (R448, R456): that of a physical function removes its VFs. -/
def execFlr (f : Fn) (s : State) : Host.Outcome State Fault Refusal :=
  configRequest f s true ((if f.idx = 0 then s.resetFns f.port else s.resetFn f.key).raiseHst f.port 20)

/-- FUNCTION_DISABLE (R83, R161): a write of 0 to ENABLE. -/
def execFunctionDisable (f : Fn) (s : State) : Host.Outcome State Fault Refusal :=
  answer (s.up && s.fnAnswers f) s
    (let fk := f.key
     let s := ((s.abandonReads fk).abortMules fk).discardFn fk
     let s := (s.setReg (Reg.CCP_FSTAT fk) 0).setFld (Reg.CCP_FCTRL fk) Reg.CCP_FCTRL_.ENABLE 0
     let s := s.setFn fk { s.fnOf fk with enableHeld := false }
     (if f.idx = 0 then s.dropRegions f.port true else s).reapDeposed)

/-! ## Configuration space (R443, R446 to R448) -/

/-- The page sizes of Table 4. -/
def pageSizeOk (v : Word) : Bool := decide (v = 1 ∨ v = 4 ∨ v = 16)

/-- The effect of a configuration write on a field: those of the SR-IOV capability and of the Command register are the
physical function's. -/
def State.configField (s : State) (f : Fn) (field : CfgField) (v : Word) : State :=
  let x := s.fnOf f.key
  let p := s.portOf f.port
  let b := v.getLsbD 0
  let pf := decide (f.idx = 0)
  match field with
  | .memorySpaceEnable => if pf then s.setFn f.key { x with memorySpace := b } else s
  | .parityErrorResponse => if pf then s.setFn f.key { x with parityResp := b } else s
  | .serrEnable => if pf then s.setFn f.key { x with serr := b } else s
  | .msixEnable => (s.setFn f.key { x with msixEnable := b }).sendAllPending f.key
  | .functionMask => (s.setFn f.key { x with funcMask := b }).sendAllPending f.key
  | .tag10Enable => s.setFn f.key { x with tag10 := b }
  | .numVFs => if pf ∧ !p.vfEnable ∧ v.toNat ≤ 511 then s.setPort f.port { p with numVFs := v.toNat } else s
  | .systemPageSize => if pf && pageSizeOk v then s.setPort f.port { p with pageSize := v } else s
  | .vfMse => if pf then s.setPort f.port { p with vfMse := b } else s
  | .aerStatus => s.setFn f.key { x with aer := x.aer &&& ~~~v }
  | .other => s

/-- CONFIG_WRITE (R443 to R447). -/
def execConfigWrite (f : Fn) (field : CfgField) (value : Word) (s : State) : Host.Outcome State Fault Refusal :=
  configRequest f s true (s.configField f field value)

/-- VF_ENABLE_CLEAR (R448). -/
def execVfEnableClear (p : Port) (s : State) : Host.Outcome State Fault Refusal :=
  configRequest { port := p, idx := 0 } s (s.portOf p).vfEnable (s.removeVfs p)

/-- VF_ENABLE_SET (R448): the recorded attachments apply again. -/
def execVfEnableSet (p : Port) (s : State) : Host.Outcome State Fault Refusal :=
  configRequest { port := p, idx := 0 } s (!(s.portOf p).vfEnable) (s.setPort p { s.portOf p with vfEnable := true })

/-! ## Port resets and links (R459 to R461) -/

/-- The HST_ registers whose reset names the port (R69, R461). -/
def portRegs (p : Port) : List Nat :=
  [Reg.HST_REGERR, Reg.HST_REGERRCNT, Reg.HST_DBDROP, Reg.HST_LINK, Reg.HST_CTO, Reg.HST_TIMEOUTS, Reg.HST_LATE].map
    fun f => f p.num

/-- A port goes through reset (R459): it stays down until its link is up again. -/
def State.resetPort (s : State) (p : Port) : State :=
  let s := s.resetFns p
  let s := (portRegs p).foldl (fun s a => s.setReg a (regReset a)) s
  let s := s.setPort p { s.portOf p with inReset := true, lastRing := 0, tags := [] }
  (s.count (Reg.HST_LINKDOWNS p.num) 1).reason (reasonPort p) true

/-- PERST_ASSERT (R459, R461). -/
def execPerstAssert (p : Port) (s : State) : Host.Outcome State Fault Refusal :=
  let low (s : State) : State := s.setPort p { s.portOf p with perstLow := true }
  if s.up && !(s.portOf p).perstLow then .next ((low (s.resetPort p)).raiseHst p 19)
  else .next (low s)

/-- PERST_DEASSERT (R460): link training starts. -/
def execPerstDeassert (p : Port) (s : State) : Host.Outcome State Fault Refusal :=
  .next (s.setPort p { s.portOf p with perstLow := false })

/-- HOT_RESET (R459, R461): it comes in band, over a link that is up. -/
def execHotReset (p : Port) (s : State) : Host.Outcome State Fault Refusal :=
  answer (s.up && !(s.portOf p).inReset) s ((s.resetPort p).raiseHst p 19)

/-- LINK_DOWN (R459, R461, R497). -/
def execLinkDown (p : Port) (s : State) : Host.Outcome State Fault Refusal :=
  answer (s.up && !(s.portOf p).inReset) s
    (((s.resetPort p).raiseHst p 16).recordFault 1 p.num 9 [BitVec.ofNat 8 p.num])

/-- The data link is up (R442, R460, R461). -/
def State.portUp (s : State) (p : Port) (rate width : Nat) (flit : Bool) : State :=
  let a := Reg.HST_LINK p.num
  let s := s.setPort p { s.portOf p with inReset := false }
  let s := (s.setFld a Reg.HST_LINK_.UP 1).setFld a Reg.HST_LINK_.FLIT (if flit || decide (6 ≤ rate) then 1 else 0)
  let s := (s.setFld a Reg.HST_LINK_.RATE rate).setFld a Reg.HST_LINK_.WIDTH width
  let s := s.raiseHst p 17
  let s := if rate < 7 ∨ width < 16 then s.raiseHst p 18 else s
  s.reason (reasonPort p) false

/-- Whether a link can come up at a rate and width of Table 1 within MAXRATE. -/
def State.linkFits (s : State) (p : Port) (rate width : Nat) : Bool :=
  decide (1 ≤ rate ∧ rate ≤ 7 ∧ rate ≤ s.fld (Reg.HST_LINK p.num) Reg.HST_LINK_.MAXRATE) &&
    ([1, 2, 4, 8, 16] : List Nat).contains width

/-- LINK_UP (R442, R460): with PERST_N high and the port's reference present. -/
def execLinkUp (p : Port) (rate width : Nat) (flit : Bool) (s : State) : Host.Outcome State Fault Refusal :=
  let x := s.portOf p
  answer (s.up && x.inReset && !x.perstLow && x.refClock && s.linkFits p rate width) s (s.portUp p rate width flit)

/-- HST_MAXRATE_WRITE (R461): a change takes the port through a link-down reset and keeps the value written. -/
def execHstMaxrateWrite (src : Source) (p : Port) (rate : BitVec 4) (s : State) : Host.Outcome State Fault Refusal :=
  let a := Reg.HST_LINK p.num
  answer s.up s
    (s.access src a 4 fun s => s.keyed src 1 fun s =>
      if s.fld a Reg.HST_LINK_.MAXRATE = rate.toNat then s
      else
        let s := if (s.portOf p).inReset then s else (s.resetPort p).raiseHst p 16
        s.setFld a Reg.HST_LINK_.MAXRATE rate.toNat)

/-! ## Completions of host reads (R454, R455) -/

/-- HOST_READ_COMPLETION (R454, R455): one for a quarantined tag is discarded and counted. Map-page data and mule data are
delivered by the rows that carry them. -/
def execHostReadCompletion (p : Port) (tag : Nat) (status : CplStatus) (s : State) : Host.Outcome State Fault Refusal :=
  match (s.portOf p).tags.find? fun t => decide (t.tag = tag) with
  | none => .next s
  | some t =>
    answer (s.up && !(s.portOf p).inReset) s
      (if t.quarantined then
        ((s.count (Reg.HST_LATE p.num) 1).raiseHst p 23).logAer (s.ownerFn p t.owner) 16
      else if status = .ok then
        match t.owner with
        | .mapPage _ | .muleData _ => s
        | .k7 n =>
          let r := s.takeBytes (s.fld (Reg.MUL_K7CNT n) Reg.MUL_K7CNT_.COUNT)
          (r.2.dropTag p t).k7Finish p n r.1 true
        | _ => s.dropTag p t
      else (s.dropTag p t).ownerFails p t.owner)

/-- COMPLETION_TIMEOUT (R454, R455): the owner acts and the tag is quarantined. -/
def execCompletionTimeout (p : Port) (tag : Nat) (s : State) : Host.Outcome State Fault Refusal :=
  match (s.portOf p).tags.find? fun t => decide (t.tag = tag) && !t.quarantined with
  | none => .next s
  | some t =>
    answer (s.up && !(s.portOf p).inReset) s
      (let x := s.portOf p
       let mark (u : Tag) : Tag := if u = t then { u with quarantined := true } else u
       ((s.setPort p { x with tags := x.tags.map mark }).countTimeout p t.owner).ownerFails p t.owner)

/-- TAG_QUARANTINE_END (R455). -/
def execTagQuarantineEnd (p : Port) (tag : Nat) (s : State) : Host.Outcome State Fault Refusal :=
  match (s.portOf p).tags.find? fun t => decide (t.tag = tag) && t.quarantined with
  | none => .next s
  | some t => answer s.up s (s.dropTag p t)

end Sys2Proof.Machine
end

