-- ==== Sys2Proof/Machine/Boot.lean ====
section
/-! DEFINITION. Chip reset (R459, R502), the straps and faces (R522 to R527), mask ROM (R471, R472), the loader with the
guard set (R474 to R481), fuse programming (R465), and the boot castling (R490). -/

namespace Sys2Proof.Machine

open Sys2Proof

/-! ## Chip reset (R501, R502, Table 6) -/

/-- The registers that chip reset restores from the device records (R376, R502). -/
def restoredRegs : List Nat :=
  [Reg.RCL_CAPCTRL, Reg.RCL_RETIRED, Reg.CAR_CTRL, Reg.CAR_MEDIAEPOCH, Reg.HRD_CTRL, Reg.HRD_RETAIN, Reg.HRD_IDENT, Reg.HRD_EPOCH,
   Reg.PWR_HORIZON, Reg.PWR_HOLDUPS, Reg.MOD_HOURS] ++
  (List.range 8).flatMap fun c => [Reg.CAR_EPOCH c, Reg.CAR_ID c]

/-- What the device records hold of the registers: as they stand, once recovery has restored them (R376). -/
def State.savedNow (s : State) : SMap DWord :=
  if s.mode ≠ modeBoot ∨ 5 ≤ s.power.recStep then
    restoredRegs.foldl (fun m a => if s.reg a = regReset a then m else m.put a (s.reg a)) []
  else s.power.saved

/-- MOD_HALT over a chip reset (R501): CAUSE moves into LAST_CAUSE. -/
def haltKept (v : DWord) : DWord :=
  Reg.MOD_HALT_.CAUSE.set (Reg.MOD_HALT_.LAST_CAUSE.set v (Reg.MOD_HALT_.CAUSE.get v)) 0

/-- The carriers in service at a stop leave what a departure would (R288). -/
def State.carriersStop (s : State) : SMap Carrier :=
  (List.range 8).foldl (fun (m : SMap Carrier) c =>
    let x := s.carrier c
    let stop := if s.mode ≠ modeBoot ∨ 9 ≤ s.power.recStep then
        (if 5 ≤ s.carState c ∧ s.carState c ≤ 7 then some (s.departureOf c) else none)
      else x.atStop
    let y : Carrier := { record := x.record, dieHash := x.dieHash, departure := x.departure, locate := false
                         delta := false, minimal := false, atStop := stop }
    if y = ({ record := none, dieHash := 0, departure := none, locate := false, delta := false, minimal := false
              atStop := none } : Carrier) then m.del c else m.put c y) s.media.carriers

/-- The map over a chip reset: what SDRAM and the hosts held is gone, dirty pages are restored (R161, R382). -/
def MapState.overReset (m : MapState) : MapState :=
  let entry (d : DirEntry) : DirEntry :=
    if d.dirty then { d with loc := .sdram, busy := false, port := .a }
    else if d.img then { d.toFlash with busy := false }
    else { d with loc := .empty, index := 0, busy := false, port := .a }
  { m with
    dir := (m.dir.map fun e => (e.1, entry e.2)).filter fun e => decide (e.2 ≠ DirEntry.absent)
    regions := [], cache := [], evict := [], detectors := [], storeCount := 0, fetches := [], detour := false }

/-- The herd over a chip reset: links close, miss logs are lost, sweeps resume from their checkpoints (R346, R351). -/
def HerdState.overReset (h : HerdState) : HerdState :=
  let job (j : Job) : Job :=
    { j with inFlight := false, again := false, holders := [], answered := [], unreadable := [], refused := false }
  let home (x : Homed) : Homed :=
    if x.sweeping then { x with boundary := x.checkpoint, ahead := [] } else x
  { h with
    links := [], leaseHeld := false, transfer := none, asked := [], fetched := [], incoming := []
    jobs := h.jobs.map fun e => (e.1, job e.2)
    homed := h.homed.map fun e => (e.1, home e.2)
    missLogs := h.missLogs.map fun e => (e.1, { stripes := [], discards := [], incomplete := true }) }

/-- A port over a chip reset (R459): its pins keep their levels. -/
def PortState.overReset (p : PortState) : PortState :=
  { PortState.reset with perstLow := p.perstLow, refClock := p.refClock }

/-- The pins and conditions at a chip reset (R502, R522). -/
def Pins.overReset (p : Pins) : Pins :=
  { p with resetLow := true, face := .strap, bootcsN := true, frozen := false, stopped := false, freezeLow := false }

/-- Everything that chip reset clears, with what Table 6 keeps (R502). -/
def State.chipReset (s : State) : State :=
  let halt := haltKept (s.reg Reg.MOD_HALT)
  { pending := s.pending
    free := s.free
    out := s.out
    regs := regsSet [] Reg.MOD_HALT halt
    stat := []
    armed := []
    posted := []
    late := []
    isolated := []
    failedCores := []
    cmds := { sqs := [], cqs := [], inflight := [], admission := [], locks := [] }
    hosts := { fns := [], ports := [(0, (s.portOf .a).overReset), (1, (s.portOf .b).overReset)], vecs := [], gen := 0 }
    mtf := { negotiated := false, expired := false, i3c := false, dynAddr := none }
    deferred := s.deferred
    nss := s.nss.map fun e => (e.1, { e.2 with keyLoaded := none })
    map := s.map.overReset
    place := { s.place with packs := [], forced := [], deepReads := [], reclaimOn := false, unbuildable := [] }
    media := { s.media with
      blocks := []
      dies := s.media.dies.map fun e => (e.1, { e.2 with cur := none, susp := none })
      chans := []
      carriers := s.carriersStop }
    herd := s.herd.overReset
    power := { s.power with flush := .none, cut := false, lowEnter := 0, lowAbort := 0, recStep := 0, saved := s.savedNow }
    pools := { bufs := [], used := [], waits := [], nextOrder := 0, resp := [], levels := [], pipWaits := [] }
    mat := { entries := [], slides := [], resp := [] }
    mules := []
    sdram := []
    boot := { s.boot with booted := none, running := none, board := none, staging := Staging.empty, castle := none }
    pins := s.pins.overReset
    ram := []
    evlog := [] }

/-- CHIP_RESET_ASSERT (R502): a castling under way is cut short first (R489). -/
def execChipResetAssert (s : State) : Host.Outcome State Fault Refusal :=
  answer (!s.pins.resetLow) s s.cutCastle.chipReset

/-! ## Release (R444, R463, R471, R526) -/

/-- FUS_SERIAL and FUS_STATE show the fuse row (R463, R464, R492). -/
def State.showFuses (s : State) : State :=
  let r := s.boot.fuses
  let s := s.setReg Reg.FUS_SERIAL (BitVec.ofNat 64 (fuseSerial r))
  let a := Reg.FUS_STATE
  let s := s.setFld a Reg.FUS_STATE_.MIN_SVN (minSvn r)
  let s := s.setFld a Reg.FUS_STATE_.REVOKED (slotMask (slotRevoked r))
  let s := s.setFld a Reg.FUS_STATE_.SLOT_VALID (slotMask (slotValid r))
  let s := s.setFld a Reg.FUS_STATE_.LIFECYCLE (lifecycle r)
  s.setFld a Reg.FUS_STATE_.SECRET_OK (if secretOk r then 1 else 0)

/-- Mask ROM senses the fuse row and checks it (R463). -/
def State.senseFuses (s : State) : State :=
  let r := s.boot.fuses
  let s := s.showFuses
  let s := if (List.range 4).any fun k => !slotEmpty r k && !slotCrcOk r k then s.raise 21 17 else s
  if secretOk r then s else s.raise 21 18

/-- The SDRAM controllers' LFSRs are seeded from the entropy source at chip reset (R435): free values. -/
def State.seedSdram (s : State) : State :=
  (List.range 12).foldl (fun s ch =>
    let r := s.takeFree
    r.2.setSdram ch { r.2.sdramOf ch with lfsr := r.1.setWidth 32 }) s

/-- CHIP_RESET_RELEASE (R18, R435, R444, R463, R471, R494, R526): straps and references as they are found; BOOT is no
transition. -/
def execChipResetRelease (straps : BitVec 7) (sysclk refA refB : Bool) (s : State) : Host.Outcome State Fault Refusal :=
  answer s.pins.resetLow s
    (let s : State := { s with
       pins := { s.pins with resetLow := false, sysClock := sysclk }
       power := { s.power with pwrFailLow := false } }
     let s := (s.setPort .a { s.portOf .a with refClock := refA, retry := true }).setPort .b
       { s.portOf .b with refClock := refB, retry := true }
     let s := s.setReg Reg.FCE_STRAPS (straps.setWidth 64)
     let s := if straps.toNat / 8 = 0 then s else s.raise 25 16
     let s := s.senseFuses.seedSdram
     (s.reason (reasonPort .a) true).reason (reasonPort .b) true)

/-- The N9 freezes (R512 to R514): every island clock stops and the state image begins. -/
def State.freeze (s : State) : State :=
  let t := s.enterMode modeFrozen
  ({ t with pins := { t.pins with frozen := true } } : State).emit (.freezePass 0)

/-- STRAP_FACE_END (R522, R527): the boot face applies; a FREEZE_N still low freezes the N9 then (R512). -/
def execStrapFaceEnd (s : State) : Host.Outcome State Fault Refusal :=
  answer (s.running && decide (s.pins.face = .strap)) s
    (if s.pins.freezeLow then s.freeze else { s with pins := { s.pins with face := .boot, bootcsN := true } })

/-! ## Mask ROM (R463, R464, R472) -/

/-- Whether mask ROM accepts a slot (R472). -/
def State.slotBoots (s : State) (x : NorSlot) : Bool :=
  x.valid && headerOk x.image && s.manifestOk x.image.manifest &&
    decide (minSvn s.boot.fuses ≤ x.image.manifest.svn ∧ x.image.hdrHash = x.image.manifest.hdrHash) && loaderOk x.image

/-- A later sequence number under serial arithmetic (R505). -/
def seqAfter (a b : DWord) : Bool := decide (a ≠ b ∧ (a - b).toNat < 2 ^ 63)

/-- The VALID slots of the NOR in descending CSEQ order: 0 is A, 1 is B. -/
def norCandidates (a b : Option NorSlot) : List (Nat × NorSlot) :=
  let l := ((a.filter fun x => x.valid).toList.map fun x => (0, x)) ++
    ((b.filter fun x => x.valid).toList.map fun x => (1, x))
  match l with
  | [x, y] => if seqAfter y.2.cseq x.2.cseq then [y, x] else [x, y]
  | _ => l

/-- BOT_STATUS.CODE. -/
def State.bootCode (s : State) (code : Nat) : State := s.setFld Reg.BOT_STATUS Reg.BOT_STATUS_.CODE code

/-- Both ports end Request Retry Status with their subsystem identifiers (R444). -/
def State.endRetry (s : State) (ssvid ssid : Half) : State :=
  let f (p : Port) (s : State) : State := s.setPort p { s.portOf p with retry := false, ssvid := ssvid, ssid := ssid }
  f .b (f .a s)

/-- Boot stops with a code (R463, R464, R472): Request Retry Status ends with the defaults, and the console shows the
code. -/
def State.bootStops (s : State) (code : Nat) : State :=
  ((s.bootCode code).endRetry 0x1F3C 0).emit (.console code)

/-- A slot is rejected. -/
def State.rejectSlot (s : State) (k : Nat) : State :=
  s.setFld Reg.BOT_STATUS (if k = 0 then Reg.BOT_STATUS_.REJECTED_A else Reg.BOT_STATUS_.REJECTED_B) 1

/-- Check the candidates in order (R472). -/
def State.tryslots (s : State) : List (Nat × NorSlot) → Bool → State
  | [], _ => s.bootStops 3
  | (k, x) :: l, first =>
    if s.slotBoots x then
      let s := s.setFld (Reg.BOT_STATUS) Reg.BOT_STATUS_.SLOT k
      let s := if first then s else s.raise 19 16
      let s := s.setFld Reg.BOT_STATUS Reg.BOT_STATUS_.STAGE 1
      s.setBoot { s.boot with booted := some x.image }
    else (s.rejectSlot k).tryslots l false

/-- BOOT_IMAGE_CHECK (R463, R464, R468, R472): the NOR as it is found, and the slot that boots. -/
def execBootImageCheck (norPresent : Bool) (slotA slotB : Option NorSlot) (s : State) :
    Host.Outcome State Fault Refusal :=
  answer (s.running && decide (s.mode = modeBoot ∧ s.pins.face = .boot ∧ s.fld Reg.BOT_STATUS Reg.BOT_STATUS_.CODE = 0) &&
      s.boot.booted.isNone) s
    (if !serialOk s.boot.fuses then s.bootStops 1
     else if lifecycle s.boot.fuses = 0 then s.bootStops 5
     else if !norPresent then s.bootStops 2
     else
       let s : State := { s with boot := { s.boot with norA := slotA, norB := slotB } }
       s.tryslots (norCandidates slotA slotB) true)

/-! ## Fuses (R465, R474) -/

/-- Whether a request for a fuse bit is refused: key and identity fields in the field, and the bits never blown at A2. -/
def fuseRefused (r : BitVec 4096) (b : Nat) : Bool :=
  decide (4096 ≤ b ∨ 2144 ≤ b) ||
    (decide (2 ≤ lifecycle r) && decide (b < 1760 ∨ (1792 ≤ b ∧ b < 2080)))

/-- Program one fuse bit and read it back (R465); `blows` says whether it reads 1 then. -/
def State.blowFuse (s : State) (b : Nat) (blows : Bool) : State :=
  if fuseRefused s.boot.fuses b then s.setFld Reg.FUS_PROG Reg.FUS_PROG_.FAIL 1
  else
    let r := if blows then s.boot.fuses ||| BitVec.ofNat 4096 (2 ^ b) else s.boot.fuses
    let s : State := ({ s with boot := { s.boot with fuses := r } } : State).showFuses
    if r.getLsbD b then (s.setFld Reg.FUS_PROG Reg.FUS_PROG_.FAIL 0).raise 19 18
    else ((s.setFld Reg.FUS_PROG Reg.FUS_PROG_.FAIL 1).raise 21 16).bootCode 6

/-- FUSE_PROGRAM (R465): a write of FUS_PROG with GO and BIT. BIT is keyed; GO counts from the boot core before the guard
lock alone. -/
def execFuseProgram (src : Source) (bit : Nat) (blows : Bool) (s : State) : Host.Outcome State Fault Refusal :=
  answer s.up s
    (s.access src Reg.FUS_PROG 4 fun s =>
      let t := s.writeGeneric src Reg.FUS_PROG 4 (BitVec.ofNat 64 (bit % 4096))
      if src = .core { group := .boot, idx := 0 } ∧ !s.guardLocked then
        t.blowFuse (t.fld Reg.FUS_PROG Reg.FUS_PROG_.BIT) blows
      else t)

/-- The requests of R474 that a loader honours, as fuse bits, and the revocations that it ignores. -/
def State.minSvnGoal (s : State) (img : Image) : Nat :=
  let slot := s.fld Reg.BOT_STATUS Reg.BOT_STATUS_.SLOT
  let other := if slot = 0 then s.boot.norB else s.boot.norA
  match other with
  | some x => if s.slotBoots x then min img.manifest.svn x.image.manifest.svn else img.manifest.svn
  | none => img.manifest.svn

/-- The unblown bits of MIN_SVN that take its count to a goal. -/
def svnBits (r : BitVec 4096) (goal : Nat) : List Nat :=
  (((List.range 64).map fun i => 2080 + i).filter fun b => !r.getLsbD b).take (goal - minSvn r)

/-- Whether the revocation of a slot may be honoured (R474). -/
def State.mayRevoke (s : State) (img : Image) (board : Option Board) (k : Nat) : Bool :=
  let other (x : Option NorSlot) : Bool :=
    match x with | some x => !x.valid || decide (x.image.manifest.signSlot ≠ k) | none => true
  decide (img.manifest.signSlot ≠ k) && other s.boot.norA && other s.boot.norB &&
    (match board with | some b => decide (b.signSlot ≠ k) | none => true)

/-- The bits of a nibble. -/
def nibbleBits (at_ : Nat) : List Nat := [at_, at_ + 1, at_ + 2, at_ + 3]

/-- Program the fuse bits of a list. -/
def blowAll (s : State) (l : List Nat) : State := l.foldl (fun s b => s.blowFuse b true) s

/-- A revocation request for a slot: honoured or recorded (R474). -/
def revokeOne (img : Image) (board : Option Board) (s : State) (k : Nat) : State :=
  if !img.manifest.revoke.getLsbD k then s
  else if s.mayRevoke img board k then blowAll s (nibbleBits (1760 + 4 * k))
  else s.record 19 0 0xFF 0 [BitVec.ofNat 8 k]

/-- Apply the fuse requests (R474, Table 9, step 6). `board` is the accepted board description. -/
def State.fuseRequests (s : State) (img : Image) (board : Option Board) : State :=
  let s := if img.manifest.svnFuse then blowAll s (svnBits s.boot.fuses (s.minSvnGoal img)) else s
  let s := (List.range 4).foldl (revokeOne img board) s
  match board with
  | some b =>
    let n := lifecycle s.boot.fuses
    if b.decommission ∧ b.serial = s.reg Reg.FUS_SERIAL ∧ n < 3 then blowAll s (nibbleBits (1776 + 4 * n)) else s
  | none => s

/-! ## The board description and the guard set (R475 to R480) -/

/-- Whether a board description is accepted (R475). -/
def State.boardOk (s : State) (b : Board) : Bool :=
  decide (b.magic = 0x4E394244 ∧ b.format = 1 ∧ (b.serial = 0 ∨ b.serial = s.reg Reg.FUS_SERIAL) ∧ b.windows.length ≤ 8192) &&
    s.signedOk (Config.boardDigest b) b.signSlot b.signer b.signature

/-- The defaults of Table 10. -/
def boardDefaults (sdcGeom : Word) : Board :=
  { magic := 0x4E394244, format := 1, serial := 0, ssvid := 0x1F3C, ssid := 0, debug := 0, signers := 0xF, keySlots := 0
    decommission := false, pwrBank := 0, sdcGeom := sdcGeom, mirror := 0
    part := [~~~0, ~~~0, ~~~0], windows := [], signSlot := 0, signer := 0, signature := 0 }

/-- The highest debug level of the lifecycle (R464, R477): TEST in PRODUCTION needs a grant bound to the serial. -/
def State.debugCap (s : State) (b : Board) : Nat :=
  if lifecycle s.boot.fuses = 2 ∧ b.serial ≠ s.reg Reg.FUS_SERIAL then 1 else 2

/-- Whether a window entry keeps the rules of R479. -/
def windowOk (w : Window) : Bool :=
  decide (12 ≤ w.log2 ∧ w.log2 ≤ 64 ∧ w.base.toNat % 2 ^ w.log2 = 0)

/-- The fence entry made from a window entry (R479, Table 11). -/
def fenceEntry (w : Window) : MatEntry :=
  let key := w.base.toNat / 4096 + w.func % 512 * 2 ^ 58 + w.port % 2 * 2 ^ 67 + 3 * 2 ^ 68
  let off := (2 ^ (w.log2 - 12) - 1) + (if w.allFunc then 511 * 2 ^ 58 else 0)
  let perm := (if w.perm.getLsbD 0 then 2 ^ 31 else 0) + (if w.perm.getLsbD 1 then 2 ^ 30 else 0)
  { key := BitVec.ofNat 72 key, mask := ~~~(BitVec.ofNat 72 off), result := BitVec.ofNat 32 perm }

/-- The DMA windows become fence entries in order; an entry that breaks the rules is skipped and recorded (R479). -/
def State.writeFences (s : State) (ws : List Window) : State :=
  let l := (List.range ws.length).zip ws
  let s := l.foldl (fun s e =>
    if windowOk e.2 then s.setMat (s.mat.entries.put e.1 (fenceEntry e.2)) else s.record 20 0 0xFF 0 (leBytes 2 e.1)) s
  s.setFld Reg.GRD_POLICY Reg.GRD_POLICY_.FENCES (l.filter fun e => windowOk e.2).length

/-- The wrapping slots whose key material is made (R480). -/
def State.keySlotsMade (s : State) (b : Board) : Nat :=
  let life := lifecycle s.boot.fuses
  if secretOk s.boot.fuses ∧ (life = 1 ∨ life = 2) then b.keySlots.toNat else 0

/-- The guard set (R476, Table 12). -/
def State.writeGuardSet (s : State) (img : Image) (b : Board) : State :=
  let r := s.boot.fuses
  let keys := s.keySlotsMade b
  let signers := slotMask fun k => slotValid r k && !slotRevoked r k && b.signers.getLsbD k
  let s := s.setFld Reg.GRD_POLICY Reg.GRD_POLICY_.DEBUG (min b.debug (s.debugCap b))
  let s := s.setFld Reg.GRD_POLICY Reg.GRD_POLICY_.SIGNERS signers
  let s := s.setFld Reg.GRD_POLICY Reg.GRD_POLICY_.KEYSLOTS keys
  let parts := (List.range 3).map (fun g => (g, (img.manifest.part[g]?).getD 0)) ++
    (List.range 3).map fun k => (k + 3, (b.part[k]?).getD 0)
  let s := parts.foldl (fun s e => s.setReg (Reg.GRD_PART e.1) e.2) s
  s.writeFences b.windows

/-- LOADER_RUN (R471, R473 to R481, Table 9, steps 5 to 9). `entropyFails` counts the health tests that failed in turn. -/
def execLoaderRun (board : Option Board) (entropyFails parkUs : Nat) (s : State) : Host.Outcome State Fault Refusal :=
  match s.boot.booted with
  | none => .next s
  | some img =>
    answer (s.running && decide (s.mode = modeBoot ∧ s.fld Reg.BOT_STATUS Reg.BOT_STATUS_.STAGE = 1) &&
        decide (s.fld Reg.BOT_STATUS Reg.BOT_STATUS_.CODE ≠ 7)) s
      (let good := board.filter fun b => s.boardOk b
       let s := if good.isSome then s else (s.bootCode 4).raise 19 17
       let s := s.fuseRequests img good
       let b := good.getD (boardDefaults ((regReset Reg.SDC_GEOM).setWidth 32))
       let s := if entropyFails = 0 then s else s.raise 19 19
       let s := s.setFld Reg.XTS_SLOTS Reg.XTS_SLOTS_.ENABLED (s.keySlotsMade b)
       if 3 ≤ entropyFails then (s.bootCode 7).emit (.console 7)
       else
         let s := s.writeGuardSet img b
         let s : State := { s with map := { s.map with sealKey := s.map.sealKey + 1 } }
         let s := s.setReg Reg.PWR_BANK b.pwrBank
         let s := if sdcGeomOk (b.sdcGeom.setWidth 64) then s.setReg Reg.SDC_GEOM (b.sdcGeom.setWidth 64) else s
         let s := s.setFld Reg.SDC_MIRROR Reg.SDC_MIRROR_.BASE b.mirror.toNat
         let s := (s.endRetry b.ssvid b.ssid).setFld Reg.GRD_POLICY Reg.GRD_POLICY_.LOCKED 1
         let s := s.setFld Reg.FUS_STATE Reg.FUS_STATE_.SECRET_GATED 1
         let s := s.setFld Reg.BOT_STATUS Reg.BOT_STATUS_.STAGE 3
         let s := s.setFld Reg.BOT_STATUS Reg.BOT_STATUS_.PARK_US parkUs
         s.setBoot { s.boot with board := good, running := some img })

/-- GRD_LOCK_WRITE (R481): LOCK 1 sets the guard lock; once locked every write is discarded. -/
def execGrdLockWrite (src : Source) (value : Word) (s : State) : Host.Outcome State Fault Refusal :=
  answer s.up s
    (s.access src Reg.GRD_LOCK 4 fun s =>
      if s.guardLocked then s.raise 20 17
      else if value.getLsbD 0 then
        let s := s.setFld Reg.GRD_POLICY Reg.GRD_POLICY_.LOCKED 1
        s.setFld Reg.BOT_STATUS Reg.BOT_STATUS_.STAGE (max 2 (s.fld Reg.BOT_STATUS Reg.BOT_STATUS_.STAGE))
      else s)

/-! ## The boot castling (R490) -/

/-- The committed image goes into the NOR slot not booted: VALID with CSEQ one above the other slot's. -/
def State.writeNor (s : State) (img : Image) : State :=
  let bootA := decide (s.fld Reg.BOT_STATUS Reg.BOT_STATUS_.SLOT = 0)
  let other := if bootA then s.boot.norA else s.boot.norB
  let cseq := (match other with | some x => x.cseq | none => 0) + 1
  let x : NorSlot := { cseq := cseq, valid := true, image := img }
  let b := if bootA then { s.boot with norB := some x } else { s.boot with norA := some x }
  { s with boot := { b with store := { b.store with norCseq := cseq } } }

/-- The NOR slot not booted stands WRITING after a write that failed. -/
def State.spoilNor (s : State) : State :=
  let spoil (x : Option NorSlot) : Option NorSlot := x.map fun y => { y with valid := false }
  if s.fld Reg.BOT_STATUS Reg.BOT_STATUS_.SLOT = 0 then { s with boot := { s.boot with norB := spoil s.boot.norB } }
  else { s with boot := { s.boot with norA := spoil s.boot.norA } }

/-- BOOT_CASTLE (R490): in BOOT, after recovery, the store is ahead of the NOR. When the write or a check fails, the N9
leaves BOOT on the booted image and records the failure. -/
def execBootCastle (norWriteOk : Bool) (s : State) : Host.Outcome State Fault Refusal :=
  match s.boot.booted, s.boot.store.committed with
  | some old, some img =>
    answer (s.running && decide (s.mode = modeBoot ∧ s.power.recStep = 10 ∧ img.manifest ≠ old.manifest) &&
        s.boot.castle.isNone) s
      (if !norWriteOk then (s.spoilNor.record 22 0 0xFF 0 []).leaveBoot
       else
         let s := s.writeNor img
         if !versionsOk old.manifest img.manifest then (s.record 22 0 0xFF 0 []).leaveBoot
         else
           let c : Castle := { image := img, handed := 0, stopped := false, abort := none, inBoot := true
                               seq := s.nextStamp }
           let s := (s.takeStamps 1).setBoot { s.boot with castle := some c }
           s.raise 22 21)
  | _, _ => .next s

end Sys2Proof.Machine
end

