-- ==== Sys2Proof/Machine/HerdFrames.lean ====
section
/-! DEFINITION. Aizaik frames as they arrive (R317, R321 to R326, R329, R341, R343, R350), the timers of links, leases and jobs
(R324 to R326, R332, R342), and the writes and events of the peer ports (R316 to R320). -/

namespace Sys2Proof.Machine

open Sys2Proof

/-! ## Receipt of a frame -/

/-- The VID, the address of a peer port and the EtherType (R317, R318). -/
def State.portVid (s : State) (q : Nat) : Nat := s.fld (Reg.HRD_PORT q) Reg.HRD_PORT_.VID
def State.portMac (s : State) (q : Nat) : BitVec 48 := (s.reg (Reg.HRD_MAC q)).setWidth 48
def State.etherType (s : State) : Nat := s.fld Reg.HRD_CTRL Reg.HRD_CTRL_.ETHERTYPE

/-- Whether a frame is kept: none of the grounds of R317 and R322 holds. -/
def State.frameOk (s : State) (h : FrameHdr) (len : Nat) : Bool :=
  h.fcsOk && h.crcOk && !h.macControl && decide (h.vid = s.portVid h.plane ∧ h.etherType.toNat = s.etherType) &&
    decide (h.dstMac = s.portMac h.plane) && s.joined && decide (h.flock = s.flockId ∧ h.dst = s.selfId) &&
    s.peers.contains h.src && decide (h.len = len)

/-- Discard a frame and count it (R317, R322). -/
def State.dropFrame (s : State) (plane : Nat) : State := s.count (Reg.HRD_RXDROP plane) 1

/-- A frame of a peer has come on a plane: the plane is usable, its epoch is known (R326, R332). -/
def State.heard (s : State) (h : FrameHdr) : State :=
  let l := s.linkOf h.src
  let s := if s.portSends h.plane ∧ !l.usable.contains h.plane then
      s.setLink h.src { l with usable := h.plane :: l.usable }
    else s
  s.freshen h.src h.epoch

/-- An acknowledgement: frames before it are done, waiting ones follow (R325). -/
def State.ackTo (s : State) (peer : Nat) (a : Word) : State :=
  let l := s.linkOf peer
  let left := l.unacked.filter fun f => decide ((f.seq - a).toNat < 2 ^ 31)
  let s := s.setLink peer { l with unacked := left }
  State.sendWaiting l.waiting.length s peer

/-- Send an ACK frame (R325). -/
def State.sendAck (s : State) (peer : Nat) : State := s.sendUnreliable (s.linkOf peer).plane peer .ack

/-- Take a reliable frame when it is the next one expected; past 16 unacknowledged ones an ACK goes out (R325). -/
def State.accept (s : State) (h : FrameHdr) (f : State → State) : State :=
  let l := s.linkOf h.src
  if l.st ≠ .up ∨ h.version.toNat ≠ l.version ∨ h.seq ≠ l.rxNext then s
  else
    let s := s.setLink h.src { l with rxNext := l.rxNext + 1, owedAcks := l.owedAcks + 1 }
    let s := f s
    if 16 ≤ (s.linkOf h.src).owedAcks then s.sendAck h.src else s

/-- Receive a frame of a type: its checks, what every frame tells, then its own effect (R317, R325). -/
def State.receive (s : State) (h : FrameHdr) (len : Nat) (reliable : Bool) (f : State → State) : State :=
  if s.mode = modeHoldup ∨ s.mode = modeBoot then s
  else if !s.frameOk h len then s.dropFrame h.plane
  else
    let s := s.heard h
    let s := if h.ackv ∧ s.linkUp h.src then s.ackTo h.src h.ackSeq else s
    if reliable then s.accept h f else f s

/-- Whether a header is of a type. -/
def FrameIs (h : FrameHdr) (type : Nat) : Bool := decide (h.type.toNat = type)

/-! ## HELLO (R324) -/

/-- The highest version that both sides list; 0 for none. -/
def chooseVersion (vers : List Half) : Half :=
  ((helloVersions.filter fun v => vers.contains v).headD 0)

/-- The link with a peer is UP at a version (R324, step 4): the lower epoch asks for the map (step 5), and a peer that was DOWN
is reconciled (R352). -/
def State.linkGoesUp (s : State) (peer plane version peerEpoch : Nat) : State :=
  let l := s.linkOf peer
  let s := s.setLink peer { Link.closed with
    st := .up, plane := plane, version := version, vmax := max l.vmax version, usable := l.usable, epoch := peerEpoch,
    fresh := l.fresh, down := false }
  let s := (s.raiseRecord 13 17 0 (leBytes 2 peer)).followHerd
  let s := if s.epoch < peerEpoch then s.sendReliable peer (.mapRequest peerEpoch) else s
  let s := s.followShape
  if l.down ∧ !s.herd.homed.isEmpty then s.reconcile peer else s

/-- Whether the map gives a peer's serial. -/
def State.serialOk (s : State) (peer : Nat) (serial : DWord) : Bool :=
  match s.herd.map with
  | some m => (match m.member peer with | some e => decide (e.serial = serial) | none => false)
  | none => false

/-- AIZAIK_HELLO (R324): crossing HELLOs leave the higher identifier to answer. -/
def execAizaikHello (hdr : FrameHdr) (vers : List Half) (serial : DWord) (s : State) : Host.Outcome State Fault Refusal :=
  answer (s.up && FrameIs hdr 0x01) s
    (if s.mode ≠ modeHoldup ∧ s.mode ≠ modeBoot ∧ s.frameOk hdr 16 ∧ !s.serialOk hdr.src serial then s.dropFrame hdr.plane
     else s.receive hdr 16 false fun s =>
       if hdr.src < s.selfId then
         let v := chooseVersion vers
         let s := s.emit (.helloAck hdr.plane hdr.src v)
         if v = 0 then (s.setLink hdr.src { s.linkOf hdr.src with mismatch := true }).raise 13 28
         else s.linkGoesUp hdr.src hdr.plane v.toNat hdr.epoch
       else s).wakeHerd

/-- AIZAIK_HELLO_ACK (R324). -/
def execAizaikHelloAck (hdr : FrameHdr) (chosen : Half) (serial : DWord) (s : State) : Host.Outcome State Fault Refusal :=
  answer (s.up && FrameIs hdr 0x02) s
    (if s.mode ≠ modeHoldup ∧ s.mode ≠ modeBoot ∧ s.frameOk hdr 16 ∧ !s.serialOk hdr.src serial then s.dropFrame hdr.plane
     else s.receive hdr 16 false fun s =>
       if (s.linkOf hdr.src).st ≠ .helloSent then s
       else if chosen = 0 then (s.setLink hdr.src { s.linkOf hdr.src with mismatch := true }).raise 13 28
       else if helloVersions.contains chosen then s.linkGoesUp hdr.src hdr.plane chosen.toNat hdr.epoch
       else s).wakeHerd

/-- LINK_HELLO_RETRY (R324). -/
def execLinkHelloRetry (peer : Nat) (s : State) : Host.Outcome State Fault Refusal :=
  answer (s.up && decide (s.mode ≠ modeHoldup ∧ s.mode ≠ modeBoot ∧ s.selfId < peer ∧ (s.linkOf peer).st ≠ .up) &&
      s.peers.contains peer) s
    ((s.setLink peer { s.linkOf peer with st := .helloSent }).sendHello peer)

/-! ## Heartbeats and acknowledgements (R325, R326) -/

/-- HEARTBEAT (R326, R353). -/
def execHeartbeat (hdr : FrameHdr) (vmax : Half) (s : State) : Host.Outcome State Fault Refusal :=
  answer (s.up && FrameIs hdr 0x03) s
    (s.receive hdr 4 false fun s =>
      (s.setLink hdr.src { s.linkOf hdr.src with vmax := vmax.toNat }).followShape)

/-- ACK (R325). -/
def execAck (hdr : FrameHdr) (s : State) : Host.Outcome State Fault Refusal :=
  answer (s.up && FrameIs hdr 0x04) s (s.receive hdr 0 false fun s => s)

/-- ACK_TIMER (R325). -/
def execAckTimer (peer : Nat) (s : State) : Host.Outcome State Fault Refusal :=
  answer (s.up && s.linkUp peer && decide ((s.linkOf peer).owedAcks ≠ 0)) s (s.sendAck peer)

/-- Send every outstanding frame of a link again (R325). -/
def State.resend (s : State) (peer : Nat) : State :=
  let l := s.linkOf peer
  (l.unacked.foldl (fun s f => s.emit (.frame l.plane peer true f.seq l.rxNext f.body)) s).count
    (Reg.HRD_RETX l.plane) l.unacked.length

/-- RETRANSMIT_TIMEOUT (R325). -/
def execRetransmitTimeout (peer : Nat) (s : State) : Host.Outcome State Fault Refusal :=
  answer (s.up && s.linkUp peer && !(s.linkOf peer).unacked.isEmpty) s (s.resend peer)

/-- HEARTBEAT_TIMER (R326): to every member of the herd on every plane that is up and enabled. -/
def execHeartbeatTimer (s : State) : Host.Outcome State Fault Refusal :=
  answer (s.up && decide (s.mode ≠ modeHoldup ∧ s.mode ≠ modeBoot)) s
    (s.peers.foldl (fun s p =>
      ((List.range 4).filter fun q => s.portSends q).foldl (fun s q => s.sendUnreliable q p (.heartbeat 0x0103)) s) s)

/-- A plane is no longer usable for a link: the link moves to the next usable one and sends again, or the peer is DOWN
(R326). -/
def State.losePlane (s : State) (peer plane : Nat) : State :=
  let l := s.linkOf peer
  if !l.usable.contains plane then s
  else
    let u := l.usable.filter fun q => decide (q ≠ plane)
    let s := s.setLink peer { l with usable := u }
    if u.isEmpty then s.peerDown peer
    else if l.st = .up ∧ l.plane = plane then (s.setLink peer { s.linkOf peer with plane := s.planeOf peer }).resend peer
    else s

/-- PEER_DEAD_TIMEOUT (R326). -/
def execPeerDeadTimeout (peer plane : Nat) (s : State) : Host.Outcome State Fault Refusal :=
  answer (s.up && s.peers.contains peer) s (s.losePlane peer plane).wakeHerd

/-- LEASE_EXPIRE (R332): LEASE has passed; what was heard in it decides whether the lease is held. -/
def execLeaseExpire (s : State) : Host.Outcome State Fault Refusal :=
  answer (s.up && s.joined) s
    (let held := s.majority
     let s0 := s
     let s : State := { s with herd := { s.herd with
       leaseHeld := held, links := s.herd.links.map fun e => (e.1, { e.2 with fresh := false }) } }
     let s := if s0.herd.leaseHeld ∧ !held ∧ !s0.herd.homed.isEmpty then s.raise 13 27 else s
     s.followHerd)

/-! ## Maps (R329) -/

/-- MAP_OFFER (R329): a newer map is asked for, and a transfer under way is abandoned. -/
def execMapOffer (hdr : FrameHdr) (s : State) : Host.Outcome State Fault Refusal :=
  answer (s.up && FrameIs hdr 0x10) s
    (s.receive hdr 0 true fun s =>
      let at_ := match s.herd.transfer with | some t => t.2 | none => s.epoch
      if s.epoch < hdr.epoch ∧ at_ < hdr.epoch then
        ({ s with herd := { s.herd with transfer := some (hdr.src, hdr.epoch) } } : State).sendReliable hdr.src
          (.mapRequest hdr.epoch)
      else s)

/-- The pieces of a map of a length: their offsets (R322). -/
def mapPieces (len : Nat) : List Nat := (List.range (ceilDiv len 8192)).map fun i => 8192 * i

/-- MAP_REQUEST (R329). -/
def execMapRequest (hdr : FrameHdr) (epoch : Nat) (s : State) : Host.Outcome State Fault Refusal :=
  answer (s.up && FrameIs hdr 0x11) s
    (s.receive hdr 8 true fun s =>
      match s.herd.map with
      | some m =>
        if epoch ≤ m.epoch then (mapPieces m.length).foldl (fun s o => s.sendReliable hdr.src (.mapData m.epoch o)) s else s
      | none => s)

/-! ## Fragments held (R334, R341) -/

/-- The slots of the holding namespace (R334). -/
def State.holdSlots (s : State) : Nat :=
  ((s.nss.filter fun e => e.2.holding).map fun e => e.2.size / 20).sum

/-- The slot of a fragment held. -/
def State.heldSlot (s : State) (hkey k h j : Nat) : Option (Nat × Fragment) :=
  s.herd.frags.find? fun e => decide (e.2.hkey = hkey ∧ e.2.k = k ∧ e.2.hstripe = h ∧ e.2.index = j)

/-- Whether stamp a is newer than or equal to stamp b (R338). -/
def stampGe (ae : Nat) (as_ : DWord) (be : Nat) (bs : DWord) : Bool :=
  decide (be < ae) || (decide (ae = be) && decide ((as_ - bs).toNat < 2 ^ 63))

/-- Answer an operation with a status (R323). -/
def State.answerOp (s : State) (peer type : Nat) (op : OpHdr) (status : Nat) : State :=
  s.sendReliable peer (.frag type { op with status := status, nblk := 0, first := 0, zero := 0 } [])

/-- Take a whole fragment into the holding namespace, or answer why not (R341). Data symbols are checked by their CRC. -/
def State.holdFragment (s : State) (peer : Nat) (op : OpHdr) (syms : List Symbol) : State :=
  let home := match s.herd.map with | some m => m.homeOf s.herdId op.hkey | none => none
  let old := s.heldSlot op.hkey op.k op.hstripe op.index
  if home ≠ some peer then s.answerOp peer 0x21 op 2
  else if (match old with
      | some (_, f) => stampGe f.stampEpoch f.stampSeq op.stampEpoch op.stampSeq
      | none => false) then s.answerOp peer 0x21 op 5
  else if s.holdSlots ≤ s.herd.frags.length then s.answerOp peer 0x21 op 1
  else if op.index < op.k ∧ !(syms.all fun x => decide (x = zeroSymbol ∨ tallyCrc x.tally = crc64 x.data)) then
    s.answerOp peer 0x21 op 3
  else
    let f : Fragment := { hkey := op.hkey, k := op.k, hstripe := op.hstripe, index := op.index,
                          stampEpoch := op.stampEpoch, stampSeq := op.stampSeq, symbols := syms }
    let slot := s.herd.frags.firstFree 0
    let frags := s.herd.frags.put slot f
    let frags := match old with | some (i, _) => frags.del i | none => frags
    ({ s with herd := { s.herd with frags := frags } } : State).answerOp peer 0x21 op 0

/-- Whether two frames belong to one fragment write. -/
def sameFragment (x y : Incoming) : Bool :=
  decide (x.peer = y.peer ∧ x.op.hkey = y.op.hkey ∧ x.op.k = y.op.k ∧ x.op.hstripe = y.op.hstripe ∧
    x.op.index = y.op.index ∧ x.op.stampEpoch = y.op.stampEpoch ∧ x.op.stampSeq = y.op.stampSeq)

/-- Act on a fragment all of whose frames are there and whose epoch is not ahead of this N9's (R341). -/
def State.settleIncoming (s : State) (x : Incoming) : State :=
  if s.epoch < x.epoch then s
  else
    let mine := s.herd.incoming.filter fun y => sameFragment x y
    match wholeFragment (mine.map fun y => (y.op, y.symbols)) with
    | none => s
    | some syms =>
      ({ s with herd := { s.herd with incoming := s.herd.incoming.filter fun y => !sameFragment x y } } : State).holdFragment
        x.peer x.op syms

/-- The length of a frame that carries symbols (R322). -/
def fragLen (op : OpHdr) : Nat :=
  32 + 4128 * ((List.range op.nblk).filter fun b => !op.zero.getLsbD b).length

/-- FRAG_WRITE (R341). -/
def execFragWrite (hdr : FrameHdr) (op : OpHdr) (symbols : List Symbol) (s : State) : Host.Outcome State Fault Refusal :=
  answer (s.up && FrameIs hdr 0x20) s
    (s.receive hdr (fragLen op) true fun s =>
      let x : Incoming := { peer := hdr.src, epoch := hdr.epoch, op := op, symbols := symbols }
      let s : State := { s with herd := { s.herd with incoming := s.herd.incoming ++ [x] } }
      if s.epoch < hdr.epoch then s.sendReliable hdr.src (.mapRequest hdr.epoch) else s.settleIncoming x)

/-- MAP_DATA (R329): the last piece brings the whole map, which is judged; fragments that waited for it follow (R341). -/
def execMapData (hdr : FrameHdr) (epoch offset : Nat) (whole : Option FlockMap) (s : State) :
    Host.Outcome State Fault Refusal :=
  answer (s.up && FrameIs hdr 0x12) s
    (s.receive hdr (if 16 ≤ hdr.len ∧ hdr.len ≤ 8208 then hdr.len else 16) true fun s =>
      match whole with
      | none => { s with herd := { s.herd with transfer := if s.epoch < epoch then some (hdr.src, epoch) else none } }
      | some m =>
        if m.length ≤ offset then s
        else
          let s : State := { s with herd := { s.herd with transfer := none } }
          let s := s.offerMap m
          s.herd.incoming.foldl (fun s x => s.settleIncoming x) s).wakeHerd

/-- FRAG_READ (R323): eight FRAG_DATA frames of the fragment held, or one that says it is absent. -/
def execFragRead (hdr : FrameHdr) (op : OpHdr) (s : State) : Host.Outcome State Fault Refusal :=
  answer (s.up && FrameIs hdr 0x22) s
    (s.receive hdr 32 true fun s =>
      match s.heldSlot op.hkey op.k op.hstripe op.index with
      | none => s.answerOp hdr.src 0x23 op 4
      | some (_, f) =>
        s.sendFragment hdr.src 0x23 (mkOp f.hkey f.k f.index f.hstripe f.stampEpoch f.stampSeq) f.symbols)

/-- FRAG_DATA (R343): what was asked for is kept for the reader; the ask is over once the fragment is whole or refused. -/
def execFragData (hdr : FrameHdr) (op : OpHdr) (symbols : List Symbol) (s : State) : Host.Outcome State Fault Refusal :=
  answer (s.up && FrameIs hdr 0x23) s
    (s.receive hdr (fragLen op) true fun s =>
      if !s.asking op.hkey op.k op.hstripe op.index then s
      else
        let s : State := { s with herd := { s.herd with fetched := s.herd.fetched ++ [(op, symbols)] } }
        let other (a : Nat × OpHdr) : Bool :=
          !decide (a.2.hkey = op.hkey ∧ a.2.k = op.k ∧ a.2.hstripe = op.hstripe ∧ a.2.index = op.index)
        if fragmentDone (s.fetchedOf op.hkey op.k op.hstripe op.index) then
          { s with herd := { s.herd with asked := s.herd.asked.filter other } }
        else s).wakeHerd

/-- FRAG_DISCARD (R346, R352): 0xFF is every index, all ones every stripe of the key. Only the home's word counts. -/
def execFragDiscard (hdr : FrameHdr) (op : OpHdr) (s : State) : Host.Outcome State Fault Refusal :=
  answer (s.up && FrameIs hdr 0x24) s
    (s.receive hdr 32 true fun s =>
      let named (f : Fragment) : Bool :=
        decide (f.hkey = op.hkey) && (decide (op.hstripe = 2 ^ 64 - 1) || decide (f.k = op.k ∧ f.hstripe = op.hstripe)) &&
          decide (op.index = 0xFF ∨ f.index = op.index)
      { s with herd := { s.herd with frags := s.herd.frags.filter fun e => !named e.2 } })

/-- SWEEP_DONE (R350): fragments of the key that this N9 does not hold under the values of the frame are discarded. -/
def execSweepDone (hdr : FrameHdr) (hkey k m home : Nat) (elig : List Nat) (s : State) :
    Host.Outcome State Fault Refusal :=
  answer (s.up && FrameIs hdr 0x25) s
    (s.receive hdr 78 true fun s =>
      let p : Placement := { k := k, m := m, elig := elig.filter fun i => decide (i ≠ home ∧ i ≠ 0xFFFF), home := home }
      let keep (f : Fragment) : Bool :=
        decide (f.hkey ≠ hkey) || (decide (f.k = k) && decide ((s.holders p hkey f.hstripe)[f.index]? = some s.selfId))
      { s with herd := { s.herd with frags := s.herd.frags.filter fun e => keep e.2 } })

/-! ## Jobs (R339, R341, R342) -/

/-- The job in flight that an answer belongs to. -/
def State.jobFor (s : State) (op : OpHdr) (src : Nat) : Option (Nat × Job) :=
  s.herd.jobs.find? fun e =>
    decide (e.2.key = (op.hkey, op.k, op.hstripe) ∧ e.2.stampSeq = op.stampSeq) && e.2.inFlight &&
      decide (e.2.holders[op.index]? = some src)

/-- FRAG_DONE (R339, R341): UNREADABLE has the fragment sent once more. -/
def execFragDone (hdr : FrameHdr) (op : OpHdr) (s : State) : Host.Outcome State Fault Refusal :=
  answer (s.up && FrameIs hdr 0x21) s
    (s.receive hdr 32 true fun s =>
      match s.jobFor op hdr.src with
      | none => s
      | some (i, j) =>
        let put (s : State) (j : Job) : State := { s with herd := { s.herd with jobs := s.herd.jobs.put i j } }
        if op.status = 0 ∨ op.status = 5 then
          let j := { j with answered := if j.answered.contains op.index then j.answered else j.answered ++ [op.index] }
          let s := put s j
          if j.established (j.holders.length - j.k) then s.finishJob i j else s
        else if op.status = 3 ∧ !j.unreadable.contains op.index then
          let s := put s { j with unreadable := j.unreadable ++ [op.index] }
          match s.nsOfKey j.hkey with
          | some (nsid, n) =>
            let units := (List.range j.k).filterMap fun x => s.localUnit nsid n (j.k * j.hstripe + x)
            let p : Placement := { k := j.k, m := j.holders.length - j.k, elig := [], home := s.selfId }
            match (fragmentsOf p units)[op.index]? with
            | some syms => if units.length = j.k then s.sendFragment hdr.src 0x20
                (mkOp j.hkey j.k op.index j.hstripe op.stampEpoch j.stampSeq) syms else s
            | none => s
          | none => s
        else put s { j with refused := true }).wakeHerd

/-- HERD_JOB_START (R339). -/
def execHerdJobStart (job : Nat) (s : State) : Host.Outcome State Fault Refusal :=
  match s.herd.jobs.look job with
  | none => .next s
  | some j => answer (s.up && decide (s.mode ≠ modeHoldup ∧ s.mode ≠ modeBoot) && !j.inFlight) s (s.startJob job)

/-- Why a job is late (R342): the first cause of its list that applies. -/
def State.lateCause (s : State) (j : Job) : Nat :=
  let home := match s.herd.map with | some m => m.homeOf s.herdId j.hkey | none => none
  let hs := match s.placementFor j.hkey with | some p => s.holders p j.hkey j.hstripe | none => []
  if hs.any fun c => !s.linkUp c then 1
  else if j.refused then 2
  else if home ≠ some s.selfId ∨ s.herdShape.isNone then 3
  else 1

/-- JOB_DEFER_TIMEOUT (R342). -/
def execJobDeferTimeout (job : Nat) (s : State) : Host.Outcome State Fault Refusal :=
  match s.herd.jobs.look job with
  | none => .next s
  | some j =>
    answer (s.up && !j.late) s
      (match s.nsOfKey j.hkey with
       | none => s
       | some (nsid, n) =>
         let r := stripeRange j.k j.hstripe
         let cause := s.lateCause j
         let s : State := { s with herd := { s.herd with jobs := s.herd.jobs.put job { j with late := true } } }
         (s.raiseDeferred nsid n.herd cause r.1 r.2).followHerd).wakeHerd

/-- JOB_RETRY_TIMER (R342): every late job tries again under the placement now in force. -/
def execJobRetryTimer (s : State) : Host.Outcome State Fault Refusal :=
  answer (s.up && decide (s.mode ≠ modeHoldup ∧ s.mode ≠ modeBoot)) s
    (((s.herd.jobs.filter fun e => e.2.late).map fun e => e.1).foldl (fun s i => s.startJob i) s).wakeHerd

/-! ## Peer ports (R316 to R320) -/

/-- ETHERTYPE_WRITE (R320, R49): the field of HRD_CTRL is keyed. -/
def execEthertypeWrite (src : Source) (value : Half) (s : State) : Host.Outcome State Fault Refusal :=
  answer s.up s
    (s.access src Reg.HRD_CTRL 8 fun s => s.keyed src 13 fun s =>
      (s.setFld Reg.HRD_CTRL Reg.HRD_CTRL_.ETHERTYPE value.toNat).closeLinks).wakeHerd

/-- HRD_MAC_WRITE (R318, R49). -/
def execHrdMacWrite (src : Source) (plane : Nat) (value : BitVec 48) (s : State) : Host.Outcome State Fault Refusal :=
  answer (s.up && decide (plane < 4)) s
    (s.access src (Reg.HRD_MAC plane) 8 fun s => s.keyed src 13 fun s =>
      (s.setFld (Reg.HRD_MAC plane) Reg.HRD_MAC_.MAC value.toNat).closePlane plane).wakeHerd

/-- A peer port's Ethernet link changes: its planes follow (R326, R496, R497). -/
def State.peerLink (s : State) (q : Nat) (up : Bool) : State :=
  if s.fld (Reg.HRD_PORT q) Reg.HRD_PORT_.LINK = (if up then 1 else 0) then s
  else
    let s := s.setFld (Reg.HRD_PORT q) Reg.HRD_PORT_.LINK (if up then 1 else 0)
    let s := if up then s else s.herd.links.keys.foldl (fun s p => s.losePlane p q) s
    let s := if up ∨ !s.joined ∨ s.fld (Reg.HRD_PORT q) Reg.HRD_PORT_.ENABLE = 0 then s
      else s.recordFault 13 q 0xA [BitVec.ofNat 8 q]
    s.followPeerPorts

/-- HRD_PORT_AN_WRITE (R316): a change of AN restarts the Ethernet link. -/
def execHrdPortAnWrite (src : Source) (plane : Nat) (an : Bool) (s : State) : Host.Outcome State Fault Refusal :=
  answer (s.up && decide (plane < 4)) s
    (s.access src (Reg.HRD_PORT plane) 4 fun s =>
      let v : Nat := if an then 1 else 0
      if s.fld (Reg.HRD_PORT plane) Reg.HRD_PORT_.AN = v then s
      else (s.setFld (Reg.HRD_PORT plane) Reg.HRD_PORT_.AN v).peerLink plane false).wakeHerd

/-- PEER_LINK_CHANGE (R316). -/
def execPeerLinkChange (plane : Nat) (up : Bool) (s : State) : Host.Outcome State Fault Refusal :=
  answer (s.up && decide (plane < 4)) s (s.peerLink plane up).wakeHerd

/-- FRAME_DISCARD (R317, R322). -/
def execFrameDiscard (plane : Nat) (s : State) : Host.Outcome State Fault Refusal :=
  answer (s.up && decide (plane < 4)) s (s.dropFrame plane)

/-- SWEEP_STRIPE (R345). -/
def execSweepStripe (ns : Nat) (s : State) : Host.Outcome State Fault Refusal :=
  match s.herd.homed.look ns with
  | none => .next s
  | some h =>
    answer (s.up && decide (s.mode ≠ modeHoldup ∧ s.mode ≠ modeBoot) && h.sweeping &&
        decide (s.fld Reg.HRD_RETAIN Reg.HRD_RETAIN_.SWEEP_SHARE ≠ 0)) s
      (let x := h.boundary / max 1 h.target.k
       if h.ahead.contains x then s.advanceSweep ns
       else
         let r := s.sweepOne ns x
         if r.1 then r.2.advanceSweep ns else r.2).wakeHerd

end Sys2Proof.Machine
end

