-- ==== Sys2Proof/Machine/Modes.lean ====
section
/-! DEFINITION. Faults of cores and engine islands (R497 to R499), halts (R500, R501), hours and statistics (R506, R511), the
thermal limits (R546 to R548), the freeze (R512 to R515) and the TAP (R520). -/

namespace Sys2Proof.Machine

open Sys2Proof

/-! ## Cores (R497 to R499) -/

/-- The cores of a group (R25). -/
def groupSize : CoreGroup → Nat
  | .command => 16
  | .media => 4
  | .housekeeping => 4
  | .boot => 1

/-- The place of a core in the handover order, as log 0x06 numbers cores (R491). -/
def corePlace (c : CoreId) : Nat :=
  match c.group with
  | .housekeeping => c.idx
  | .media => 4 + c.idx
  | .command => 8 + c.idx
  | .boot => 0xFF

/-- The code of a core's failure (R551). -/
def coreCauseNum : CoreCause → Nat
  | .heartbeat => 1
  | .localMemory => 2
  | .trap => 3

/-- Whether a core runs firmware that can fail: started by the loader and not failed before. -/
def State.coreRuns (s : State) (c : CoreId) : Bool :=
  s.up && s.boot.running.isSome && decide (c.group ≠ .boot ∧ c.idx < groupSize c.group) && !s.failedCores.contains c

/-- The rings of a failed command core go, in ascending ring index, to the home that R216 gives (R498). -/
def State.rehome (s : State) (i : Nat) : State × Nat :=
  let mine := s.cmds.sqs.filter fun e => decide (e.2.home = i)
  (mine.foldl (fun s e => s.setSq e.1 { e.2 with home := s.homeCore }) s, mine.length)

/-- A core fails (R498, R499): it is isolated, its rings are reassigned, a castling aborts, and a group without a core left
is a halt cause. -/
def State.failCore (s : State) (c : CoreId) (cause : Nat) : State :=
  let s : State := { s with failedCores := s.failedCores ++ [c] }
  let s := s.raise 26 19
  let r := if c.group = .command then s.rehome c.idx else (s, 0)
  let part := [BitVec.ofNat 8 (groupNum c.group), BitVec.ofNat 8 c.idx, BitVec.ofNat 8 cause] ++
    if c.group = .command then leBytes 2 r.2 else []
  let s := r.1.recordFault 0 0 (if c.group = .command then 6 else 7) part
  let s := s.reason reasonCore true
  let s := s.abortCastle 2 (corePlace c)
  if (List.range (groupSize c.group)).all fun i => s.coreFailed c.group i then s.haltNow 3 0 else s

/-- CORE_WATCHDOG (R498): the heartbeat of a core is late. -/
def execCoreWatchdog (c : CoreId) (s : State) : Host.Outcome State Fault Refusal :=
  answer (s.coreRuns c) s (s.failCore c 1)

/-- CORE_FAULT (R498). -/
def execCoreFault (c : CoreId) (cause : CoreCause) (s : State) : Host.Outcome State Fault Refusal :=
  answer (s.coreRuns c) s (s.failCore c (coreCauseNum cause))

/-! ## Engine islands (R497) -/

/-- The islands of an engine kind (R517, Table 2): first index, number, and the window of the block. -/
def engineIslands : EngineKind → Nat × Nat × Nat
  | .ecc => (153, 16, 11)
  | .xts => (169, 8, 12)
  | .parity => (177, 4, 6)

/-- ENGINE_ISLAND_FAULT (R497): the island is isolated and its work moves to the others of its kind; with none left the N9
cannot serve correctly (R500). -/
def execEngineIslandFault (kind : EngineKind) (idx : Nat) (s : State) : Host.Outcome State Fault Refusal :=
  let k := engineIslands kind
  answer (s.up && decide (idx < k.2.1) && !s.isIsolated (k.1 + idx)) s
    (let t := (s.isolate (k.1 + idx)).recordFault k.2.2 idx 8 [BitVec.ofNat 8 (k.1 + idx)]
     let t := t.reason reasonCore true
     if (List.range k.2.1).all fun i => t.isIsolated (k.1 + i) then t.haltNow 4 (k.1 + idx) else t)

/-! ## Halts (R500, R501) -/

/-- The islands without redundancy of halt cause 0x4 (R500, Table 5). -/
def loneIsland (i : Nat) : Bool := decide ((181 ≤ i ∧ i ≤ 184) ∨ (189 ≤ i ∧ i ≤ 209) ∨ i = 211)

/-- HALT (R500): the loss of the 25 MHz reference also stops every clock. -/
def execHalt (cause island : Nat) (s : State) : Host.Outcome State Fault Refusal :=
  answer (s.running && decide (1 ≤ cause ∧ cause ≤ 5 ∧ (cause = 4 → loneIsland island = true))) s
    (let t := s.haltNow cause island
     if cause = 2 then { t with pins := { t.pins with sysClock := false } } else t)

/-- CORE_SUPPLY_LOSS (R501, R548): everything volatile is lost, MOD_HALT and a latched THERMTRIP_N with it. -/
def execCoreSupplyLoss (s : State) : Host.Outcome State Fault Refusal :=
  let t := if s.pins.resetLow then s else s.cutCastle.chipReset
  .next { t with regs := regsSet t.regs Reg.MOD_HALT 0, pins := { t.pins with thermtripLow := false } }

/-! ## Hours and statistics (R506, R511) -/

/-- HOUR_TICK (R511). -/
def execHourTick (s : State) : Host.Outcome State Fault Refusal :=
  answer s.running s (s.count Reg.MOD_HOURS 1)

/-- Whether a register holds a statistics counter that EVT_CLRSTATS clears (R48, R506). -/
def isClearedCounter (a : Nat) : Bool :=
  match findReg a with
  | some (row, _) => clearedCounters.contains row.name || decide (row.name = "HDR_ACCESS" ∨ row.name = "HSTB_ACCESS")
  | none => false

/-- CLEAR_STATS (R506): a keyed write. -/
def execClearStats (src : Source) (s : State) : Host.Outcome State Fault Refusal :=
  answer s.up s
    (s.access src Reg.EVT_CLRSTATS 4 fun s => s.keyed src 23 fun s =>
      ({ s with regs := s.regs.filter fun e => !isClearedCounter e.1 } : State).raise 23 17)

/-! ## Temperature (R546 to R548) -/

/-- THERMAL_SAMPLE (R547, Table 14): `temp` in 1/16 °C, signed; `cooled` says that it has been below 97 °C for 1 s,
`tripped` that it has been at 110 °C or more for 100 µs. Throttling does not apply in HOLDUP. -/
def execThermalSample (temp : Half) (cooled tripped : Bool) (s : State) : Host.Outcome State Fault Refusal :=
  answer s.running s
    (let t := s.setFld Reg.PWR_TEMP Reg.PWR_TEMP_.TEMP temp.toNat
     if tripped && decide (110 * 16 ≤ temp.toInt) then t.haltNow 5 0
     else if t.mode = modeHoldup then t
     else if 100 * 16 ≤ temp.toInt then t.reason reasonThermal true
     else if cooled && decide (temp.toInt < 97 * 16) then t.reason reasonThermal false
     else t)

/-- THERMTRIP (R548): outside every island, in every mode and in reset. -/
def execThermtrip (s : State) : Host.Outcome State Fault Refusal :=
  .next { s with pins := { s.pins with thermtripLow := true } }

/-! ## Freeze (R512 to R515) -/

/-- FREEZE_N (R495, R512, R528): while CHIP_RESET_N is low and in the strap face the level waits for the end of that face. -/
def execFreezeN (s : State) : Host.Outcome State Fault Refusal :=
  if s.pins.resetLow || decide (s.pins.face = .strap) then .next { s with pins := { s.pins with freezeLow := true } }
  else answer (!s.pins.frozen) s s.freeze

/-- FREEZE_REQUEST (R512, R529): a keyed write, ignored at debug level CLOSED. -/
def execFreezeRequest (src : Source) (s : State) : Host.Outcome State Fault Refusal :=
  answer s.up s
    (s.access src Reg.FRZ_CTRL 4 fun s => s.keyed src 24 fun s => if s.debugLevel = 0 then s else s.freeze)

/-! ## The TAP (R477, R519, R520) -/

/-- The segments that hold key state (R477): the boot island and the XTS engines; and those whose contents CLOSED and DIAG
leave out (R519): match array, map cache, staging SRAM. -/
def segmentExcluded (level segment : Nat) : Bool :=
  decide (segment = 152 ∨ (169 ≤ segment ∧ segment ≤ 176)) ||
    (decide (level ≠ 2) && decide (181 ≤ segment ∧ segment ≤ 196))

/-- TAP_OPERATION (R477, R520): boundary scan and instruments change no state that the spec names; a chain of a frozen N9
shifts its segment out. -/
def execTapOperation (op : TapOp) (s : State) : Host.Outcome State Fault Refusal :=
  match op with
  | .boundaryScan => .next s
  | .instrumentRead => .next s
  | .instrumentWrite => .next s
  | .stateChain segment =>
    answer (s.pins.frozen && decide (segment < 212)) s (s.emit (.tap segment (segmentExcluded s.debugLevel segment)))

end Sys2Proof.Machine
end

