-- ==== Sys2Proof/Machine/Recovery.lean ====
section
/-! DEFINITION. Start-up recovery (R380 to R388): its ten steps, the class of the stop, what an unclean stop redoes, block
states, resumed and departed carriers (R288), and the end of BOOT with the firmware store (R490). -/

namespace Sys2Proof.Machine

open Sys2Proof

/-! ## Steps 3 to 5 -/

/-- Whether a seated carrier holds a valid record of this N9, and so a root record (R377). -/
def State.hasRoot (s : State) (c : Nat) : Bool :=
  decide (s.carState c = 4) &&
    (match (s.carrier c).record with
     | some r => r.valid && decide (r.owner = s.reg Reg.FUS_SERIAL)
     | none => false)

/-- A first start (R380, step 3): no root record on any carrier. -/
def State.isFirstStart (s : State) : Bool := s.power.firstStart || !((List.range 8).any fun c => s.hasRoot c)

/-- Nothing that the device records would hold is known at a first start. -/
def State.forgetMedia (s : State) : State :=
  let z := State.reset
  { s with
    deferred := [], nss := [], place := z.place, herd := z.herd
    map := { z.map with sealKey := s.map.sealKey }
    media := { s.media with dies := s.media.dies.map fun e =>
      (e.1, { e.2 with stageBlocks := [], stageAt := 0, flushBlocks := [], window := 0, sinceTurn := 0 }) }
    power := { s.power with horizon := 0, session := 0, cleanSession := none, flushBand := [], flushStripes := 0,
                            trims := [], saved := [], firstStart := true }
    boot := { s.boot with store := z.boot.store, history := [] } }

/-- The kind and the block of the last record that a die's flag pair holds (R268, Table 12). -/
def State.lastFlag (s : State) (dk : Nat) : Option (Nat × Nat) :=
  let d := s.dieOf dk
  let n := max 1 d.params.planes
  if d.flagNext = 0 then none
  else
    let at_ := d.flagNext - 1
    ((s.media.pages.look (s.unitAddr dk d.flagActive (at_ / n) (at_ % n))).bind fun p => p.slots[0]?).map fun c =>
      let w := leNat (c.data.take 4)
      (w / 2 ^ 28, w % 2 ^ 24)

/-- The erase-intent scan (R271): a block whose last record is INTENT is erased again in full. -/
def State.scanIntents (s : State) : State :=
  s.media.dies.foldl (fun s e =>
    match s.lastFlag e.1 with
    | some (kind, block) =>
      if kind = 1 ∧ s.dieUsable e.1 then
        s.raiseRecord 9 21 (e.1 / 16) ([BitVec.ofNat 8 (e.1 / 16), BitVec.ofNat 8 (e.1 % 16)] ++ leBytes 4 block)
      else s
    | none => s) s

/-- Whether a seated carrier resumes (R288). -/
def State.resumes (s : State) (c : Nat) : Bool :=
  let x := s.carrier c
  decide (s.carState c = 4) && x.atStop.isSome &&
    (match x.record with
     | some r => r.valid && decide (r.owner = s.reg Reg.FUS_SERIAL ∧ r.slot = c ∧ r.carrierId = s.reg (Reg.CAR_ID c) ∧
         r.epoch = s.reg (Reg.CAR_EPOCH c) ∧ x.dieHash = r.dieHash)
     | none => false)

/-- The device records are loaded (R376): the registers they hold; the carriers that resume are ACTIVE again. -/
def State.loadRecords (s : State) : State :=
  let s := s.power.saved.foldl (fun s e => s.setReg e.1 e.2) s
  (List.range 8).foldl (fun s c => if s.resumes c then s.setCarState c 5 else s) s

/-! ## Step 7: the class of the stop (R381) -/

/-- The journal copies that can be read. -/
def State.journalCopies (s : State) : Nat := min 3 (s.power.journal.filter fun dk => s.dieServes dk).length

/-- Whether the journal says that the last session closed clean. -/
def State.closedClean (s : State) : Bool :=
  decide (s.power.cleanSession = some s.power.session) && decide (1 ≤ s.journalCopies)

/-- Whether every flush stripe can be read: at most two of the band's members are missing. -/
def State.flushReadable (s : State) : Bool :=
  decide (s.power.flushStripes = 0 ∨ (s.power.flushBand.filter fun dk => !s.dieServes dk).length ≤ 2)

/-- The stop is classed: PWR_LASTSTOP and the events of R389. -/
def State.classStop (s : State) : State :=
  let copies := s.journalCopies
  let clean := s.closedClean && s.flushReadable
  let a := Reg.PWR_LASTSTOP
  let s := s.setFld a Reg.PWR_LASTSTOP_.COPIES copies
  let s := s.setFld a Reg.PWR_LASTSTOP_.KIND (if clean then 1 else if 0 < s.power.flushStripes then 2 else 3)
  let s := s.setFld a Reg.PWR_LASTSTOP_.FLUSH_US (if clean then s.power.flushUs % 2 ^ 32 else 0)
  let s := if copies = 0 then s.raiseRecord 18 19 0 [] else s
  let s := if s.closedClean && !s.flushReadable then s.raiseRecord 18 21 0 [] else s
  let s := if clean then s else s.raiseRecord 18 20 0 []
  if s.power.bySense then s.raiseRecord 18 22 0 [] else s

/-- Whether recovery follows an unclean stop. -/
def State.uncleanStop (s : State) : Bool := decide (2 ≤ s.fld Reg.PWR_LASTSTOP Reg.PWR_LASTSTOP_.KIND)

/-! ## Step 8 after an unclean stop (R384 to R386) -/

/-- The stripes of a band that parity resynchronisation examines (R384): the two newest windows, or every stripe. -/
def Band.examined (b : Band) (all : Bool) : Nat := if all then b.next else b.next - 64 * ((b.next - 1) / 64 - 1)

/-- The stripes that parity resynchronisation examines. -/
def State.resyncCount (s : State) : Nat :=
  let all := decide (s.fld Reg.PWR_LASTSTOP Reg.PWR_LASTSTOP_.COPIES = 0)
  ((s.place.bands.filter fun e => decide (e.2.st = .opened)).map fun e => e.2.examined all).sum

/-- Whether what a trimmed block held before its trim can still be read. -/
def State.oldHolds (s : State) (t : TrimNote) (n : Namespace) (b : Nat) : Bool :=
  let lba := 4 * t.unit + b
  match t.stage.filter fun r => r.staged.getLsbD b with
  | some r => (s.readStaged [(r.copyA[b]?).getD 0, (r.copyB[b]?).getD 0] t.nsid lba n.nstag.toNat).isSome
  | none =>
    meV t.entry && !(match t.stage with | some r => r.trimmed.getLsbD b | none => false) &&
      (s.readSlot (meAddr t.entry) b t.nsid lba n.nstag.toNat).isSome

/-- A block of a record as an older record has it. -/
def StageRec.revert (r old : StageRec) (b : Nat) : StageRec :=
  let put (x y : BitVec 4) : BitVec 4 :=
    let one : BitVec 4 := BitVec.ofNat 4 (2 ^ b)
    if y.getLsbD b then x ||| one else x &&& ~~~one
  { r with
    staged := put r.staged old.staged, trimmed := put r.trimmed old.trimmed
    copyA := r.copyA.set b ((old.copyA[b]?).getD 0), copyB := r.copyB.set b ((old.copyB[b]?).getD 0) }

/-- A trimmed block comes back or not, as a free value says. -/
def revertBlock (old : StageRec) (p : StageRec × State) (b : Nat) : StageRec × State :=
  let f := p.2.takeFree
  if f.1.getLsbD 0 then (p.1.revert old b, f.2) else (p.1, f.2)

/-- A trim that no header shows (R386): each block it trimmed, if it is still trimmed and its old data can be read, comes
back or not, which a free value says. -/
def State.revertTrim (s : State) (t : TrimNote) : State :=
  match s.nss.look t.nsid with
  | none => s
  | some n =>
    let cur := s.entryOf n t.unit
    let whole := meT cur
    let r : StageRec := if whole then { StageRec.fresh with trimmed := 0xF } else (s.stageOf t.nsid t.unit).getD StageRec.fresh
    if n.size / 4 ≤ t.unit ∨ (!whole ∧ (meV cur ≠ meV t.entry ∨ meAddr cur ≠ meAddr t.entry)) then s
    else
      let back := t.blocks.filter fun b => r.trimmed.getLsbD b && s.oldHolds t n b
      let p := back.foldl (revertBlock (t.stage.getD StageRec.fresh)) (r, s)
      if p.1 = r then p.2
      else
        let marked := decide (p.1.staged ≠ 0 ∨ p.1.trimmed ≠ 0)
        let s := p.2.mapSet n t.unit (mkEntry false false marked (meV t.entry) (meAddr t.entry))
        if marked then s.setStage t.nsid t.unit p.1 else s.unstage t.nsid t.unit

/-- The herd jobs of blocks that header replay or staging replay meets (R340): every unit of a herd namespace homed here that
is staged or whose page-plane was programmed at or after H. -/
def State.replayJobs (s : State) : State :=
  s.nss.foldl (fun s e =>
    if e.2.kind ≠ .herdNs ∨ e.2.holding then s
    else
      let fresh (u : Nat) : Bool :=
        (s.stageOf e.1 u).isSome ||
          (let m := s.entryOf e.2 u
           meV m && (match s.media.pages.look (meAddr m) with
             | some p => decide ((p.wseq - s.power.horizon).toNat < 2 ^ 63)
             | none => false))
      ((List.range (e.2.size / 4)).filter fresh).foldl (fun s u => s.createJobs e.1 (4 * u) 4) s) s

/-- A gather stripe that was drained is installed. -/
def installIf (s : State) (e : Nat × Gather) : State := if e.2.placed.isEmpty then s else s.installGather e.2

/-- What an unclean stop redoes (R384 to R386): no gather stripe survives, and a stripe drained but not installed is found
by its headers; of the trims after H each block's fate is open. -/
def State.replay (s : State) : State :=
  let s := s.setFld Reg.PWR_LASTSTOP Reg.PWR_LASTSTOP_.RESYNC (min (2 ^ 26 - 1) s.resyncCount)
  let s := s.place.gathers.foldl installIf s
  let s : State := { s with place := { s.place with gathers := [], copies := [] } }
  let s := s.power.trims.reverse.foldl State.revertTrim s
  ({ s with power := { s.power with trims := [] } } : State).replayJobs

/-! ## Step 9: block states, bands, carriers, stamps (R274, R288, R384, R505) -/

/-- The state that a block of a resumed carrier takes (R274). -/
def State.startState (s : State) (dk block : Nat) : BlockEntry :=
  let d := s.dieOf dk
  if block = d.flagActive ∨ block = d.flagOther then { st := .flag, next := 0 }
  else if s.place.retired.contains (blockKey dk block) then { st := .retired, next := 0 }
  else if s.inBand dk block || s.stageNames dk block then { st := .written, next := 0 }
  else { st := .needsErase, next := 0 }

/-- No block found OPEN is programmed again: every OPEN band closes (R274, R384). -/
def State.closeOpenBands (s : State) : State :=
  s.place.bands.foldl (fun s e => if e.2.st = .opened then s.closeBand e.1 else s) s

/-- The highest stamp found on the medium and in the device records (R505). -/
def State.highestStamp (s : State) : Nat :=
  let l := (s.media.pages.map fun e => e.2.wseq.toNat) ++ (s.place.lost.map fun e => e.2.seq.toNat) ++
    (s.deferred.flatMap fun e => [e.2.raisedSeq.toNat, e.2.closedSeq.toNat]) ++
    (s.place.bands.map fun e => e.2.openWseq.toNat) ++ (s.boot.history.map fun h => h.seq.toNat)
  l.foldl max s.power.horizon.toNat

/-- A slot whose carrier was in service at the last stop and does not resume departs (R288): E_d is its newest programmed
EPOCH, and the media epoch advances; the records that carry it follow in step 10 (R388). -/
def State.departAtStart (s : State) (c : Nat) : State :=
  match (s.carrier c).atStop with
  | none => s
  | some d =>
    if s.carState c = 5 then s
    else
      let s := s.setCarrier c { s.carrier c with departure := some d }
      let s := (s.failMembers fun dk => decide (dieCarrier dk = c)).dropStaged c
      s.setReg Reg.CAR_MEDIAEPOCH (s.mediaEpoch + 1)

/-- A carrier that does not resume is reconciled. -/
def settleOne (s : State) (c : Nat) : State :=
  let s := if s.carState c = 4 then s.beginReconcile c else s
  s.setCarrier c { s.carrier c with atStop := none }

/-- Carriers at the start (R288): departures first, then reconciliation of what does not resume. -/
def State.settleCarriers (s : State) : State :=
  let s := (List.range 8).foldl (fun s c => s.departAtStart c) s
  (List.range 8).foldl settleOne s

/-- Step 9 of recovery. -/
def State.restoreState (s : State) : State :=
  let s := s.closeOpenBands
  let s := ((List.range 8).filter fun c => decide (s.carState c = 5)).foldl (fun s c =>
    (s.carrierUsable c).foldl (fun s dk => s.setBlocks dk fun b => s.startState dk b) s) s
  let s := s.settleCarriers.reapDeposed
  s.setReg Reg.MOD_DSEQ (BitVec.ofNat 64 (2 ^ 24 + s.highestStamp))

/-! ## Step 10 (R380, R490, R494) -/

/-- Whether a register of the media epoch is newer than the record on an ACTIVE carrier (R280). -/
def State.renewRecords (s : State) : State :=
  (List.range 8).foldl (fun s c =>
    if s.carState c = 5 ∧ s.reg (Reg.CAR_EPOCH c) ≠ s.mediaEpoch then s.writeRecord c 0 else s) s

/-- The flush reserve is erased, and the dies of the carriers in service take their shares (R370, R380). -/
def State.readyDies (s : State) : State :=
  ((List.range 8).filter fun c => decide (s.carState c = 5)).foldl (fun s c =>
    (s.carrierUsable c).foldl (fun s dk =>
      let s := (s.dieOf dk).flushBlocks.foldl (fun s b => s.eraseNow dk b true) s
      s.settleAreas dk) s) s

/-- After an unclean stop each staged unit joins a new gather stripe (R385). -/
def State.rejoin (s : State) : State :=
  s.place.index.foldl (fun s e =>
    let nsid := e.1 / 2 ^ 48
    match s.nss.look nsid with
    | some n => s.joinUnit nsid n (e.1 % 2 ^ 48)
    | none => s) s

/-- Every reason follows its condition (R496). -/
def State.followAll (s : State) : State :=
  let old : State := { s with power := { s.power with journal := [] } }
  ((({ s with power := { s.power with journal := [] } } : State).mediaChanged old).recompute.followHerd).followPeerPorts

/-- The booted slot's CSEQ. -/
def State.bootedCseq (s : State) : DWord :=
  match (if s.fld Reg.BOT_STATUS Reg.BOT_STATUS_.SLOT = 0 then s.boot.norA else s.boot.norB) with
  | some x => x.cseq
  | none => 0

/-- The booted image against the firmware store (R490): a first start, or a NOR written from outside, commits it. -/
def State.compareStore (s : State) : State :=
  match s.boot.booted with
  | none => s
  | some img =>
    let x := s.boot.store
    if (x.committed.isNone ∨ seqAfter s.bootedCseq x.norCseq) ∧ s.sysDies.isSome then
      let y : FwStore := { copies := x.copies.set x.spare (some img), committed := some img, commitSeq := x.commitSeq + 1
                           norCseq := s.bootedCseq }
      let t : State := { s with boot := { s.boot with store := y } }
      if x.committed.isNone then t else t.raise 22 22
    else s

/-- Whether the store is ahead of the NOR, so that a boot castling follows (R490). -/
def State.storeAhead (s : State) : Bool :=
  match s.boot.booted, s.boot.store.committed with
  | some a, some b => decide (a.manifest ≠ b.manifest)
  | _, _ => false

/-- Step 10 of recovery: a new session; BOOT is left unless a boot castling follows. -/
def State.startSession (s : State) : State :=
  let s : State := { s with power := { s.power with
    session := s.power.session + 1, firstStart := false, cleanSession := none, flushUs := 0, flushStripes := 0
    flushBand := [], bySense := false, recStep := 10 } }
  let s := s.renewRecords
  let s := if s.uncleanStop then s.rejoin else s
  let s := s.readyDies.followAll.compareStore
  if s.storeAhead then s else s.leaveBoot

/-! ## The command -/

/-- Whether recovery runs: BOOT, with the cores started by the loader (R380). -/
def State.recovering (s : State) : Bool :=
  s.running && decide (s.mode = modeBoot) && s.boot.running.isSome

/-- Recovery has ended a step. -/
def State.atStep (s : State) (n : Nat) : State := { s with power := { s.power with recStep := n } }

/-- Whether the step after the one last ended can end now (R380, Table 8): PWR_FAIL_N high with the bank full, then the
discovery of every slot done. -/
def State.mayRecover (s : State) : Bool :=
  match s.power.recStep with
  | 0 => !s.power.pwrFailLow && decide (s.fld Reg.PWR_BANK Reg.PWR_BANK_.FULL_MJ ≤ s.fld Reg.PWR_ENERGY Reg.PWR_ENERGY_.AVAIL_MJ)
  | 1 => (List.range 8).all fun c => decide (s.carState c ≠ 2 ∧ s.carState c ≠ 3)
  | n => decide (n < 10)

/-- Every slot is discovered: CARPWREN is high in the boot face (R288, R525). -/
def State.startDiscovery (s : State) : State :=
  (List.range 8).foldl (fun s c => (s.setFld (Reg.CAR_STATE c) Reg.CAR_STATE_.POWER 1).setCarState c 3) s

/-- What the step after the one last ended does. -/
def State.recover (s : State) : State :=
  match s.power.recStep with
  | 0 => s.startDiscovery.atStep 1
  | 1 => s.atStep 2
  | 2 => if s.isFirstStart then s.forgetMedia.atStep 8 else s.atStep 3
  | 3 => s.scanIntents.atStep 4
  | 4 => s.loadRecords.atStep 5
  | 5 => s.atStep 6
  | 6 => s.classStop.atStep 7
  | 7 => (if s.uncleanStop then s.replay else s).atStep 8
  | 8 => s.restoreState.atStep 9
  | _ => s.startSession

/-- RECOVERY_STEP (R380 to R388). -/
def execRecoveryStep (s : State) : Host.Outcome State Fault Refusal :=
  answer (s.recovering && s.mayRecover) s s.recover

end Sys2Proof.Machine
end

