-- ==== Sys2Proof/Machine/Sdram.lean ====
section
/-! DEFINITION. The SDRAM controller: refresh, page closing, patrol, correction, training commands, channel loss
(R424 to R440). The address mapping and the banks stand in Machine/Banks.lean. -/

namespace Sys2Proof.Machine

open Sys2Proof

/-- The island of an SDRAM channel (R424). -/
def sdramIsland (ch : Nat) : Nat := 128 + ch

/-- The partner of a channel in its mirror pair (R429). -/
def sdramPartner (ch : Nat) : Nat := (ch + 6) % 12

/-- The mode of a channel (R440, Table 9): 0 OFF, 1 TRAIN, 2 SERVE. -/
def State.sdcMode (s : State) (ch : Nat) : Nat := s.fld (Reg.SDC_STATE ch) Reg.SDC_STATE_.MODE

/-- Whether a channel works in a mode of a list. -/
def State.sdcIn (s : State) (ch : Nat) (modes : List Nat) : Bool :=
  decide (ch < 12) && !s.sdcFailed ch && modes.contains (s.sdcMode ch)

/-- The refresh interval follows MR4 and HOT_FORCE (R434): HOT shows the 1.95 µs interval and is raised on entry. -/
def State.followHot (s : State) (ch : Nat) : State :=
  let hot := (s.sdramOf ch).hot || decide (s.fld Reg.SDC_REFRESH Reg.SDC_REFRESH_.HOT_FORCE = 1)
  let was := s.fld (Reg.SDC_STATE ch) Reg.SDC_STATE_.HOT
  let s := if hot && decide (was = 0) then s.raise 17 20 else s
  s.setFld (Reg.SDC_STATE ch) Reg.SDC_STATE_.HOT (if hot then 1 else 0)

/-- HOT_FORCE applies to every channel that is refreshed (R434). -/
def State.followHotForce (s : State) : State :=
  (List.range 12).foldl (fun s ch => if s.sdcIn ch [1, 2] then s.followHot ch else s) s

/-- REFRESH_TICK (R434): REFab to both ranks and both sub-channels. -/
def execRefreshTick (ch : Nat) (s : State) : Host.Outcome State Fault Refusal :=
  answer (s.running && s.sdcIn ch [1, 2]) s (s.emit (.refresh ch))

/-- MR4_POLL (R434): each millisecond; it also ends the 1 ms in which uncorrectable codewords are counted (R439). -/
def execMr4Poll (ch : Nat) (hot : Bool) (s : State) : Host.Outcome State Fault Refusal :=
  answer (s.running && s.sdcIn ch [1, 2]) s
    (let x := s.sdramOf ch
     (s.setSdram ch { x with hot := hot, polls := x.polls + 1, uncorrRun := 0 }).followHot ch)

/-- ROW_IDLE_CLOSE (R433). -/
def execRowIdleClose (ch bank : Nat) (s : State) : Host.Outcome State Fault Refusal :=
  let x := s.sdramOf ch
  let b := x.bank bank
  answer (s.running && s.sdcIn ch [2] && b.isOpen) s
    (s.setSdram ch { x with banks := x.banks.put bank { b with isOpen := false } })

/-- Firmware buffers of pools 2 and 3 are lost with a channel: they are free again (R439, Table 4, step 3). -/
def State.loseBuffers (s : State) : State :=
  let s : State := { s with pools := { s.pools with bufs := s.pools.bufs.filter fun b => decide (b.pool < 2) } }
  (s.followPool 2).followPool 3

/-- A channel fails (R439, Table 4; R438), which also discards the firmware staging area (R482). Training that failed after three attempts is the failure of a channel in TRAIN
(R437). -/
def State.failSdram (s : State) (ch : Nat) : State :=
  let training := decide (s.sdcMode ch = 1)
  let s := if training then s.raise 17 21 else s
  if s.sdcFailed (sdramPartner ch) then
    (s.setFld (Reg.SDC_STATE ch) Reg.SDC_STATE_.FAILED 1).haltNow 1 (sdramIsland ch)
  else
    let s := s.remapPlain ch
    let s := s.setFld (Reg.SDC_STATE ch) Reg.SDC_STATE_.FAILED 1
    let s := if s.mode = modeBoot then s else s.isolate (sdramIsland ch)
    let s := (s.raise 17 19).recordFault 17 ch 5 [BitVec.ofNat 8 ch]
    let s : State := { s with map := { s.map with detour := s.map.detour || decide (s.mirrorM ≠ 0) } }
    s.discardStaging.loseBuffers.reason reasonMemory true

/-- A device is marked failed (R427): a single fault, corrected in place. -/
def State.markDevice (s : State) (ch rank device : Nat) : State :=
  let a := Reg.SDC_STATE ch
  let s := s.setFld a Reg.SDC_STATE_.DEV_VALID 1
  let s := (s.setFld a Reg.SDC_STATE_.DEV_RANK rank).setFld a Reg.SDC_STATE_.DEV device
  let s := (s.raise 17 18).recordFault 17 ch 4 [BitVec.ofNat 8 ch, BitVec.ofNat 8 device, BitVec.ofNat 8 rank]
  s.reason reasonMemory true

/-- Whether the device that is marked failed is another one that shares codewords with a device (R426, R427). -/
def State.besideFailed (s : State) (ch rank device : Nat) : Bool :=
  let a := Reg.SDC_STATE ch
  let d := s.fld a Reg.SDC_STATE_.DEV
  decide (s.fld a Reg.SDC_STATE_.DEV_VALID = 1 ∧ s.fld a Reg.SDC_STATE_.DEV_RANK = rank ∧ d ≠ device) &&
    (decide (s.sdramCol = 6) || decide (d / 10 = device / 10))

/-- A correctable error of a device (R427): counted, and the device marked failed when its corrections within one second
reach SPARE_THRESH. -/
def State.corrected (s : State) (ch rank device : Nat) : State :=
  let s := (s.count (Reg.SDC_CORR ch) 1).raise 17 16
  let x := s.sdramOf ch
  let k := rank * 32 + device
  let seen := x.polls :: ((x.deviceErrs.look k).getD []).filter fun t => decide (x.polls < t + 1000)
  let s := s.setSdram ch { x with deviceErrs := x.deviceErrs.put k seen }
  if s.fld (Reg.SDC_STATE ch) Reg.SDC_STATE_.DEV_VALID = 0 ∧
      max 1 (s.fld Reg.SDC_ECCCTRL Reg.SDC_ECCCTRL_.SPARE_THRESH) ≤ seen.length then s.markDevice ch rank device
  else s

/-- An uncorrectable codeword (R427, R438, R439): in the mirror zone the other copy is served and the bad one rewritten,
unless the partner has failed; the sixteenth within one millisecond fails the channel. -/
def State.uncorrectable (s : State) (ch : Nat) (mirror : Bool) : State :=
  let s := (s.count (Reg.SDC_UNCORR ch) 1).raise 17 17
  let x := s.sdramOf ch
  let s := s.setSdram ch { x with uncorrRun := x.uncorrRun + 1 }
  if mirror && s.sdcFailed (sdramPartner ch) then s.haltNow 1 (sdramIsland ch)
  else if 16 ≤ x.uncorrRun + 1 then s.failSdram ch
  else s

/-- PATROL_SCRUB (R427, R428): the next codeword is read; SCRUB_H 0 stops the patrol. -/
def execPatrolScrub (ch : Nat) (result : ScrubResult) (s : State) : Host.Outcome State Fault Refusal :=
  answer (s.running && s.sdcIn ch [2] && decide (s.fld Reg.SDC_ECCCTRL Reg.SDC_ECCCTRL_.SCRUB_H ≠ 0)) s
    (let x := s.sdramOf ch
     let s := s.setSdram ch { x with patrolAt := (x.patrolAt + 1) % (s.sdramSize / 16) }
     match result with
     | .clean => s
     | .corrected rank device =>
       let r := rank % 2
       let d := device % 20
       if s.besideFailed ch r d then s.uncorrectable ch false else s.corrected ch r d
     | .uncorrectable mirror => s.uncorrectable ch mirror)

/-- SDRAM_CHANNEL_FAILURE (R437 to R439). -/
def execSdramChannelFailure (ch : Nat) (s : State) : Host.Outcome State Fault Refusal :=
  answer (s.running && decide (ch < 12) && !s.sdcFailed ch) s (s.failSdram ch)

/-- SDRAM_LOSS_CLEANUP (R439, Table 4, step 5): every clean plain-region page is FLASH. -/
def execSdramLossCleanup (s : State) : Host.Outcome State Fault Refusal :=
  answer (s.up && s.map.detour) s
    { s with map := { s.map with
        detour := false
        dir := s.map.dir.map fun e =>
          if e.2.loc = .sdram ∧ e.2.img ∧ !e.2.dirty then (e.1, e.2.toFlash) else e } }

/-- WRITE_LEVEL_TRACK (R437): firmware corrects the write leveling of a device in SERVE; a move of more than two steps is
ignored. -/
def execWriteLevelTrack (ch device rank : Nat) (delay : BitVec 12) (s : State) : Host.Outcome State Fault Refusal :=
  let a := Reg.SDC_DQS ch device
  let f := if rank = 0 then Reg.SDC_DQS_.WL_R0 else Reg.SDC_DQS_.WL_R1
  let old := s.fld a f
  answer (s.running && s.sdcIn ch [2] && decide (device < 20 ∧ rank < 2)) s
    (if old + 2 < delay.toNat ∨ delay.toNat + 2 < old then s.raise 17 22 else s.setFld a f delay.toNat)

/-- What a channel holds is zeroed at initialisation (R428). -/
def State.initSdram (s : State) (ch : Nat) : State :=
  let mine (a : Nat) : Bool :=
    decide (sdramBase ≤ a) && s.inSdram a 1 && (s.sdramPlaces (a - sdramBase) true).any fun p => decide (p.1 = ch)
  { s with ram := s.ram.filter fun c => !mine c.1 && !(decide (2 ^ 64 ≤ c.1) && mine (c.1 - 2 ^ 64)) }

/-- SDC_MODE_WRITE (R437, R440, Table 9): keyed, in BOOT alone; 0b11 is taken as OFF. -/
def execSdcModeWrite (src : Source) (ch : Nat) (mode : BitVec 2) (s : State) : Host.Outcome State Fault Refusal :=
  answer (s.up && decide (ch < 12)) s
    (s.access src (Reg.SDC_CTRL ch) 4 fun s => s.keyed src 17 fun s =>
      if s.mode ≠ modeBoot then s.raise 17 22
      else
        let was := s.sdcMode ch
        let now := if mode = 3 then 0 else mode.toNat
        let s := s.setFld (Reg.SDC_CTRL ch) Reg.SDC_CTRL_.MODE mode.toNat
        let s := if now = 2 ∧ was ≠ 2 then s.initSdram ch else s
        s.setFld (Reg.SDC_STATE ch) Reg.SDC_STATE_.MODE now)

/-! ## Training commands (R437, Table 10) -/

/-- A write of SDC_TCMD with an operation: accepted in TRAIN alone; the command is issued, and DONE follows its result. -/
def State.trainCmd (s : State) (src : Source) (ch op : Nat) (operand : Half) (result : State → State) : State :=
  s.access src (Reg.SDC_TCMD ch) 8 fun s =>
    if !s.sdcIn ch [1] then s
    else (result (s.emit (.training ch op operand))).setFld (Reg.SDC_TRESHI ch) Reg.SDC_TRESHI_.DONE 1

/-- The DQ bits of the sub-channels that SUB selects (R436, Table 11). -/
def dqOf (sub : BitVec 2) : BitVec 80 :=
  (if sub.getLsbD 0 then BitVec.ofNat 80 (2 ^ 40 - 1) else 0) |||
    (if sub.getLsbD 1 then BitVec.ofNat 80 ((2 ^ 40 - 1) * 2 ^ 40) else 0)

/-- TCMD_MRW: mode registers are the devices' own. -/
def execTcmdMrw (src : Source) (ch : Nat) (_sub : BitVec 2) (_rank : Bool) (operand : Half) (s : State) :
    Host.Outcome State Fault Refusal :=
  answer (s.up && decide (ch < 12)) s (s.trainCmd src ch 1 operand fun s => s)

/-- TCMD_MRR: `data` is what the device gives. -/
def execTcmdMrr (src : Source) (ch : Nat) (_sub : BitVec 2) (_rank : Bool) (operand : Half) (data : Byte) (s : State) :
    Host.Outcome State Fault Refusal :=
  answer (s.up && decide (ch < 12)) s
    (s.trainCmd src ch 2 operand fun s => s.setFld (Reg.SDC_TRESHI ch) Reg.SDC_TRESHI_.MRR data.toNat)

/-- TCMD_MPC. -/
def execTcmdMpc (src : Source) (ch : Nat) (_sub : BitVec 2) (_rank : Bool) (operand : Half) (s : State) :
    Host.Outcome State Fault Refusal :=
  answer (s.up && decide (ch < 12)) s (s.trainCmd src ch 3 operand fun s => s)

/-- TCMD_PATTERN_WRITE. -/
def execTcmdPatternWrite (src : Source) (ch : Nat) (_sub : BitVec 2) (_rank : Bool) (operand : Half) (s : State) :
    Host.Outcome State Fault Refusal :=
  answer (s.up && decide (ch < 12)) s (s.trainCmd src ch 4 operand fun s => s)

/-- TCMD_PATTERN_COMPARE: `fails` are the DQ bits that differ; those of a sub-channel not selected are not compared. -/
def execTcmdPatternCompare (src : Source) (ch : Nat) (sub : BitVec 2) (_rank : Bool) (operand : Half) (fails : BitVec 80)
    (s : State) : Host.Outcome State Fault Refusal :=
  answer (s.up && decide (ch < 12)) s
    (s.trainCmd src ch 5 operand fun s =>
      let f := fails &&& dqOf sub
      (s.setFld (Reg.SDC_TRES ch) Reg.SDC_TRES_.FAIL_LO (f.toNat % 2 ^ 64)).setFld (Reg.SDC_TRESHI ch)
        Reg.SDC_TRESHI_.FAIL_HI (f.toNat / 2 ^ 64))

end Sys2Proof.Machine
end

