-- ==== Sys2Proof/Machine/Views.lean ====
section
/-! DEFINITION. What a register read returns (R38 to R48, R55, R60): stored values, levels computed from the state, the
Catalogue (R449), the function header (R450), the MSI-X tables (R446); and REGISTER_WRITE with what follows it. -/

namespace Sys2Proof.Machine

open Sys2Proof

/-! ## The Catalogue and the function header (R449, R450) -/

/-- How many dies of each channel are usable. -/
def State.usableCounts (s : State) : List Nat :=
  (List.range 128).map fun ch => ((List.range 16).filter fun d => (s.reg (Reg.CHN_DIEMAP ch)).getLsbD (32 + d)).length

/-- The SDRAM channels in service. -/
def State.sdramChannels (s : State) : Nat := ((List.range 12).filter fun ch => s.sdramServes ch).length

/-- The SIZE1 and SIZE2 fields of a block's unit entry (R449, Table 7). -/
def State.unitSizes (s : State) (w : Nat) : Nat × Nat :=
  match w with
  | 5 => (64 * 2 ^ 20, s.scratchWays * 2 ^ 22)
  | 7 => (8 * 16 * 2 ^ 20, 0)
  | 9 => ((s.usableCounts.filter fun n => decide (n ≠ 0)).length, s.usableCounts.sum)
  | 10 => (8, ((List.range 8).filter fun c => decide (s.carState c = 5)).length)
  | 15 => (131072, 0)
  | 16 => (256, 16)
  | 17 => (s.sdramChannels, 0)
  | _ => (0, 0)

/-- A unit entry (R449, Table 6). -/
def unitEntry (unit instances window layout : Nat) (versions : List Nat) (size1 size2 : Nat) : List Byte :=
  leBytes 2 unit ++ leBytes 2 instances ++ leBytes 2 window ++ leBytes 2 layout ++
    padTo 8 (versions.flatMap fun v => leBytes 2 v) ++ leBytes 8 size1 ++ leBytes 8 size2

/-- The interface units of Table 7: unit, versions and sizes. How many are built no rule states (log entry 1). -/
def interfaceUnits : List (List Byte) :=
  [ unitEntry 1 (Config.interfaceCount 1).toNat 0xFFFF 0 [0x0301, 0x0300, 0x0204] 65536 (8192 + 8192 * 2 ^ 32),
    unitEntry 2 (Config.interfaceCount 2).toNat 0xFFFF 0 [0x0102] 0 0,
    unitEntry 3 (Config.interfaceCount 3).toNat 0xFFFF 0 [0x0103, 0x0102, 0x0101, 0x0100] 4 8192,
    unitEntry 4 (Config.interfaceCount 4).toNat 0xFFFF 0 [0x0101, 0x0100] (2 ^ 40) 64,
    unitEntry 5 (Config.interfaceCount 5).toNat 0xFFFF 0 [0x0400] 0 0,
    unitEntry 6 (Config.interfaceCount 6).toNat 0xFFFF 0 [0x0200] 0 0 ]

/-- The bytes of a Catalogue copy (R449, Tables 5 to 7): its PORT byte tells the copies apart. -/
def State.catalogue (s : State) (port : Nat) : List Byte :=
  leBytes 4 0x43415439 ++ leBytes 2 1 ++ leBytes 2 32 ++ leBytes 4 1088 ++ leBytes 4 s.hosts.gen.toNat ++
    leBytes 8 (s.reg Reg.FUS_SERIAL).toNat ++ leBytes 2 0x1F3C ++ leBytes 2 0x9128 ++ leBytes 1 0xA2 ++ leBytes 1 port ++
    leBytes 2 0 ++ leBytes 8 sdramBase ++ leBytes 8 scratchBase ++ leBytes 8 (s.sdramChannels * s.sdramSize) ++
    leBytes 8 0 ++ interfaceUnits.flatten ++
    (List.range 26).flatMap fun i =>
      let z := s.unitSizes (i + 1)
      unitEntry (0x101 + i) (instancesOf (i + 1)) (i + 1) 0x10 [] z.1 z.2

/-- The bytes of a function header (R450, Table 8). -/
def State.fnHeader (s : State) (f : Fn) : List Byte :=
  leBytes 4 0x46554E39 ++ leBytes 2 1 ++ leBytes 2 (f.idx + f.port.num * 32768) ++ leBytes 2 0x1F3C ++
    leBytes 2 (if f.idx = 0 then 0x9128 else 0x9129) ++ leBytes 1 0xA2 ++ leBytes 1 s.mode ++
    leBytes 2 (if f.idx = 0 then 2048 else 64) ++ leBytes 8 (s.reg Reg.FUS_SERIAL).toNat ++ leBytes 2 0x0301 ++
    leBytes 2 0x0300 ++ leBytes 2 0x0204 ++ leBytes 2 8192 ++ leBytes 2 (s.maxSq f.key) ++ leBytes 2 (s.maxCq f.key)

/-- `n` bytes of a list from an offset, as a little-endian word; zeros beyond its end. -/
def wordAt (l : List Byte) (off n : Nat) : DWord := BitVec.ofNat 64 (leNat ((l.drop off).take n))

/-! ## Levels and other computed registers -/

/-- Fields packed into a word: values with their lowest bits. -/
def packed (l : List (Nat × Nat)) : DWord := BitVec.ofNat 64 (l.map fun e => e.1 * 2 ^ e.2).sum

/-- The good main-area blocks of a die: not retired, no flag block, not staging (RCL_DIEINFO.MEAN_EC). -/
def State.mainWear (s : State) (dk : Nat) : Nat :=
  meanOf ((s.media.blocks.filter fun e =>
    decide (e.1 / 2 ^ 25 = dk ∧ e.2.st ≠ .retired ∧ e.2.st ≠ .flag) &&
      !(s.dieOf dk).stageBlocks.contains (e.1 % 2 ^ 25)).map fun e => (s.place.wears.look e.1).getD 0)

/-- RCL_DIEINFO of the die that RCL_DIESEL names. -/
def State.dieInfo (s : State) : DWord :=
  let dk := s.fld Reg.RCL_DIESEL Reg.RCL_DIESEL_.DIE
  let d := s.dieOf dk
  packed [(s.mainWear dk, 40), (d.window, 16), (s.fld Reg.RCL_WEAR Reg.RCL_WEAR_.TURN - d.sinceTurn, 0)]

/-- STG_CARSTAT of a carrier: erased staging blocks, and those with a codeword that a staging record names. -/
def State.carStage (s : State) (c : Nat) : DWord :=
  let blocks := (carrierDies c).flatMap fun dk => (s.dieOf dk).stageBlocks.map fun b => (dk, b)
  packed [((blocks.filter fun e => decide ((s.blockOf e.1 e.2).st = .erased)).length, 32),
    ((blocks.filter fun e => s.stageNames e.1 e.2).length, 0)]

/-- CHN_QFILL of a channel. -/
def State.queueFill (s : State) (ch : Nat) : DWord :=
  packed ((List.range 4).map fun q =>
    (((s.chanOf ch).queue.filter fun d => decide (d.queue = q)).length, 16 * q))

/-- CAR_LEFT of a carrier: what is still to evacuate, or the members still to check in delta reconciliation. -/
def State.carLeft (s : State) (c : Nat) : Nat :=
  if s.carState c = 6 then s.evacLeft c
  else if s.carState c = 4 ∧ (s.carrier c).delta = true then
    (s.place.bands.map fun e => (e.2.failed.filter fun m =>
      match e.2.members[m]? with
      | some x => decide (carrierOf x.ch = c)
      | none => false).length).sum
  else 0

/-- BPM_POOLSTAT of a pool. -/
def State.poolStat (s : State) (p : Nat) : DWord :=
  packed [(s.poolCount p, 48), (s.poolFree p, 32), (s.poolCount p - (s.pools.used.look p).getD 0, 16),
    (min 65535 (s.pools.waits.filter fun w => decide (w.pool = p)).length, 0)]

/-- The word of an answer to an allocation; 0 while there is none. -/
def allocBits : Option AllocResp → DWord
  | none => 0
  | some .pending => packed [(1, 62)]
  | some (.granted p a) => packed [(2, 62), (p, 60), (a, 0)]
  | some .refused => packed [(3, 62)]

/-- BPM_ALLOCRESP as a source reads it. -/
def State.allocWord (s : State) (src : Source) : DWord :=
  allocBits ((s.pools.resp.find? (fun e => decide (e.1 = src))).map (fun e => e.2))

/-- The word of an answer of the match array; 0 while there is none. -/
def matBits : Option MatResp → DWord
  | none => 0
  | some .busy => packed [(1, 62)]
  | some (.done hit a) => packed [(2, 62), (if hit then 1 else 0, 48), (a, 0)]
  | some (.refused r) => packed [(3, 62), (r, 58)]

/-- MAT_RESP as a source reads it. -/
def State.matWord (s : State) (src : Source) : DWord :=
  matBits ((s.mat.resp.find? (fun e => decide (e.1 = src))).map (fun e => e.2))

/-- FCE_FACE: the face, and the levels driven on CARPWREN: all high in the boot face, as carriers are powered in the slot
face (R522 to R525). -/
def State.faceWord (s : State) : DWord :=
  match s.pins.face with
  | .strap => 0
  | .boot => packed [(1, 30), (0xFF, 0)]
  | .slot => packed [(2, 30), (((List.range 8).map fun c => s.fld (Reg.CAR_STATE c) Reg.CAR_STATE_.POWER * 2 ^ c).sum, 0)]
  | .freeze => packed [(3, 30)]

/-- The target stripes still to sweep, over every namespace homed (HRD_SWEEPLEFT). -/
def State.sweepLeft (s : State) : Nat :=
  (s.herd.homed.map fun e =>
    match s.nss.look e.1 with
    | some n =>
      if e.2.sweeping then
        ceilDiv (n.herdUnits - e.2.boundary) (max 1 e.2.target.k) - e.2.ahead.length
      else 0
    | none => 0).sum

/-- HRD_VERSION: the herd version, and the lowest version among the UP links. -/
def State.versionWord (s : State) : DWord :=
  let up := (s.herd.links.filter fun e => decide (e.2.st = .up)).map fun e => e.2.version
  let low := match up with | [] => 0 | v :: vs => vs.foldl min v
  packed [(if s.joined then s.herdVersion else 0x0100, 16), (low, 0)]

/-- A word of HASH[k] of the fuse row. -/
def State.hashWord (s : State) (k j : Nat) : DWord := BitVec.ofNat 64 (fuseHash s.boot.fuses k / 2 ^ (32 * j) % 2 ^ 32)

/-- The pips that a class has reserved (BPM_USED). -/
def State.usedWord (s : State) (cls : Nat) : DWord :=
  let u := s.pipsUsed cls
  packed [(u.1, Reg.BPM_QUOTA_.CMD.lo), (u.2.2, Reg.BPM_QUOTA_.SDRAM.lo), (u.2.1, Reg.BPM_QUOTA_.SRAM.lo)]

/-- RCL_CAPSTAT: SPARE and FENCED beside the state. -/
def State.capWord (s : State) : DWord :=
  packed [(s.spare, 32), ((s.nss.filter fun e => decide (e.2.fence ≠ 0)).length, 16),
    (s.fld Reg.RCL_CAPSTAT Reg.RCL_CAPSTAT_.STATE, 0)]

/-- HST_TAGS of a port. -/
def State.tagWord (s : State) (p : Port) : DWord :=
  let ts := (s.portOf p).tags
  packed [((ts.filter fun t => t.quarantined).length, 16), ((ts.filter fun t => !t.quarantined).length, 0)]

/-- The value of a register as a source reads it. -/
def State.view (s : State) (src : Source) (row : RegRow) (i : Nat) : DWord :=
  let base := row.base + i * row.stride
  let n (x : Nat) : DWord := BitVec.ofNat 64 x
  let pages (f : DirEntry → Bool) : DWord := n (s.map.dir.filter fun e => f e.2).length
  match row.name with
  | "HDR_STAT" | "HSTB_STAT" | "EVT_FSTAT" => (s.statOf base).value
  | "HDR_ID" => packed [(instancesOf (i + 1), 20), (i + 1, 14), (0x10, 0)]
  | "HSTB_ID" => packed [(instancesOf 1, 20), (1, 14), (0x10, 0)]
  | "HDR_ACCESS" => s.reg base ||| packed [(if s.isArmed src (i + 1) then 1 else 0, 31)]
  | "HSTB_ACCESS" => s.reg base ||| packed [(if s.isArmed src 1 then 1 else 0, 31)]
  | "HST_TAGS" => s.tagWord (Port.ofNum i)
  | "ORD_LIVE" => n s.cmds.locks.length
  | "ORD_DEFOPEN" => n s.openDeferred
  | "MAP_DIRTY" => pages fun d => d.dirty
  | "MAP_HELD" => pages fun d => decide (d.loc = .host ∧ d.port = Port.ofNum i)
  | "PLC_REBUILDLEFT" => n s.rebuildLeft
  | "STG_INDEX" => n s.place.index.length
  | "STG_GATHER" => n s.place.gathers.length
  | "STG_CARSTAT" => s.carStage i
  | "RCL_CAPSTAT" => s.capWord
  | "RCL_CAPACITY" => n s.capacity
  | "RCL_COMMITTED" => n s.committed
  | "RCL_DIEINFO" => s.dieInfo
  | "CHN_QFILL" => s.queueFill i
  | "CAR_LEFT" => n (s.carLeft i)
  | "XTS_KEYS" => n (s.nss.filter fun e => e.2.keyLoaded.isSome).length
  | "PWR_FLUSHSET" => packed [(s.mapLevel, 32), (s.gatherLevel, 0)]
  | "BPM_POOLSTAT" => s.poolStat i
  | "BPM_ALLOCRESP" => s.allocWord src
  | "BPM_USED" => s.usedWord i
  | "MAT_RESP" => s.matWord src
  | "FUS_HASH" => s.hashWord 0 i
  | "FUS_HASH_S1" => s.hashWord 1 i
  | "FUS_HASH_S2" => s.hashWord 2 i
  | "FUS_HASH_S3" => s.hashWord 3 i
  | "EVT_LOGSTAT" => n s.evlog.length
  | "FRZ_IMAGE" => (Config.freezeWords s.debugLevel).setWidth 64
  | "FCE_FACE" => s.faceWord
  | "HRD_VERSION" => s.versionWord
  | "HRD_JOBS" => n s.herd.jobs.length
  | "HRD_SWEEPLEFT" => n s.sweepLeft
  | _ => s.reg base

/-! ## Reads -/

/-- The word of an MSI-X vector's entry (R446). -/
def Vec.word (v : Vec) (k : Nat) : DWord :=
  match k with
  | 0 => v.addr &&& 0xFFFF_FFFF
  | 1 => v.addr >>> 32
  | 2 => v.data.setWidth 64
  | _ => if v.masked then 1 else 0

/-- The pending bits of `n` vectors of a function from a vector on (R446). -/
def State.pendingBits (s : State) (fk from_ n : Nat) : DWord :=
  BitVec.ofNat 64 ((List.range n).map fun i => if (s.vecOf fk (from_ + i)).pend then 2 ^ i else 0).sum

/-- The ranges that are read as words and are no registers of their own: the Catalogue, the function headers, the MSI-X
tables, the decoder matrix (R314) and the encapsulation keys (R315). -/
def State.readRange (s : State) (src : Source) (a size : Nat) : Option DWord :=
  let fk := (a - 0x1_0000_0000) / 0x10000
  let off := a % 0x10000
  let window := decide (0x1_0000_0000 ≤ a ∧ a < 0x1_0400_0000)
  if a < 0x10000 then some (wordAt (s.catalogue (if src = .mtf then 0xFF else src.port.num)) a size)
  else if window && decide (off < 0x1000) then some (wordAt (s.fnHeader (Fn.ofKey fk)) off size)
  else if 0x3F8_0000 ≤ a ∧ a < 0x3F8_0100 then
    some (s.pendingBits (src.port.num * 512) (8 * (a - 0x3F8_0000)) (8 * size))
  else if window && decide (0xF000 ≤ off ∧ off < 0xF008 ∧ fk % 512 ≠ 0) then
    some (s.pendingBits fk (8 * (off - 0xF000)) (8 * size))
  else if (0xB0_0400 ≤ a ∧ a < 0xB0_0D10) ∨ (0xB0_0D20 ≤ a ∧ a < 0xB0_0E60) then
    some ((Config.hMatrixWord ((a - 0xB0_0400) / 4)).setWidth 64 |||
      (if size = 8 then (Config.hMatrixWord ((a - 0xB0_0400) / 4 + 1)).setWidth 64 <<< 32 else 0))
  else if 0xC0_1000 ≤ a ∧ a < 0xC0_5000 ∧ 0x200 ≤ a % 0x1000 ∧ a % 0x1000 < 0x6A0 then
    let k := (a - 0xC0_1000) / 0x1000
    let w (j : Nat) : DWord := (Config.encapsKey k j).setWidth 64
    let j := (a % 0x1000 - 0x200) / 4
    some (if (s.reg Reg.XTS_SLOTS).getLsbD k then w j ||| (if size = 8 then w (j + 1) <<< 32 else 0) else 0)
  else
    match msixSlot src a with
    | some (fk, v, k) =>
      some ((s.vecOf fk v).word k ||| (if size = 8 then (s.vecOf fk v).word (k + 1) <<< 32 else 0))
    | none => none

/-- A read of 4 or 8 bytes that lies within one register or range; a reserved range reads as 0 (R42). -/
def State.readPiece (s : State) (src : Source) (a size : Nat) : DWord :=
  match s.readRange src a size with
  | some v => v
  | none =>
    match findReg a with
    | none => 0
    | some (row, i) =>
      let sh := (a - (row.base + i * row.stride)) * 8
      (s.view src row i >>> sh) &&& bitsMask (size * 8 - 1) 0

/-- What a read of a served address returns (R46, R59, R60). -/
def State.readReg (s : State) (src : Source) (a size : Nat) : DWord :=
  let a := resolve src a
  if size = 8 ∧ (s.readRange src a 8).isNone ∧ !wholeDWord src a then
    s.readPiece src a 4 ||| (s.readPiece src (a + 4) 4 <<< 32)
  else s.readPiece src a size

/-! ## Writes -/

/-- The register rows that a write covers. -/
def rowsWritten (src : Source) (a size : Nat) : List (RegRow × Nat) :=
  if (msixSlot src a).isSome then []
  else ([a, a + size - 4].filterMap findReg).dedup

/-- What follows a write of a register once its new value stands: `old` is the state before it. -/
def State.followRow (s old : State) (row : RegRow) (i : Nat) : State :=
  let a := row.base + i * row.stride
  let changed := decide (s.reg a ≠ old.reg a)
  match row.name with
  | "MAP_HMRCTRL" => s.map.regions.foldl (fun s e => s.distrust e.1 e.2) s
  | "STG_CTRL" =>
    if changed then (s.media.dies.keys.foldl (fun s dk => s.settleAreas dk) s).followCapacity.reviewFences else s
  | "BPM_POOLCFG" | "BPM_POOLCFG1" | "BPM_POOLCFG2" | "BPM_POOLSIZE" =>
    (List.range 4).foldl (fun s p => s.followPool p) s
  | "SDC_REFRESH" => s.followHotForce
  | "HRD_PORT" =>
    let on (s : State) : Nat := s.fld (Reg.HRD_PORT i) Reg.HRD_PORT_.ENABLE
    if on s = on old then s
    else
      ((if on s = 0 then s.herd.links.keys.foldl (fun s p => s.losePlane p i) s else s).followPeerPorts).wakeHerd
  | _ => s

/-- The state that an outcome leaves. -/
def after (s : State) : Host.Outcome State Fault Refusal → State
  | .next t => t
  | _ => s

/-- The value and the mask of a write of `size` bytes at `a` as the register at `base` meets them. -/
def laneOf (a size base : Nat) (v : DWord) : DWord × DWord :=
  let m := bitsMask (size * 8 - 1) 0
  if base ≤ a then ((v &&& m) <<< ((a - base) * 8), m <<< ((a - base) * 8))
  else ((v &&& m) >>> ((base - a) * 8), m >>> ((base - a) * 8))

/-- Bytes that a command outside would have brought: `n` free words (log entry 1). -/
def State.freeBytes (s : State) (n : Nat) : List Byte × State :=
  ((List.range n).flatMap fun i => leBytes 8 (Config.freeWord (s.free + i)).toNat, { s with free := s.free + n })

/-- An operation of SDC_TCMD: what the devices answer is free (log entry 1). -/
def State.writeTcmd (s : State) (src : Source) (ch : Nat) (v : DWord) : State :=
  let sub : BitVec 2 := (v >>> 58).setWidth 2
  let rank := v.getLsbD 57
  let x : Half := v.setWidth 16
  let f := s.takeFree
  let g := f.2.takeFree
  match (v >>> 60).toNat with
  | 1 => after s (execTcmdMrw src ch sub rank x s)
  | 2 => after s (execTcmdMrr src ch sub rank x (f.1.setWidth 8) f.2)
  | 3 => after s (execTcmdMpc src ch sub rank x s)
  | 4 => after s (execTcmdPatternWrite src ch sub rank x s)
  | 5 => after s (execTcmdPatternCompare src ch sub rank x (f.1.setWidth 80 ||| (g.1.setWidth 80 <<< 64)) g.2)
  | _ => s

/-- A write of MAT_CMD: Table 6 of the match array; an operation it does not have is refused (R409, R422). -/
def State.writeMatCmd (s : State) (src : Source) (v : DWord) : State :=
  let a := Reg.MAT_CMD_.ADDR.get v
  match Reg.MAT_CMD_.OP.get v with
  | 1 => after s (execMatLookup src a s)
  | 2 => after s (execMatRead src a s)
  | 3 => after s (execMatWrite src a s)
  | 4 => after s (execMatInsert src a s)
  | 5 => after s (execMatDelete src a s)
  | 6 => after s (execMatInvalidate src a s)
  | _ => if s.matBusy src then s else s.matRefuse src 3

/-- A write of MUL_RCTRL of a ring: ENABLE, RESUME, KICK. -/
def State.writeRing (s : State) (src : Source) (r : Nat) (v : DWord) : State :=
  let s := after s (if v.getLsbD 31 then execMuleRingEnable src r s else execMuleRingDisable src r s)
  let s := if v.getLsbD 30 then after s (execMuleRingResume src r s) else s
  if v.getLsbD 29 then after s (execMuleRingKick src r s) else s

/-- A write of CAR_CMD of a carrier. -/
def State.writeCarCmd (s : State) (src : Source) (c : Nat) (v : DWord) : State :=
  let s := if v.getLsbD 0 then after s (execCarrierRemove src c s) else s
  let s := if v.getLsbD 1 then after s (execCarrierInsert src c s) else s
  let s := if v.getLsbD 2 then after s (execCarrierCancel src c s) else s
  if v.getLsbD 3 then after s (execCarrierLocate src c s) else s

/-- What a write of the bits `wm` does to the fields of a register that have a step of their own (log entry 9). -/
def State.ownWrite (s : State) (src : Source) (row : RegRow) (i : Nat) (wm v : DWord) : State :=
  let base := row.base + i * row.stride
  let hit (hi lo : Nat) : Bool := decide (wm &&& bitsMask hi lo ≠ 0)
  match row.name with
  | "HDR_KEY" => s.writeKeyAt src (i + 1) (base - 8) (v.setWidth 16)
  | "HSTB_KEY" => s.writeKeyAt src 1 (base - 8) (v.setWidth 16)
  | "HDR_STAT" | "HSTB_STAT" | "EVT_FSTAT" => if hit 47 32 then s.writeAck base ((v >>> 32).setWidth 16) else s
  | "CCP_FCTRL" =>
    after s (if v.getLsbD 0 then execFunctionEnable (Fn.ofKey i) s else execFunctionDisable (Fn.ofKey i) s)
  | "HRD_CTRL" => if hit 63 48 then after s (execEthertypeWrite src ((v >>> 48).setWidth 16) s) else s
  | "HRD_MAC" | "HRD_MAC1" | "HRD_MAC2" | "HRD_MAC3" =>
    after s (execHrdMacWrite src ((base - 0xD0_1008) / 0x1000) (v.setWidth 48) s)
  | "HRD_PORT" => after s (execHrdPortAnWrite src i (v.getLsbD 29) s)
  | "HST_LINK" => after s (execHstMaxrateWrite src (Port.ofNum i) ((v >>> 16).setWidth 4) s)
  | "CHN_CTRL" => if v.getLsbD 1 then after s (execChnRetrain src i [] s) else s
  | "CHN_RATE" => after s (execChnRateTargetWrite src i (v.setWidth 32) [] s)
  | "CHN_CHEAD" => after s (execChnCheadWrite src i (v.setWidth 32) s)
  | "SDC_CTRL" => after s (execSdcModeWrite src i ((v >>> 30).setWidth 2) s)
  | "SDC_TCMD" => if hit 63 60 then s.writeTcmd src i v else s
  | "MCH_SCRATCH" => after s (execMchScratchWrite src (v.setWidth 32) s)
  | "BPM_ALLOCREQ" => after s (execBpmAllocRequest src (v.setWidth 32) s)
  | "BPM_RELEASE" => after s (execBpmRelease src v s)
  | "MUL_RCTRL" | "MUL_RCTRL_M1" | "MUL_RCTRL_M2" | "MUL_RCTRL_M3" =>
    s.writeRing src (64 * ((base - 0x100_0000) / 0x2_0000) + i) v
  | "MUL_K7CNT" =>
    if v.getLsbD 31 then
      let f := s.freeBytes ((s.fld base Reg.MUL_K7CNT_.COUNT + 7) / 8)
      after s (execK7Start src i f.1 .ok f.2)
    else s
  | "FRZ_CTRL" => if v.getLsbD 0 then after s (execFreezeRequest src s) else s.keyed src 24 id
  | "EVT_CLRSTATS" => if v.getLsbD 0 then after s (execClearStats src s) else s.keyed src 23 id
  | "MAT_CMD" => s.writeMatCmd src v
  | "GRD_LOCK" => after s (execGrdLockWrite src (v.setWidth 32) s)
  | "FUS_PROG" =>
    if v.getLsbD 31 then
      let f := s.takeFree
      after s (execFuseProgram src (v.toNat % 4096) (f.1.getLsbD 0) f.2)
    else s
  | "CAR_CMD" => s.writeCarCmd src i v
  | _ => s

/-- Whether a write's effect is its own step alone: FUS_PROG with GO takes its BIT within that step. -/
def ownAlone (src : Source) (a size : Nat) (v : DWord) : Bool :=
  (rowsWritten src a size).any fun e => decide (e.1.name = "FUS_PROG") && (laneOf a size e.1.base v).1.getLsbD 31

/-- The effect of a write that has reached its registers (R12, R13): their fields, what follows, and the steps of the fields
that have their own. -/
def State.writeReg (s : State) (src : Source) (a size : Nat) (v : DWord) : State :=
  let a := resolve src a
  let rows := rowsWritten src a size
  let t := if ownAlone src a size v then s else s.writeGeneric src a size v
  let t := (rows.foldl (fun t e => t.followRow s e.1 e.2) t).followGen s
  rows.foldl (fun t e =>
    let l := laneOf a size (e.1.base + e.2 * e.1.stride) v
    t.ownWrite src e.1 e.2 l.2 l.1) t

/-- A write that cannot cross to its island yet, behind another one that waits (R61, R64, R67). -/
def State.mustWait (s : State) (src : Source) (a : Nat) (x : Crossing) : Bool :=
  decide (x = .stalled) || !(s.postedTo src (islandOf (resolve src a) src.port)).isEmpty

/-- Whether the function through which an access comes answers (R445, R446); cores and the MTF always reach the
register space. -/
def State.sourceReaches (s : State) (src : Source) (a : Nat) : Bool :=
  match src with
  | .pf p =>
    if 0x1_0000_0000 ≤ a then s.fnAnswers (Fn.ofKey ((a - 0x1_0000_0000) / 0x10000)) else s.fnAnswers { port := p, idx := 0 }
  | _ => true

/-- Whether an access crosses islands: BAR0 and function windows of the port itself are served in its own island (R43, R64). -/
def crosses (src : Source) (a : Nat) : Bool :=
  match src with
  | .pf p => decide (islandOf (resolve src a) p ≠ 140 + p.num)
  | .mtf => decide (islandOf (resolve src a) .a ≠ 210)
  | .core _ => true

/-- REGISTER_WRITE (R12, R13, R46, R61 to R68). -/
def execRegisterWrite (src : Source) (addr size : Nat) (value : DWord) (x : Crossing) (s : State) :
    Host.Outcome State Fault Refusal :=
  if !s.up || decide (0x2_0000_0000 ≤ addr) then .next s
  else if !s.sourceReaches src addr then
    .next (match src with | .pf p => s.emit (.unsupported { port := p, idx := 0 }) | _ => s)
  else
    .next (s.access src addr size fun s =>
      if crosses src addr && s.mustWait src addr x then
        { s with posted := s.posted ++
            [{ src := src, island := islandOf (resolve src addr) src.port, addr := addr, size := size, value := value }] }
      else s.writeReg src addr size value)

/-- STALLED_WRITE_APPLY (R61, R66): the island answers again, and the writes of a port that ended with cause 0x1 and those
that still wait take effect in the order they came. An isolated island takes none. -/
def execStalledWriteApply (p : Port) (island : Nat) (s : State) : Host.Outcome State Fault Refusal :=
  let mine (q : PostedWrite) : Bool := decide (q.src = .pf p ∧ q.island = island)
  let ws := s.late.filter mine ++ s.posted.filter mine
  let rest : State := { s with late := s.late.filter fun q => !mine q, posted := s.posted.filter fun q => !mine q }
  answer s.up s
    (if s.isIsolated island then rest else ws.foldl (fun s q => s.writeReg q.src q.addr q.size q.value) rest)

end Sys2Proof.Machine
end

