-- ==== Sys2Proof/Machine/Mtf.lean ====
section
/-! DEFINITION. The Management Task File (R107 to R110) with its tasks, and the I3C side of the sideband port (R544). -/

namespace Sys2Proof.Machine

open Sys2Proof

/-! ## Task registers (R108) -/

def taskArg (i : Nat) : Nat := 0x2_0000_0020 + 4 * i
def taskResult (i : Nat) : Nat := 0x2_0000_0040 + 4 * i
def taskData (i : Nat) : Nat := 0x2_0000_1000 + 4 * i

/-- Whether a task-register offset is that of a register of R108. -/
def taskOffsetOk (o : Nat) : Bool :=
  decide (o % 4 = 0 ∧ (o = 0x08 ∨ o = 0x10 ∨ (0x20 ≤ o ∧ o < 0x60) ∨ (0x1000 ≤ o ∧ o < 0x2000)))

/-- STATE of CCP_TASK_STAT: 0 IDLE, 1 BUSY, 2 DONE. -/
def State.taskState (s : State) : Nat := s.fld Reg.CCP_TASK_STAT Reg.CCP_TASK_STAT_.STATE

/-- An argument of the task, and two of them as one 64-bit value. -/
def State.taskArg (s : State) (i : Nat) : Nat := (s.reg (Machine.taskArg i)).toNat

def State.taskArg64 (s : State) (i : Nat) : Nat := s.taskArg i + s.taskArg (i + 1) * 2 ^ 32

/-- Write a result word. -/
def State.setResult (s : State) (i v : Nat) : State := s.setReg (taskResult i) (BitVec.ofNat 64 (v % 2 ^ 32))

/-- Write a 64-bit value to two result words. -/
def State.setResult64 (s : State) (i v : Nat) : State := (s.setResult i v).setResult (i + 1) (v / 2 ^ 32)

/-- Write bytes to CCP_TASK_DATA from its start on. -/
def State.setTaskData (s : State) (l : List Byte) : State :=
  (List.range (l.length / 4)).foldl (fun s i => s.setReg (taskData i) (BitVec.ofNat 64 (leNat ((l.drop (4 * i)).take 4)))) s

/-- The 4 KiB of CCP_TASK_DATA. -/
def State.taskBytes (s : State) : List Byte :=
  (List.range 1024).flatMap fun i => leBytes 4 (s.reg (taskData i)).toNat

/-- A task ends with a status: STATE goes to DONE (R109, Table 21). -/
def State.taskDone (s : State) (status : Nat) : State :=
  let s := (s.setFld Reg.CCP_TASK_STAT Reg.CCP_TASK_STAT_.STATUS status).setFld Reg.CCP_TASK_STAT
    Reg.CCP_TASK_STAT_.STATE 2
  { s with mtf := { s.mtf with expired := false } }

/-- INVALID_ARG: an argument is out of range. -/
def State.badArg (s : State) (i : Nat) : State := (s.setResult 0 i).taskDone 2

/-- REGISTER_ACCESS_ERROR with its cause. -/
def State.accessFailed (s : State) (cause : Nat) : State := (s.setResult 0 cause).taskDone 6

/-- The end of a task that is a CCP command: OK, or CCP_STATUS with the command's outcome (R110). -/
def State.ccpDone (s : State) (x : Status) : State :=
  if x.cls = 0 then s.taskDone 0
  else ((s.setResult 0 (x.cls % 256 + x.detail % 65536 * 256)).setResult64 2 x.info).taskDone 7

/-! ## Messages (R107, R109) -/

/-- GO is accepted from an endpoint: it becomes the owner and the task starts; an unknown OPCODE ends at once. -/
def State.taskGo (s : State) (endpoint : Nat) (w : Word) : State :=
  let v : DWord := w.setWidth 64
  let op := Reg.CCP_TASK_CTRL_.OPCODE.get v
  let s := (s.setFld Reg.CCP_TASK_CTRL Reg.CCP_TASK_CTRL_.OPCODE op).setFld Reg.CCP_TASK_CTRL Reg.CCP_TASK_CTRL_.TAG
    (Reg.CCP_TASK_CTRL_.TAG.get v)
  let s := s.setFld Reg.CCP_TASK_STAT Reg.CCP_TASK_STAT_.TAG (Reg.CCP_TASK_CTRL_.TAG.get v)
  let s := s.setFld Reg.CCP_TASK_STAT Reg.CCP_TASK_STAT_.OWNER endpoint
  let s := s.setFld Reg.CCP_TASK_STAT Reg.CCP_TASK_STAT_.STATE 1
  let s : State := { s with mtf := { s.mtf with expired := false } }
  if op ≤ 0x0B then s else s.taskDone 1

/-- ACK from the owner in DONE: the result is discarded and STATE is IDLE. -/
def State.taskAck (s : State) : State :=
  let s := s.setFld Reg.CCP_TASK_STAT Reg.CCP_TASK_STAT_.STATE 0
  { s with mtf := { s.mtf with expired := false } }

/-- Whether an endpoint owns the task file. -/
def State.ownsTask (s : State) (endpoint : Nat) : Bool :=
  decide (s.fld Reg.CCP_TASK_STAT Reg.CCP_TASK_STAT_.OWNER = endpoint % 256)

/-- Whether a GO would be accepted now: in IDLE, or in DONE after 30 s without ACK (R108, R109). -/
def State.goOpen (s : State) : Bool :=
  decide (s.taskState = 0) || (decide (s.taskState = 2) && s.mtf.expired)

/-- One word that an accepted message writes (R108, R109). -/
def State.taskWord (s : State) (endpoint o : Nat) (w : Word) : State :=
  if o = 0x08 then
    if s.taskState = 2 ∧ s.ownsTask endpoint = true ∧ w.getLsbD 1 = true then s.taskAck
    else if s.goOpen && w.getLsbD 0 then s.taskGo endpoint w
    else if s.taskState = 0 then
      let v : DWord := w.setWidth 64
      (s.setFld Reg.CCP_TASK_CTRL Reg.CCP_TASK_CTRL_.OPCODE (Reg.CCP_TASK_CTRL_.OPCODE.get v)).setFld Reg.CCP_TASK_CTRL
        Reg.CCP_TASK_CTRL_.TAG (Reg.CCP_TASK_CTRL_.TAG.get v)
    else s
  else if s.taskState = 0 ∧ ((0x20 ≤ o ∧ o < 0x40) ∨ 0x1000 ≤ o) then s.setReg (0x2_0000_0000 + o) (w.setWidth 64)
  else s

/-- A write is rejected: code 0x01, a count and an event of kind 0x04 (R109, R507). -/
def State.taskReject (s : State) (endpoint o : Nat) : State :=
  ((s.count Reg.EVT_MTFREJECT 1).record 23 0 4 0 (leBytes 1 endpoint ++ leBytes 4 o)).emit (.mtfReply endpoint .notOwner [])

/-- The words of a message with their offsets. -/
def taskWords (o : Nat) (l : List Word) : List (Nat × Word) :=
  ((List.range l.length).map fun i => o + 4 * i).zip l

/-- A write message (R107, R109). -/
def State.taskWrite (s : State) (endpoint o : Nat) (l : List Word) : State :=
  let ws := taskWords o l
  let go := s.goOpen && ws.any fun e => decide (e.1 = 8) && e.2.getLsbD 0
  if !ws.all fun e => taskOffsetOk e.1 then s.emit (.mtfReply endpoint .badOffset [])
  else if s.taskState ≠ 0 ∧ s.ownsTask endpoint = false ∧ go = false then s.taskReject endpoint o
  else (ws.foldl (fun s e => s.taskWord endpoint e.1 e.2) s).emit (.mtfReply endpoint .done [])

/-- A read message (R107); any endpoint may read. -/
def State.taskRead (s : State) (endpoint o n : Nat) : State :=
  let os := (List.range n).map fun i => o + 4 * i
  if !os.all taskOffsetOk then s.emit (.mtfReply endpoint .badOffset [])
  else s.emit (.mtfReply endpoint .done (os.map fun x => (s.reg (0x2_0000_0000 + x)).setWidth 32))

/-- MTF_MESSAGE (R107 to R109): a count of 1 to 16 dwords. -/
def execMtfMessage (endpoint : Nat) (op : MtfOp) (s : State) : Host.Outcome State Fault Refusal :=
  match op with
  | .read o n => answer (s.up && decide (1 ≤ n ∧ n ≤ 16)) s (s.taskRead endpoint o n)
  | .write o l => answer (s.up && decide (1 ≤ l.length ∧ l.length ≤ 16)) s (s.taskWrite endpoint o l)

/-- MTF_TASK_ACK (R109): a write of ACK by an endpoint. -/
def execMtfTaskAck (endpoint : Nat) (s : State) : Host.Outcome State Fault Refusal :=
  answer s.up s (s.taskWrite endpoint 0x08 [2])

/-- MTF_RESULT_EXPIRE (R109). -/
def execMtfResultExpire (s : State) : Host.Outcome State Fault Refusal :=
  answer (s.up && decide (s.taskState = 2)) s { s with mtf := { s.mtf with expired := true } }

/-! ## Tasks (R110, Tables 20 and 21) -/

/-- The modes in which tasks run. -/
def modesAll : List Nat := [modeBoot, modeServe, modeDegraded, modeCastling]
def modesServing : List Nat := [modeServe, modeDegraded, modeCastling]
def modesSet : List Nat := [modeServe, modeDegraded]

/-- A task that GO has started runs: before an MTF HELLO only HELLO and IDENTIFY do, and each in its modes alone. -/
def State.task (s : State) (op : Nat) (modes : List Nat) (f : State → State) : Host.Outcome State Fault Refusal :=
  answer (s.up && decide (s.taskState = 1 ∧ s.fld Reg.CCP_TASK_CTRL Reg.CCP_TASK_CTRL_.OPCODE = op)) s
    (if 1 < op ∧ s.mtf.negotiated = false then s.taskDone 4
     else if !modes.contains s.mode then (s.setResult 0 (s.reg Reg.MOD_STATE).toNat).taskDone 5
     else f s)

/-- MTF_HELLO (R110). -/
def execMtfHello (s : State) : Host.Outcome State Fault Refusal :=
  s.task 0 modesAll fun s =>
    let a := s.taskArg 0
    let t := s.setResult 0 0x0102
    if a % 65536 = 0x0102 ∨ a / 65536 = 0x0102 then
      ({ t with mtf := { t.mtf with negotiated := true } } : State).taskDone 0
    else t.taskDone 3

/-- MTF_IDENTIFY (R450). -/
def execMtfIdentify (s : State) : Host.Outcome State Fault Refusal :=
  s.task 1 modesAll fun s => (s.setTaskData (padTo 4096 (s.catalogue 0xFF))).taskDone 0

/-- MTF_MODE_GET (R110, R493). -/
def execMtfModeGet (s : State) : Host.Outcome State Fault Refusal :=
  s.task 2 modesAll fun s =>
    ((s.setResult 0 (s.reg Reg.MOD_STATE).toNat).setResult 1 (s.reg Reg.MOD_REASON).toNat).taskDone 0

/-- Whether the arguments of a register access are in range: an offset within BAR0, a width of 4 or 8. -/
def State.regArgs (s : State) : Option Nat :=
  if 0x400_0000 ≤ s.taskArg 0 then some 0
  else if s.taskArg 1 = 4 ∨ s.taskArg 1 = 8 then none
  else some 1

/-- A register access of the MTF (R64 to R68, R110): judged as any access, and bounded where it crosses islands. -/
def State.taskAccess (s : State) (x : Crossing) (write : Bool) (f : State → State) : State :=
  match s.regArgs with
  | some i => s.badArg i
  | none =>
    let a := s.taskArg 0
    let n := s.taskArg 1
    match s.judge .mtf a n write with
    | .error c => (s.errorResponse .mtf a n c write).accessFailed c
    | .served =>
      if crosses .mtf a && decide (x = .stalled) then (s.errorResponse .mtf a n 1 write).accessFailed 1 else (f s).taskDone 0
    | _ => (if write then s else s.setResult64 0 0).taskDone 0

/-- MTF_REG_READ (R110). -/
def execMtfRegRead (x : Crossing) (s : State) : Host.Outcome State Fault Refusal :=
  s.task 3 modesAll fun s =>
    s.taskAccess x false fun s => s.setResult64 0 (s.readReg .mtf (s.taskArg 0) (s.taskArg 1)).toNat

/-- MTF_REG_WRITE (R110). -/
def execMtfRegWrite (x : Crossing) (s : State) : Host.Outcome State Fault Refusal :=
  s.task 4 modesAll fun s =>
    s.taskAccess x true fun s => s.writeReg .mtf (s.taskArg 0) (s.taskArg 1) (BitVec.ofNat 64 (s.taskArg64 2))

/-- The packet of the CCP command that a task stands for. -/
def taskPacket (op nsid slba dlen cspec : Nat) : BitVec 512 :=
  BitVec.ofNat 512 (op + nsid * 2 ^ 32 + slba * 2 ^ 128 + dlen * 2 ^ 320 + cspec * 2 ^ 448)

/-- Nothing from a host. -/
def noHost : HostSide :=
  { listAnswer := .ok, list := [], dataAnswer := .ok, blocks := [], join := none, map := none, piece := none, key := none,
    faults := [] }

/-- The checks of a task's packet that a host's packet of the same command meets: its fields and the namespace it names (R89). -/
def State.taskFault (s : State) (f : Fn) (p : BitVec 512) : Option Status :=
  match s.firstBadField f p noHost with
  | some off => some (stInvalidField off)
  | none => (s.nsReason f p).map stFenced

/-- The physical function of a port. -/
def pfOf (n : Nat) : Fn := { port := Port.ofNum n, idx := 0 }

/-- MTF_LOG_GET (R105, R110): as a physical function reads the log. -/
def execMtfLogGet (s : State) : Host.Outcome State Fault Refusal :=
  s.task 5 modesServing fun s =>
    let n := s.taskArg 2
    if 4096 < n then s.badArg 2
    else
      let p := taskPacket opLogGet 0 (s.taskArg 1) n (s.taskArg 0)
      match s.taskFault (pfOf 0) p with
      | some x => s.ccpDone x
      | none =>
        ((s.setTaskData (logPart (s.logBytes (pfOf 0) (s.taskArg 0)) (s.taskArg 1) n)).afterLog (s.taskArg 0)).taskDone 0

/-- A task that the command chain would refuse ends with that status (R110); else it leaves what it did. -/
def State.orFault (s : State) (fault : Option Status) (t : State) : State :=
  match fault with
  | some x => s.ccpDone x
  | none => t

/-- A FEATURE task (R104, R110): the command of the physical function of the port that ARG[4] names, upon the function
that ARG[4] names where the feature's scope is a VF or a function. -/
def State.featureTask (s : State) (op value : Nat) (f : State → Fn → Nat → Nat → State) : State :=
  let feat := s.taskArg 0
  let pf := pfOf (s.taskArg 4 / 65536 % 2)
  let target := s.taskArg 4 % 512
  let p := taskPacket op (s.taskArg 1) value 0 (feat + if feat = 1 then target * 65536 else 0)
  s.orFault (s.taskFault pf p) ((f s (if feat = 6 then { pf with idx := target } else pf) feat target).taskDone 0)

/-- MTF_FEATURE_GET (R104, R110). -/
def execMtfFeatureGet (s : State) : Host.Outcome State Fault Refusal :=
  s.task 6 modesServing fun s =>
    s.featureTask opFeatureGet 0 fun s f feat target => s.setResult64 0 (s.featureGet f feat (s.taskArg 1) target)

/-- MTF_FEATURE_SET (R104, R110). -/
def execMtfFeatureSet (s : State) : Host.Outcome State Fault Refusal :=
  s.task 7 modesSet fun s =>
    s.featureTask opFeatureSet (s.taskArg64 2) fun s f feat target => s.featureSet f feat target (s.taskArg64 2)

/-- Whether a block of a namespace is free for a task: no lock of a command conflicts with the task's (R112, R116). -/
def State.taskMayLock (s : State) (excl : Bool) (nsid lba : Nat) : Bool :=
  (rangeLocks excl nsid lba lba 65536).all fun q => !s.cmds.locks.any fun e => lockConflict q e

/-- A task on a block of a system namespace (R176 to R179): judged as the command, and waiting for its lock. -/
def State.sysTask (s : State) (excl : Bool) (f : State → Nat → Namespace → Nat → State) : State :=
  let nsid := 0xFF00 + s.taskArg 0
  let lba := s.taskArg64 1
  if 7 < s.taskArg 0 then s.badArg 0
  else
    match s.nss.look nsid with
    | none => s.ccpDone (stFenced 4)
    | some n =>
      if n.size ≤ lba then s.ccpDone (stOutOfRange n.size)
      else if s.taskMayLock excl nsid lba then f s nsid n lba
      else s

/-- MTF_SYSNS_READ (R179). -/
def execMtfSysnsRead (s : State) : Host.Outcome State Fault Refusal :=
  s.task 8 modesServing fun s => s.sysTask false fun s nsid n lba =>
    match s.gotBlock nsid n lba with
    | .block c _ _ => (s.setTaskData c.data).taskDone 0
    | .zeros => (s.setTaskData zeroBlock).taskDone 0
    | _ => s.ccpDone (stUncorrectable lba)

/-- MTF_SYSNS_WRITE (R178): DONE once both copies are on the medium; while no pair of dies serves, the task waits. -/
def execMtfSysnsWrite (s : State) : Host.Outcome State Fault Refusal :=
  s.task 9 modesServing fun s => s.sysTask true fun s nsid n lba =>
    if s.sysDies.isNone then s
    else (s.sysWrite nsid [(lba, s.taskBytes, genTally s.taskBytes lba n.nstag.toNat 0)]).taskDone 0

/-- The staging owner that the MTF is (FWU_STATE.OWNER). -/
def mtfOwner : Nat := 3

/-- MTF_FW_STAGE (R482, R483). -/
def execMtfFwStage (piece : FwPiece) (s : State) : Host.Outcome State Fault Refusal :=
  s.task 0xA modesSet fun s =>
    if s.taskArg 1 ≤ 4096 then
      let r := s.fwStage mtfOwner (s.taskArg 0) (s.taskArg 1 / 4096) (decide (s.taskArg 2 = 1)) piece
      s.orFault (s.taskFault (pfOf 0) (taskPacket opFwStage 0 (s.taskArg 0) (s.taskArg 1) (s.taskArg 2)))
        (r.2.ccpDone r.1)
    else s.badArg 1

/-- MTF_FW_CASTLE (R483). -/
def execMtfFwCastle (s : State) : Host.Outcome State Fault Refusal :=
  s.task 0xB modesSet fun s =>
    let r := s.fwCastle mtfOwner
    r.2.ccpDone r.1

/-! ## The sideband port as an I3C target (R544) -/

/-- I3C_BROADCAST (R544). -/
def execI3cBroadcast (s : State) : Host.Outcome State Fault Refusal :=
  answer s.running s { s with mtf := { s.mtf with i3c := true } }

/-- Take a dynamic address as an I3C target. -/
def State.takeAddress (s : State) (a : BitVec 7) : State :=
  if s.mtf.i3c then { s with mtf := { s.mtf with dynAddr := some a } } else s

/-- SETDASA from the static address 0x1D (R544). -/
def execSetdasa (address : BitVec 7) (s : State) : Host.Outcome State Fault Refusal :=
  answer s.running s (s.takeAddress address)

/-- ENTDAA: the N9 offers its provisional ID and takes the address given (R544). -/
def execEntdaa (address : BitVec 7) (s : State) : Host.Outcome State Fault Refusal :=
  answer s.running s (s.takeAddress address)

end Sys2Proof.Machine
end

