-- ==== Sys2Proof/Machine/Dispatch.lean ====
section
/-! DEFINITION. What each command does: one arm for each constructor of Instr, each one call of the command's meaning. -/

namespace Sys2Proof.Machine

open Sys2Proof

def exec (i : Instr) (s : State) : Host.Outcome State Fault Refusal :=
  match i with
  | .sqDoorbellWrite f offset size value => Sys2Proof.Machine.execSqDoorbellWrite f offset size value s
  | .cqDoorbellWrite f offset size value => Sys2Proof.Machine.execCqDoorbellWrite f offset size value s
  | .blockKeyWrite src window value => Sys2Proof.Machine.execBlockKeyWrite src window value s
  | .statAckWrite src reg ack => Sys2Proof.Machine.execStatAckWrite src reg ack s
  | .registerWrite src addr size value x => Sys2Proof.Machine.execRegisterWrite src addr size value x s
  | .registerAccessTimeout src addr write => Sys2Proof.Machine.execRegisterAccessTimeout src addr write s
  | .stalledWriteApply p island => Sys2Proof.Machine.execStalledWriteApply p island s
  | .packetFetch p packets => Sys2Proof.Machine.execPacketFetch p packets s
  | .read slot h => Sys2Proof.Machine.execRead slot h s
  | .write slot h => Sys2Proof.Machine.execWrite slot h s
  | .trim slot h => Sys2Proof.Machine.execTrim slot h s
  | .writeZeroes slot h => Sys2Proof.Machine.execWriteZeroes slot h s
  | .compare slot h => Sys2Proof.Machine.execCompare slot h s
  | .orderBarrier slot h => Sys2Proof.Machine.execOrderBarrier slot h s
  | .gatherRead slot h => Sys2Proof.Machine.execGatherRead slot h s
  | .hello slot h => Sys2Proof.Machine.execHello slot h s
  | .ringCreate slot h => Sys2Proof.Machine.execRingCreate slot h s
  | .ringDelete slot h => Sys2Proof.Machine.execRingDelete slot h s
  | .ringDeleteComplete slot => Sys2Proof.Machine.execRingDeleteComplete slot s
  | .nsCreate slot h => Sys2Proof.Machine.execNsCreate slot h s
  | .nsDelete slot h => Sys2Proof.Machine.execNsDelete slot h s
  | .nsAttach slot h => Sys2Proof.Machine.execNsAttach slot h s
  | .nsDetachComplete slot => Sys2Proof.Machine.execNsDetachComplete slot s
  | .nsResize slot h => Sys2Proof.Machine.execNsResize slot h s
  | .mapRegionAdd slot h => Sys2Proof.Machine.execMapRegionAdd slot h s
  | .mapRegionRemove slot h => Sys2Proof.Machine.execMapRegionRemove slot h s
  | .mapRegionRemoveComplete slot => Sys2Proof.Machine.execMapRegionRemoveComplete slot s
  | .logGet slot h => Sys2Proof.Machine.execLogGet slot h s
  | .featureSet slot h => Sys2Proof.Machine.execFeatureSet slot h s
  | .featureGet slot h => Sys2Proof.Machine.execFeatureGet slot h s
  | .fwStage slot h => Sys2Proof.Machine.execFwStage slot h s
  | .fwCastle slot h => Sys2Proof.Machine.execFwCastle slot h s
  | .herdJoin slot h => Sys2Proof.Machine.execHerdJoin slot h s
  | .herdLeave slot h => Sys2Proof.Machine.execHerdLeave slot h s
  | .herdReshape slot h => Sys2Proof.Machine.execHerdReshape slot h s
  | .keyLoad slot h => Sys2Proof.Machine.execKeyLoad slot h s
  | .heldRecordPost f cq => Sys2Proof.Machine.execHeldRecordPost f cq s
  | .cqAggTimer f cq => Sys2Proof.Machine.execCqAggTimer f cq s
  | .functionEnable f => Sys2Proof.Machine.execFunctionEnable f s
  | .functionDisable f => Sys2Proof.Machine.execFunctionDisable f s
  | .mtfMessage endpoint op => Sys2Proof.Machine.execMtfMessage endpoint op s
  | .mtfHello => Sys2Proof.Machine.execMtfHello s
  | .mtfIdentify => Sys2Proof.Machine.execMtfIdentify s
  | .mtfModeGet => Sys2Proof.Machine.execMtfModeGet s
  | .mtfRegRead x => Sys2Proof.Machine.execMtfRegRead x s
  | .mtfRegWrite x => Sys2Proof.Machine.execMtfRegWrite x s
  | .mtfLogGet => Sys2Proof.Machine.execMtfLogGet s
  | .mtfFeatureGet => Sys2Proof.Machine.execMtfFeatureGet s
  | .mtfFeatureSet => Sys2Proof.Machine.execMtfFeatureSet s
  | .mtfSysnsRead => Sys2Proof.Machine.execMtfSysnsRead s
  | .mtfSysnsWrite => Sys2Proof.Machine.execMtfSysnsWrite s
  | .mtfFwStage piece => Sys2Proof.Machine.execMtfFwStage piece s
  | .mtfFwCastle => Sys2Proof.Machine.execMtfFwCastle s
  | .mtfTaskAck endpoint => Sys2Proof.Machine.execMtfTaskAck endpoint s
  | .mtfResultExpire => Sys2Proof.Machine.execMtfResultExpire s
  | .i3cBroadcast => Sys2Proof.Machine.execI3cBroadcast s
  | .commandAdmit => Sys2Proof.Machine.execCommandAdmit s
  | .lockWaitEnd slot => Sys2Proof.Machine.execLockWaitEnd slot s
  | .barrierWaitEnd slot => Sys2Proof.Machine.execBarrierWaitEnd slot s
  | .oaWaitEnd slot => Sys2Proof.Machine.execOaWaitEnd slot s
  | .pipReserveGrant cls => Sys2Proof.Machine.execPipReserveGrant cls s
  | .allocGrant pool => Sys2Proof.Machine.execAllocGrant pool s
  | .deferredHourlyLog => Sys2Proof.Machine.execDeferredHourlyLog s
  | .hmrFetchComplete mpn answer => Sys2Proof.Machine.execHmrFetchComplete mpn answer s
  | .hmrFetchTimeout mpn => Sys2Proof.Machine.execHmrFetchTimeout mpn s
  | .mapFlashFetchDone mpn readable => Sys2Proof.Machine.execMapFlashFetchDone mpn readable s
  | .mapPagePlace mpn p => Sys2Proof.Machine.execMapPagePlace mpn p s
  | .mapPageDrop mpn => Sys2Proof.Machine.execMapPageDrop mpn s
  | .mapPagePersist mpn => Sys2Proof.Machine.execMapPagePersist mpn s
  | .directorySnapshot => Sys2Proof.Machine.execDirectorySnapshot s
  | .evictionWritebackDone island index => Sys2Proof.Machine.execEvictionWritebackDone island index s
  | .streamDetectorIdle detector => Sys2Proof.Machine.execStreamDetectorIdle detector s
  | .dirtyLineRebuild mpn line => Sys2Proof.Machine.execDirtyLineRebuild mpn line s
  | .sysnsMerge ns logPair => Sys2Proof.Machine.execSysnsMerge ns logPair s
  | .mchScratchWrite src value => Sys2Proof.Machine.execMchScratchWrite src value s
  | .packWindowExpire dieA dieB => Sys2Proof.Machine.execPackWindowExpire dieA dieB s
  | .stagingEntryGrant slot => Sys2Proof.Machine.execStagingEntryGrant slot s
  | .gatherAgeExpire stream => Sys2Proof.Machine.execGatherAgeExpire stream s
  | .gatherInstall stripe => Sys2Proof.Machine.execGatherInstall stripe s
  | .rebuildStripe band stripe => Sys2Proof.Machine.execRebuildStripe band stripe s
  | .coreRebalance busy => Sys2Proof.Machine.execCoreRebalance busy s
  | .reclaimVictim => Sys2Proof.Machine.execReclaimVictim s
  | .copyStripeInstall stripe verified => Sys2Proof.Machine.execCopyStripeInstall stripe verified s
  | .scoreAgeTick => Sys2Proof.Machine.execScoreAgeTick s
  | .bandEraseStart band => Sys2Proof.Machine.execBandEraseStart band s
  | .wearPersist => Sys2Proof.Machine.execWearPersist s
  | .spaceGrant slot => Sys2Proof.Machine.execSpaceGrant slot s
  | .chnRead ch queue byCore d => Sys2Proof.Machine.execChnRead ch queue byCore d s
  | .chnProgram ch queue byCore d => Sys2Proof.Machine.execChnProgram ch queue byCore d s
  | .chnErase ch queue byCore d => Sys2Proof.Machine.execChnErase ch queue byCore d s
  | .chnReadTrailer ch queue byCore d => Sys2Proof.Machine.execChnReadTrailer ch queue byCore d s
  | .chnGetFeatures ch queue byCore d => Sys2Proof.Machine.execChnGetFeatures ch queue byCore d s
  | .chnSetFeatures ch queue byCore d => Sys2Proof.Machine.execChnSetFeatures ch queue byCore d s
  | .chnReadParameter ch queue byCore d => Sys2Proof.Machine.execChnReadParameter ch queue byCore d s
  | .chnResetDie ch queue byCore d => Sys2Proof.Machine.execChnResetDie ch queue byCore d s
  | .chnMark ch queue byCore d => Sys2Proof.Machine.execChnMark ch queue byCore d s
  | .chnReadId ch queue byCore d => Sys2Proof.Machine.execChnReadId ch queue byCore d s
  | .chnTrain ch queue byCore d => Sys2Proof.Machine.execChnTrain ch queue byCore d s
  | .dieDispatch ch die => Sys2Proof.Machine.execDieDispatch ch die s
  | .dieOpComplete ch die result dieStat elapsed => Sys2Proof.Machine.execDieOpComplete ch die result dieStat elapsed s
  | .suspendIssue ch die ran => Sys2Proof.Machine.execSuspendIssue ch die ran s
  | .dieTimeout ch die resetReady => Sys2Proof.Machine.execDieTimeout ch die resetReady s
  | .descriptorStarve ch queue die => Sys2Proof.Machine.execDescriptorStarve ch queue die s
  | .chnCheadWrite src ch value => Sys2Proof.Machine.execChnCheadWrite src ch value s
  | .chnRetrain src ch trains => Sys2Proof.Machine.execChnRetrain src ch trains s
  | .chnRateTargetWrite src ch value trains => Sys2Proof.Machine.execChnRateTargetWrite src ch value trains s
  | .carrierPresenceChange c present => Sys2Proof.Machine.execCarrierPresenceChange c present s
  | .carrierButtonPress c => Sys2Proof.Machine.execCarrierButtonPress c s
  | .carrierRemove src c => Sys2Proof.Machine.execCarrierRemove src c s
  | .carrierCancel src c => Sys2Proof.Machine.execCarrierCancel src c s
  | .carrierInsert src c => Sys2Proof.Machine.execCarrierInsert src c s
  | .carrierLocate src c => Sys2Proof.Machine.execCarrierLocate src c s
  | .carrierPowerDelay c => Sys2Proof.Machine.execCarrierPowerDelay c s
  | .carrierDiscoveryDone c dies record dieHash => Sys2Proof.Machine.execCarrierDiscoveryDone c dies record dieHash s
  | .carrierReconcileDone c currentBands => Sys2Proof.Machine.execCarrierReconcileDone c currentBands s
  | .evacuationDone c => Sys2Proof.Machine.execEvacuationDone c s
  | .carrierQuiesceDone c => Sys2Proof.Machine.execCarrierQuiesceDone c s
  | .refuseBlinkExpire c => Sys2Proof.Machine.execRefuseBlinkExpire c s
  | .departureRecordExpire c => Sys2Proof.Machine.execDepartureRecordExpire c s
  | .codewordDecode unit slot step decodes => Sys2Proof.Machine.execCodewordDecode unit slot step decodes s
  | .aizaikHello hdr vers serial => Sys2Proof.Machine.execAizaikHello hdr vers serial s
  | .aizaikHelloAck hdr chosen serial => Sys2Proof.Machine.execAizaikHelloAck hdr chosen serial s
  | .heartbeat hdr vmax => Sys2Proof.Machine.execHeartbeat hdr vmax s
  | .ack hdr => Sys2Proof.Machine.execAck hdr s
  | .mapOffer hdr => Sys2Proof.Machine.execMapOffer hdr s
  | .mapRequest hdr epoch => Sys2Proof.Machine.execMapRequest hdr epoch s
  | .mapData hdr epoch offset whole => Sys2Proof.Machine.execMapData hdr epoch offset whole s
  | .fragWrite hdr op symbols => Sys2Proof.Machine.execFragWrite hdr op symbols s
  | .fragDone hdr op => Sys2Proof.Machine.execFragDone hdr op s
  | .fragRead hdr op => Sys2Proof.Machine.execFragRead hdr op s
  | .fragData hdr op symbols => Sys2Proof.Machine.execFragData hdr op symbols s
  | .fragDiscard hdr op => Sys2Proof.Machine.execFragDiscard hdr op s
  | .sweepDone hdr hkey k m home elig => Sys2Proof.Machine.execSweepDone hdr hkey k m home elig s
  | .linkHelloRetry peer => Sys2Proof.Machine.execLinkHelloRetry peer s
  | .ackTimer peer => Sys2Proof.Machine.execAckTimer peer s
  | .retransmitTimeout peer => Sys2Proof.Machine.execRetransmitTimeout peer s
  | .heartbeatTimer => Sys2Proof.Machine.execHeartbeatTimer s
  | .peerDeadTimeout peer plane => Sys2Proof.Machine.execPeerDeadTimeout peer plane s
  | .leaseExpire => Sys2Proof.Machine.execLeaseExpire s
  | .herdJobStart job => Sys2Proof.Machine.execHerdJobStart job s
  | .jobDeferTimeout job => Sys2Proof.Machine.execJobDeferTimeout job s
  | .jobRetryTimer => Sys2Proof.Machine.execJobRetryTimer s
  | .sweepStripe ns => Sys2Proof.Machine.execSweepStripe ns s
  | .misslogExpire peer => Sys2Proof.Machine.execMisslogExpire peer s
  | .ethertypeWrite src value => Sys2Proof.Machine.execEthertypeWrite src value s
  | .hrdMacWrite src plane value => Sys2Proof.Machine.execHrdMacWrite src plane value s
  | .hrdPortAnWrite src plane an => Sys2Proof.Machine.execHrdPortAnWrite src plane an s
  | .peerLinkChange plane up => Sys2Proof.Machine.execPeerLinkChange plane up s
  | .powerFail => Sys2Proof.Machine.execPowerFail s
  | .bankSample code => Sys2Proof.Machine.execBankSample code s
  | .energyRecompute => Sys2Proof.Machine.execEnergyRecompute s
  | .horizonWrite => Sys2Proof.Machine.execHorizonWrite s
  | .chargeGrant slot => Sys2Proof.Machine.execChargeGrant slot s
  | .flushWritebackDone => Sys2Proof.Machine.execFlushWritebackDone s
  | .flushStripeDone ok => Sys2Proof.Machine.execFlushStripeDone ok s
  | .flushComplete us => Sys2Proof.Machine.execFlushComplete us s
  | .recoveryStep => Sys2Proof.Machine.execRecoveryStep s
  | .bpmAllocRequest src value => Sys2Proof.Machine.execBpmAllocRequest src value s
  | .bpmRelease src value => Sys2Proof.Machine.execBpmRelease src value s
  | .matchScan bad late => Sys2Proof.Machine.execMatchScan bad late s
  | .matchSlideDone partition => Sys2Proof.Machine.execMatchSlideDone partition s
  | .matLookup src addr => Sys2Proof.Machine.execMatLookup src addr s
  | .matRead src addr => Sys2Proof.Machine.execMatRead src addr s
  | .matWrite src addr => Sys2Proof.Machine.execMatWrite src addr s
  | .matInsert src addr => Sys2Proof.Machine.execMatInsert src addr s
  | .matDelete src addr => Sys2Proof.Machine.execMatDelete src addr s
  | .matInvalidate src addr => Sys2Proof.Machine.execMatInvalidate src addr s
  | .muleRingEnable src ring => Sys2Proof.Machine.execMuleRingEnable src ring s
  | .muleRingDisable src ring => Sys2Proof.Machine.execMuleRingDisable src ring s
  | .muleRingResume src ring => Sys2Proof.Machine.execMuleRingResume src ring s
  | .muleRingKick src ring => Sys2Proof.Machine.execMuleRingKick src ring s
  | .muleDescriptor ring fetchOk => Sys2Proof.Machine.execMuleDescriptor ring fetchOk s
  | .muleDescriptorDone ring data dataAnswer writeBackOk => Sys2Proof.Machine.execMuleDescriptorDone ring data dataAnswer writeBackOk s
  | .mulePaceResume ring => Sys2Proof.Machine.execMulePaceResume ring s
  | .k7Start src channel data dataAnswer => Sys2Proof.Machine.execK7Start src channel data dataAnswer s
  | .refreshTick ch => Sys2Proof.Machine.execRefreshTick ch s
  | .mr4Poll ch hot => Sys2Proof.Machine.execMr4Poll ch hot s
  | .rowIdleClose ch bank => Sys2Proof.Machine.execRowIdleClose ch bank s
  | .patrolScrub ch result => Sys2Proof.Machine.execPatrolScrub ch result s
  | .sdramChannelFailure ch => Sys2Proof.Machine.execSdramChannelFailure ch s
  | .sdramLossCleanup => Sys2Proof.Machine.execSdramLossCleanup s
  | .writeLevelTrack ch device rank delay => Sys2Proof.Machine.execWriteLevelTrack ch device rank delay s
  | .sdcModeWrite src ch mode => Sys2Proof.Machine.execSdcModeWrite src ch mode s
  | .tcmdMrw src ch sub rank operand => Sys2Proof.Machine.execTcmdMrw src ch sub rank operand s
  | .tcmdMrr src ch sub rank operand data => Sys2Proof.Machine.execTcmdMrr src ch sub rank operand data s
  | .tcmdMpc src ch sub rank operand => Sys2Proof.Machine.execTcmdMpc src ch sub rank operand s
  | .tcmdPatternWrite src ch sub rank operand => Sys2Proof.Machine.execTcmdPatternWrite src ch sub rank operand s
  | .tcmdPatternCompare src ch sub rank operand fails => Sys2Proof.Machine.execTcmdPatternCompare src ch sub rank operand fails s
  | .configWrite f field value => Sys2Proof.Machine.execConfigWrite f field value s
  | .busMasterClear f => Sys2Proof.Machine.execBusMasterClear f s
  | .busMasterSet f => Sys2Proof.Machine.execBusMasterSet f s
  | .d3hotEntry f => Sys2Proof.Machine.execD3hotEntry f s
  | .d0Return f => Sys2Proof.Machine.execD0Return f s
  | .flr f => Sys2Proof.Machine.execFlr f s
  | .vfEnableClear p => Sys2Proof.Machine.execVfEnableClear p s
  | .vfEnableSet p => Sys2Proof.Machine.execVfEnableSet p s
  | .perstAssert p => Sys2Proof.Machine.execPerstAssert p s
  | .perstDeassert p => Sys2Proof.Machine.execPerstDeassert p s
  | .hotReset p => Sys2Proof.Machine.execHotReset p s
  | .linkDown p => Sys2Proof.Machine.execLinkDown p s
  | .linkUp p rate width flit => Sys2Proof.Machine.execLinkUp p rate width flit s
  | .hstMaxrateWrite src p rate => Sys2Proof.Machine.execHstMaxrateWrite src p rate s
  | .hostReadCompletion p tag status => Sys2Proof.Machine.execHostReadCompletion p tag status s
  | .completionTimeout p tag => Sys2Proof.Machine.execCompletionTimeout p tag s
  | .tagQuarantineEnd p tag => Sys2Proof.Machine.execTagQuarantineEnd p tag s
  | .chipResetAssert => Sys2Proof.Machine.execChipResetAssert s
  | .chipResetRelease straps sysclk refA refB => Sys2Proof.Machine.execChipResetRelease straps sysclk refA refB s
  | .strapFaceEnd => Sys2Proof.Machine.execStrapFaceEnd s
  | .bootImageCheck norPresent slotA slotB => Sys2Proof.Machine.execBootImageCheck norPresent slotA slotB s
  | .loaderRun board entropyFails parkUs => Sys2Proof.Machine.execLoaderRun board entropyFails parkUs s
  | .bootCastle norWriteOk => Sys2Proof.Machine.execBootCastle norWriteOk s
  | .fuseProgram src bit blows => Sys2Proof.Machine.execFuseProgram src bit blows s
  | .grdLockWrite src value => Sys2Proof.Machine.execGrdLockWrite src value s
  | .coreHandover => Sys2Proof.Machine.execCoreHandover s
  | .handoverImportDone commitOk => Sys2Proof.Machine.execHandoverImportDone commitOk s
  | .handoverTimeout => Sys2Proof.Machine.execHandoverTimeout s
  | .coreWatchdog c => Sys2Proof.Machine.execCoreWatchdog c s
  | .coreFault c cause => Sys2Proof.Machine.execCoreFault c cause s
  | .engineIslandFault kind idx => Sys2Proof.Machine.execEngineIslandFault kind idx s
  | .halt cause island => Sys2Proof.Machine.execHalt cause island s
  | .hourTick => Sys2Proof.Machine.execHourTick s
  | .clearStats src => Sys2Proof.Machine.execClearStats src s
  | .thermalSample temp cooled tripped => Sys2Proof.Machine.execThermalSample temp cooled tripped s
  | .thermtrip => Sys2Proof.Machine.execThermtrip s
  | .freezeN => Sys2Proof.Machine.execFreezeN s
  | .freezeRequest src => Sys2Proof.Machine.execFreezeRequest src s
  | .channelIslandFault ch => Sys2Proof.Machine.execChannelIslandFault ch s
  | .frameDiscard plane => Sys2Proof.Machine.execFrameDiscard plane s
  | .bar0ReadError p addr size => Sys2Proof.Machine.execBar0ReadError p addr size s
  | .evacuationCopy c => Sys2Proof.Machine.execEvacuationCopy c s
  | .coreSupplyLoss => Sys2Proof.Machine.execCoreSupplyLoss s
  | .tapOperation op => Sys2Proof.Machine.execTapOperation op s
  | .setdasa address => Sys2Proof.Machine.execSetdasa address s
  | .entdaa address => Sys2Proof.Machine.execEntdaa address s

end Sys2Proof.Machine
end

