-- ==== Sys2Proof/Certificates/Slice0/Obligations.lean ====
section
/-! DEFINITION. The statements for the provers: what the N9's rules say its commands do, what they leave unchanged, and
what holds in every state that a step reaches. -/

open Sys2Proof Sys2Proof.Machine


/-! ## Doorbells, packet fetch, records (chapter 03) -/

/-- R44, R45, R77: a doorbell in range is taken in. The submission ring's tail is the value, the packets rung advance by
the distance from the old tail, and the rung counts of the function's rings are noted (R120); the completion ring's head is
the value. Nothing else changes. -/
def Sys2Proof.Ob.DoorbellTaken : Prop :=
  (∀ (f : Fn) (off size ring : Nat) (v : DWord) (s : State) (r : SubRing),
    s.up = true → s.fnAnswers f = true → doorbellSlot f off = some (false, ring, 0) → (size = 4 ∨ size = 8) →
    s.cmds.sqs.look (ringKey f.key ring) = some r → r.faulted = false → r.stopped = false →
    doorbellValue size v < r.size →
    exec (.sqDoorbellWrite f off size v) s = .next { s with cmds := { s.cmds with
      sqs := s.cmds.sqs.put (ringKey f.key ring)
        { r with
          tail := doorbellValue size v
          rung := r.rung + (doorbellValue size v + r.size - r.tail) % r.size
          bells := r.bells ++ [{ upTo := r.rung + (doorbellValue size v + r.size - r.tail) % r.size,
                                 notes := s.bellNotes f.key }] } } }) ∧
  (∀ (f : Fn) (off size ring : Nat) (v : DWord) (s : State) (q : CplRing),
    s.up = true → s.fnAnswers f = true → doorbellSlot f off = some (true, ring, 0) → (size = 4 ∨ size = 8) →
    s.cmds.cqs.look (ringKey f.key ring) = some q → q.faulted = false → doorbellValue size v < q.size →
    (doorbellValue size v + q.size - q.head) % q.size ≤ (q.tail + q.size - q.head) % q.size →
    exec (.cqDoorbellWrite f off size v) s = .next { s with cmds := { s.cmds with
      cqs := s.cmds.cqs.put (ringKey f.key ring) { q with head := doorbellValue size v } } })

/-- R78, R79: a tail or head outside the ring faults the ring with cause 0x1, a completion head past the posted entries with
cause 0x2; the value is discarded, the ring's other fields stay, CCP_RINGERR gets the fault, and the function's other rings
and every command in flight stay. R45: a doorbell write of another size, or to a ring that does not exist, is discarded and
counted in HST_DBDROP and does nothing else. -/
def Sys2Proof.Ob.DoorbellRefused : Prop :=
  (∀ (f : Fn) (off size ring : Nat) (v : DWord) (s : State) (r : SubRing),
    s.up = true → s.fnAnswers f = true → doorbellSlot f off = some (false, ring, 0) → (size = 4 ∨ size = 8) →
    s.cmds.sqs.look (ringKey f.key ring) = some r → r.faulted = false → r.stopped = false →
    r.size ≤ doorbellValue size v →
    ∃ t, exec (.sqDoorbellWrite f off size v) s = .next t ∧
      t.cmds = { s.cmds with sqs := s.cmds.sqs.put (ringKey f.key ring) { r with faulted := true } } ∧
      t.reg (Reg.CCP_RINGERR f.key) = ringErrValue (s.reg (Reg.CCP_RINGERR f.key)) false ring 1 ∧
      (t.statOf (Reg.EVT_FSTAT f.key)).isSet 0 = true) ∧
  (∀ (f : Fn) (off size ring : Nat) (v : DWord) (s : State) (q : CplRing),
    s.up = true → s.fnAnswers f = true → doorbellSlot f off = some (true, ring, 0) → (size = 4 ∨ size = 8) →
    s.cmds.cqs.look (ringKey f.key ring) = some q → q.faulted = false →
    (q.size ≤ doorbellValue size v ∨
      (q.tail + q.size - q.head) % q.size < (doorbellValue size v + q.size - q.head) % q.size) →
    ∃ t, exec (.cqDoorbellWrite f off size v) s = .next t ∧
      t.cmds = { s.cmds with cqs := s.cmds.cqs.put (ringKey f.key ring) { q with faulted := true } } ∧
      t.reg (Reg.CCP_RINGERR f.key) = ringErrValue (s.reg (Reg.CCP_RINGERR f.key)) true ring
        (if q.size ≤ doorbellValue size v then 1 else 2) ∧
      (t.statOf (Reg.EVT_FSTAT f.key)).isSet 0 = true) ∧
  (∀ (f : Fn) (off size ring byte : Nat) (v : DWord) (s : State),
    s.up = true → s.fnAnswers f = true → doorbellSlot f off = some (false, ring, byte) →
    (doorbellSizeOk byte size = false ∨ s.cmds.sqs.look (ringKey f.key ring) = none) →
    exec (.sqDoorbellWrite f off size v) s = .next (s.count (Reg.HST_DBDROP f.port.num) 1)) ∧
  (∀ (f : Fn) (off size ring byte : Nat) (v : DWord) (s : State),
    s.up = true → s.fnAnswers f = true → doorbellSlot f off = some (true, ring, byte) →
    (doorbellSizeOk byte size = false ∨ s.cmds.cqs.look (ringKey f.key ring) = none) →
    exec (.cqDoorbellWrite f off size v) s = .next (s.count (Reg.HST_DBDROP f.port.num) 1))

/-- R76, R217, R452: a visit of a port's rounds with the ring that is next. Without packets the request goes out and holds a
tag; with one packet of a known opcode it goes into flight in the lowest free slot, fetched, under the ring's class and its
number in ring order, and the ring's head and count of fetched packets advance by one. -/
def Obligations.PacketFetched : Prop :=
  (∀ (p : Port) (s : State) (k : Nat) (r : SubRing),
    s.serving = true → (s.portOf p).inReset = false → s.nextRing p = some (k, r) →
    ∃ t, exec (.packetFetch p []) s = .next t ∧ t.cmds = s.cmds ∧ (t.portOf p).lastRing = k + 1 ∧
      (t.portOf p).tags = (s.portOf p).tags ++
        [{ tag := (s.portOf p).freeTag, owner := .packet (Fn.ofKey (k / 65536)) (k % 65536), quarantined := false }]) ∧
  (∀ (p : Port) (s : State) (k : Nat) (r : SubRing) (pk : BitVec 512),
    s.serving = true → (s.portOf p).inReset = false → s.nextRing p = some (k, r) →
    s.cmds.sqs.look k = some r → (k % 65536 = 0 ∨ 0 < r.weight) → opKnown (pkOpcode pk) = true →
    ∃ t, exec (.packetFetch p [pk]) s = .next t ∧
      t.cmds.sqs = s.cmds.sqs.put k { r with
        head := (r.head + 1) % r.size, fetched := r.fetched + 1,
        bells := r.bells.filter fun b => decide (r.fetched + 1 < b.upTo) } ∧
      t.cmds.inflight = s.cmds.inflight.put (s.cmds.inflight.firstFree 0)
        (fetchedCmd (Fn.ofKey (k / 65536)) (k % 65536) r.cls r.fetched (notesFor r.bells r.fetched) pk) ∧
      t.cmds.cqs = s.cmds.cqs ∧ t.cmds.locks = s.cmds.locks ∧ t.regs = s.regs ∧ t.ram = s.ram)

/-- R74, R75, R80, R93: a record held because its ring was full is posted once an entry is free: it is written to the entry
at the tail with the ring's phase bit, the tail advances, the phase inverts at the wrap, and the command's slot, locks and
pips are free again. R93: AGG_TIME after the first unsignalled record the ring's vector is signalled and none is left
unsignalled. -/
def Obligations.RecordPosted : Prop :=
  (∀ (f : Fn) (cq : Nat) (s : State) (q : CplRing) (x : HeldRecord) (rest : List HeldRecord) (c : Cmd),
    s.up = true → s.cmds.cqs.look (ringKey f.key cq) = some q → q.held = x :: rest → q.full = false →
    q.faulted = false → s.mayWriteHost f.key = true → s.cmds.inflight.look x.slot = some c → c.fn = f →
    ∃ t r, exec (.heldRecordPost f cq) s = .next t ∧ Out.record f cq q.tail q.split r ∈ t.out ∧
      t.cmds.cqs = s.cmds.cqs.put (ringKey f.key cq)
        { q with
          held := rest, tail := (q.tail + 1) % q.size
          phase := if (q.tail + 1) % q.size = 0 then !q.phase else q.phase
          unsignalled := if cqSignals cq { q with held := rest } then 0 else q.unsignalled + 1 } ∧
      t.cmds.inflight = s.cmds.inflight.del x.slot ∧
      t.cmds.locks = s.cmds.locks.filter (fun l => decide (l.slot ≠ x.slot)) ∧ t.ram = s.ram ∧ t.nss = s.nss) ∧
  (∀ (f : Fn) (cq : Nat) (s : State) (q : CplRing),
    s.up = true → s.cmds.cqs.look (ringKey f.key cq) = some q → q.ien = true → q.aggTime ≠ 0 → q.unsignalled ≠ 0 →
    ∃ t, exec (.cqAggTimer f cq) s = .next t ∧
      t.cmds = { s.cmds with cqs := s.cmds.cqs.put (ringKey f.key cq) { q with unsignalled := 0 } } ∧
      (s.mayMessage f.key q.vector = true → t.out = s.out ++ [.msix (Fn.ofKey f.key) q.vector]) ∧
      (s.mayMessage f.key q.vector = false → (t.vecOf f.key q.vector).pend = true) ∧ t.regs = s.regs ∧ t.ram = s.ram)

/-! ## Register accesses (chapter 02) -/

/-- R50: a wrong key ends the arming that the source holds for the block, advances MISMATCH_COUNT and sets KEY_MISMATCH (event
bit 0 of the block's status register). -/
def Obligations.WrongKeyEndsArming : Prop :=
  ∀ (src : Source) (window : Nat) (v : Half) (s : State),
    s.up = true → 1 ≤ window → window ≤ 26 → s.judge src (window * 0x100000 + 8) 4 true = .served →
    keyOf window ≠ some v →
    ∃ t, exec (.blockKeyWrite src window v) s = .next t ∧
      t.isArmed src window = false ∧
      t.reg (headerAddr src window 0x0C) = mismatchAdd (s.reg (headerAddr src window 0x0C)) ∧
      (t.statOf (headerAddr src window 0x10)).isSet 0 = true

/-- R49: the block's key value arms the source for that block; the armings of other sources and for other blocks stay, and
nothing else changes. -/
def Sys2Proof.Ob.KeyArms : Prop :=
  ∀ (src : Source) (window : Nat) (v : Half) (s : State),
    s.up = true → 1 ≤ window → window ≤ 26 → s.judge src (window * 0x100000 + 8) 4 true = .served →
    keyOf window = some v →
    ∃ t, exec (.blockKeyWrite src window v) s = .next t ∧
      t.isArmed src window = true ∧ t = { s with armed := t.armed } ∧
      ∀ (src' : Source) (w' : Nat), (src', w') ≠ (src, window) → t.isArmed src' w' = s.isArmed src' w'

/-- R56: an ACK value not ahead of SEQ clears exactly the events whose stamps it covers; one ahead of SEQ clears none and sets
ACK_REJECTED (event bit 2) of a block's status register. No register value and no memory byte changes. -/
def Sys2Proof.Ob.AckClears : Prop :=
  (∀ (src : Source) (reg : Nat) (a : Half) (s : State),
    s.up = true → isStatReg (resolve src reg) = true → s.judge src reg 8 true = .served →
    (s.statOf (resolve src reg)).ackAhead a = false →
    ∃ t, exec (.statAckWrite src reg a) s = .next t ∧ t.regs = s.regs ∧ t.ram = s.ram ∧
      ∀ (b : Nat) (x : Half), (b, x) ∈ (t.statOf (resolve src reg)).stamps ↔
        (b, x) ∈ (s.statOf (resolve src reg)).stamps ∧ 32768 ≤ (a - x).toNat) ∧
  (∀ (src : Source) (reg : Nat) (a : Half) (s : State),
    s.up = true → isStatReg (resolve src reg) = true → s.judge src reg 8 true = .served →
    (s.statOf (resolve src reg)).ackAhead a = true → resolve src reg < 0x1_0000_0000 →
    ∃ t, exec (.statAckWrite src reg a) s = .next t ∧ t.regs = s.regs ∧ t.ram = s.ram ∧
      (t.statOf (resolve src reg)).isSet 2 = true ∧
      ∀ b, (s.statOf (resolve src reg)).isSet b = true → (t.statOf (resolve src reg)).isSet b = true)

/-- R55, R58: an event advances SEQ by one, sets its bit with the new SEQ as its stamp, keeps the other bits set, and leaves
no stamp more than 32,767 behind SEQ. -/
def Sys2Proof.Ob.EventStamps : Prop :=
  ∀ (r : StatReg) (b : Nat),
    (r.event b).seq = r.seq + 1 ∧ SMap.look (r.event b).stamps b = some (r.seq + 1) ∧
      (∀ c, c ≠ b → ((r.event b).isSet c = r.isSet c)) ∧
      ∀ e ∈ (r.event b).stamps, ((r.event b).seq - e.2).toNat ≤ 32767

/-- R13, R61, R64, R67: a write that reaches a register and crosses to no other island, or to one that answers with nothing
waiting before it, takes effect at once; toward a stalled island it waits behind the writes before it. R66: the writes that
wait take effect in order, each once, when the island resumes, and are discarded when it has been isolated. -/
def Sys2Proof.Ob.RegisterWriteReaches : Prop :=
  (∀ (src : Source) (addr size : Nat) (value : DWord) (x : Crossing) (s : State),
    s.up = true → addr < 0x2_0000_0000 → s.sourceReaches src addr = true → s.judge src addr size true = .served →
    (crosses src addr = false ∨ s.mustWait src addr x = false) →
    exec (.registerWrite src addr size value x) s = .next (s.writeReg src addr size value)) ∧
  (∀ (src : Source) (addr size : Nat) (value : DWord) (x : Crossing) (s : State),
    s.up = true → addr < 0x2_0000_0000 → s.sourceReaches src addr = true → s.judge src addr size true = .served →
    crosses src addr = true → s.mustWait src addr x = true →
    exec (.registerWrite src addr size value x) s = .next { s with posted := s.posted ++
      [{ src := src, island := islandOf (resolve src addr) src.port, addr := addr, size := size, value := value }] }) ∧
  (∀ (p : Port) (island : Nat) (s : State) (q : PostedWrite),
    s.up = true → s.isIsolated island = false → s.late = [q] → s.posted = [] → q.src = .pf p → q.island = island →
    exec (.stalledWriteApply p island) s =
      .next (State.writeReg { s with late := [] } (.pf p) q.addr q.size q.value)) ∧
  (∀ (p : Port) (island : Nat) (s : State),
    s.up = true → s.isIsolated island = true →
    exec (.stalledWriteApply p island) s = .next { s with
      late := s.late.filter fun q => !decide (q.src = .pf p ∧ q.island = island)
      posted := s.posted.filter fun q => !decide (q.src = .pf p ∧ q.island = island) })

/-- R12, R49, R51: a write of the bits `wm` of a register that has a keyed field among them, where no rule of the register's
own holds it or keeps bits out. Without an arming the plain fields take the value, the keyed ones stay and
KEYED_WRITE_IGNORED (event bit 1) is set; with an arming, outside what the guard lock protects, both take it and the arming
ends. Every bit outside the written fields stays. -/
def Sys2Proof.Ob.FieldsTakeWrites : Prop :=
  ∀ (s : State) (src : Source) (row : RegRow) (base : Nat) (wm v : DWord),
    s.heldByEnable row base = false → s.debugLevel ≠ 2 → ownStep row = 0 →
    (∀ (t : State) (m old : DWord), t.afterWrite row base m old = t) →
    (∀ (m w : DWord), s.writeRule row base m w = (0, none)) → row.maskOf .rwk &&& wm ≠ 0 →
    (s.isArmed src (windowOf base) = false →
      (s.writeFields src row base wm v).reg base =
          (s.reg base &&& ~~~(wm &&& row.maskOf .rw)) ||| (v &&& (wm &&& row.maskOf .rw)) ∧
        ((s.writeFields src row base wm v).statOf (headerAddr src (windowOf base) 0x10)).isSet 1 = true) ∧
    (s.isArmed src (windowOf base) = true → (s.guardLocked = false ∨ windowOf base < 19 ∨ 21 < windowOf base) →
      (s.writeFields src row base wm v).reg base =
          (s.reg base &&& ~~~(wm &&& (row.maskOf .rw ||| (row.maskOf .rwk &&& wm)))) |||
            (v &&& (wm &&& (row.maskOf .rw ||| (row.maskOf .rwk &&& wm)))) ∧
        (s.writeFields src row base wm v).isArmed src (windowOf base) = false)

/-- R64, R65, R66, R67, R69: an access that its island does not answer ends with cause 0x1. A BAR0 read returns all ones, a
core's read ends in an access fault, a posted BAR0 write leaves the queue and may still take effect once; the port's record
counts each. R46, R65, R68, R69: a BAR0 read that is refused returns all ones at once, and is recorded and counted. -/
def Obligations.AccessErrors : Prop :=
  (∀ (p : Port) (a : Nat) (s : State), s.up = true →
    ∃ t, exec (.registerAccessTimeout (.pf p) a false) s = .next t ∧ Out.allOnes p a 4 ∈ t.out ∧
      t.fld (Reg.HST_REGERR p.num) Reg.HST_REGERR_.CAUSE = 1 ∧ t.fld (Reg.HST_REGERR p.num) Reg.HST_REGERR_.DIR = 0 ∧
      t.reg (Reg.HST_REGERRCNT p.num) = counterAdd (s.reg (Reg.HST_REGERRCNT p.num)) 1 ∧ t.ram = s.ram ∧ t.cmds = s.cmds) ∧
  (∀ (c : CoreId) (a : Nat) (s : State), s.up = true →
    ∃ t, exec (.registerAccessTimeout (.core c) a false) s = .next t ∧ Out.accessFault c a ∈ t.out) ∧
  (∀ (p : Port) (a : Nat) (s : State) (q : PostedWrite), s.up = true → s.posted = [q] → q.addr = a → q.src = .pf p →
    q.island = islandOf (resolve (.pf p) a) p →
    ∃ t, exec (.registerAccessTimeout (.pf p) a true) s = .next t ∧ t.posted = [] ∧ t.late = s.late ++ [q] ∧
      t.fld (Reg.HST_REGERR p.num) Reg.HST_REGERR_.CAUSE = 1 ∧ t.fld (Reg.HST_REGERR p.num) Reg.HST_REGERR_.DIR = 1 ∧
      t.reg (Reg.HST_REGERRCNT p.num) = counterAdd (s.reg (Reg.HST_REGERRCNT p.num)) 1) ∧
  (∀ (p : Port) (a size cause : Nat) (s : State), s.up = true → s.fnAnswers { port := p, idx := 0 } = true →
    s.judge (.pf p) a size false = .error cause → cause < 16 →
    ∃ t, exec (.bar0ReadError p a size) s = .next t ∧ Out.allOnes p a size ∈ t.out ∧
      t.fld (Reg.HST_REGERR p.num) Reg.HST_REGERR_.CAUSE = cause ∧ t.fld (Reg.HST_REGERR p.num) Reg.HST_REGERR_.DIR = 0 ∧
      t.fld (Reg.HST_REGERR p.num) Reg.HST_REGERR_.OFFSET = a % 2 ^ 26 ∧
      t.reg (Reg.HST_REGERRCNT p.num) = counterAdd (s.reg (Reg.HST_REGERRCNT p.num)) 1 ∧ t.ram = s.ram ∧ t.cmds = s.cmds)

/-! ## Functions and ports (chapters 03 and 14) -/

/-- R83, R451: setting ENABLE in BOOT is held and starts nothing; out of BOOT a function whose set-up is in range becomes
READY with fresh administrative rings of the sizes and bases its registers give, one whose set-up is not shows FAULT and has
no ring added. -/
def Sys2Proof.Ob.FunctionEnabled : Prop :=
  (∀ (f : Fn) (s : State), s.up = true → s.fnAnswers f = true →
    s.fld (Reg.CCP_FCTRL f.key) Reg.CCP_FCTRL_.ENABLE = 0 → s.mode = modeBoot →
    exec (.functionEnable f) s = .next (s.setFn f.key { s.fnOf f.key with enableHeld := true })) ∧
  (∀ (f : Fn) (s : State), s.up = true → s.fnAnswers f = true →
    s.fld (Reg.CCP_FCTRL f.key) Reg.CCP_FCTRL_.ENABLE = 0 → s.mode ≠ modeBoot →
    (s.setFld (Reg.CCP_FCTRL f.key) Reg.CCP_FCTRL_.ENABLE 1).setupOk f.key = true →
    ∃ t q r, exec (.functionEnable f) s = .next t ∧ t.fld (Reg.CCP_FSTAT f.key) Reg.CCP_FSTAT_.READY = 1 ∧
      t.fld (Reg.CCP_FCTRL f.key) Reg.CCP_FCTRL_.ENABLE = 1 ∧
      t.cmds.sqs.look (ringKey f.key 0) = some q ∧ t.cmds.cqs.look (ringKey f.key 0) = some r ∧
      q.log2 = s.fld (Reg.CCP_ASIZE f.key) Reg.CCP_ASIZE_.ASQ_LOG2 ∧ q.head = 0 ∧ q.tail = 0 ∧
      r.log2 = s.fld (Reg.CCP_ASIZE f.key) Reg.CCP_ASIZE_.ACQ_LOG2 ∧ r.head = 0 ∧ r.tail = 0 ∧ r.phase = true ∧
      t.cmds.inflight = s.cmds.inflight ∧ t.ram = s.ram ∧ t.hosts = s.hosts) ∧
  (∀ (f : Fn) (s : State), s.up = true → s.fnAnswers f = true →
    s.fld (Reg.CCP_FCTRL f.key) Reg.CCP_FCTRL_.ENABLE = 0 → s.mode ≠ modeBoot →
    (s.setFld (Reg.CCP_FCTRL f.key) Reg.CCP_FCTRL_.ENABLE 1).setupOk f.key = false →
    ∃ t, exec (.functionEnable f) s = .next t ∧ t.fld (Reg.CCP_FSTAT f.key) Reg.CCP_FSTAT_.FAULT = 1 ∧
      t.cmds = s.cmds ∧ t.hosts = s.hosts ∧ t.ram = s.ram)

/-- R83, R456: clearing ENABLE leaves the function with no ring, no ENABLE, no READY and no FAULT; memory, the boot state and
the register space of other functions' rings stay. -/
def Sys2Proof.Ob.FunctionDisabled : Prop :=
  ∀ (f : Fn) (s : State), s.up = true → s.fnAnswers f = true → f.idx < 512 →
    ∃ t, exec (.functionDisable f) s = .next t ∧
      (∀ e ∈ t.cmds.sqs, e.1 / 65536 ≠ f.key) ∧ (∀ e ∈ t.cmds.cqs, e.1 / 65536 ≠ f.key) ∧
      (∀ e ∈ s.cmds.sqs, e.1 / 65536 ≠ f.key → e ∈ t.cmds.sqs) ∧
      t.boot = s.boot ∧ t.mat = s.mat ∧ t.media = s.media

/-- R443 to R447: a configuration write out of Request Retry sets the field that it names, of the physical function or, for
MSI-X Enable, of the function itself; R444: while Request Retry Status holds, the request is answered so and changes nothing. -/
def Sys2Proof.Ob.ConfigurationWritten : Prop :=
  (∀ (p : Port) (v : Word) (s : State), s.up = true → (s.portOf p).inReset = false → (s.portOf p).retry = false →
    ∃ t, exec (.configWrite { port := p, idx := 0 } .memorySpaceEnable v) s = .next t ∧
      (t.fnOf (p.num * 512)).memorySpace = v.getLsbD 0 ∧ t.regs = s.regs ∧ t.cmds = s.cmds ∧ t.ram = s.ram) ∧
  (∀ (f : Fn) (v : Word) (s : State), s.up = true → s.fnExists f = true → (s.portOf f.port).inReset = false →
    (s.portOf f.port).retry = false →
    ∃ t, exec (.configWrite f .msixEnable v) s = .next t ∧ (t.fnOf f.key).msixEnable = v.getLsbD 0 ∧
      t.regs = s.regs ∧ t.cmds = s.cmds ∧ t.ram = s.ram) ∧
  (∀ (p : Port) (v : Word) (s : State), s.up = true → (s.portOf p).inReset = false → (s.portOf p).retry = false →
    (s.portOf p).vfEnable = false → v.toNat ≤ 511 →
    ∃ t, exec (.configWrite { port := p, idx := 0 } .numVFs v) s = .next t ∧ (t.portOf p).numVFs = v.toNat ∧
      t.regs = s.regs ∧ t.cmds = s.cmds ∧ t.ram = s.ram) ∧
  (∀ (f : Fn) (field : CfgField) (v : Word) (s : State), s.up = true → s.fnExists f = true →
    (s.portOf f.port).inReset = false → (s.portOf f.port).retry = true →
    exec (.configWrite f field v) s = .next (s.emit (.requestRetry f)))

/-- R445, R456, R457: Bus Master Enable is cleared or set, D3hot entered or left; clearing Bus Master Enable in D0 and
entering D3hot with it set raise BME_CLEARED (HST_STAT bit 21), and neither changes the guard, boot or media state. -/
def Sys2Proof.Ob.BusMasteringFollows : Prop :=
  (∀ (f : Fn) (s : State), s.up = true → s.fnExists f = true → (s.portOf f.port).inReset = false →
    (s.portOf f.port).retry = false → (s.fnOf f.key).busMaster = true → (s.fnOf f.key).d3hot = false →
    ∃ t, exec (.busMasterClear f) s = .next t ∧ (t.fnOf f.key).busMaster = false ∧
      (t.statOf (hstStat f.port)).isSet 21 = true ∧ t.boot = s.boot ∧ t.media = s.media) ∧
  (∀ (f : Fn) (s : State), s.up = true → s.fnExists f = true → (s.portOf f.port).inReset = false →
    (s.portOf f.port).retry = false → (s.fnOf f.key).busMaster = false →
    ∃ t, exec (.busMasterSet f) s = .next t ∧ (t.fnOf f.key).busMaster = true ∧ t.boot = s.boot ∧ t.media = s.media ∧
      t.ram = s.ram) ∧
  (∀ (f : Fn) (s : State), s.up = true → s.fnExists f = true → (s.portOf f.port).inReset = false →
    (s.portOf f.port).retry = false → (s.fnOf f.key).busMaster = true → (s.fnOf f.key).d3hot = false →
    ∃ t, exec (.d3hotEntry f) s = .next t ∧ (t.fnOf f.key).d3hot = true ∧
      (t.statOf (hstStat f.port)).isSet 21 = true ∧ t.boot = s.boot ∧ t.media = s.media) ∧
  (∀ (f : Fn) (s : State), s.up = true → s.fnExists f = true → (s.portOf f.port).inReset = false →
    (s.portOf f.port).retry = false → (s.fnOf f.key).d3hot = true →
    ∃ t, exec (.d0Return f) s = .next t ∧ (t.fnOf f.key).d3hot = false ∧ t.boot = s.boot ∧ t.media = s.media ∧
      t.ram = s.ram)

/-- R446, R448, R456: a function-level reset leaves a VF without rings and with its configuration state reset, and raises
FUNCTION_RESET (HST_STAT bit 20); clearing VF Enable removes every VF's rings; setting it makes the VFs exist. -/
def Sys2Proof.Ob.FunctionReset : Prop :=
  (∀ (f : Fn) (s : State), s.up = true → s.fnExists f = true → (s.portOf f.port).inReset = false →
    (s.portOf f.port).retry = false → f.idx ≠ 0 → f.idx < 512 →
    ∃ t, exec (.flr f) s = .next t ∧ (∀ e ∈ t.cmds.sqs, e.1 / 65536 ≠ f.key) ∧ (∀ e ∈ t.cmds.cqs, e.1 / 65536 ≠ f.key) ∧
      (t.fnOf f.key).busMaster = false ∧ (t.fnOf f.key).msixEnable = false ∧
      (t.statOf (hstStat f.port)).isSet 20 = true ∧ t.boot = s.boot ∧ t.media = s.media) ∧
  (∀ (p : Port) (s : State), s.up = true → (s.portOf p).inReset = false → (s.portOf p).retry = false →
    (s.portOf p).vfEnable = true →
    ∃ t, exec (.vfEnableClear p) s = .next t ∧ (t.portOf p).vfEnable = false ∧
      (∀ e ∈ t.cmds.sqs, e.1 / 65536 ∉ s.vfKeys p) ∧ t.boot = s.boot) ∧
  (∀ (p : Port) (s : State), s.up = true → (s.portOf p).inReset = false → (s.portOf p).retry = false →
    (s.portOf p).vfEnable = false →
    exec (.vfEnableSet p) s = .next (s.setPort p { s.portOf p with vfEnable := true }))

/-- R459 to R461: PERST_N low, a Hot Reset and a link that goes down take the port through reset: no tag, no ring of its
physical function, the reset events of HST_STAT; PERST_N high changes the pin alone. -/
def Sys2Proof.Ob.PortReset : Prop :=
  (∀ (p : Port) (s : State), s.up = true → (s.portOf p).perstLow = false →
    ∃ t, exec (.perstAssert p) s = .next t ∧ (t.portOf p).inReset = true ∧ (t.portOf p).perstLow = true ∧
      (t.portOf p).tags = [] ∧ (∀ e ∈ t.cmds.sqs, e.1 / 65536 ≠ p.num * 512) ∧
      (t.statOf (hstStat p)).isSet 19 = true ∧ t.boot = s.boot) ∧
  (∀ (p : Port) (s : State), exec (.perstDeassert p) s = .next (s.setPort p { s.portOf p with perstLow := false })) ∧
  (∀ (p : Port) (s : State), s.up = true → (s.portOf p).inReset = false →
    ∃ t, exec (.hotReset p) s = .next t ∧ (t.portOf p).inReset = true ∧ (t.portOf p).tags = [] ∧
      (∀ e ∈ t.cmds.sqs, e.1 / 65536 ≠ p.num * 512) ∧ (t.statOf (hstStat p)).isSet 19 = true ∧ t.boot = s.boot) ∧
  (∀ (p : Port) (s : State), s.up = true → (s.portOf p).inReset = false →
    ∃ t, exec (.linkDown p) s = .next t ∧ (t.portOf p).inReset = true ∧ (t.portOf p).tags = [] ∧
      (∀ e ∈ t.cmds.sqs, e.1 / 65536 ≠ p.num * 512) ∧ (t.statOf (hstStat p)).isSet 16 = true ∧ t.boot = s.boot)

/-- R442, R460, R461: a link that comes up ends the port's reset, shows UP, its rate and its width in HST_LINK and clears the
port's reason of MOD_REASON; a keyed write of a new MAXRATE takes an up port through reset and keeps the value. -/
def Sys2Proof.Ob.LinkFollows : Prop :=
  (∀ (p : Port) (rate width : Nat) (flit : Bool) (s : State), s.up = true → (s.portOf p).inReset = true →
    (s.portOf p).perstLow = false → (s.portOf p).refClock = true → s.linkFits p rate width = true →
    ∃ t, exec (.linkUp p rate width flit) s = .next t ∧ (t.portOf p).inReset = false ∧
      t.fld (Reg.HST_LINK p.num) Reg.HST_LINK_.UP = 1 ∧ t.fld (Reg.HST_LINK p.num) Reg.HST_LINK_.RATE = rate ∧
      t.fld (Reg.HST_LINK p.num) Reg.HST_LINK_.WIDTH = width ∧ (t.reg Reg.MOD_REASON).getLsbD (reasonPort p) = false ∧
      (t.statOf (hstStat p)).isSet 17 = true ∧ t.cmds = s.cmds ∧ t.ram = s.ram ∧ t.boot = s.boot) ∧
  (∀ (src : Source) (p : Port) (rate : BitVec 4) (s : State), s.up = true →
    s.judge src (Reg.HST_LINK p.num) 4 true = .served → s.isArmed src 1 = true →
    s.fld (Reg.HST_LINK p.num) Reg.HST_LINK_.MAXRATE ≠ rate.toNat →
    ∃ t, exec (.hstMaxrateWrite src p rate) s = .next t ∧
      t.fld (Reg.HST_LINK p.num) Reg.HST_LINK_.MAXRATE = rate.toNat ∧ (t.portOf p).inReset = true ∧
      t.isArmed src 1 = false ∧ t.boot = s.boot) ∧
  (∀ (src : Source) (p : Port) (rate : BitVec 4) (s : State), s.up = true →
    s.judge src (Reg.HST_LINK p.num) 4 true = .served → s.isArmed src 1 = false →
    ∃ t, exec (.hstMaxrateWrite src p rate) s = .next t ∧ t.regs = s.regs ∧ t.hosts = s.hosts ∧
      (t.statOf (headerAddr src 1 0x10)).isSet 1 = true)

/-- R452, R454, R455: a completion for a quarantined tag is discarded and counted in HST_LATE; one that ends a packet's read
frees its tag. A timeout quarantines the tag, is counted in HST_TIMEOUTS and raises HOST_TIMEOUT (HST_STAT bit 22); the
quarantine's end frees the tag. -/
def Sys2Proof.Ob.TagsFollow : Prop :=
  (∀ (p : Port) (n : Nat) (st : CplStatus) (s : State) (x : Tag), s.up = true → (s.portOf p).inReset = false →
    (s.portOf p).tags.find? (fun t => decide (t.tag = n)) = some x → x.quarantined = true →
    ∃ t, exec (.hostReadCompletion p n st) s = .next t ∧ t.reg (Reg.HST_LATE p.num) = counterAdd (s.reg (Reg.HST_LATE p.num)) 1 ∧
      (t.portOf p).tags = (s.portOf p).tags ∧ (t.statOf (hstStat p)).isSet 23 = true ∧ t.cmds = s.cmds ∧ t.ram = s.ram) ∧
  (∀ (p : Port) (n : Nat) (s : State) (x : Tag) (f : Fn) (ring : Nat), s.up = true → (s.portOf p).inReset = false →
    (s.portOf p).tags.find? (fun t => decide (t.tag = n)) = some x → x.quarantined = false → x.owner = .packet f ring →
    exec (.hostReadCompletion p n .ok) s = .next (s.setPort p { s.portOf p with tags := (s.portOf p).tags.erase x })) ∧
  (∀ (p : Port) (n : Nat) (s : State) (x : Tag) (r : Nat), s.up = true → (s.portOf p).inReset = false →
    (s.portOf p).tags.find? (fun t => decide (t.tag = n) && !t.quarantined) = some x → x.owner = .muleData r →
    ∃ t, exec (.completionTimeout p n) s = .next t ∧
      t.reg (Reg.HST_TIMEOUTS p.num) = counterAdd (s.reg (Reg.HST_TIMEOUTS p.num)) 1 ∧
      (t.portOf p).tags = (s.portOf p).tags.map (fun u => if u = x then { u with quarantined := true } else u) ∧
      (t.statOf (hstStat p)).isSet 22 = true ∧ (t.mule r).cut = some 1 ∧ t.cmds = s.cmds ∧ t.ram = s.ram) ∧
  (∀ (p : Port) (n : Nat) (s : State) (x : Tag), s.up = true →
    (s.portOf p).tags.find? (fun t => decide (t.tag = n) && t.quarantined) = some x →
    exec (.tagQuarantineEnd p n) s = .next (s.setPort p { s.portOf p with tags := (s.portOf p).tags.erase x }))

/-! ## Commands (chapters 03, 04 and those that the commands name) -/

namespace Sys2Proof.Ob

/-- A command after its validation: what host memory holds for it, all ten checks passed, and for an NS_RESIZE its place of
arrival. -/
def judged (h : HostSide) (s : State) (c : Cmd) : Cmd :=
  let c : Cmd := { c with host := h, judged := 10 }
  if pkOpcode c.packet = opNsResize then { c with result := s.nextResize (pkNsid c.packet) } else c

/-- A command with its pips. -/
def withPips (s : State) (c : Cmd) : Cmd :=
  { c with cmdPip := true, sramPips := (s.demand c.packet).1, sdramPips := (s.demand c.packet).2 }

/-- The state in which a command has passed validation. -/
def valid (slot : Nat) (h : HostSide) (s : State) (c : Cmd) : State := s.setCmd slot (judged h s c)

/-- The command and the state in which it has its pips. -/
def taken (slot : Nat) (h : HostSide) (s : State) (c : Cmd) : Cmd := withPips (valid slot h s c) (judged h s c)

def reserved (slot : Nat) (h : HostSide) (s : State) (c : Cmd) : State :=
  (valid slot h s c).setCmd slot (taken slot h s c)

/-- The state in which an admitted command begins its operation: its lock entries are in, a coarsened cover is counted. -/
def started (slot : Nat) (h : HostSide) (s : State) (c : Cmd) : State :=
  let v := reserved slot h s c
  let e := taken slot h s c
  let w := if v.lockCoarse e then v.count Reg.ORD_COARSENED 1 else v
  State.updCmd { w with cmds := { w.cmds with locks := v.cmds.locks ++ v.lockList slot e } } slot
    fun c => { c with stage := .waitLock }

/-- The command as it begins its operation. -/
def startedCmd (slot : Nat) (h : HostSide) (s : State) (c : Cmd) : Cmd := { taken slot h s c with stage := .waitLock }

/-- A fetched command of an opcode that nothing holds back: it is its turn, every check of R89 passes, no order rule of R120 to
R122 holds it, its class has the pips free, it heads an empty admission order, and no earlier lock conflicts (R116 to
R118, R399). -/
def Ready (op slot : Nat) (h : HostSide) (s : State) (c : Cmd) : Prop :=
  s.runnable slot (fun x => decide (x = op)) = some c ∧
  s.validate slot c.fn c.ring c.cls c.packet h = (10, none) ∧
  (valid slot h s c).noLease c.packet = false ∧
  (valid slot h s c).orderWaits slot (judged h s c) = false ∧
  (valid slot h s c).classWaits c.cls = false ∧
  (valid slot h s c).pipsFree c.cls ((valid slot h s c).demand c.packet) = true ∧
  s.cmds.admission = [] ∧
  (reserved slot h s c).lockRoom slot (taken slot h s c) = true ∧
  lockBlocked ((reserved slot h s c).cmds.locks ++ (reserved slot h s c).lockList slot (taken slot h s c)) slot = false

/-- What a command that has ended lets go on: the writes whose last blocks are programmed, the deposed namespaces without a
command left (R125, R198, R333). -/
def after (s : State) : State := s.finishPacked.reapDeposed

end Sys2Proof.Ob

/-- R74, R80, R81, R88, R117: a command that ends while its completion ring takes records is in flight no longer, its record
stands at the ring's tail with the class of its status, and its locks are released; the medium, the map and the namespaces
stay. R75: while the ring is full the record is held, and the command keeps its slot. -/
def Obligations.CommandEnds : Prop :=
  (∀ (slot : Nat) (x : Status) (s : State) (c : Cmd) (sq : SubRing) (q : CplRing),
    s.cmds.inflight.look slot = some c → s.cmds.sqs.look (ringKey c.fn.key c.ring) = some sq →
    s.cmds.cqs.look (ringKey c.fn.key sq.cq) = some q → q.full = false → q.faulted = false → q.held = [] →
    s.mayWriteHost c.fn.key = true → x.cls < 256 → s.version c.fn.key ≠ 0x0204 →
    ∃ r, Out.record c.fn sq.cq q.tail q.split r ∈ (s.complete slot x).out ∧ recordClass r = x.cls ∧
      (s.complete slot x).cmds.inflight.look slot = none ∧
      (s.complete slot x).cmds.locks = s.cmds.locks.filter (fun l => decide (l.slot ≠ slot)) ∧
      (s.complete slot x).media = s.media ∧ (s.complete slot x).map = s.map ∧ (s.complete slot x).nss = s.nss ∧
      (s.complete slot x).ram = s.ram) ∧
  (∀ (slot : Nat) (x : Status) (s : State) (c : Cmd) (sq : SubRing) (q : CplRing),
    s.cmds.inflight.look slot = some c → s.cmds.sqs.look (ringKey c.fn.key c.ring) = some sq →
    s.cmds.cqs.look (ringKey c.fn.key sq.cq) = some q → q.full = true →
    ∃ d r, (s.complete slot x).cmds.inflight.look slot = some d ∧ d.stage = .waitHeld ∧ (s.complete slot x).out = s.out ∧
      (s.complete slot x).cmds.cqs.look (ringKey c.fn.key sq.cq) =
        some { q with held := q.held ++ [{ slot := slot, record := r }] } ∧
      (s.complete slot x).cmds.locks = s.cmds.locks)

/-- R90, R127, R297, R299, R415: a READ or GATHER_READ of one stored block of a system namespace hands the block to the host
and ends with SUCCESS; a COMPARE of it ends with SUCCESS when the host's data is the same and with MISCOMPARE when not. -/
def Obligations.ReadsComplete : Prop :=
  ∀ (op slot : Nat) (h : HostSide) (s : State) (c : Cmd) (n : Namespace) (b : SysBlock),
    Ob.Ready op slot h s c → s.nss.look (pkNsid c.packet) = some n → n.kind = .systemNs → n.hostTallies = false →
    n.encrypted = false → s.herd.homed.look (pkNsid c.packet) = none → pkNlb c.packet = 1 → pkSlba c.packet < n.size →
    n.sysBlock (pkSlba c.packet) = some b → s.dieServes b.dieA = true → pkAtc c.packet = false → h.faults = [] →
    (op = opRead → exec (.read slot h) s = .next (Ob.after
      ((((Ob.started slot h s c).deliver (Ob.startedCmd slot h s c) [(b.data, b.tally)]).setCmd slot
        { Ob.startedCmd slot h s c with changed := true }).complete slot (stOk 0)))) ∧
    (op = opGatherRead → exec (.gatherRead slot h) s = .next (Ob.after
      ((((Ob.started slot h s c).deliver (Ob.startedCmd slot h s c) [(b.data, b.tally)]).setCmd slot
        { Ob.startedCmd slot h s c with changed := true }).complete slot (stOk 0)))) ∧
    (op = opCompare → h.dataAnswer = .ok → (hostBlock h 0).data = b.data →
      exec (.compare slot h) s = .next (Ob.after
        (((Ob.started slot h s c).setCmd slot { Ob.startedCmd slot h s c with changed := true }).complete slot (stOk 0)))) ∧
    (op = opCompare → h.dataAnswer = .ok → (hostBlock h 0).data ≠ b.data →
      exec (.compare slot h) s = .next (Ob.after
        (((Ob.started slot h s c).setCmd slot { Ob.startedCmd slot h s c with changed := c.changed }).complete slot
          (stMiscompare (pkSlba c.packet)))))

/-- R126, R178: a WRITE to a system namespace stores the host's blocks with generated tallies, a WRITE_ZEROES stores zero
blocks; both end with SUCCESS. -/
def Obligations.WritesComplete : Prop :=
  ∀ (op slot : Nat) (h : HostSide) (s : State) (c : Cmd) (n : Namespace) (pair : Nat × Nat),
    Ob.Ready op slot h s c → s.nss.look (pkNsid c.packet) = some n → n.kind = .systemNs → n.hostTallies = false →
    pkSlba c.packet + pkNlb c.packet ≤ n.size → (Ob.started slot h s c).sysDies = some pair → h.faults = [] →
    (op = opWrite → h.dataAnswer = .ok →
      exec (.write slot h) s = .next (Ob.after
        ((((Ob.started slot h s c).sysWrite (pkNsid c.packet) ((List.range (pkNlb c.packet)).map fun i =>
          (pkSlba c.packet + i, (hostBlock h i).data,
            genTally (hostBlock h i).data (pkSlba c.packet + i) n.nstag.toNat (pkApptag c.packet)))).updCmd slot
          fun d => { d with changed := true }).complete slot (stOk 0)))) ∧
    (op = opWriteZeroes →
      exec (.writeZeroes slot h) s = .next (Ob.after
        ((((Ob.started slot h s c).sysWrite (pkNsid c.packet) ((List.range (pkNlb c.packet)).map fun i =>
          (pkSlba c.packet + i, zeroBlock,
            genTally zeroBlock (pkSlba c.packet + i) n.nstag.toNat (pkApptag c.packet)))).updCmd slot
          fun d => { d with changed := true }).complete slot (stOk 0))))

/-- R120, R203: an ORDER_BARRIER that is admitted ends with SUCCESS and does nothing else; a TRIM of whole units of a local
namespace, whose map page needs no fetch and whose charges fit, trims the range, stores the entries and ends with SUCCESS. -/
def Obligations.TrimAndBarrierComplete : Prop :=
  (∀ (slot : Nat) (h : HostSide) (s : State) (c : Cmd) (n : Namespace),
    Ob.Ready opBarrier slot h s c → s.nss.look (pkNsid c.packet) = some n → pkSlba c.packet + pkNlb c.packet ≤ n.size →
    exec (.orderBarrier slot h) s = .next (Ob.after ((Ob.started slot h s c).complete slot (stOk 0)))) ∧
  (∀ (slot : Nat) (h : HostSide) (s u : State) (c : Cmd) (n : Namespace) (us : List Nat),
    Ob.Ready opTrim slot h s c → u = Ob.started slot h s c → s.nss.look (pkNsid c.packet) = some n → n.kind = .localNs →
    s.herd.homed.look (pkNsid c.packet) = none → u.jobsFull (pkNsid c.packet) (pkSlba c.packet) (pkNlb c.packet) = false →
    c.moved = 0 → 0 < pkNlb c.packet → pkSlba c.packet + pkNlb c.packet ≤ n.size →
    pkSlba c.packet + pkNlb c.packet ≤ pageEnd (pkSlba c.packet) → pkSlba c.packet % 4 = 0 → pkNlb c.packet % 4 = 0 →
    us = unitsOf (pkSlba c.packet) (pkNlb c.packet) → us.all (fun x => !u.map.away (n.mpn x)) = true →
    u.chargesFit (u.cleanPages n us) 0 = true → u.place.index.length ≤ indexMax →
    exec (.trim slot h) s = .next (Ob.after
      (((((((u.trimRange (pkNsid c.packet) (pkSlba c.packet) (pkNlb c.packet)).storeLines (Ob.startedCmd slot h s c) n us).updCmd
        slot fun d => { d with moved := d.moved + pkNlb c.packet, changed := true })).createJobs (pkNsid c.packet)
        (pkSlba c.packet) (pkNlb c.packet)).stagePressure).complete slot (stOk 0))))

/-- R102, R104, R105: HELLO chooses the highest version of the N9 that its list holds and shows it in CCP_FSTAT, and ends
VERSION_UNSUPPORTED with nothing changed when there is none; FEATURE_SET writes the feature, FEATURE_GET answers its value,
LOG_GET answers the log's length and writes the part asked for into the host's buffer. -/
def Obligations.ProtocolCommandsComplete : Prop :=
  (∀ (slot v : Nat) (h : HostSide) (s : State) (c : Cmd), Ob.Ready opHello slot h s c →
    ccpVersions.find? (fun v => (helloList c.packet).contains v) = some v →
    exec (.hello slot h) s = .next (Ob.after (((Ob.started slot h s c).setFld (Reg.CCP_FSTAT c.fn.key)
      Reg.CCP_FSTAT_.VERSION v).complete slot (stOk (v + 8192 * 2 ^ 16 + (Ob.started slot h s c).maxSq c.fn.key * 2 ^ 32 +
        (Ob.started slot h s c).maxCq c.fn.key * 2 ^ 48))))) ∧
  (∀ (slot : Nat) (h : HostSide) (s : State) (c : Cmd), Ob.Ready opHello slot h s c →
    ccpVersions.find? (fun v => (helloList c.packet).contains v) = none →
    exec (.hello slot h) s = .next (Ob.after ((Ob.started slot h s c).complete slot
      (stVersion (0x0301 + 0x0300 * 2 ^ 16 + 0x0204 * 2 ^ 32))))) ∧
  (∀ (slot : Nat) (h : HostSide) (s : State) (c : Cmd), Ob.Ready opFeatureSet slot h s c →
    exec (.featureSet slot h) s = .next (Ob.after (((Ob.started slot h s c).featureSet c.fn (pkSpec c.packet 0 16)
      (featureTarget c.fn (pkSpec c.packet 16 16)) (pkSlba c.packet)).complete slot (stOk 0)))) ∧
  (∀ (slot : Nat) (h : HostSide) (s : State) (c : Cmd), Ob.Ready opFeatureGet slot h s c →
    exec (.featureGet slot h) s = .next (Ob.after ((Ob.started slot h s c).complete slot
      (stOk ((Ob.started slot h s c).featureGet c.fn (pkSpec c.packet 0 16) (pkNsid c.packet)
        (featureTarget c.fn (pkSpec c.packet 16 16))))))) ∧
  (∀ (slot : Nat) (h : HostSide) (s u : State) (c : Cmd), Ob.Ready opLogGet slot h s c → u = Ob.started slot h s c →
    0 < pkDlen c.packet → pkSpec c.packet 0 8 ≠ 7 →
    exec (.logGet slot h) s = .next (Ob.after ((u.emit (.hostWrite c.fn (BitVec.ofNat 64 (pkDptr c.packet))
      (logPart (u.logBytes c.fn (pkSpec c.packet 0 8)) (pkSlba c.packet) (pkDlen c.packet)))).complete slot
        (stOk (u.logBytes c.fn (pkSpec c.packet 0 8)).length))))

/-- R71, R92: RING_CREATE puts a fresh ring at the lowest free index of its kind and answers the index; with no free index it
ends QUOTA_EXCEEDED and adds nothing. R94: RING_DELETE of a completion ring removes it at once; of a submission ring without
another command in flight it stops the ring and, with nothing left in flight but itself, removes it, answering the count of
unfetched slots. RING_DELETE that waits ends once the ring has no command in flight. -/
def Obligations.RingCommandsComplete : Prop :=
  (∀ (slot i : Nat) (h : HostSide) (s u : State) (c : Cmd), Ob.Ready opRingCreate slot h s c → u = Ob.started slot h s c →
    pkSpec c.packet 63 1 = 0 → freeRing u.cmds.sqs c.fn.key (u.maxSq c.fn.key) = some i → u.cmds.sqs.length < ringMax →
    exec (.ringCreate slot h) s = .next (Ob.after ((u.setSq (ringKey c.fn.key i)
      (freshSq (BitVec.ofNat 64 (pkDptr c.packet)) (pkNlb c.packet) (pkSpec c.packet 0 16) (pkSpec c.packet 16 4)
        (u.newRingClass c.fn.key (pkSpec c.packet 20 6)) u.homeCore)).complete slot (stOk i)))) ∧
  (∀ (slot i : Nat) (h : HostSide) (s u : State) (c : Cmd), Ob.Ready opRingCreate slot h s c → u = Ob.started slot h s c →
    pkSpec c.packet 63 1 = 1 → freeRing u.cmds.cqs c.fn.key (u.maxCq c.fn.key) = some i → u.cmds.cqs.length < ringMax →
    exec (.ringCreate slot h) s = .next (Ob.after ((u.setCq (ringKey c.fn.key i)
      (freshCq (BitVec.ofNat 64 (pkDptr c.packet)) (pkNlb c.packet) (pkSpec c.packet 0 16) (pkSpec c.packet 16 8)
        (pkSpec c.packet 24 8) (decide (pkSpec c.packet 32 1 = 1)) (decide (pkSpec c.packet 33 1 = 1)))).complete slot
          (stOk i)))) ∧
  (∀ (slot : Nat) (h : HostSide) (s u : State) (c : Cmd), Ob.Ready opRingCreate slot h s c → u = Ob.started slot h s c →
    pkSpec c.packet 63 1 = 0 → freeRing u.cmds.sqs c.fn.key (u.maxSq c.fn.key) = none →
    exec (.ringCreate slot h) s = .next (Ob.after (u.complete slot (stQuota 1)))) ∧
  (∀ (slot : Nat) (h : HostSide) (s u : State) (c : Cmd), Ob.Ready opRingDelete slot h s c → u = Ob.started slot h s c →
    pkSpec c.packet 63 1 = 1 →
    exec (.ringDelete slot h) s = .next (Ob.after (State.complete { u with cmds := { u.cmds with
      cqs := u.cmds.cqs.del (ringKey c.fn.key (pkSpec c.packet 0 16)) } } slot (stOk 0)))) ∧
  (∀ (slot : Nat) (h : HostSide) (s u : State) (c : Cmd) (r : SubRing), Ob.Ready opRingDelete slot h s c →
    u = Ob.started slot h s c → pkSpec c.packet 63 1 = 0 → pkSpec c.packet 16 1 = 0 →
    u.cmds.sqs.look (ringKey c.fn.key (pkSpec c.packet 0 16)) = some r → u.ringSlots c.fn (pkSpec c.packet 0 16) = [] →
    exec (.ringDelete slot h) s = .next (Ob.after ((State.dropSq ((u.setSq (ringKey c.fn.key (pkSpec c.packet 0 16))
      { r with stopped := true, rung := r.fetched, bells := [] }).updCmd slot
        fun d => { d with result := r.rung - r.fetched, stage := .waitRingEnd }) c.fn (pkSpec c.packet 0 16)).complete slot
          (stOk (r.rung - r.fetched))))) ∧
  (∀ (slot : Nat) (s : State) (c : Cmd), s.up = true → s.cmds.inflight.look slot = some c → c.stage = .waitRingEnd →
    s.ringSlots c.fn (pkSpec c.packet 0 16) = [] →
    exec (.ringDeleteComplete slot) s =
      .next ((s.dropSq c.fn (pkSpec c.packet 0 16)).complete slot (stOk c.result)))

/-- R95, R140, R142, R240, R293: an NS_CREATE of a local namespace that fits takes the lowest free NSID, with the size, layout
and choices of its packet, no function attached and no write-protect fence, and answers the NSID; NS_DELETE leaves no
namespace under the NSID; NS_ATTACH adds the function to the namespace or takes it off, and a detach ends once no validated
I/O command of the function to it is left; NS_RESIZE to the same size ends with SUCCESS, and growth beyond what fits with
CAPACITY_EXCEEDED and nothing changed. -/
def Obligations.NamespaceCommandsComplete : Prop :=
  (∀ (slot nsid : Nat) (x : List Nat) (h : HostSide) (s u : State) (c : Cmd), Ob.Ready opNsCreate slot h s c →
    u = Ob.started slot h s c → pkSpec c.packet 4 1 = 0 → pkSpec c.packet 0 2 ≠ 3 → u.freeNsid false = some nsid →
    u.freeExtents (extentsFor (pkSlba c.packet / 4)) = some x →
    u.commitFits u.capacity (u.committed + commitOf (u.localLayout (newNamespace c.packet)) (pkSlba c.packet / 4)) = true →
    ∃ (t : State) (n : Namespace), exec (.nsCreate slot h) s = .next (Ob.after (t.complete slot (stOk nsid))) ∧ t.nss.look nsid = some n ∧
      n.kind = .localNs ∧ n.size = pkSlba c.packet ∧ n.layout = pkSpec c.packet 0 2 ∧ n.extents = x ∧ n.attached = [] ∧
      n.fence = 0 ∧ n.hostTallies = decide (pkSpec c.packet 2 1 = 1) ∧ n.encrypted = decide (pkSpec c.packet 3 1 = 1) ∧
      ∀ j, j ≠ nsid → t.nss.look j = u.nss.look j) ∧
  (∀ (slot : Nat) (h : HostSide) (s u : State) (c : Cmd), Ob.Ready opNsDelete slot h s c → u = Ob.started slot h s c →
    ∃ t : State, exec (.nsDelete slot h) s = .next (Ob.after (t.complete slot (stOk 0))) ∧ t = u.deleteNs (pkNsid c.packet) ∧
      t.cmds = u.cmds ∧ t.media = u.media) ∧
  (∀ (slot : Nat) (h : HostSide) (s u : State) (c : Cmd) (n : Namespace), Ob.Ready opNsAttach slot h s c →
    u = Ob.started slot h s c → s.nss.look (pkNsid c.packet) = some n → pkSpec c.packet 17 1 = 0 → n.kind = .localNs →
    n.attached.contains (attachTarget c.packet) = false →
    exec (.nsAttach slot h) s = .next (Ob.after ((u.setNs (pkNsid c.packet)
      { n with attached := n.attached ++ [attachTarget c.packet] }).complete slot (stOk 0)))) ∧
  (∀ (slot : Nat) (s : State) (c : Cmd), s.up = true → s.cmds.inflight.look slot = some c → c.stage = .waitDetach →
    s.fnBusy (attachTarget c.packet) (pkNsid c.packet) = false →
    exec (.nsDetachComplete slot) s = .next (s.complete slot (stOk 0))) ∧
  (∀ (slot : Nat) (h : HostSide) (s u : State) (c : Cmd) (n : Namespace), Ob.Ready opNsResize slot h s c →
    u = Ob.started slot h s c → s.nss.look (pkNsid c.packet) = some n → n.size = pkSlba c.packet →
    u.chargesFit 0 0 = true → n.extents.length = extentsFor (n.size / 4) →
    exec (.nsResize slot h) s = .next (Ob.after (((u.setNs (pkNsid c.packet)
      { n with size := n.size, extents := n.extents }).followCapacity).complete slot (stOk 0)))) ∧
  (∀ (slot : Nat) (h : HostSide) (s u : State) (c : Cmd) (n : Namespace), Ob.Ready opNsResize slot h s c →
    u = Ob.started slot h s c → s.nss.look (pkNsid c.packet) = some n → n.size < pkSlba c.packet →
    u.growFits n (pkSlba c.packet) = false →
    exec (.nsResize slot h) s = .next (Ob.after (u.complete slot stSpace)))

/-- R151, R157: MAP_REGION_ADD of a region that passes its checks adds it and answers its identifier, one that does not ends
INVALID_FIELD at the field's offset; MAP_REGION_REMOVE without reads outstanding takes the region away, its pages go on from
flash, and one that waits ends the same way. -/
def Obligations.RegionCommandsComplete : Prop :=
  (∀ (slot : Nat) (h : HostSide) (s u : State) (c : Cmd), Ob.Ready opRegionAdd slot h s c → u = Ob.started slot h s c →
    u.map.regionRefusal c.fn.port (pkDptr c.packet) (pkNlb c.packet) = none →
    exec (.mapRegionAdd slot h) s = .next (Ob.after (State.complete { u with
      map := (u.map.addRegion c.fn.port (BitVec.ofNat 64 (pkDptr c.packet)) (pkNlb c.packet) (pkSpec c.packet 0 16)).2 } slot
        (stOk (u.map.addRegion c.fn.port (BitVec.ofNat 64 (pkDptr c.packet)) (pkNlb c.packet) (pkSpec c.packet 0 16)).1)))) ∧
  (∀ (slot off : Nat) (h : HostSide) (s u : State) (c : Cmd), Ob.Ready opRegionAdd slot h s c →
    u = Ob.started slot h s c → u.map.regionRefusal c.fn.port (pkDptr c.packet) (pkNlb c.packet) = some off →
    exec (.mapRegionAdd slot h) s = .next (Ob.after (u.complete slot (stInvalidField off)))) ∧
  (∀ (slot : Nat) (h : HostSide) (s u : State) (c : Cmd) (r : Region), Ob.Ready opRegionRemove slot h s c →
    u = Ob.started slot h s c → u.map.regions.look (pkSpec c.packet 0 16) = some r → r.port = c.fn.port →
    (u.portOf c.fn.port).tags = [] →
    ∃ t : State, exec (.mapRegionRemove slot h) s = .next (Ob.after (t.complete slot (stOk 0))) ∧
      t.map.regions.look (pkSpec c.packet 0 16) = none ∧ t.cmds = u.cmds ∧ t.regs = u.regs ∧ t.media = u.media ∧
      t.map.entries = u.map.entries) ∧
  (∀ (slot : Nat) (s : State) (c : Cmd), s.up = true → s.cmds.inflight.look slot = some c → c.stage = .waitRegion →
    s.regionReads c.fn.port = false →
    exec (.mapRegionRemoveComplete slot) s = .next (State.complete { s with
      map := s.map.setRegions (s.map.regions.del (pkSpec c.packet 0 16)) } slot (stOk 0)))

/-- R313, R482, R483: KEY_LOAD of a block that passes its checks loads the key it wraps and raises the event of a load; one
that fails a check counts in XTS_LOADFAIL and ends with that check's status; FW_STAGE and FW_CASTLE answer what their checks
of the piece and of the staged image give, with the staging area and the castling they leave. -/
def Obligations.KeyAndFirmwareCommandsComplete : Prop :=
  (∀ (slot : Nat) (h : HostSide) (s u : State) (c : Cmd) (n : Namespace) (k : KeyBlock), Ob.Ready opKeyLoad slot h s c →
    u = Ob.started slot h s c → h.dataAnswer = .ok → h.key = some k → s.nss.look (pkNsid c.packet) = some n →
    u.keyFault c.packet n k = none → n.keyLoaded ≠ some (Config.unwrappedKey k.body) →
    exec (.keyLoad slot h) s = .next (Ob.after (((u.setNs (pkNsid c.packet) { n with
      keyLoaded := some (Config.unwrappedKey k.body)
      keyCheck := some (Config.keyCheckValue (Config.unwrappedKey k.body)) }).raise 12 16).complete slot (stOk 0)))) ∧
  (∀ (slot : Nat) (h : HostSide) (s u : State) (c : Cmd) (n : Namespace) (k : KeyBlock) (x : Status),
    Ob.Ready opKeyLoad slot h s c → u = Ob.started slot h s c → h.dataAnswer = .ok → h.key = some k →
    s.nss.look (pkNsid c.packet) = some n → u.keyFault c.packet n k = some x →
    exec (.keyLoad slot h) s = .next (Ob.after (((u.count Reg.XTS_LOADFAIL 1).raise 12 17).complete slot x))) ∧
  (∀ (slot : Nat) (h : HostSide) (s u : State) (c : Cmd) (x : FwPiece), Ob.Ready opFwStage slot h s c →
    u = Ob.started slot h s c → h.dataAnswer = .ok → h.piece = some x →
    exec (.fwStage slot h) s = .next (Ob.after ((u.fwStage (stagingOwner c.fn) (pkSlba c.packet) (pkDlen c.packet / 4096)
      (decide (pkSpec c.packet 0 1 = 1)) x).2.complete slot (u.fwStage (stagingOwner c.fn) (pkSlba c.packet)
        (pkDlen c.packet / 4096) (decide (pkSpec c.packet 0 1 = 1)) x).1))) ∧
  (∀ (slot : Nat) (h : HostSide) (s u : State) (c : Cmd), Ob.Ready opFwCastle slot h s c → u = Ob.started slot h s c →
    exec (.fwCastle slot h) s = .next (Ob.after ((u.fwCastle (stagingOwner c.fn)).2.complete slot
      (u.fwCastle (stagingOwner c.fn)).1)))

/-- R354 to R356: HERD_JOIN with a good descriptor takes the flock's identity and map and answers the herd; HERD_LEAVE leaves
no identity, no epoch, no link and no holding namespace; HERD_RESHAPE with a newer valid map installs it, with one not newer
it ends INVALID_FIELD. -/
def Obligations.HerdCommandsComplete : Prop :=
  (∀ (slot : Nat) (h : HostSide) (s u v : State) (c : Cmd) (d : JoinDescriptor), Ob.Ready opHerdJoin slot h s c →
    u = Ob.started slot h s c → h.dataAnswer = .ok → h.join = some d → d.format = 1 → u.joined = false →
    d.self < 8192 → d.reservedZero = true → d.holdBlocks % 20 = 0 → mapFault d.map d.flock d.keys = none →
    (∃ e, d.map.member d.self = some e ∧ e.state = 1 ∧ e.serial = u.reg Reg.FUS_SERIAL) →
    (u.takeIdentity d).holdingNs d = some v →
    exec (.herdJoin slot h) s = .next (Ob.after (v.followPeerPorts.complete slot (stOk v.herdId)))) ∧
  (∀ (slot : Nat) (h : HostSide) (s u : State) (c : Cmd), Ob.Ready opHerdLeave slot h s c → u = Ob.started slot h s c →
    ∃ t : State, exec (.herdLeave slot h) s = .next (Ob.after (t.complete slot (stOk 0))) ∧ t.reg Reg.HRD_IDENT = 0 ∧
      t.herd.map = none ∧ t.herd.keys = none ∧ t.herd.links = [] ∧ t.herd.jobs = [] ∧ t.cmds = u.cmds) ∧
  (∀ (slot : Nat) (h : HostSide) (s u : State) (c : Cmd) (m : FlockMap), Ob.Ready opHerdReshape slot h s c →
    u = Ob.started slot h s c → h.dataAnswer = .ok → h.map = some m → u.joined = true →
    mapFault m u.flockId (u.herd.keys.getD 0) = none → u.epoch < m.epoch →
    exec (.herdReshape slot h) s = .next (Ob.after ((u.installMap m).complete slot (stOk 0))).wakeHerd) ∧
  (∀ (slot : Nat) (h : HostSide) (s u : State) (c : Cmd) (m : FlockMap), Ob.Ready opHerdReshape slot h s c →
    u = Ob.started slot h s c → h.dataAnswer = .ok → h.map = some m → u.joined = true →
    mapFault m u.flockId (u.herd.keys.getD 0) = none → m.epoch ≤ u.epoch →
    exec (.herdReshape slot h) s = .next (Ob.after (u.complete slot (stDescriptor 8))).wakeHerd)

/-! ## Waits that end (chapters 04, 07, 13) -/

/-- R116, R118: the first command in admission order is admitted once the partition has room for its lock entries: they go in
behind those that are there, and with an earlier conflicting entry it waits; without room nothing changes. -/
def Sys2Proof.Ob.CommandAdmitted : Prop :=
  (∀ (slot : Nat) (rest : List Nat) (s : State) (c : Cmd), s.serving = true → s.cmds.admission = slot :: rest →
    s.cmds.inflight.look slot = some c → s.cmds.locks.length + (s.lockList slot c).length ≤ lockEntries →
    exec .commandAdmit s = .next (State.admitNow { s with cmds := { s.cmds with admission := rest } } slot c)) ∧
  (∀ (slot : Nat) (rest : List Nat) (s : State) (c : Cmd), s.serving = true → s.cmds.admission = slot :: rest →
    s.cmds.inflight.look slot = some c → s.cmds.locks.length + (s.lockList slot c).length ≤ lockEntries →
    lockBlocked (s.cmds.locks ++ s.lockList slot c) slot = true →
    ∃ t : State, exec .commandAdmit s = .next t ∧ t.cmds.admission = rest ∧
      t.cmds.locks = s.cmds.locks ++ s.lockList slot c ∧
      t.cmds.inflight.look slot = some { c with stage := .waitLock } ∧
      (∀ j, j ≠ slot → t.cmds.inflight.look j = s.cmds.inflight.look j) ∧ t.out = s.out ∧ t.media = s.media) ∧
  (∀ (slot : Nat) (rest : List Nat) (s : State) (c : Cmd), s.cmds.admission = slot :: rest →
    s.cmds.inflight.look slot = some c → lockEntries < s.cmds.locks.length + (s.lockList slot c).length →
    exec .commandAdmit s = .next s)

/-- R116, R120 to R122, R204, R245, R364, R399: a command whose wait has ended goes on. One that waited for a lock, for space,
for a staging entry or for a charge takes up its operation; one that waited for an order rule or for pips takes its pips and
comes to the admission order. While the cause lasts nothing changes. -/
def Sys2Proof.Ob.WaitsEnd : Prop :=
  (∀ (slot : Nat) (s : State) (c : Cmd), s.serving = true → s.cmds.inflight.look slot = some c →
    (c.stage = .waitLock → lockBlocked s.cmds.locks slot = false → exec (.lockWaitEnd slot) s = .next (s.perform slot)) ∧
    (lockBlocked s.cmds.locks slot = true → exec (.lockWaitEnd slot) s = .next s) ∧
    (c.stage = .waitSpace → exec (.spaceGrant slot) s = .next (s.perform slot)) ∧
    (c.stage = .waitEntry → exec (.stagingEntryGrant slot) s = .next (s.perform slot)) ∧
    (c.stage = .waitCharge → exec (.chargeGrant slot) s = .next (s.perform slot)) ∧
    (c.stage = .waitOrder → pkOpcode c.packet = opBarrier → s.orderWaits slot c = false → s.classWaits c.cls = false →
      s.pipsFree c.cls (s.demand c.packet) = true → exec (.barrierWaitEnd slot) s = .next (s.reserve slot c)) ∧
    (c.stage = .waitOrder → pkOa c.packet = true → s.orderWaits slot c = false → s.classWaits c.cls = false →
      s.pipsFree c.cls (s.demand c.packet) = true → exec (.oaWaitEnd slot) s = .next (s.reserve slot c)) ∧
    (s.orderWaits slot c = true → exec (.barrierWaitEnd slot) s = .next s ∧ exec (.oaWaitEnd slot) s = .next s)) ∧
  (∀ (cls slot : Nat) (s : State) (c : Cmd), s.serving = true → s.pools.pipWaits.find? (fun e => decide (e.1 = cls)) = some (cls, slot) →
    s.cmds.inflight.look slot = some c →
    (s.pipsFree cls (s.demand c.packet) = true → exec (.pipReserveGrant cls) s = .next
      (State.reserve { s with pools := { s.pools with pipWaits := s.pools.pipWaits.erase (cls, slot) } } slot c)) ∧
    (s.pipsFree cls (s.demand c.packet) = false → exec (.pipReserveGrant cls) s = .next s)) ∧
  (∀ (slot : Nat) (s : State) (c : Cmd) (n : Namespace), s.cmds.inflight.look slot = some c →
    pkOpcode c.packet = opBarrier → s.nss.look (pkNsid c.packet) = some n → pkSlba c.packet + pkNlb c.packet ≤ n.size →
    s.perform slot = Ob.after (s.complete slot (stOk 0)))

/-! ## The map (chapter 05) -/

/-- R155, R156, R158: a page that the host answers and that fails a check is fetched from its flash image: it leaves its slot
and is FLASH, MAP_SEALFAIL of the port and the region's failures count it, and no mapping changes. An answer that is an error,
and a fetch over FETCH_LIMIT, count in MAP_HOSTERR and fall back the same way. Each raises its event of the block. -/
def Sys2Proof.Ob.HostPageRefused : Prop :=
  (∀ (mpn k : Nat) (pg : HmrPage) (s u : State) (f : MapFetch), s.up = true →
    ((s.portOf .a).tags ++ (s.portOf .b).tags).any (fun t => decide (t.owner = .mapPage mpn) && !t.quarantined) = true →
    u = s.dropPageTag mpn → u.map.fetchOf mpn = some f → f.fromHost = true →
    u.pageCheck mpn (u.map.dirOf mpn) pg = some k → (u.map.dirOf mpn).loc = .host →
    ∃ t, exec (.hmrFetchComplete mpn (.page pg)) s = .next t ∧ (t.map.dirOf mpn).loc ≠ .host ∧
      t.reg (Reg.MAP_SEALFAIL (u.map.dirOf mpn).port.num) =
        counterAdd (s.reg (Reg.MAP_SEALFAIL (u.map.dirOf mpn).port.num)) 1 ∧
      (t.statOf (Reg.HDR_STAT 4)).isSet 16 = true ∧ t.map.entries = s.map.entries ∧ t.media = s.media ∧ t.cmds = s.cmds) ∧
  (∀ (mpn : Nat) (s u : State) (f : MapFetch), s.up = true →
    ((s.portOf .a).tags ++ (s.portOf .b).tags).any (fun t => decide (t.owner = .mapPage mpn) && !t.quarantined) = true →
    u = s.dropPageTag mpn → u.map.fetchOf mpn = some f → f.fromHost = true → (u.map.dirOf mpn).loc = .host →
    ∃ t, exec (.hmrFetchComplete mpn .error) s = .next t ∧ (t.map.dirOf mpn).loc = .flash ∧
      t.reg (Reg.MAP_HOSTERR (u.map.dirOf mpn).port.num) =
        counterAdd (s.reg (Reg.MAP_HOSTERR (u.map.dirOf mpn).port.num)) 1 ∧
      (t.statOf (Reg.HDR_STAT 4)).isSet 18 = true ∧ t.map.regions = s.map.regions ∧ t.map.entries = s.map.entries ∧
      t.cmds = s.cmds) ∧
  (∀ (mpn : Nat) (s : State) (f : MapFetch), s.up = true → s.map.fetchOf mpn = some f → f.fromHost = true →
    s.fld Reg.MAP_HMRCTRL Reg.MAP_HMRCTRL_.FETCH_LIMIT ≠ 0 → (s.map.dirOf mpn).loc = .host →
    ∃ t, exec (.hmrFetchTimeout mpn) s = .next t ∧ (t.map.dirOf mpn).loc = .flash ∧
      t.reg (Reg.MAP_HOSTERR (s.map.dirOf mpn).port.num) =
        counterAdd (s.reg (Reg.MAP_HOSTERR (s.map.dirOf mpn).port.num)) 1 ∧
      (t.statOf (Reg.HDR_STAT 4)).isSet 18 = true ∧ t.hosts = s.hosts ∧ t.map.entries = s.map.entries ∧
      t.cmds = s.cmds)

/-- R163, R164, R165, R183: a page whose fetch ends well is there, and the commands that wait for it go on: a host page keeps
its slot for a lookup and takes a frame for a store; a page read from flash takes a frame, and one whose image cannot be
recovered has every entry lost. -/
def Sys2Proof.Ob.PageFetched : Prop :=
  (∀ (mpn : Nat) (pg : HmrPage) (s u : State) (f : MapFetch), s.up = true →
    ((s.portOf .a).tags ++ (s.portOf .b).tags).any (fun t => decide (t.owner = .mapPage mpn) && !t.quarantined) = true →
    u = s.dropPageTag mpn → u.map.fetchOf mpn = some f → f.fromHost = true →
    u.pageCheck mpn (u.map.dirOf mpn) pg = none →
    exec (.hmrFetchComplete mpn (.page pg)) s = .next ((List.range 8).foldl (fun s i => s.cacheFill mpn (8 * i))
      (State.wakeMap { u with map := u.map.hostFetched mpn f.forStore } mpn))) ∧
  (∀ (mpn : Nat) (s : State) (f : MapFetch), s.up = true → s.map.fetchOf mpn = some f → f.fromHost = false →
    exec (.mapFlashFetchDone mpn true) s =
      .next (State.wakeMap { s with map := (s.map.endFetch mpn).toFrame mpn } mpn)) ∧
  (∀ (mpn : Nat) (s : State) (f : MapFetch), s.up = true → s.map.fetchOf mpn = some f → f.fromHost = false →
    exec (.mapFlashFetchDone mpn false) s = .next (State.wakeMap
      (State.raiseRecord { s with map := (((s.map.endFetch mpn).losePage mpn).toFrame mpn).soil mpn s.nextStamp }
        4 21 0 (leBytes 4 mpn)) mpn)) ∧
  (∀ (m : MapState) (mpn i : Nat), i < pageEntries →
    meL (((m.losePage mpn).entries.look (mpn * pageEntries + i)).getD 0) = true ∧
      meV (((m.losePage mpn).entries.look (mpn * pageEntries + i)).getD 0) = false)

/-- R155, R159, R162, R163: a clean page of a frame that is placed in host memory takes the lowest free slot of the port under
the next generation, and the device writes it there; a clean page whose frame is given up goes on in flash. A dirty page, or
one at work, stays. -/
def Sys2Proof.Ob.PagesMove : Prop :=
  (∀ (mpn slot : Nat) (p : Port) (s : State) (d : DirEntry), s.up = true →
    s.fld Reg.MAP_HMRCTRL Reg.MAP_HMRCTRL_.HOLD_ENABLE = 1 → d = s.map.dirOf mpn → d.loc = .sdram → d.img = true →
    d.dirty = false → d.busy = false → d.gen ≠ 0xFFFF_FFFF → s.map.freeSlot p = some slot →
    exec (.mapPagePlace mpn p) s = .next (State.emit { s with
      map := s.map.setDir mpn { d with gen := d.gen + 1, loc := .host, index := slot, port := p } }
        (.hmrWrite p slot mpn (d.gen + 1)))) ∧
  (∀ (mpn : Nat) (s : State) (d : DirEntry), s.up = true → d = s.map.dirOf mpn → d.loc = .sdram → d.img = true →
    d.dirty = false → d.busy = false →
    exec (.mapPageDrop mpn) s = .next { s with map := s.map.setDir mpn { d with loc := .flash, index := 0, port := .a } }) ∧
  (∀ (mpn : Nat) (p : Port) (s : State), ((s.map.dirOf mpn).dirty = true ∨ (s.map.dirOf mpn).busy = true) →
    exec (.mapPagePlace mpn p) s = .next s ∧ exec (.mapPageDrop mpn) s = .next s)

/-- R171, R173, R174, R175, R181, R182, R170: a dirty page that is persisted is clean and has an image; a snapshot of the
directory counts off the records it covers; a line written back leaves the eviction list; a detector that stays idle ends its
run; a dirty line rebuilt from the other copy raises its event; the scratch ways are set in BOOT and refused with an event
outside it. -/
def Sys2Proof.Ob.CacheAndPersistence : Prop :=
  (∀ (mpn unit : Nat) (s v : State), s.up = true → (s.map.dirOf mpn).dirty = true → (s.map.dirOf mpn).busy = false →
    State.programImage { s with map :=
      { (s.map.writeBack mpn).setDir mpn { (s.map.writeBack mpn).dirOf mpn with dirty := false, since := 0 } with
        pseq := s.map.pseq + 1 } } mpn (s.map.pseq + 1) = some (unit, v) →
    exec (.mapPagePersist mpn) s = .next { v.setImage mpn unit with
      map := { (v.setImage mpn unit).map with journal := (v.setImage mpn unit).map.journal + 1 } }) ∧
  (∀ s : State, s.up = true → 1048576 ≤ s.map.journal →
    exec .directorySnapshot s = .next { s with
      map := { s.map with journal := s.map.journal - 1048576, snapshots := s.map.snapshots + 1 } }) ∧
  (∀ (island index : Nat) (s : State) (l : CacheLine), s.up = true →
    (s.map.evict.filter fun x => decide (x.island = island))[index]? = some l →
    exec (.evictionWritebackDone island index) s =
      .next { s with map := { s.map with evict := s.map.evict.erase l } }) ∧
  (∀ (i : Nat) (s : State) (d : Detector), s.up = true → s.map.detectors[i]? = some d →
    exec (.streamDetectorIdle i) s =
      .next { s with map := { s.map with detectors := s.map.detectors.set i { d with run := 0 } } }) ∧
  (∀ (mpn line : Nat) (s : State), s.up = true →
    s.map.cache.any (fun x => decide (x.set = lineSet (lineAddr mpn line) ∧ x.tag = lineTag (lineAddr mpn line)) &&
      x.dirty.getLsbD (line % 8)) = true →
    ∃ t, exec (.dirtyLineRebuild mpn line) s = .next t ∧ (t.statOf (Reg.HDR_STAT 5)).isSet 17 = true ∧ t.map = s.map ∧
      t.cmds = s.cmds) ∧
  (∀ (src : Source) (v : Word) (s : State), s.up = true → s.judge src Reg.MCH_SCRATCH 4 true = .served →
    s.isArmed src 5 = true →
    (s.mode = modeBoot → ∃ t, exec (.mchScratchWrite src v) s = .next t ∧
      t.fld Reg.MCH_SCRATCH Reg.MCH_SCRATCH_.WAYS = min 8 (v.toNat % 16) ∧ t.isArmed src 5 = false ∧
      t.map.entries = s.map.entries ∧ ∀ x ∈ t.map.cache, x.way < 16 - min 8 (v.toNat % 16)) ∧
    (s.mode ≠ modeBoot → ∃ t, exec (.mchScratchWrite src v) s = .next t ∧
      t.fld Reg.MCH_SCRATCH Reg.MCH_SCRATCH_.WAYS = s.fld Reg.MCH_SCRATCH Reg.MCH_SCRATCH_.WAYS ∧
      (t.statOf (Reg.HDR_STAT 5)).isSet 18 = true ∧ t.isArmed src 5 = false ∧ t.map.cache = s.map.cache))

/-! ## Staging, stripes, reclaim and wear (chapters 06 and 07) -/

/-- R198, R201, R202: a pack window that ends programs the blocks that wait for the pair; an age limit seals and drains the
stream's gather stripe; a drained stripe is installed and its buffer given up. With nothing that waits for the pair, and for a
stripe that is not sealed, nothing is programmed. -/
def Sys2Proof.Ob.StagingGoesOn : Prop :=
  (∀ (a b : Nat) (s : State), s.serving = true →
    exec (.packWindowExpire a b) s = .next (Ob.after (State.packFlush true (s.place.packs.length + 1) s (pairKey (a, b))))) ∧
  (∀ (a b : Nat) (s : State), s.serving = true → s.packHead (pairKey (a, b)) = [] →
    exec (.packWindowExpire a b) s = .next (Ob.after s)) ∧
  (∀ (stream i : Nat) (g : Gather) (s : State), s.up = true → s.openGather stream = some (i, g) →
    s.fld Reg.STG_CTRL Reg.STG_CTRL_.AGE_LIMIT ≠ 0 → exec (.gatherAgeExpire stream) s = .next (s.sealGather i)) ∧
  (∀ (i : Nat) (g : Gather) (s : State), s.up = true → s.place.gathers.look i = some g → g.shut = true → g.placed ≠ [] →
    exec (.gatherInstall i) s = .next { s.installGather g with
      place := { (s.installGather g).place with gathers := (s.installGather g).place.gathers.del i } }) ∧
  (∀ (i : Nat) (g : Gather) (s : State), s.place.gathers.look i = some g → g.shut = false →
    exec (.gatherInstall i) s = .next s)

/-- R228: a verified copy stripe is given up and its units installed. A unit whose map entry still holds the address that the
copy was read from gets the new address, valid and with its S bit kept; one whose entry has changed since stays as it is.
R230: a copy stripe that failed installs nothing, raises COPY_TARGET_FAILED (event bit 21) and goes into a new one. -/
def Sys2Proof.Ob.CopiesInstall : Prop :=
  (∀ (i : Nat) (c : CopyStripe) (s : State), s.up = true → s.place.copies.look i = some c →
    exec (.copyStripeInstall i true) s =
      .next (State.installCopy { s with place := { s.place with copies := s.place.copies.del i } } c) ∧
    exec (.copyStripeInstall i false) s =
      .next (State.failCopy { s with place := { s.place with copies := s.place.copies.del i } } c)) ∧
  (∀ (x : CopyItem) (b : Nat) (r : Bool) (n : Namespace) (s : State), s.nss.look x.nsid = some n →
    meV (s.entryOf n x.unit) = true → meAddr (s.entryOf n x.unit) = x.src →
    (s.installCopy { band := b, rebuild := r, items := [x] }).entryOf n x.unit =
      mkEntry false false (meS (s.entryOf n x.unit)) true x.dst) ∧
  (∀ (c : CopyStripe) (s : State), (∀ x ∈ c.items, ∀ n, s.nss.look x.nsid = some n →
      ¬(meV (s.entryOf n x.unit) = true ∧ meAddr (s.entryOf n x.unit) = x.src)) →
    (s.installCopy c).map = s.map ∧ (s.installCopy c).media = s.media) ∧
  (∀ (c : CopyStripe) (s : State), (s.failCopy c).map = s.map ∧ (s.failCopy c).nss = s.nss ∧
    ((s.failCopy c).statOf (Reg.HDR_STAT 8)).isSet 21 = true)

/-- R212, R225, R227: RECLAIM_VICTIM first copies what is left in a victim, and then takes a new one; a queued block's band is
taken before any other; REBUILD_STRIPE copies the live units of a stripe of a band with a failed member. No copying changes a
command in flight or a range lock. -/
def Sys2Proof.Ob.ReclaimRuns : Prop :=
  (∀ (k : Nat) (b : Band) (s v : State), s.up = true →
    v = { s with place := { s.place with reclaimOn := s.reclaimWanted } } →
    v.place.bands.find? (fun e => decide (e.2.st = .reclaiming) && !(v.liveIn e.2).isEmpty) = some (k, b) →
    exec .reclaimVictim s = .next (v.copyUnits b.layout (copyStreamOf b.stream) false (v.liveIn b) fun _ => 3)) ∧
  (∀ (k : Nat) (s v : State), s.up = true → v = { s with place := { s.place with reclaimOn := s.reclaimWanted } } →
    v.place.bands.find? (fun e => decide (e.2.st = .reclaiming) && !(v.liveIn e.2).isEmpty) = none →
    v.victimBand = some k → exec .reclaimVictim s = .next (v.takeVictim k)) ∧
  (∀ (k : Nat) (s : State), s.retireVictim = some k → s.victimBand = some k) ∧
  (∀ (k : Nat) (b : Band) (s : State), s.place.bands.look k = some b → b.valid = 0 →
    ∃ c, (s.takeVictim k).place.bands.look k = some c ∧ c.st = .free ∧ (s.takeVictim k).map = s.map) ∧
  (∀ (k stripe : Nat) (b : Band) (s : State), s.up = true → s.place.bands.look k = some b → b.st ≠ .free →
    stripe < b.next → b.failed ≠ [] →
    ∃ t, exec (.rebuildStripe k stripe) s = .next t ∧ t.cmds = s.cmds ∧ t.ram = s.ram ∧ t.nss = s.nss)

/-- R223, R238, R233, R248: a FREE band is given up and each of its member blocks erased, or retired when it is queued for
that; the wear counts are persisted every 65,536 erases; the scores of the CLOSED bands age by a minute; a log pair of a
system namespace is merged into its data pages; a core's busiest ring goes to the least busy core. -/
def Sys2Proof.Ob.WearGoesOn : Prop :=
  (∀ (k : Nat) (b : Band) (s : State), s.up = true → s.place.bands.look k = some b → b.st = .free → b.members = [] →
    ∃ t, exec (.bandEraseStart k) s = .next t ∧ t.place.bands = s.place.bands.del k ∧ t.map = s.map ∧ t.cmds = s.cmds ∧
      t.media = s.media) ∧
  (∀ (k : Nat) (b : Band) (m : Member) (s : State), s.up = true → s.place.bands.look k = some b → b.st = .free →
    b.members = [m] → blockKey (dieKey m.ch m.die) m.block ∈ s.place.retireQueue →
    ∃ t, exec (.bandEraseStart k) s = .next t ∧ t.place.bands = s.place.bands.del k ∧
      blockKey (dieKey m.ch m.die) m.block ∈ t.place.retired ∧
      (t.blockOf (dieKey m.ch m.die) m.block).st = .retired ∧
      blockKey (dieKey m.ch m.die) m.block ∉ t.place.retireQueue) ∧
  (∀ s : State, s.up = true → 65536 ≤ s.place.erasesSincePersist →
    exec .wearPersist s = .next { s with place := { s.place with erasesSincePersist := 0 } }) ∧
  (∀ s : State, s.up = true → ∃ t, exec .scoreAgeTick s = .next t ∧ t = { s with place := { s.place with bands := t.place.bands } } ∧
    ∀ k b, s.place.bands.look k = some b → b.st = .closed → ∃ c, t.place.bands.look k = some c ∧
      c.minutes = b.minutes + 1 ∧ c.valid = b.valid ∧ c.members = b.members) ∧
  (∀ (ns i : Nat) (n : Namespace) (s : State), s.up = true → s.nss.look ns = some n → n.kind = .systemNs →
    exec (.sysnsMerge ns i) s = .next { s with nss := s.nss.put ns (n.mergePair i) }) ∧
  (∀ (n : Namespace) (i g : Nat) (l : LogPair), n.sysLogs[i]? = some l → l.segment = some g → l.entries = [] →
    (n.mergePair i).sysData = n.sysData ∧
      (n.mergePair i).sysLogs[i]? = some { segment := none, age := 0, pages := 0, entries := [] }) ∧
  (∀ (busy : List Nat) (s : State), s.serving = true → s.fld Reg.PLC_CORECTRL Reg.PLC_CORECTRL_.INTERVAL ≠ 0 →
    exec (.coreRebalance busy) s = .next (s.rebalance busy)) ∧
  (∀ (busy : List Nat) (s : State), (∃ cs, (s.rebalance busy).cmds = { s.cmds with sqs := cs }) ∧
    (s.rebalance busy).media = s.media)

/-- R137, R138, R512: every hour the open entries of the deferred-error log go into the event log again; the log itself and
the namespaces stay. R338: a miss log that reaches its age is emptied and marked incomplete. -/
def Sys2Proof.Ob.DeferredLogRepeats : Prop :=
  (∀ s : State, s.up = true → ∃ t, exec .deferredHourlyLog s = .next t ∧ t.deferred = s.deferred ∧ t.nss = s.nss ∧
    t.map = s.map ∧ t.cmds = s.cmds) ∧
  (∀ (i : Nat) (e : DefEntry) (s : State), s.up = true → s.deferred = [(i, e)] → e.isOpen = true →
    exec .deferredHourlyLog s = .next (s.record 3 0 7 0 (e.bytes.take 40))) ∧
  (∀ (peer : Nat) (m : MissLog) (s : State), s.up = true → s.herd.missLogs.look peer = some m →
    exec (.misslogExpire peer) s = .next { s with herd := { s.herd with
      missLogs := s.herd.missLogs.put peer { m with stripes := [], discards := [], incomplete := true } } })

/-! ## Channel engines and dies (chapter 08) -/

namespace Sys2Proof.Ob

/-- The commands that post a descriptor, with the operation code that each takes (Table 7). -/
def postRows (ch queue : Nat) (byCore : Bool) (d : BitVec 256) : List (Nat × Instr) :=
  [(1, .chnRead ch queue byCore d), (2, .chnProgram ch queue byCore d), (3, .chnErase ch queue byCore d),
   (4, .chnReadTrailer ch queue byCore d), (5, .chnGetFeatures ch queue byCore d), (6, .chnSetFeatures ch queue byCore d),
   (7, .chnReadParameter ch queue byCore d), (8, .chnResetDie ch queue byCore d), (9, .chnMark ch queue byCore d),
   (10, .chnReadId ch queue byCore d), (11, .chnTrain ch queue byCore d)]

/-- A posted descriptor: the bits with its queue, its poster and its place in the order of posting. -/
def posted (s : State) (ch queue : Nat) (byCore : Bool) (d : BitVec 256) : Desc :=
  { bits := d, queue := queue, byCore := byCore, order := (s.chanOf ch).posted, starved := false }

end Sys2Proof.Ob

/-- R260, R261: a descriptor of each of the eleven operations that passes the checks of posting stands at the end of its queue,
behind those posted before, and nothing else changes; one that fails a check ends at once with that check's code. -/
def Sys2Proof.Ob.DescriptorsPosted : Prop :=
  ∀ (op ch queue : Nat) (byCore : Bool) (d : BitVec 256) (i : Instr) (s : State),
    (op, i) ∈ Ob.postRows ch queue byCore d → s.running = true → ch < 128 → queue < 4 → descBits d 0 8 = op →
    (s.postCode ch (Ob.posted s ch queue byCore d) = none →
      exec i s = .next (s.setChan ch { s.chanOf ch with
        posted := (s.chanOf ch).posted + 1, queue := (s.chanOf ch).queue ++ [Ob.posted s ch queue byCore d] })) ∧
    (∀ code, s.postCode ch (Ob.posted s ch queue byCore d) = some code →
      exec i s = .next (State.endFree (s.setChan ch { s.chanOf ch with posted := (s.chanOf ch).posted + 1 })
        (Ob.posted s ch queue byCore d) ch code 0))

/-- R260: a full queue of 256 entries turns a descriptor away with QUEUE_FULL; R276: one for a failed die ends DIE_GONE; in
HOLDUP one that is otherwise right ends ABORTED. -/
def Sys2Proof.Ob.PostingRefused : Prop :=
  ∀ (ch : Nat) (d : Desc) (s : State),
    (s.descGone ch d.die = true → s.postCode ch d = some 6) ∧
    (s.descGone ch d.die = false → 256 ≤ ((s.chanOf ch).queue.filter fun x => decide (x.queue = d.queue)).length →
      s.postCode ch d = some 11) ∧
    (s.postCode ch d = none → s.mode ≠ modeHoldup ∧ s.descOk ch d = true ∧ s.descAddrOk ch d = true ∧
      ((s.chanOf ch).queue.filter fun x => decide (x.queue = d.queue)).length < 256)

/-- R262, R266, R273: an idle die takes the descriptor that the rule of choice picks and works at it; with a suspended
operation and no read to serve the operation goes on. A PROGRAM that the guard refuses is never issued: the die stays idle,
its block keeps its state, no page changes, the channel's guard counter advances and the descriptor ends. -/
def Sys2Proof.Ob.DiesStart : Prop :=
  (∀ (ch die : Nat) (s : State), s.running = true → ch < 128 → die < 16 →
    exec (.dieDispatch ch die) s = .next ((s.dispatchDie ch die).mediaChanged s)) ∧
  (∀ (ch die : Nat) (s : State) (o : DieOp), s.running = true → ch < 128 → die < 16 →
    (s.dieOf (dieKey ch die)).cur = some o → exec (.dieDispatch ch die) s = .next (s.mediaChanged s)) ∧
  (∀ (ch die : Nat) (s : State) (d : Desc), s.pickDesc ch die = some d → (s.dieOf (dieKey ch die)).cur = none →
    (s.dieOf (dieKey ch die)).susp = none → d.die = die → d.op ≠ 2 → d.op ≠ 3 → d.op ≠ 9 →
    s.dispatchDie ch die = State.emit ((s.takeDesc ch d).setDie (dieKey ch die)
      { s.dieOf (dieKey ch die) with cur := some { desc := d, suspends := 0, served := 0 } }) (.onfi ch die d.op)) ∧
  (∀ (ch code : Nat) (s : State) (d : Desc), d.op = 2 → (s.blockOf (dieKey ch d.die) d.block).st ≠ .retired →
    (s.blockOf (dieKey ch d.die) d.block).st ≠ .flag → s.guardCode (dieKey ch d.die) d = some code →
    (s.startDesc ch d).media.dies = s.media.dies ∧ (s.startDesc ch d).media.blocks = s.media.blocks ∧
      (s.startDesc ch d).media.pages = s.media.pages ∧
      (s.startDesc ch d).reg (Reg.CHN_GUARD ch) = counterAdd (s.reg (Reg.CHN_GUARD ch)) 1) ∧
  (∀ (ch : Nat) (s : State) (d : Desc), (d.op = 2 ∨ d.op = 3) →
    ((s.blockOf (dieKey ch d.die) d.block).st = .retired ∨ (s.blockOf (dieKey ch d.die) d.block).st = .flag) →
    s.startDesc ch d = (s.takeDesc ch d).endFree d ch 10 0)

/-- R273: the guard lets a PROGRAM through only at a block that is ERASED or OPEN, and only when its page-planes are the next
ones of the block in order, each once. -/
def Obligations.GuardExact : Prop :=
  ∀ (dk : Nat) (d : Desc) (s : State), s.guardCode dk d = none ↔
    ((s.blockOf dk d.block).st = .erased ∨ (s.blockOf dk d.block).st = .opened) ∧
      ∀ i x, (s.descPlanes dk d)[i]? = some x → x = (s.blockOf dk d.block).next + i

/-- R264, R265, R271, R274: an operation that ends leaves its die idle and puts its record out; a suspended one waits in the
die, counted; a time-out ends it with DIE_TIMEOUT. A starved descriptor is marked, a released record leaves the ring with
those before it. -/
def Sys2Proof.Ob.DieOperationsEnd : Prop :=
  (∀ (ch die elapsed : Nat) (r : DieResult) (stat : Byte) (s : State) (o : DieOp), s.running = true →
    (s.dieOf (dieKey ch die)).cur = some o →
    exec (.dieOpComplete ch die r stat elapsed) s =
      .next ((s.completeOp ch die o (decide (r = .ok)) stat.toNat elapsed).mediaChanged s)) ∧
  (∀ (ch die stat elapsed : Nat) (s : State) (o : DieOp), s.pools.bufs = [] → o.desc.op = 8 → o.desc.byCore = false →
    s.completeOp ch die o true stat elapsed =
      State.emit ((s.setDie (dieKey ch die) { s.dieOf (dieKey ch die) with cur := none }).setChan ch
        { s.chanOf ch with seq := (s.chanOf ch).seq + 1 })
        (.chnRecord ch (BitVec.ofNat 128 (o.desc.die * 2 ^ 12 + o.desc.tag * 2 ^ 16 + min 0xFFFF elapsed * 2 ^ 32 +
          stat % 256 * 2 ^ 48 + o.suspends % 256 * 2 ^ 56 + o.desc.ctx * 2 ^ 64 + ((s.chanOf ch).seq + 1).toNat * 2 ^ 96)))) ∧
  (∀ (ch die stat elapsed : Nat) (s : State) (o : DieOp), o.desc.op = 2 →
    ((s.completeOp ch die o true stat elapsed).blockOf (dieKey ch die) o.desc.block) =
      (s.blockOf (dieKey ch die) o.desc.block).programmed o.desc.planes.length
        ((s.dieOf (dieKey ch die)).blockPlanes o.desc.slc) ∧
    (s.completeOp ch die o false stat elapsed).media.blocks = s.media.blocks) ∧
  (∀ (ch die ran : Nat) (s : State) (o : DieOp), s.running = true → (s.dieOf (dieKey ch die)).cur = some o →
    s.maySuspend ch die ran o = true →
    exec (.suspendIssue ch die ran) s = .next ((s.setDie (dieKey ch die) { s.dieOf (dieKey ch die) with
      cur := none, susp := some { o with suspends := o.suspends + 1, served := 0 } }).count (Reg.CHN_SUSPENDS ch) 1)) ∧
  (∀ (ch die : Nat) (s : State) (o : DieOp), s.running = true → (s.dieOf (dieKey ch die)).cur = some o →
    (s.dieOf (dieKey ch die)).susp = none → o.desc.op ≠ 3 →
    exec (.dieTimeout ch die true) s = .next (State.mediaChanged (State.count (State.endFree (s.setDie (dieKey ch die)
      { s.dieOf (dieKey ch die) with cur := none, susp := none }) o.desc ch 5 o.suspends) (Reg.CHN_TIMEOUTS ch) 1) s)) ∧
  (∀ (ch queue die : Nat) (s : State) (d : Desc), s.running = true → s.fld Reg.CHN_TIMING Reg.CHN_TIMING_.STARVE ≠ 0 →
    (s.chanOf ch).queue.find? (fun x => decide (x.queue = queue ∧ x.die = die)) = some d →
    exec (.descriptorStarve ch queue die) s = .next (s.setChan ch { s.chanOf ch with
      queue := (s.chanOf ch).queue.map fun x => if x.order = d.order then { x with starved := true } else x })) ∧
  (∀ (src : Source) (ch i : Nat) (v : Word) (s : State), s.up = true → ch < 128 →
    s.judge src (Reg.CHN_CHEAD ch) 4 true = .served →
    ((s.chanOf ch).cring.findIdx? (fun r => decide (recordSeq r = v)) = some i →
      exec (.chnCheadWrite src ch v) s = .next ((s.setChan ch { s.chanOf ch with
        cring := (s.chanOf ch).cring.drop (i + 1) }).setReg (Reg.CHN_CHEAD ch) (v.setWidth 64))) ∧
    ((s.chanOf ch).cring.findIdx? (fun r => decide (recordSeq r = v)) = none →
      exec (.chnCheadWrite src ch v) s = .next s))

/-- R253, R276, R304, R306: a training that succeeds at the code it aims at makes it CURRENT with no fallback; a write of the
TARGET trains again; a channel island that faults is isolated and its dies fail; a codeword that decodes at a step of the
ladder decodes there from then on, one that does not goes to the next step, and beyond the last decodes at none. -/
def Obligations.ChannelsAndLadder : Prop :=
  (∀ (src : Source) (ch : Nat) (l : List Bool) (s : State), s.up = true → ch < 128 →
    s.judge src (Reg.CHN_CTRL ch) 4 true = .served →
    exec (.chnRetrain src ch l) s = .next ((s.trainChannel ch l).mediaChanged s)) ∧
  (∀ (src : Source) (ch : Nat) (v : Word) (l : List Bool) (s : State), s.up = true → ch < 128 →
    s.judge src (Reg.CHN_RATE ch) 4 true = .served → s.isArmed src 9 = true →
    s.fld (Reg.CHN_RATE ch) Reg.CHN_RATE_.TARGET ≠ v.toNat / 2 ^ 20 % 16 →
    exec (.chnRateTargetWrite src ch v l) s = .next (State.mediaChanged (State.trainChannel
      ((s.disarm src 9).setFld (Reg.CHN_RATE ch) Reg.CHN_RATE_.TARGET (v.toNat / 2 ^ 20 % 16)) ch l) (s.disarm src 9))) ∧
  (∀ (ch : Nat) (s : State), s.usableDies ch ≠ [] →
    (s.trainChannel ch []).fld (Reg.CHN_RATE ch) Reg.CHN_RATE_.CURRENT =
      min (s.supportedRate ch) (s.fld (Reg.CHN_RATE ch) Reg.CHN_RATE_.TARGET) ∧
    (s.trainChannel ch []).fld (Reg.CHN_RATE ch) Reg.CHN_RATE_.FALLBACK = 0) ∧
  (∀ (ch : Nat) (s : State), s.running = true → ch < 128 → s.isIsolated ch = false →
    exec (.channelIslandFault ch) s = .next (((s.isolate ch).failChannel ch).mediaChanged s)) ∧
  (∀ (unit slot step : Nat) (s : State) (p : PagePlane) (c : Codeword), s.running = true → slot < 4 →
    s.media.pages.look unit = some p → p.slots[slot]? = some c → step = (s.media.ladder.look (unit * 4 + slot)).getD 0 →
    step ≤ s.maxStep →
    exec (.codewordDecode unit slot step true) s = .next { s with media := { s.media with
      pages := s.media.pages.upd unit fun p => { p with slots := p.slots.set slot { c with step := some step } }
      ladder := s.media.ladder.del (unit * 4 + slot) } } ∧
    (step < s.maxStep → exec (.codewordDecode unit slot step false) s = .next { s with media := { s.media with
      ladder := s.media.ladder.put (unit * 4 + slot) (step + 1) } }) ∧
    (step = s.maxStep → exec (.codewordDecode unit slot step false) s = .next { s with media := { s.media with
      pages := s.media.pages.upd unit fun p => { p with slots := p.slots.set slot { c with step := none } }
      ladder := s.media.ladder.del (unit * 4 + slot) } }))

/-! ## Media carriers (chapter 08) -/

/-- R278, R281, R283, R284, R288: presence and button at a slot while the slot face applies. A carrier that comes to an EMPTY
slot is OFF, with its event, and is powered up when AUTO_ON says so; one that is lost while powered departs, one that was
not powered leaves the slot EMPTY. A press powers a carrier up from OFF or FAILED, backs off one not yet in service, starts
the removal of an ACTIVE one and cancels a removal. -/
def Sys2Proof.Ob.SlotInputs : Prop :=
  ∀ (c : Nat) (s : State), s.slotInput c = true →
    (s.carState c = 0 → s.fld Reg.CAR_CTRL Reg.CAR_CTRL_.AUTO_ON = 0 →
      exec (.carrierPresenceChange c true) s = .next (State.raiseRecord
        ((s.setFld (Reg.CAR_STATE c) Reg.CAR_STATE_.PRESENT 1).setCarState c 1) 10 16 c [BitVec.ofNat 8 c])) ∧
    (s.carState c = 0 → s.fld Reg.CAR_CTRL Reg.CAR_CTRL_.AUTO_ON = 1 →
      exec (.carrierPresenceChange c true) s = .next (State.powerUp (State.raiseRecord
        ((s.setFld (Reg.CAR_STATE c) Reg.CAR_STATE_.PRESENT 1).setCarState c 1) 10 16 c [BitVec.ofNat 8 c]) c)) ∧
    (2 ≤ s.carState c → s.carState c ≤ 7 → exec (.carrierPresenceChange c false) s =
      .next (((s.setFld (Reg.CAR_STATE c) Reg.CAR_STATE_.PRESENT 0).depart c true).mediaChanged s)) ∧
    (s.carState c = 1 ∨ s.carState c = 8 → exec (.carrierPresenceChange c false) s =
      .next ((s.setFld (Reg.CAR_STATE c) Reg.CAR_STATE_.PRESENT 0).setCarState c 0)) ∧
    (s.carState c = 1 ∨ s.carState c = 8 → exec (.carrierButtonPress c) s =
      .next (((s.endLocate c).raiseRecord 10 22 c [BitVec.ofNat 8 c]).powerUp c)) ∧
    (2 ≤ s.carState c → s.carState c ≤ 4 → exec (.carrierButtonPress c) s =
      .next ((((s.endLocate c).raiseRecord 10 22 c [BitVec.ofNat 8 c]).backOff c).mediaChanged s)) ∧
    (s.carState c = 5 → exec (.carrierButtonPress c) s =
      .next ((((s.endLocate c).raiseRecord 10 22 c [BitVec.ofNat 8 c]).startRemoval c).mediaChanged s)) ∧
    (s.carState c = 6 → exec (.carrierButtonPress c) s =
      .next ((((s.endLocate c).raiseRecord 10 22 c [BitVec.ofNat 8 c]).cancelRemoval c).mediaChanged s))

/-- R278, R281, R284, R290: the commands of CAR_CMD. Each acts in the states it is for, ends LOCATE, and in another state does
no more than that; in HOLDUP it does nothing. -/
def Sys2Proof.Ob.CarrierCommandsComplete : Prop :=
  ∀ (src : Source) (c : Nat) (s : State), s.running = true → c < 8 → s.judge src (Reg.CAR_CMD c) 4 true = .served →
    (s.mode = modeHoldup → ∀ i ∈ ([.carrierRemove src c, .carrierCancel src c, .carrierInsert src c, .carrierLocate src c] : List Instr),
      exec i s = .next s) ∧
    (s.mode ≠ modeHoldup →
      ((s.endLocate c).carState c = 5 →
        exec (.carrierRemove src c) s = .next (((s.endLocate c).startRemoval c).mediaChanged s)) ∧
      ((s.endLocate c).carState c ≠ 5 → exec (.carrierRemove src c) s = .next ((s.endLocate c).mediaChanged s)) ∧
      ((s.endLocate c).carState c = 6 →
        exec (.carrierCancel src c) s = .next (((s.endLocate c).cancelRemoval c).mediaChanged s)) ∧
      (2 ≤ (s.endLocate c).carState c → (s.endLocate c).carState c ≤ 4 →
        exec (.carrierCancel src c) s = .next (((s.endLocate c).backOff c).mediaChanged s)) ∧
      ((s.endLocate c).carState c = 1 ∨ (s.endLocate c).carState c = 8 →
        exec (.carrierInsert src c) s = .next (((s.endLocate c).powerUp c).mediaChanged s)) ∧
      exec (.carrierLocate src c) s = .next (State.mediaChanged (((s.endLocate c).setCarrier c
        { (s.endLocate c).carrier c with locate := true }).setFld (Reg.CAR_STATE c) Reg.CAR_STATE_.INDICATOR 3) s)) ∧
    (s.endLocate c).carState c = s.carState c

/-- R278, R281: what the transitions leave in CAR_STATE: a carrier powered up is POWERING with its power on; one backed off is
OFF with its power off; a removal begun is EVACUATING, one refused stays as it was with the reason in REFUSE and the event
REMOVE_REFUSED (event bit 19); a cancelled one is ACTIVE. A removal without enough capacity left is refused with reason 1. -/
def Sys2Proof.Ob.CarrierStates : Prop :=
  ∀ (c : Nat) (s : State), c < 8 →
    ((s.powerUp c).carState c = 2 ∧ (s.powerUp c).fld (Reg.CAR_STATE c) Reg.CAR_STATE_.POWER = 1) ∧
    ((s.backOff c).carState c = 1 ∧ (s.backOff c).fld (Reg.CAR_STATE c) Reg.CAR_STATE_.POWER = 0) ∧
    (s.cancelRemoval c).carState c = 5 ∧
    (s.capacityWithout c ≤ s.committed → (s.startRemoval c).carState c = s.carState c ∧
      (s.startRemoval c).fld (Reg.CAR_STATE c) Reg.CAR_STATE_.REFUSE = 1 ∧
      ((s.startRemoval c).statOf (Reg.HDR_STAT 10)).isSet 19 = true) ∧
    (s.committed < s.capacityWithout c → (∀ x, x < 8 → x ≠ c → s.carState x ≠ 6) → (s.startRemoval c).carState c = 6)

/-- R254, R280, R281, R284 to R286: the steps of a carrier's way in and out. After the power delay it is in DISCOVERY; discovery
takes the channels' dies and the carrier's record and begins reconciliation; reconciliation ends in service, with the media
epoch advanced and its event; an evacuation with nothing left is QUIESCING; a quiesced carrier is written its record, leaves
service and is OFF; the blink of a refusal ends; a departure record that has reached its age is given up. -/
def Sys2Proof.Ob.CarrierStepsComplete : Prop :=
  ∀ (c : Nat) (s : State), s.carEvent c = true →
    (s.carState c = 2 → exec (.carrierPowerDelay c) s = .next (s.setCarState c 3)) ∧
    (∀ (dies : List DieParams) (r : CarrierRecord) (h : Word) (t : State), s.carState c = 3 → s.mode ≠ modeBoot →
      t = (List.range 16).foldl (fun s i => s.takeChannel (16 * c + i) ((dies.drop (16 * i)).take 16)) s →
      t.mode ≠ modeBoot →
      exec (.carrierDiscoveryDone c dies r h) s = .next (State.mediaChanged (State.beginReconcile (State.setFld
        ((t.setCarrier c { t.carrier c with record := some r, dieHash := h }).setCarState c 4)
          (Reg.CAR_STATE c) Reg.CAR_STATE_.PRESENT 1) c) s)) ∧
    (∀ (dies : List DieParams) (r : CarrierRecord) (h : Word), s.carState c = 3 → s.mode = modeBoot →
      (∀ d ∈ dies, d.present = false) →
      exec (.carrierDiscoveryDone c dies r h) s = .next (State.setCarState ((s.setFld (Reg.CAR_STATE c)
        Reg.CAR_STATE_.POWER 0).setFld (Reg.CAR_STATE c) Reg.CAR_STATE_.PRESENT 0) c 0)) ∧
    (∀ bands : List Nat, s.carState c = 4 → s.mode ≠ modeBoot → (s.carrier c).delta = false →
      exec (.carrierReconcileDone c bands) s = .next (State.mediaChanged (State.raiseRecord (State.setFld
        (((s.setCarrier c { s.carrier c with departure := none }).intoService c).advanceEpoch)
        (Reg.CAR_STATE c) Reg.CAR_STATE_.RECON 2) 10 21 c [BitVec.ofNat 8 c]) s)) ∧
    (∀ bands : List Nat, s.carState c = 4 → s.mode ≠ modeBoot → (s.carrier c).delta = true →
      exec (.carrierReconcileDone c bands) s = .next (State.mediaChanged (State.raiseRecord (State.setFld
        ((((s.clearFailedOn c bands).setCarrier c { s.carrier c with departure := none }).intoService c).advanceEpoch)
        (Reg.CAR_STATE c) Reg.CAR_STATE_.RECON 1) 10 20 c [BitVec.ofNat 8 c]) s)) ∧
    (s.carState c = 6 → exec (.evacuationCopy c) s = .next (s.evacuate c)) ∧
    (s.carState c = 6 → s.evacLeft c = 0 → exec (.evacuationDone c) s = .next ((s.setCarState c 7).mediaChanged s)) ∧
    (s.carState c = 6 → s.evacLeft c ≠ 0 → exec (.evacuationDone c) s = .next s) ∧
    (s.carState c = 7 → s.carrierIdle c = true → exec (.carrierQuiesceDone c) s = .next (State.mediaChanged (State.raiseRecord
      ((((s.writeRecord c 3).leaveService c).switchOff c).setCarState c 1).advanceEpoch 10 17 c [BitVec.ofNat 8 c]) s)) ∧
    (s.carState c = 7 → s.carrierIdle c = false → exec (.carrierQuiesceDone c) s = .next s) ∧
    (s.carState c = 5 → s.fld (Reg.CAR_STATE c) Reg.CAR_STATE_.REFUSE ≠ 0 →
      exec (.refuseBlinkExpire c) s = .next (s.setCarState c 5)) ∧
    ((s.carrier c).departure.isSome = true → s.fld (Reg.CAR_STATE c) Reg.CAR_STATE_.POWER = 1 →
      exec (.departureRecordExpire c) s = .next (s.setCarrier c { s.carrier c with departure := none })) ∧
    ((s.carrier c).departure.isSome = true → s.fld (Reg.CAR_STATE c) Reg.CAR_STATE_.POWER ≠ 1 →
      exec (.departureRecordExpire c) s = .next (State.setReg (State.setReg (s.setCarrier c
        { s.carrier c with departure := none }) (Reg.CAR_EPOCH c) 0) (Reg.CAR_ID c) 0))

/-! ## The herd (chapter 10) -/

namespace Sys2Proof.Ob

/-- The state once a kept frame has told what every frame tells: its plane and epoch (R326, R332), its acknowledgement (R325). -/
def got (h : FrameHdr) (s : State) : State :=
  if h.ackv ∧ (s.heard h).linkUp h.src then (s.heard h).ackTo h.src h.ackSeq else s.heard h

/-- Whether a reliable frame is the next one expected of an UP link, at the link's version (R325). -/
def inOrder (h : FrameHdr) (s : State) : Prop :=
  (s.linkOf h.src).st = .up ∧ h.version.toNat = (s.linkOf h.src).version ∧ h.seq = (s.linkOf h.src).rxNext

/-- The link has taken a reliable frame (R325). -/
def advanced (h : FrameHdr) (s : State) : State :=
  s.setLink h.src { s.linkOf h.src with
    rxNext := (s.linkOf h.src).rxNext + 1, owedAcks := (s.linkOf h.src).owedAcks + 1 }

/-- An acknowledgement goes out when 16 frames are owed one (R325). -/
def ackDue (h : FrameHdr) (s : State) : State := if 16 ≤ (s.linkOf h.src).owedAcks then s.sendAck h.src else s

/-- Frames with their types and lengths: those after which no command that waits looks again, HELLO and its answer apart. -/
def frameRows (hdr : FrameHdr) (v : Half) (e : Nat) (op : OpHdr) (l : List Symbol) (k m home : Nat) (el : List Nat) :
    List (Nat × Nat × Instr) :=
  [(0x03, 4, .heartbeat hdr v), (0x04, 0, .ack hdr), (0x10, 0, .mapOffer hdr), (0x11, 8, .mapRequest hdr e),
   (0x20, fragLen op, .fragWrite hdr op l), (0x22, 32, .fragRead hdr op), (0x24, 32, .fragDiscard hdr op),
   (0x25, 78, .sweepDone hdr e k m home el)]

/-- The frames after which commands that wait for fragments look again. -/
def wakingRows (hdr : FrameHdr) (op : OpHdr) (l : List Symbol) : List (Nat × Nat × Instr) :=
  [(0x21, 32, .fragDone hdr op), (0x23, fragLen op, .fragData hdr op l)]

end Sys2Proof.Ob

/-- R317, R322, R325: a frame that fails a check of its header, its place, its identities or its length is discarded and
counted in HRD_RXDROP of its plane, and changes nothing else; a reliable frame that is not the next one expected of its link has
no effect beyond what every frame tells; in BOOT no frame has any. -/
def Sys2Proof.Ob.FramesRefused : Prop :=
  (∀ (hdr : FrameHdr) (v : Half) (e : Nat) (op : OpHdr) (l : List Symbol) (k m home : Nat) (el : List Nat)
    (type len : Nat) (i : Instr) (s : State), s.up = true → (type, len, i) ∈ Ob.frameRows hdr v e op l k m home el →
    FrameIs hdr type = true →
    (s.mode = modeBoot → exec i s = .next s) ∧
    (s.mode ≠ modeBoot → s.frameOk hdr len = false → exec i s = .next (s.count (Reg.HRD_RXDROP hdr.plane) 1)) ∧
    (s.mode ≠ modeBoot → s.frameOk hdr len = true → 0x10 ≤ type → ¬Ob.inOrder hdr (Ob.got hdr s) →
      exec i s = .next (Ob.got hdr s))) ∧
  (∀ (hdr : FrameHdr) (op : OpHdr) (l : List Symbol) (type len : Nat) (i : Instr) (s : State), s.up = true →
    (type, len, i) ∈ Ob.wakingRows hdr op l → FrameIs hdr type = true →
    (s.mode ≠ modeBoot → s.frameOk hdr len = false →
      exec i s = .next (s.count (Reg.HRD_RXDROP hdr.plane) 1).wakeHerd) ∧
    (s.mode ≠ modeBoot → s.frameOk hdr len = true → ¬Ob.inOrder hdr (Ob.got hdr s) →
      exec i s = .next (Ob.got hdr s).wakeHerd)) ∧
  (∀ (plane : Nat) (s : State), s.up = true → plane < 4 →
    exec (.frameDiscard plane) s = .next (s.count (Reg.HRD_RXDROP plane) 1))

/-- R324 to R326, R353: HELLO from a lower identifier is answered with the highest version that both sides list, and the link is
UP at it, or marked mismatched with its event when there is none; HELLO_ACK brings up the link that sent the HELLO. A heartbeat
tells the peer's highest version; an ACK tells no more than every frame does. -/
def Sys2Proof.Ob.LinksComeUp : Prop :=
  (∀ (hdr : FrameHdr) (l : List Half) (serial : DWord) (s : State), s.up = true → s.mode ≠ modeBoot →
    FrameIs hdr 0x01 = true → s.frameOk hdr 16 = true → s.serialOk hdr.src serial = true →
    hdr.src < (Ob.got hdr s).selfId →
    (chooseVersion l ≠ 0 → exec (.aizaikHello hdr l serial) s = .next (State.linkGoesUp
      ((Ob.got hdr s).emit (.helloAck hdr.plane hdr.src (chooseVersion l))) hdr.src hdr.plane (chooseVersion l).toNat
        hdr.epoch).wakeHerd) ∧
    (chooseVersion l = 0 → exec (.aizaikHello hdr l serial) s = .next (State.raise (State.setLink
      ((Ob.got hdr s).emit (.helloAck hdr.plane hdr.src 0)) hdr.src
        { (Ob.got hdr s).linkOf hdr.src with mismatch := true }) 13 28).wakeHerd)) ∧
  (∀ (hdr : FrameHdr) (v : Half) (serial : DWord) (s : State), s.up = true → s.mode ≠ modeBoot →
    FrameIs hdr 0x02 = true → s.frameOk hdr 16 = true → s.serialOk hdr.src serial = true →
    ((Ob.got hdr s).linkOf hdr.src).st = .helloSent →
    (helloVersions.contains v = true → v ≠ 0 → exec (.aizaikHelloAck hdr v serial) s =
      .next ((Ob.got hdr s).linkGoesUp hdr.src hdr.plane v.toNat hdr.epoch).wakeHerd) ∧
    (v = 0 → exec (.aizaikHelloAck hdr v serial) s = .next (State.raise ((Ob.got hdr s).setLink hdr.src
      { (Ob.got hdr s).linkOf hdr.src with mismatch := true }) 13 28).wakeHerd)) ∧
  (∀ (hdr : FrameHdr) (l : List Half) (serial : DWord) (s : State), s.up = true → s.mode ≠ modeBoot →
    FrameIs hdr 0x01 = true → s.frameOk hdr 16 = true → s.serialOk hdr.src serial = false →
    exec (.aizaikHello hdr l serial) s = .next (s.count (Reg.HRD_RXDROP hdr.plane) 1).wakeHerd) ∧
  (∀ (hdr : FrameHdr) (v : Half) (s : State), s.up = true → s.mode ≠ modeBoot → FrameIs hdr 0x03 = true →
    s.frameOk hdr 4 = true → exec (.heartbeat hdr v) s = .next (State.followShape ((Ob.got hdr s).setLink hdr.src
      { (Ob.got hdr s).linkOf hdr.src with vmax := v.toNat }))) ∧
  (∀ (hdr : FrameHdr) (s : State), s.up = true → s.mode ≠ modeBoot → FrameIs hdr 0x04 = true →
    s.frameOk hdr 0 = true → exec (.ack hdr) s = .next (Ob.got hdr s)) ∧
  (∀ (s : State) (peer plane version epoch : Nat), (s.linkOf peer).down = false →
    ((s.linkGoesUp peer plane version epoch).statOf (Reg.HDR_STAT 13)).isSet 17 = true)

/-- R329, R341, R343, R346, R350, R351: what a reliable frame does when it is the next one expected of its link. MAP_OFFER of
a newer epoch asks for the map, MAP_REQUEST is answered with the map's pieces, MAP_DATA that completes a map has it judged;
FRAG_WRITE is settled, FRAG_READ answered with the fragment or with its absence, FRAG_DATA kept for the read that asked for
it, FRAG_DISCARD and SWEEP_DONE drop the fragments that they name. -/
def Obligations.ReliableFramesComplete : Prop :=
  ∀ (hdr : FrameHdr) (s u w : State), s.up = true → s.mode ≠ modeBoot → u = Ob.got hdr s → Ob.inOrder hdr u →
    w = Ob.advanced hdr u →
    (FrameIs hdr 0x10 = true → s.frameOk hdr 0 = true → w.epoch < hdr.epoch → w.herd.transfer = none →
      exec (.mapOffer hdr) s = .next (Ob.ackDue hdr (State.sendReliable { w with
        herd := { w.herd with transfer := some (hdr.src, hdr.epoch) } } hdr.src (.mapRequest hdr.epoch)))) ∧
    (FrameIs hdr 0x10 = true → s.frameOk hdr 0 = true → hdr.epoch ≤ w.epoch →
      exec (.mapOffer hdr) s = .next (Ob.ackDue hdr w)) ∧
    (∀ (m : FlockMap) (e : Nat), FrameIs hdr 0x11 = true → s.frameOk hdr 8 = true → w.herd.map = some m → e ≤ m.epoch →
      exec (.mapRequest hdr e) s = .next (Ob.ackDue hdr ((mapPieces m.length).foldl
        (fun s o => s.sendReliable hdr.src (.mapData m.epoch o)) w))) ∧
    (∀ e off : Nat, FrameIs hdr 0x12 = true → 16 ≤ hdr.len → hdr.len ≤ 8208 → s.frameOk hdr hdr.len = true →
      exec (.mapData hdr e off none) s = .next (Ob.ackDue hdr { w with herd := { w.herd with
        transfer := if w.epoch < e then some (hdr.src, e) else none } }).wakeHerd) ∧
    (∀ (e off : Nat) (m : FlockMap), FrameIs hdr 0x12 = true → 16 ≤ hdr.len → hdr.len ≤ 8208 → s.frameOk hdr hdr.len = true →
      off < m.length → (State.offerMap { w with herd := { w.herd with transfer := none } } m).herd.incoming = [] →
      exec (.mapData hdr e off (some m)) s = .next (Ob.ackDue hdr
        (State.offerMap { w with herd := { w.herd with transfer := none } } m)).wakeHerd) ∧
    (∀ (op : OpHdr) (l : List Symbol), FrameIs hdr 0x20 = true → s.frameOk hdr (fragLen op) = true → hdr.epoch ≤ w.epoch →
      exec (.fragWrite hdr op l) s = .next (Ob.ackDue hdr (State.settleIncoming { w with herd := { w.herd with
        incoming := w.herd.incoming ++ [{ peer := hdr.src, epoch := hdr.epoch, op := op, symbols := l }] } }
          { peer := hdr.src, epoch := hdr.epoch, op := op, symbols := l }))) ∧
    (∀ op : OpHdr, FrameIs hdr 0x22 = true → s.frameOk hdr 32 = true →
      (w.heldSlot op.hkey op.k op.hstripe op.index = none →
        exec (.fragRead hdr op) s = .next (Ob.ackDue hdr (w.answerOp hdr.src 0x23 op 4))) ∧
      (∀ i f, w.heldSlot op.hkey op.k op.hstripe op.index = some (i, f) →
        exec (.fragRead hdr op) s = .next (Ob.ackDue hdr (w.sendFragment hdr.src 0x23
          (mkOp f.hkey f.k f.index f.hstripe f.stampEpoch f.stampSeq) f.symbols)))) ∧
    (∀ (op : OpHdr) (l : List Symbol), FrameIs hdr 0x23 = true → s.frameOk hdr (fragLen op) = true →
      (w.asking op.hkey op.k op.hstripe op.index = false →
        exec (.fragData hdr op l) s = .next (Ob.ackDue hdr w).wakeHerd) ∧
      (w.asking op.hkey op.k op.hstripe op.index = true →
        fragmentDone (State.fetchedOf { w with herd := { w.herd with fetched := w.herd.fetched ++ [(op, l)] } }
          op.hkey op.k op.hstripe op.index) = false →
        exec (.fragData hdr op l) s = .next (Ob.ackDue hdr { w with
          herd := { w.herd with fetched := w.herd.fetched ++ [(op, l)] } }).wakeHerd)) ∧
    (∀ op : OpHdr, FrameIs hdr 0x24 = true → s.frameOk hdr 32 = true →
      ∃ t, exec (.fragDiscard hdr op) s = .next (Ob.ackDue hdr t) ∧ t = { w with herd := { w.herd with frags := t.herd.frags } } ∧
        ∀ e, e ∈ t.herd.frags ↔ e ∈ w.herd.frags ∧ ¬(e.2.hkey = op.hkey ∧
          (op.hstripe = 2 ^ 64 - 1 ∨ (e.2.k = op.k ∧ e.2.hstripe = op.hstripe)) ∧ (op.index = 0xFF ∨ e.2.index = op.index))) ∧
    (∀ (key k m home : Nat) (el : List Nat), FrameIs hdr 0x25 = true → s.frameOk hdr 78 = true →
      ∃ t, exec (.sweepDone hdr key k m home el) s = .next (Ob.ackDue hdr t) ∧
        t = { w with herd := { w.herd with frags := t.herd.frags } } ∧
        (∀ e ∈ t.herd.frags, e ∈ w.herd.frags ∧ (e.2.hkey = key → e.2.k = k)) ∧
        ∀ e ∈ w.herd.frags, e.2.hkey ≠ key → e ∈ t.herd.frags) ∧
    (∀ (op : OpHdr), FrameIs hdr 0x21 = true → s.frameOk hdr 32 = true → w.jobFor op hdr.src = none →
      exec (.fragDone hdr op) s = .next (Ob.ackDue hdr w).wakeHerd) ∧
    (∀ (op : OpHdr) (i : Nat) (j d : Job) (v : State), FrameIs hdr 0x21 = true → s.frameOk hdr 32 = true →
      w.jobFor op hdr.src = some (i, j) →
      d = { j with answered := if j.answered.contains op.index then j.answered else j.answered ++ [op.index] } →
      v = { w with herd := { w.herd with jobs := w.herd.jobs.put i d } } → (op.status = 0 ∨ op.status = 5) →
      (d.established (j.holders.length - j.k) = true →
        exec (.fragDone hdr op) s = .next (Ob.ackDue hdr (v.finishJob i d)).wakeHerd) ∧
      (d.established (j.holders.length - j.k) = false → exec (.fragDone hdr op) s = .next (Ob.ackDue hdr v).wakeHerd)) ∧
    (∀ (op : OpHdr) (i : Nat) (j : Job), FrameIs hdr 0x21 = true → s.frameOk hdr 32 = true →
      w.jobFor op hdr.src = some (i, j) → op.status ∉ [0, 3, 5] →
      exec (.fragDone hdr op) s = .next (Ob.ackDue hdr { w with herd := { w.herd with
        jobs := w.herd.jobs.put i { j with refused := true } } }).wakeHerd)

/-- R324 to R326, R332: the timers of links and leases. A HELLO is sent again by the lower identifier while the link is not UP;
an owed acknowledgement goes out; unacknowledged frames go out again, counted; a heartbeat goes to every peer on every plane
that can send; a plane not heard on is dropped; the lease is held afterwards exactly when a majority was heard. -/
def Sys2Proof.Ob.LinkTimers : Prop :=
  ∀ s : State, s.up = true →
    (∀ peer : Nat, s.mode ≠ modeBoot → s.selfId < peer → (s.linkOf peer).st ≠ .up → s.peers.contains peer = true →
      exec (.linkHelloRetry peer) s = .next ((s.setLink peer { s.linkOf peer with st := .helloSent }).sendHello peer)) ∧
    (∀ peer : Nat, s.linkUp peer = true → (s.linkOf peer).owedAcks ≠ 0 →
      exec (.ackTimer peer) s = .next (s.sendAck peer)) ∧
    (∀ peer : Nat, s.linkUp peer = true → (s.linkOf peer).unacked ≠ [] →
      ∃ t, exec (.retransmitTimeout peer) s = .next t ∧
        t.reg (Reg.HRD_RETX (s.linkOf peer).plane) =
          counterAdd (s.reg (Reg.HRD_RETX (s.linkOf peer).plane)) (s.linkOf peer).unacked.length ∧
        t.out.length = s.out.length + (s.linkOf peer).unacked.length ∧ t.herd = s.herd) ∧
    (s.mode ≠ modeBoot → exec .heartbeatTimer s = .next (s.peers.foldl (fun s p =>
      ((List.range 4).filter fun q => s.portSends q).foldl (fun s q => s.sendUnreliable q p (.heartbeat 0x0103)) s) s)) ∧
    (∀ peer plane : Nat, s.peers.contains peer = true →
      exec (.peerDeadTimeout peer plane) s = .next (s.losePlane peer plane).wakeHerd) ∧
    (s.joined = true → ∃ t, exec .leaseExpire s = .next t ∧ t.herd.leaseHeld = s.majority ∧
      (∀ e ∈ t.herd.links, e.2.fresh = false) ∧ t.nss = s.nss ∧ t.cmds = s.cmds ∧
      (s.herd.leaseHeld = true → s.majority = false → s.herd.homed ≠ [] → (t.statOf (Reg.HDR_STAT 13)).isSet 27 = true))

/-- R342, R345 to R348: the jobs of a home and its sweeps. A job that is not in flight starts; one over its time is late, its
deferred error is raised and the DEGRADED reason follows; the late ones are tried again together; a sweep goes on at its
boundary, and a stripe already swept ahead of it is passed. -/
def Obligations.JobsAndSweeps : Prop :=
  ∀ s : State, s.up = true →
    (∀ (i : Nat) (j : Job), s.mode ≠ modeBoot → s.herd.jobs.look i = some j → j.inFlight = false →
      exec (.herdJobStart i) s = .next (s.startJob i)) ∧
    (∀ (i : Nat) (j : Job), s.herd.jobs.look i = some j → j.inFlight = true → exec (.herdJobStart i) s = .next s) ∧
    (∀ (i nsid : Nat) (j : Job) (n : Namespace), s.herd.jobs.look i = some j → j.late = false →
      s.nsOfKey j.hkey = some (nsid, n) →
      exec (.jobDeferTimeout i) s = .next (State.followHerd (State.raiseDeferred { s with herd := { s.herd with
        jobs := s.herd.jobs.put i { j with late := true } } } nsid n.herd (s.lateCause j) (stripeRange j.k j.hstripe).1
          (stripeRange j.k j.hstripe).2)).wakeHerd) ∧
    (s.mode ≠ modeBoot → exec .jobRetryTimer s = .next
      (((s.herd.jobs.filter fun e => e.2.late).map fun e => e.1).foldl (fun s i => s.startJob i) s).wakeHerd) ∧
    (∀ (ns : Nat) (h : Homed), s.mode ≠ modeBoot → s.herd.homed.look ns = some h → h.sweeping = true →
      s.fld Reg.HRD_RETAIN Reg.HRD_RETAIN_.SWEEP_SHARE ≠ 0 →
      (h.ahead.contains (h.boundary / max 1 h.target.k) = true →
        exec (.sweepStripe ns) s = .next (s.advanceSweep ns).wakeHerd) ∧
      (h.ahead.contains (h.boundary / max 1 h.target.k) = false →
        (s.sweepOne ns (h.boundary / max 1 h.target.k)).1 = true →
        exec (.sweepStripe ns) s =
          .next ((s.sweepOne ns (h.boundary / max 1 h.target.k)).2.advanceSweep ns).wakeHerd)) ∧
    (∀ (ns : Nat) (h : Homed), s.herd.homed.look ns = some h → h.sweeping = false → exec (.sweepStripe ns) s = .next s)

/-- R318 to R320, R359: the registers of the peer ports. With an arming of the block a new EtherType closes every link, a new
address closes the links of its plane; a change of AN takes the plane's link down; a port that comes up or goes down tells
its links. -/
def Sys2Proof.Ob.PeerPortWrites : Prop :=
  ∀ s : State, s.up = true →
    (∀ (src : Source) (v : Half), s.judge src Reg.HRD_CTRL 8 true = .served → s.isArmed src 13 = true →
      exec (.ethertypeWrite src v) s = .next (((s.disarm src 13).setFld Reg.HRD_CTRL Reg.HRD_CTRL_.ETHERTYPE
        v.toNat).closeLinks).wakeHerd) ∧
    (∀ (src : Source) (v : Half), s.judge src Reg.HRD_CTRL 8 true = .served → s.isArmed src 13 = false →
      exec (.ethertypeWrite src v) s = .next (s.raiseHdr src 13 1).wakeHerd) ∧
    (∀ (src : Source) (q : Nat) (v : BitVec 48), q < 4 → s.judge src (Reg.HRD_MAC q) 8 true = .served →
      s.isArmed src 13 = true → exec (.hrdMacWrite src q v) s = .next (((s.disarm src 13).setFld (Reg.HRD_MAC q)
        Reg.HRD_MAC_.MAC v.toNat).closePlane q).wakeHerd) ∧
    (∀ (src : Source) (q : Nat) (an : Bool), q < 4 → s.judge src (Reg.HRD_PORT q) 4 true = .served →
      s.fld (Reg.HRD_PORT q) Reg.HRD_PORT_.AN ≠ (if an then 1 else 0) →
      exec (.hrdPortAnWrite src q an) s = .next ((s.setFld (Reg.HRD_PORT q) Reg.HRD_PORT_.AN
        (if an then 1 else 0)).peerLink q false).wakeHerd) ∧
    (∀ (q : Nat) (up : Bool), q < 4 → exec (.peerLinkChange q up) s = .next (s.peerLink q up).wakeHerd)

/-! ## Hold-up, flush, pools and the match array (chapters 11 and 12) -/

/-- R359 to R361, R371: a power failure in any mode but HOLDUP and FROZEN enters HOLDUP: the mode, the count of hold-ups, every
channel queue empty, nothing staged; the flush begins, or from BOOT the N9 stops at once. In HOLDUP and FROZEN it changes
nothing. -/
def Sys2Proof.Ob.PowerFailHolds : Prop :=
  (∀ s : State, s.mayHold = true →
    ∃ t, exec .powerFail s = .next t ∧ t.mode = modeHoldup ∧ t.power.pwrFailLow = true ∧
      t.reg Reg.PWR_HOLDUPS = counterAdd (s.reg Reg.PWR_HOLDUPS) 1 ∧ t.boot.staging = Staging.empty ∧
      t.boot.castle = none ∧ t.power.cut = false ∧ t.power.flushStripes = 0 ∧
      (t.power.flush = if s.mode = modeBoot then .stopped else .entered) ∧ (t.pins.stopped = decide (s.mode = modeBoot)) ∧
      t.map = s.map ∧ t.nss = s.nss ∧ t.media.pages = s.media.pages ∧ t.media.blocks = s.media.blocks) ∧
  (∀ s : State, s.mayHold = false → exec .powerFail s = .next s) ∧
  (∀ (s : State) (ch : Nat) (c : Chan), s.stopDescs.media.chans.look ch = some c → s.media.chans.look ch ≠ none → c.queue = [])

/-- R359, R363, R374: a bank sample sets CODE and, outside HOLDUP, counts the samples below ENTER: the third in a row enters
HOLDUP, any other leaves the mode. In HOLDUP the third in a row below ABORT cuts the flush short. The energy is computed
again on demand: AVAIL_MJ and both limits follow the factor. -/
def Sys2Proof.Ob.BankSamples : Prop :=
  (∀ (code : BitVec 10) (s : State), s.running = true → s.mode ≠ modeFrozen →
    ∃ t, exec (.bankSample code) s = .next t ∧ t.fld Reg.PWR_SENSE Reg.PWR_SENSE_.CODE = code.toNat ∧
      (s.mode ≠ modeHoldup → s.fld Reg.PWR_THRESH Reg.PWR_THRESH_.ENTER ≤ code.toNat → t.mode = s.mode ∧ t.power.lowEnter = 0) ∧
      (s.mode ≠ modeHoldup → code.toNat < s.fld Reg.PWR_THRESH Reg.PWR_THRESH_.ENTER →
        s.fld Reg.PWR_CTRL Reg.PWR_CTRL_.SENSE_EN = 1 → s.power.lowEnter < 2 →
        t.mode = s.mode ∧ t.power.lowEnter = s.power.lowEnter + 1) ∧
      (s.mode ≠ modeHoldup → code.toNat < s.fld Reg.PWR_THRESH Reg.PWR_THRESH_.ENTER →
        s.fld Reg.PWR_CTRL Reg.PWR_CTRL_.SENSE_EN = 1 → 2 ≤ s.power.lowEnter → t.mode = modeHoldup) ∧
      (s.mode = modeHoldup → code.toNat < s.fld Reg.PWR_THRESH Reg.PWR_THRESH_.ABORT → 2 ≤ s.power.lowAbort →
        t.power.cut = true) ∧
      (s.mode = modeHoldup → t.mode = modeHoldup)) ∧
  (∀ s : State, s.running = true → s.mode ≠ modeHoldup →
    ∃ t, exec .energyRecompute s = .next t ∧
      t.fld Reg.PWR_ENERGY Reg.PWR_ENERGY_.FACTOR = s.factor ∧
      t.fld Reg.PWR_FLUSHLIM Reg.PWR_FLUSHLIM_.MAP = 524288 * s.factor / 256 ∧
      t.fld Reg.PWR_FLUSHLIM Reg.PWR_FLUSHLIM_.GATHER = 516096 * s.factor / 256 ∧ t.map = s.map ∧ t.cmds = s.cmds)

/-- R368, R371, R373, R374: the steps of the flush and the horizon. The write-back leaves no dirty cache line and nothing to
evict, and fixes the set; a flush stripe counts, the last one that the set needs ends the programming, a failed one queues
a block for retirement; the flush then stops, clean only when all of it was programmed and it was not cut short. The
horizon becomes the oldest stamp not persisted. -/
def Obligations.FlushSteps : Prop :=
  ∀ s : State, s.running = true →
    (s.power.flush = .entered → ∃ t, exec .flushWritebackDone s = .next t ∧ t.power.flush = .fixed ∧
      (∀ l ∈ t.map.cache, l.dirty = 0) ∧ t.map.evict = [] ∧ t.map.entries = s.map.entries ∧ t.media = s.media) ∧
    (s.power.flush = .fixed → s.power.cut = false → s.power.flushBand.length = 16 →
      exec (.flushStripeDone true) s = .next { s with power := { s.power with
        flushStripes := s.power.flushStripes + 1,
        flush := if s.flushNeeded ≤ s.power.flushStripes + 1 then .programmed else .fixed } } ∧
      (∀ b, (s.dieOf (s.power.flushBand.headD 0)).flushBlocks.head? = some b →
        exec (.flushStripeDone false) s = .next { s with place := { s.place with
          retireQueue := s.place.retireQueue ++ [blockKey (s.power.flushBand.headD 0) b] } })) ∧
    (∀ us : Nat, s.mode = modeHoldup → s.power.flush = .programmed →
      ∃ t, exec (.flushComplete us) s = .next t ∧ t.pins.stopped = true ∧ t.power.flush = .stopped ∧
        (t.power.cleanSession = if s.power.cut = false ∧ s.power.journal ≠ [] then some s.power.session else none) ∧
        t.map = s.map ∧ t.media = s.media) ∧
    (∀ us : Nat, s.mode = modeHoldup → s.power.flush = .fixed → s.power.cut = true →
      ∃ t, exec (.flushComplete us) s = .next t ∧ t.power.cleanSession = none ∧ t.pins.stopped = true) ∧
    (∀ us : Nat, s.mode = modeHoldup → s.power.flush = .fixed → s.power.cut = false → s.power.flushBand.length = 16 →
      exec (.flushComplete us) s = .next s) ∧
    (s.serving = true → ∃ t, exec .horizonWrite s = .next t ∧ t.power.horizon = s.horizonNow ∧
      (∀ x ∈ t.power.trims, x ∈ s.power.trims ∧ (x.seq - s.horizonNow).toNat < 2 ^ 63) ∧
      t = { s with power := { s.power with horizon := s.horizonNow, trims := t.power.trims } })

/-- R392 to R394, R397, R401: a firmware allocation goes to the smallest pool that is large enough; above a class's quota or
every pool it is refused, with a buffer free and nothing before it granted, else it waits. A release frees the buffer of
its owner unless a descriptor names it. A grant takes the first that waits. -/
def Obligations.BuffersComplete : Prop :=
  (∀ bytes : Nat, (bytes ≤ 0x1000 → poolFor false bytes = some 0) ∧
    (0x1000 < bytes → bytes ≤ 0x4000 → poolFor false bytes = some 1) ∧ (0x4000 < bytes → poolFor false bytes = none) ∧
    (bytes ≤ 0x10000 → poolFor true bytes = some 2) ∧
    (0x10000 < bytes → bytes ≤ 0x80000 → poolFor true bytes = some 3) ∧ (0x80000 < bytes → poolFor true bytes = none)) ∧
  (∀ (src : Source) (v : Word) (s u : State), s.up = true → s.judge src Reg.BPM_ALLOCREQ 4 true = .served →
    s.allocPending src = false → u = s.setReg Reg.BPM_ALLOCREQ (v.setWidth 64 &&& 0xBF0F_FFFF) →
    (poolFor ((v.setWidth 64).getLsbD 31) (Reg.BPM_ALLOCREQ_.BYTES.get (v.setWidth 64)) = none →
      exec (.bpmAllocRequest src v) s = .next (u.setAllocResp src .refused)) ∧
    (∀ p, poolFor ((v.setWidth 64).getLsbD 31) (Reg.BPM_ALLOCREQ_.BYTES.get (v.setWidth 64)) = some p →
      exec (.bpmAllocRequest src v) s = .next (u.allocate src (Reg.BPM_ALLOCREQ_.CLASS.get (v.setWidth 64)) p))) ∧
  (∀ (src : Source) (v : Word) (s : State), s.up = true → s.judge src Reg.BPM_ALLOCREQ 4 true = .served →
    s.allocPending src = true → exec (.bpmAllocRequest src v) s = .next (s.raise 14 25)) ∧
  (∀ (src : Source) (cls p : Nat) (s : State),
    ((s.poolQuota p cls).1 < poolPips p → s.allocate src cls p = s.setAllocResp src .refused) ∧
    (poolPips p ≤ (s.poolQuota p cls).1 → s.canAlloc p cls = true → s.pools.waits = [] →
      s.allocate src cls p = s.grantBuf src p cls) ∧
    (poolPips p ≤ (s.poolQuota p cls).1 → s.canAlloc p cls = false →
      ∃ w, (s.allocate src cls p).pools.waits = s.pools.waits ++ [w] ∧ w.src = src ∧ w.pool = p ∧ w.cls = cls ∧
        (s.allocate src cls p).pools.bufs = s.pools.bufs)) ∧
  (∀ (src : Source) (v : DWord) (b : Buf) (s : State), s.up = true → s.judge src Reg.BPM_RELEASE 8 true = .served →
    s.pools.bufs.find? (fun b => decide (b.addr = v.toNat % 2 ^ 48)) = some b → b.src = src →
    (s.bufBusy (v.toNat % 2 ^ 48) = false → exec (.bpmRelease src v) s = .next (s.freeBuf (v.toNat % 2 ^ 48))) ∧
    (s.bufBusy (v.toNat % 2 ^ 48) = true → exec (.bpmRelease src v) s = .next { s with pools := { s.pools with
      bufs := s.pools.bufs.map fun x => if x.addr = v.toNat % 2 ^ 48 then { x with releasing := true } else x } })) ∧
  (∀ (src : Source) (v : DWord) (b : Buf) (s : State), s.up = true →
    s.pools.bufs.find? (fun b => decide (b.addr = v.toNat % 2 ^ 48)) = some b → b.src ≠ src →
    s.judge src Reg.BPM_RELEASE 8 true = .served → exec (.bpmRelease src v) s = .next s) ∧
  (∀ (p : Nat) (w : AllocWait) (s : State), s.up = true → s.nextAlloc p = some w →
    exec (.allocGrant p) s = .next (State.grantBuf { s with pools := { s.pools with
      waits := s.pools.waits.filter fun x => decide (x.order ≠ w.order) } } w.src p w.cls))

namespace Sys2Proof.Ob

/-- The state in which a MAT_CMD operation acts: its address stands in the register (R422). -/
def matUnder (s : State) (a : Nat) : State := s.setFld Reg.MAT_CMD Reg.MAT_CMD_.ADDR a

/-- A MAT_CMD operation that is taken: the write is served, nothing of the source is busy, the source may use the address
(R409). -/
def MatTaken (src : Source) (a : Nat) (s : State) : Prop :=
  s.up = true ∧ a < 131072 ∧ s.judge src Reg.MAT_CMD 4 true = .served ∧ s.matBusy src = false ∧
    (matUnder s a).matPermitted src a = true

end Sys2Proof.Ob

/-- R405, R407, R409: the operations of MAT_CMD. LOOKUP answers the lowest matching entry of the address's partition, or a
miss; READ loads the entry into the registers; WRITE makes it what the registers hold, INVALIDATE removes it; INSERT and
DELETE queue a slide and answer busy, an insert into a full partition is refused. An address that the source may not use
is refused with reason 1, with its event. -/
def Sys2Proof.Ob.MatchCommandsComplete : Prop :=
  (∀ (src : Source) (a : Nat) (s u : State), Ob.MatTaken src a s → u = Ob.matUnder s a →
    (∀ b e, matLookup u.mat.entries (partitionAt a).1 (partitionAt a).2 u.matOperand.key u.matOperand.mask = some (b, e) →
      exec (.matLookup src a) s = .next (u.setMatResp src (.done true b))) ∧
    (matLookup u.mat.entries (partitionAt a).1 (partitionAt a).2 u.matOperand.key u.matOperand.mask = none →
      exec (.matLookup src a) s = .next (u.setMatResp src (.done false 0))) ∧
    (∀ e, u.mat.entries.look a = some e → exec (.matRead src a) s = .next ((u.loadMat e).setMatResp src (.done false 0))) ∧
    (u.mat.entries.look a = none → ∃ e v, exec (.matRead src a) s = .next (State.setMatResp (State.loadMat v e) src (.done false 0)) ∧
      v = { u with free := v.free }) ∧
    exec (.matWrite src a) s = .next ((u.setMat (u.mat.entries.put a u.matOperand)).setMatResp src (.done false 0)) ∧
    exec (.matInvalidate src a) s = .next ((u.setMat (u.mat.entries.del a)).setMatResp src (.done false 0)) ∧
    (u.mat.entries.look ((partitionAt a).2 - 1) = none →
      exec (.matInsert src a) s = .next (u.queueSlide src a (some u.matOperand))) ∧
    (∀ e, u.mat.entries.look ((partitionAt a).2 - 1) = some e → exec (.matInsert src a) s = .next (u.matRefuse src 2)) ∧
    exec (.matDelete src a) s = .next (u.queueSlide src a none)) ∧
  (∀ (src : Source) (a : Nat) (s : State), s.up = true → a < 131072 → s.judge src Reg.MAT_CMD 4 true = .served →
    s.matBusy src = false → (Ob.matUnder s a).matPermitted src a = false →
    ∀ i ∈ ([.matLookup src a, .matRead src a, .matWrite src a, .matInsert src a, .matDelete src a, .matInvalidate src a] :
      List Instr), exec i s = .next ((Ob.matUnder s a).matRefuse src 1))

/-- R407, R408: a slide that ends puts its entry at its address and moves those behind it down by one, or takes the entry at
its address out and moves them up; the scan counts each bad entry, and clears those of the firmware partition; late, it
raises its event. -/
def Sys2Proof.Ob.SlidesAndScan : Prop :=
  (∀ (p : Nat) (x : Slide) (s u : State), s.up = true → s.mat.slides.find? (fun x => decide (x.partition = p)) = some x →
    u = { s with mat := { s.mat with slides := s.mat.slides.erase x } } →
    (∀ e, x.entry = some e → s.mat.entries.look ((partitionAt x.addr).2 - 1) = none →
      exec (.matchSlideDone p) s = .next ((u.setMat (insertOrdered s.mat.entries x.addr (partitionAt x.addr).2 e)).setMatResp
        x.src (.done false 0))) ∧
    (∀ e d, x.entry = some e → s.mat.entries.look ((partitionAt x.addr).2 - 1) = some d →
      exec (.matchSlideDone p) s = .next (u.matRefuse x.src 2)) ∧
    (x.entry = none → exec (.matchSlideDone p) s = .next ((u.setMat (deleteOrdered s.mat.entries x.addr
      (partitionAt x.addr).2)).setMatResp x.src (.done false 0)))) ∧
  (∀ (m : SMap MatEntry) (a hi b : Nat) (e f : MatEntry), (m.map (·.1)).Nodup → a ≤ b → b + 1 < hi → m.look b = some f →
    (insertOrdered m a hi e).look a = some e ∧ (insertOrdered m a hi e).look (b + 1) = some f) ∧
  (∀ (s : State) (late : Bool), s.up = true → exec (.matchScan [] late) s = .next (if late then s.raise 15 19 else s)) ∧
  (∀ (s : State) (a : Nat), s.up = true → a < 131072 →
    ∃ t, exec (.matchScan [a] false) s = .next t ∧ t.reg Reg.MAT_PARITY = counterAdd (s.reg Reg.MAT_PARITY) 1 ∧
      (t.statOf (Reg.HDR_STAT 15)).isSet 16 = true ∧
      (122880 ≤ a → t.mat.entries = s.mat.entries.del a) ∧ (a < 122880 → t.mat = s.mat))

/-! ## Mules (chapter 12) -/

/-- R410, R416, R417, R419, R423: the commands of a ring. Enabling starts it at HEAD 0, one enabled runs on; disabling lets the
descriptor in progress end, and abandons that of a halted ring; a halted ring resumes; a kick has an idle ring look again; a
paced ring goes on once the level is low. -/
def Sys2Proof.Ob.MuleRingsComplete : Prop :=
  ∀ (src : Source) (r : Nat) (s : State), s.up = true → r < 256 → s.judge src (Reg.MUL_RCTRL r) 4 true = .served →
    (s.ringEnabled r = false → exec (.muleRingEnable src r) s = .next (State.setMule (State.setFld
      (s.setFld (Reg.MUL_RCTRL r) Reg.MUL_RCTRL_.ENABLE 1) (Reg.MUL_RSTAT r) Reg.MUL_RSTAT_.HEAD 0) r
        { s.mule r with idle := false })) ∧
    (s.ringEnabled r = true → exec (.muleRingEnable src r) s = .next s) ∧
    (∃ t, exec (.muleRingDisable src r) s = .next t ∧ t.ringEnabled r = false ∧ t.ringHalted r = false ∧
      t.fld (Reg.MUL_RSTAT r) Reg.MUL_RSTAT_.PACED = 0 ∧ t.ram = s.ram ∧
      (s.ringHalted r = true → (t.mule r).cur = none) ∧ (s.ringHalted r = false → t.mules = s.mules)) ∧
    (s.ringHalted r = true → exec (.muleRingResume src r) s =
      .next (s.setFld (Reg.MUL_RSTAT r) Reg.MUL_RSTAT_.HALTED 0)) ∧
    (s.ringHalted r = false → exec (.muleRingResume src r) s = .next s) ∧
    exec (.muleRingKick src r) s = .next (s.setMule r { s.mule r with idle := false }) ∧
    (s.fld (Reg.MUL_RSTAT r) Reg.MUL_RSTAT_.PACED = 1 → (s.paceHigh r = 0 ∨ s.paceLevel r ≤ s.paceLow r) →
      exec (.mulePaceResume r) s = .next (s.setFld (Reg.MUL_RSTAT r) Reg.MUL_RSTAT_.PACED 0))

namespace Sys2Proof.Ob

/-- The address of the descriptor at a ring's head (R410). -/
def mdAt (s : State) (r : Nat) : Nat :=
  s.fld (Reg.MUL_RBASE r) Reg.MUL_RBASE_.BASE * 4096 + 32 * s.fld (Reg.MUL_RSTAT r) Reg.MUL_RSTAT_.HEAD

/-- The descriptor at a ring's head as it stands in memory. -/
def mdHead (s : State) (r : Nat) : BitVec 256 := BitVec.ofNat 256 (leNat (readBytes s.ram (mdAt s r) 32))

/-- A ring that takes its next descriptor now (R410, R416). -/
def RingRuns (r : Nat) (s : State) : Prop :=
  s.up = true ∧ r < 256 ∧ s.ringEnabled r = true ∧ s.ringHalted r = false ∧ (s.mule r).idle = false ∧
    (s.mule r).cur = none ∧ s.paceStops r = false ∧ s.fld (Reg.MUL_RSTAT r) Reg.MUL_RSTAT_.PACED = 0

end Sys2Proof.Ob

/-- R410, R416, R417: a ring that runs takes the descriptor at its head when OWN is set: it is in progress and HEAD advances
round the ring; with OWN clear the ring idles at it; a fetch that fails halts the ring with the address in MUL_RERR and
the event RING_HALTED (event bit 16); a fill level at HIGH pauses it. -/
def Sys2Proof.Ob.MuleTakesDescriptor : Prop :=
  (∀ (r : Nat) (s : State), Ob.RingRuns r s → s.fabricOk (Ob.mdAt s r) 32 = true → (Ob.mdHead s r).getLsbD 31 = true →
    s.fld (Reg.MUL_RCTRL r) Reg.MUL_RCTRL_.SIZE_LOG2 ≤ 12 →
    ∃ t, exec (.muleDescriptor r true) s = .next t ∧ (t.mule r).cur = some (Ob.mdHead s r) ∧ (t.mule r).addr = Ob.mdAt s r ∧
      t.fld (Reg.MUL_RSTAT r) Reg.MUL_RSTAT_.HEAD = (s.fld (Reg.MUL_RSTAT r) Reg.MUL_RSTAT_.HEAD + 1) %
        2 ^ s.fld (Reg.MUL_RCTRL r) Reg.MUL_RCTRL_.SIZE_LOG2 ∧ t.ram = s.ram) ∧
  (∀ (r : Nat) (s : State), Ob.RingRuns r s → s.fabricOk (Ob.mdAt s r) 32 = true → (Ob.mdHead s r).getLsbD 31 = false →
    ∃ t, exec (.muleDescriptor r true) s = .next t ∧ (t.mule r).idle = true ∧ (t.mule r).cur = none ∧ t.ram = s.ram) ∧
  (∀ (r : Nat) (s : State), Ob.RingRuns r s →
    ∃ t, exec (.muleDescriptor r false) s = .next t ∧ t.ringHalted r = true ∧
      t.reg (Reg.MUL_RERR r) = BitVec.ofNat 64 (Ob.mdAt s r % 2 ^ 48) ∧ (t.statOf (Reg.HDR_STAT 16)).isSet 16 = true ∧
      t.ram = s.ram ∧ t.mules = s.mules) ∧
  (∀ (r : Nat) (ok : Bool) (s : State), s.up = true → r < 256 → s.ringEnabled r = true → s.ringHalted r = false →
    (s.mule r).idle = false → (s.mule r).cur = none → s.paceStops r = true →
    exec (.muleDescriptor r ok) s = .next (s.setFld (Reg.MUL_RSTAT r) Reg.MUL_RSTAT_.PACED 1))

/-- R411, R413, R418: a descriptor that copies within the fabric, without list, transform or tally, in ranges that it may use:
its destination then holds the bytes that its source held, its own words DONE and status, every other byte of the memories
stays, and the ring is free for the next. -/
def Sys2Proof.Ob.MuleCopies : Prop :=
  ∀ (r : Nat) (d : BitVec 256) (l : List Byte) (s : State), s.up = true → Memory.wf s.ram = true → s.ringHalted r = false → (s.mule r).cur = some d →
    (s.mule r).cut = none → (s.mule r).pendingBack = none → mdReservedOk d = true → mdXform d = false → mdTally d = false →
    mdSrcSg d = false → mdDstSg d = false → mdSrcSp d = 0 → mdDstSp d = 0 → 0 < mdLen d →
    s.fabricOk (mdSrc d) (mdLen d) = true → s.fabricOk (mdDst d) (mdLen d) = true →
    ∃ t, exec (.muleDescriptorDone r l .ok true) s = .next t ∧
      (∀ i, i < mdLen d → (mdDst d + i < (s.mule r).addr ∨ (s.mule r).addr + 32 ≤ mdDst d + i) →
        readByte t.ram (mdDst d + i) = readByte s.ram (mdSrc d + i)) ∧
      (∀ a, (a < mdDst d ∨ mdDst d + mdLen d ≤ a) → (a < (s.mule r).addr ∨ (s.mule r).addr + 32 ≤ a) →
        readByte t.ram a = readByte s.ram a) ∧
      (t.mule r).cur = none ∧ t.fld (Reg.MUL_RSTAT r) Reg.MUL_RSTAT_.ACTIVE = 0 ∧
      leNat (readBytes t.ram ((s.mule r).addr + 28) 4) = mdLen d % 2 ^ 32 ∧ t.media = s.media ∧ t.map = s.map ∧ t.nss = s.nss

/-- R417, R418: a descriptor whose status cannot be written back keeps it, and halts the ring with the write-back's kind in
MUL_RERR; when it is tried again the same status is written. -/
def Sys2Proof.Ob.MuleWriteBackFails : Prop :=
  (∀ (r st n : Nat) (d : BitVec 256) (s : State), (s.endMule r d st n false).ringHalted r = true ∧
    ((s.endMule r d st n false).mule r).pendingBack = some (BitVec.ofNat 8 st, BitVec.ofNat 32 n) ∧
    ((s.endMule r d st n false).mule r).cur = (s.mule r).cur ∧ (s.endMule r d st n false).ram = s.ram) ∧
  (∀ (r : Nat) (st : Byte) (n : Word) (d : BitVec 256) (l : List Byte) (a : HostAnswer) (s : State), s.up = true →
    s.ringHalted r = false → (s.mule r).cur = some d → (s.mule r).pendingBack = some (st, n) →
    exec (.muleDescriptorDone r l a true) s = .next (s.writeBackDesc r d st.toNat n.toNat))

/-- R420: a K7 transfer starts from a debug level that lets it, on a channel that is not busy; else it raises its event and does
nothing. -/
def Sys2Proof.Ob.K7Starts : Prop :=
  ∀ (src : Source) (n : Nat) (l : List Byte) (a : HostAnswer) (s : State), s.up = true → n < 16 →
    s.judge src (Reg.MUL_K7CNT n) 4 true = .served →
    (s.debugLevel ≠ 0 → s.fld (Reg.MUL_K7CNT n) Reg.MUL_K7CNT_.BUSY = 0 →
      exec (.k7Start src n l a) s = .next (s.k7Move src n l a)) ∧
    (s.debugLevel = 0 → exec (.k7Start src n l a) s = .next (s.raise 16 18)) ∧
    (s.debugLevel ≠ 0 → s.fld (Reg.MUL_K7CNT n) Reg.MUL_K7CNT_.BUSY = 1 →
      exec (.k7Start src n l a) s = .next (s.raise 16 19))

/-! ## The SDRAM controller (chapter 13) -/

/-- R427, R428: the patrol reads the next codeword and, when it is clean, no more; a corrected error counts and raises its
event, unless it meets a failed device in the same codeword, which makes it uncorrectable; an uncorrectable one counts. -/
def Sys2Proof.Ob.PatrolComplete : Prop :=
  ∀ (ch : Nat) (s u : State), s.running = true → ch < 12 → s.sdcIn ch [2] = true →
    s.fld Reg.SDC_ECCCTRL Reg.SDC_ECCCTRL_.SCRUB_H ≠ 0 →
    u = s.setSdram ch { s.sdramOf ch with patrolAt := ((s.sdramOf ch).patrolAt + 1) % (s.sdramSize / 16) } →
    exec (.patrolScrub ch .clean) s = .next u ∧
    (∀ rank device : Nat, u.besideFailed ch (rank % 2) (device % 20) = false →
      exec (.patrolScrub ch (.corrected rank device)) s = .next (u.corrected ch (rank % 2) (device % 20)) ∧
      (u.corrected ch (rank % 2) (device % 20)).reg (Reg.SDC_CORR ch) = counterAdd (s.reg (Reg.SDC_CORR ch)) 1 ∧
      ((u.corrected ch (rank % 2) (device % 20)).statOf (Reg.HDR_STAT 17)).isSet 16 = true) ∧
    (∀ rank device : Nat, u.besideFailed ch (rank % 2) (device % 20) = true →
      exec (.patrolScrub ch (.corrected rank device)) s = .next (u.uncorrectable ch false)) ∧
    (∀ m : Bool, exec (.patrolScrub ch (.uncorrectable m)) s = .next (u.uncorrectable ch m))

/-- R427: the errors of a device within a second that reach SPARE_THRESH mark it failed, the channel goes on and the memory
reason of DEGRADED holds; below it nothing is marked. R438: the sixteenth uncorrectable codeword within a millisecond fails
the channel, one before it does not. -/
def Sys2Proof.Ob.SdramErrors : Prop :=
  (∀ (ch r d : Nat) (s : State), ch < 12 → r < 2 → d < 20 → s.fld (Reg.SDC_STATE ch) Reg.SDC_STATE_.DEV_VALID = 0 →
    s.fld Reg.SDC_ECCCTRL Reg.SDC_ECCCTRL_.SPARE_THRESH ≤ 1 →
    (s.corrected ch r d).fld (Reg.SDC_STATE ch) Reg.SDC_STATE_.DEV_VALID = 1 ∧
      (s.corrected ch r d).fld (Reg.SDC_STATE ch) Reg.SDC_STATE_.DEV_RANK = r ∧
      (s.corrected ch r d).fld (Reg.SDC_STATE ch) Reg.SDC_STATE_.DEV = d ∧ (s.corrected ch r d).ram = s.ram) ∧
  (∀ (ch r d : Nat) (s : State), ch < 12 → r < 2 → d < 20 →
    (s.sdramOf ch).deviceErrs.look (r * 32 + d) = none → 1 < s.fld Reg.SDC_ECCCTRL Reg.SDC_ECCCTRL_.SPARE_THRESH →
    (s.corrected ch r d).fld (Reg.SDC_STATE ch) Reg.SDC_STATE_.DEV_VALID =
      s.fld (Reg.SDC_STATE ch) Reg.SDC_STATE_.DEV_VALID ∧ (s.corrected ch r d).mode = s.mode) ∧
  (∀ (ch : Nat) (s : State), ch < 12 → (s.sdramOf ch).uncorrRun + 1 < 16 →
    (s.uncorrectable ch false).reg (Reg.SDC_UNCORR ch) = counterAdd (s.reg (Reg.SDC_UNCORR ch)) 1 ∧
      (s.uncorrectable ch false).sdcFailed ch = s.sdcFailed ch ∧ (s.uncorrectable ch false).ram = s.ram) ∧
  (∀ (ch : Nat) (s : State), ch < 12 → 15 ≤ (s.sdramOf ch).uncorrRun → s.sdcFailed (sdramPartner ch) = false →
    (s.uncorrectable ch false).sdcFailed ch = true ∧
      ((s.uncorrectable ch false).statOf (Reg.HDR_STAT 17)).isSet 19 = true)

/-- R430, R434, R437, R439, R440: refreshes, temperature polls, rows that close, training and its tracking, modes, and what
follows a channel's loss. -/
def Sys2Proof.Ob.SdramCommandsComplete : Prop :=
  (∀ (ch : Nat) (s : State), s.running = true → s.sdcIn ch [1, 2] = true →
    exec (.refreshTick ch) s = .next (s.emit (.refresh ch)) ∧
    (∀ hot : Bool, exec (.mr4Poll ch hot) s = .next (State.followHot (s.setSdram ch { s.sdramOf ch with
      hot := hot, polls := (s.sdramOf ch).polls + 1, uncorrRun := 0 }) ch))) ∧
  (∀ (ch b : Nat) (s : State), s.running = true → s.sdcIn ch [2] = true → ((s.sdramOf ch).bank b).isOpen = true →
    exec (.rowIdleClose ch b) s = .next (s.setSdram ch { s.sdramOf ch with
      banks := (s.sdramOf ch).banks.put b { (s.sdramOf ch).bank b with isOpen := false } })) ∧
  (∀ (ch : Nat) (s : State), s.running = true → ch < 12 → s.sdcFailed ch = false →
    exec (.sdramChannelFailure ch) s = .next (s.failSdram ch)) ∧
  (∀ s : State, s.up = true → s.map.detour = true → ∃ t, exec .sdramLossCleanup s = .next t ∧ t.map.detour = false ∧
    (∀ e ∈ t.map.dir, e.2.loc = .sdram → e.2.img = true → e.2.dirty = true) ∧ t.map.entries = s.map.entries ∧
      t.ram = s.ram ∧ t.cmds = s.cmds) ∧
  (∀ (ch d r : Nat) (v : BitVec 12) (s : State) (f : Fld), s.running = true → s.sdcIn ch [2] = true → d < 20 → r < 2 →
    f = (if r = 0 then Reg.SDC_DQS_.WL_R0 else Reg.SDC_DQS_.WL_R1) →
    (v.toNat ≤ s.fld (Reg.SDC_DQS ch d) f + 2 → s.fld (Reg.SDC_DQS ch d) f ≤ v.toNat + 2 →
      exec (.writeLevelTrack ch d r v) s = .next (s.setFld (Reg.SDC_DQS ch d) f v.toNat)) ∧
    ((s.fld (Reg.SDC_DQS ch d) f + 2 < v.toNat ∨ v.toNat + 2 < s.fld (Reg.SDC_DQS ch d) f) →
      exec (.writeLevelTrack ch d r v) s = .next (s.raise 17 22))) ∧
  (∀ (src : Source) (ch : Nat) (m : BitVec 2) (s : State), s.up = true → ch < 12 →
    s.judge src (Reg.SDC_CTRL ch) 4 true = .served → s.isArmed src 17 = true →
    (s.mode ≠ modeBoot → exec (.sdcModeWrite src ch m) s = .next ((s.disarm src 17).raise 17 22)) ∧
    (s.mode = modeBoot → ∃ t, exec (.sdcModeWrite src ch m) s = .next t ∧
      t.fld (Reg.SDC_CTRL ch) Reg.SDC_CTRL_.MODE = m.toNat ∧
      t.fld (Reg.SDC_STATE ch) Reg.SDC_STATE_.MODE = (if m = 3 then 0 else m.toNat) ∧
      t.isArmed src 17 = false ∧ (m ≠ 2 → t.ram = s.ram) ∧
      ∀ c ∈ t.ram, c ∈ s.ram))

/-- R437: the training commands are accepted in TRAIN alone, there each is issued and DONE is set; MRR gives the device's data,
PATTERN_COMPARE the DQ bits that fail among those of the sub-channels it selects. -/
def Sys2Proof.Ob.TrainingCommandsComplete : Prop :=
  ∀ (src : Source) (ch : Nat) (sub : BitVec 2) (rank : Bool) (x : Half) (s : State), s.up = true → ch < 12 →
    s.judge src (Reg.SDC_TCMD ch) 8 true = .served →
    (s.sdcIn ch [1] = true →
      exec (.tcmdMrw src ch sub rank x) s = .next ((s.emit (.training ch 1 x)).setFld (Reg.SDC_TRESHI ch)
        Reg.SDC_TRESHI_.DONE 1) ∧
      exec (.tcmdMpc src ch sub rank x) s = .next ((s.emit (.training ch 3 x)).setFld (Reg.SDC_TRESHI ch)
        Reg.SDC_TRESHI_.DONE 1) ∧
      exec (.tcmdPatternWrite src ch sub rank x) s = .next ((s.emit (.training ch 4 x)).setFld (Reg.SDC_TRESHI ch)
        Reg.SDC_TRESHI_.DONE 1) ∧
      (∀ data : Byte, ∃ t, exec (.tcmdMrr src ch sub rank x data) s = .next t ∧ t.out = s.out ++ [Out.training ch 2 x] ∧
        t.fld (Reg.SDC_TRESHI ch) Reg.SDC_TRESHI_.MRR = data.toNat ∧ t.fld (Reg.SDC_TRESHI ch) Reg.SDC_TRESHI_.DONE = 1) ∧
      (∀ fails : BitVec 80, ∃ t, exec (.tcmdPatternCompare src ch sub rank x fails) s = .next t ∧
        t.fld (Reg.SDC_TRESHI ch) Reg.SDC_TRESHI_.DONE = 1 ∧
        t.fld (Reg.SDC_TRES ch) Reg.SDC_TRES_.FAIL_LO = (fails &&& dqOf sub).toNat % 2 ^ 64 ∧
        t.fld (Reg.SDC_TRESHI ch) Reg.SDC_TRESHI_.FAIL_HI = (fails &&& dqOf sub).toNat / 2 ^ 64)) ∧
    (s.sdcIn ch [1] = false → ∀ (data : Byte) (fails : BitVec 80),
      ∀ i ∈ ([.tcmdMrw src ch sub rank x, .tcmdMrr src ch sub rank x data, .tcmdMpc src ch sub rank x,
        .tcmdPatternWrite src ch sub rank x, .tcmdPatternCompare src ch sub rank x fails] : List Instr),
        exec i s = .next s)

/-! ## Reset, boot, castling, faults and freeze (chapters 15, 16 and 17) -/

/-- R501: over a chip reset MOD_HALT keeps its contents, with CAUSE moved into LAST_CAUSE and cleared; only the loss of the core
supply clears it. -/
def Obligations.HaltRecordKept : Prop :=
  (∀ s : State, s.pins.resetLow = false →
    ∃ t, exec .chipResetAssert s = .next t ∧
      t.fld Reg.MOD_HALT Reg.MOD_HALT_.LAST_CAUSE = s.fld Reg.MOD_HALT Reg.MOD_HALT_.CAUSE ∧
      t.fld Reg.MOD_HALT Reg.MOD_HALT_.CAUSE = 0 ∧
      t.fld Reg.MOD_HALT Reg.MOD_HALT_.ISLAND = s.fld Reg.MOD_HALT Reg.MOD_HALT_.ISLAND ∧
      t.fld Reg.MOD_HALT Reg.MOD_HALT_.DSEQ = s.fld Reg.MOD_HALT Reg.MOD_HALT_.DSEQ) ∧
  (∀ s : State, ∃ t, exec .coreSupplyLoss s = .next t ∧ t.reg Reg.MOD_HALT = 0 ∧ t.pins.thermtripLow = false ∧
    t.pins.resetLow = true ∧ t.boot.fuses = s.boot.fuses ∧ t.media.pages = s.media.pages)

/-- R502, Table 6: chip reset puts every register but MOD_HALT at its reset value, clears every event, arming, ring, command,
lock, buffer and match entry, empties the event log and the staging area, drops the Host Map Regions, unloads every key and closes
every link; the medium, the namespaces, the logs of the device records, the fuses, the boot NOR, the committed image and the
commands that wait stay. -/
def Obligations.ChipResetClears : Prop :=
  ∀ s : State, s.pins.resetLow = false →
    ∃ t, exec .chipResetAssert s = .next t ∧ t.pins.resetLow = true ∧ t.running = false ∧
      (∀ a, a ≠ Reg.MOD_HALT → t.reg a = regReset a) ∧ t.stat = [] ∧ t.armed = [] ∧ t.posted = [] ∧ t.isolated = [] ∧
      t.failedCores = [] ∧ t.cmds = { sqs := [], cqs := [], inflight := [], admission := [], locks := [] } ∧
      t.pools.bufs = [] ∧ t.mat.entries = [] ∧ t.evlog = [] ∧ t.ram = [] ∧ t.map.regions = [] ∧ t.herd.links = [] ∧
      t.boot.staging = Staging.empty ∧ t.boot.running = none ∧ t.boot.castle = none ∧
      (∀ e ∈ t.nss, e.2.keyLoaded = none) ∧ t.nss.map (fun e => e.1) = s.nss.map (fun e => e.1) ∧
      t.media.pages = s.media.pages ∧ t.map.entries = s.map.entries ∧ t.deferred = s.deferred ∧ t.place.lost = s.place.lost ∧
      t.place.bands = s.place.bands ∧ t.boot.fuses = s.boot.fuses ∧ t.boot.norA = s.boot.norA ∧ t.boot.norB = s.boot.norB ∧
      t.boot.store = s.boot.store ∧ t.pending = s.pending ∧ t.out = s.out

/-- R444, R463, R471, R494, R526, R527: at the release of CHIP_RESET_N the straps are taken and the fuses sensed, both ports answer
with Request Retry Status, and the mode is BOOT without a transition; a strap on a reserved ball is an event. At the end of the
strap face the boot face applies; a FREEZE_N still low freezes the N9 then (R512). -/
def Sys2Proof.Ob.ResetReleased : Prop :=
  (∀ (straps : BitVec 7) (sysclk a b : Bool) (s : State), s.pins.resetLow = true → s.mode = modeBoot →
    ∃ t, exec (.chipResetRelease straps sysclk a b) s = .next t ∧ t.pins.resetLow = false ∧ t.pins.sysClock = sysclk ∧
      t.mode = modeBoot ∧ t.reg Reg.FCE_STRAPS = straps.setWidth 64 ∧
      t.reg Reg.FUS_SERIAL = BitVec.ofNat 64 (fuseSerial s.boot.fuses) ∧
      t.fld Reg.FUS_STATE Reg.FUS_STATE_.LIFECYCLE = lifecycle s.boot.fuses ∧
      (t.portOf .a).retry = true ∧ (t.portOf .b).retry = true ∧
      (t.reg Reg.MOD_REASON).getLsbD 0 = true ∧ (t.reg Reg.MOD_REASON).getLsbD 1 = true ∧
      (8 ≤ straps.toNat → (t.statOf (Reg.HDR_STAT 25)).isSet 16 = true) ∧
      t.boot = s.boot ∧ t.media = s.media ∧ t.nss = s.nss) ∧
  (∀ s : State, s.running = true → s.pins.face = .strap → s.pins.freezeLow = false →
    exec .strapFaceEnd s = .next { s with pins := { s.pins with face := .boot, bootcsN := true } }) ∧
  (∀ s : State, s.running = true → s.pins.face = .strap → s.pins.freezeLow = true →
    exec .strapFaceEnd s = .next s.freeze ∧ s.freeze.pins.frozen = true)

namespace Sys2Proof.Ob

/-- Mask ROM can check the NOR (R463, R471). -/
def MaskRom (s : State) : Prop :=
  s.running = true ∧ s.mode = modeBoot ∧ s.pins.face = .boot ∧ s.fld Reg.BOT_STATUS Reg.BOT_STATUS_.CODE = 0 ∧
    s.boot.booted = none

/-- The state with the NOR's slots as they are found. -/
def withNor (s : State) (a b : Option NorSlot) : State := { s with boot := { s.boot with norA := a, norB := b } }

end Sys2Proof.Ob

/-- R463, R464, R472: mask ROM stops with the codes of an unusable serial number, a BLANK lifecycle, an absent NOR and a NOR
without a slot that boots; otherwise it starts the loader of the first slot that it accepts, and marks each slot that it
rejected. A stop ends Request Retry Status and boots nothing. -/
def Sys2Proof.Ob.MaskRomChecks : Prop :=
  (∀ (nor : Bool) (a b : Option NorSlot) (s : State) (code : Nat), Ob.MaskRom s →
    (code = 1 ∧ serialOk s.boot.fuses = false ∨
      code = 5 ∧ serialOk s.boot.fuses = true ∧ lifecycle s.boot.fuses = 0 ∨
      code = 2 ∧ serialOk s.boot.fuses = true ∧ lifecycle s.boot.fuses ≠ 0 ∧ nor = false ∨
      code = 3 ∧ serialOk s.boot.fuses = true ∧ lifecycle s.boot.fuses ≠ 0 ∧ nor = true ∧ norCandidates a b = []) →
    ∃ t, exec (.bootImageCheck nor a b) s = .next t ∧ t.fld Reg.BOT_STATUS Reg.BOT_STATUS_.CODE = code ∧
      t.boot.booted = none ∧ Out.console code ∈ t.out ∧ (t.portOf .a).retry = false ∧ (t.portOf .b).retry = false ∧
      t.boot.fuses = s.boot.fuses) ∧
  (∀ (a b : Option NorSlot) (s : State) (k : Nat) (x : NorSlot) (l : List (Nat × NorSlot)), Ob.MaskRom s →
    serialOk s.boot.fuses = true → lifecycle s.boot.fuses ≠ 0 → norCandidates a b = (k, x) :: l → k < 2 →
    (Ob.withNor s a b).slotBoots x = true →
    ∃ t, exec (.bootImageCheck true a b) s = .next t ∧ t.boot.booted = some x.image ∧
      t.fld Reg.BOT_STATUS Reg.BOT_STATUS_.SLOT = k ∧ t.fld Reg.BOT_STATUS Reg.BOT_STATUS_.STAGE = 1 ∧
      t.boot.norA = a ∧ t.boot.norB = b ∧ t.boot.fuses = s.boot.fuses ∧ t.out = s.out) ∧
  (∀ (a b : Option NorSlot) (s : State) (x y : NorSlot), Ob.MaskRom s →
    serialOk s.boot.fuses = true → lifecycle s.boot.fuses ≠ 0 → norCandidates a b = [(0, x), (1, y)] →
    (Ob.withNor s a b).slotBoots x = false → (Ob.withNor s a b).slotBoots y = true →
    ∃ t, exec (.bootImageCheck true a b) s = .next t ∧ t.boot.booted = some y.image ∧
      t.fld Reg.BOT_STATUS Reg.BOT_STATUS_.SLOT = 1 ∧ t.fld Reg.BOT_STATUS Reg.BOT_STATUS_.REJECTED_A = 1 ∧
      (t.statOf (Reg.HDR_STAT 19)).isSet 16 = true)

/-- R474 to R481: the loader accepts the board description or takes its defaults with code 4, sets the guard lock and the SECRET
gate, starts the cores and reports its stage; a third entropy failure stops it with code 7 before the lock. -/
def Sys2Proof.Ob.LoaderRuns : Prop :=
  ∀ (board : Option Board) (fails us : Nat) (s : State) (img : Image),
    s.boot.booted = some img → s.running = true → s.mode = modeBoot →
    s.fld Reg.BOT_STATUS Reg.BOT_STATUS_.STAGE = 1 → s.fld Reg.BOT_STATUS Reg.BOT_STATUS_.CODE ≠ 7 →
    (fails < 3 → ∃ t, exec (.loaderRun board fails us) s = .next t ∧ t.guardLocked = true ∧
      t.fld Reg.FUS_STATE Reg.FUS_STATE_.SECRET_GATED = 1 ∧ t.fld Reg.BOT_STATUS Reg.BOT_STATUS_.STAGE = 3 ∧
      t.fld Reg.BOT_STATUS Reg.BOT_STATUS_.PARK_US = us % 2 ^ 32 ∧ t.boot.running = some img ∧
      t.boot.board = board.filter (fun b => s.boardOk b) ∧ (t.portOf .a).retry = false ∧ (t.portOf .b).retry = false ∧
      t.map.sealKey = s.map.sealKey + 1 ∧ t.mode = modeBoot ∧ t.media = s.media ∧ t.nss = s.nss) ∧
    (3 ≤ fails → ∃ t, exec (.loaderRun board fails us) s = .next t ∧ t.fld Reg.BOT_STATUS Reg.BOT_STATUS_.CODE = 7 ∧
      Out.console 7 ∈ t.out ∧ t.guardLocked = s.guardLocked ∧ t.boot.running = s.boot.running)

/-- R465, R481: the boot core before the guard lock programs the fuse bit that FUS_PROG.BIT names, unless the bit is refused;
one that does not read back 1 sets FAIL, FUSE_FAIL (event bit 16) and code 6. From any other source and under the lock no
fuse changes. A write of 1 to GRD_LOCK.LOCK sets the lock; once it is set, a write is discarded and the guard block's event
bit 17 set. -/
def Sys2Proof.Ob.FusesAndLock : Prop :=
  (∀ (bit : Nat) (blows : Bool) (s t : State) (src : Source), src = .core { group := .boot, idx := 0 } → s.up = true →
    s.judge src Reg.FUS_PROG 4 true = .served → s.guardLocked = false →
    t = s.writeGeneric src Reg.FUS_PROG 4 (BitVec.ofNat 64 (bit % 4096)) →
    exec (.fuseProgram src bit blows) s = .next (t.blowFuse (t.fld Reg.FUS_PROG Reg.FUS_PROG_.BIT) blows)) ∧
  (∀ (b : Nat) (blows : Bool) (s : State),
    (fuseRefused s.boot.fuses b = true → (s.blowFuse b blows).boot = s.boot ∧
      (s.blowFuse b blows).fld Reg.FUS_PROG Reg.FUS_PROG_.FAIL = 1) ∧
    (fuseRefused s.boot.fuses b = false → blows = true →
      (s.blowFuse b blows).boot.fuses = s.boot.fuses ||| BitVec.ofNat 4096 (2 ^ b) ∧
      (s.blowFuse b blows).fld Reg.FUS_PROG Reg.FUS_PROG_.FAIL = 0) ∧
    (fuseRefused s.boot.fuses b = false → blows = false → s.boot.fuses.getLsbD b = false →
      (s.blowFuse b blows).boot.fuses = s.boot.fuses ∧ (s.blowFuse b blows).fld Reg.FUS_PROG Reg.FUS_PROG_.FAIL = 1 ∧
      ((s.blowFuse b blows).statOf (Reg.HDR_STAT 21)).isSet 16 = true ∧
      (s.blowFuse b blows).fld Reg.BOT_STATUS Reg.BOT_STATUS_.CODE = 6)) ∧
  (∀ (bit : Nat) (blows : Bool) (s : State) (src : Source), s.up = true →
    src ≠ .core { group := .boot, idx := 0 } ∨ s.guardLocked = true →
    ∃ t, exec (.fuseProgram src bit blows) s = .next t ∧ t.boot.fuses = s.boot.fuses) ∧
  (∀ (src : Source) (value : Word) (s : State), s.up = true → s.judge src Reg.GRD_LOCK 4 true = .served →
    (s.guardLocked = false → value.getLsbD 0 = true →
      ∃ t, exec (.grdLockWrite src value) s = .next t ∧ t.guardLocked = true ∧
        t = { s with regs := t.regs } ∧ 2 ≤ t.fld Reg.BOT_STATUS Reg.BOT_STATUS_.STAGE) ∧
    (s.guardLocked = false → value.getLsbD 0 = false → exec (.grdLockWrite src value) s = .next s) ∧
    (s.guardLocked = true → ∃ t, exec (.grdLockWrite src value) s = .next t ∧ t.regs = s.regs ∧
      (t.statOf (Reg.HDR_STAT 20)).isSet 17 = true))

/-- R380, R381, R388, R494: recovery ends its steps in order. Its first powers every carrier slot; without a root record it
forgets what the device records would hold and goes on at step 9; its seventh classes the stop, counts the journal copies
and raises the events of an unclean stop; its last begins a session and leaves BOOT, unless the firmware store is ahead of
the NOR. A step whose condition is not met changes nothing. -/
def Obligations.RecoveryGoesOn : Prop :=
  (∀ s : State, s.recovering = true → s.mayRecover = true →
    ∃ t, exec .recoveryStep s = .next t ∧ t.ram = s.ram ∧ t.boot.fuses = s.boot.fuses ∧
      (s.power.recStep = 0 → t.power.recStep = 1 ∧ ∀ c, c < 8 → t.carState c = 3) ∧
      (s.power.recStep = 1 → t = { s with power := { s.power with recStep := 2 } }) ∧
      (s.power.recStep = 2 → s.isFirstStart = true →
        t.power.recStep = 8 ∧ t.nss = [] ∧ t.deferred = [] ∧ t.map.entries = [] ∧ t.place.bands = [] ∧ t.power.firstStart = true) ∧
      (s.power.recStep = 2 → s.isFirstStart = false → t = { s with power := { s.power with recStep := 3 } }) ∧
      (s.power.recStep = 3 → t.power.recStep = 4 ∧ t.media = s.media) ∧
      (s.power.recStep = 4 → t.power.recStep = 5) ∧
      (s.power.recStep = 5 → t = { s with power := { s.power with recStep := 6 } }) ∧
      (s.power.recStep = 6 → t.power.recStep = 7 ∧
        t.fld Reg.PWR_LASTSTOP Reg.PWR_LASTSTOP_.COPIES = s.journalCopies ∧
        (s.closedClean = true → s.flushReadable = true → t.fld Reg.PWR_LASTSTOP Reg.PWR_LASTSTOP_.KIND = 1) ∧
        (s.closedClean = false → 2 ≤ t.fld Reg.PWR_LASTSTOP Reg.PWR_LASTSTOP_.KIND ∧
          (t.statOf (Reg.HDR_STAT 18)).isSet 20 = true)) ∧
      (s.power.recStep = 7 → t.power.recStep = 8 ∧ (2 ≤ s.fld Reg.PWR_LASTSTOP Reg.PWR_LASTSTOP_.KIND → t.place.gathers = [])) ∧
      (s.power.recStep = 8 → t.power.recStep = 9 ∧ ∀ k b, t.place.bands.look k = some b → b.st ≠ .opened) ∧
      (s.power.recStep = 9 → t.power.recStep = 10 ∧ t.power.session = s.power.session + 1 ∧
        (t.mode = modeBoot → t.storeAhead = true))) ∧
  (∀ s : State, s.recovering = false ∨ s.mayRecover = false → exec .recoveryStep s = .next s)

/-- R486, R488, R491: the handover of the core that is due stops it and ends its armings; its import makes the next core due,
or after the last one commits the new image and ends the castling in the service mode; an import that is late aborts the
castling, at once when no core had been handed over. -/
def Sys2Proof.Ob.CastlingCommandsComplete : Prop :=
  ∀ (s : State) (c : Castle) (k : Nat), s.boot.castle = some c → s.dueCore c = some k → s.running = true →
    s.mode = modeCastling → c.inBoot = false →
    (c.stopped = false → ∃ t, exec .coreHandover s = .next t ∧ t.boot.castle = some { c with stopped := true } ∧
      (∀ w, t.isArmed (.core (coreAt k)) w = false) ∧
      (∀ (src : Source) (w : Nat), src ≠ .core (coreAt k) → t.isArmed src w = s.isArmed src w) ∧
      t.cmds = s.cmds ∧ t.media = s.media ∧ t.map = s.map) ∧
    (∀ ok : Bool, c.stopped = true → c.abort = none →
      (∀ n, s.dueCore { c with stopped := false, handed := k + 1 } = some n →
        ∃ t, exec (.handoverImportDone ok) s = .next t ∧
          t.boot.castle = some { c with stopped := false, handed := k + 1 } ∧ t.mode = modeCastling ∧ t.cmds = s.cmds) ∧
      (s.dueCore { c with stopped := false, handed := k + 1 } = none →
        ∃ t, exec (.handoverImportDone ok) s = .next t ∧ t.boot.castle = none ∧ t.boot.running = some c.image ∧
          t.boot.staging = Staging.empty ∧ t.mode = s.serviceMode ∧
          (ok = true → t.boot.store.committed = some c.image ∧ (t.statOf (Reg.HDR_STAT 22)).isSet 18 = true ∧
            t.reg Reg.FWU_CASTLES = counterAdd (s.reg Reg.FWU_CASTLES) 1) ∧
          (ok = false → t.boot.store = s.boot.store ∧ (t.statOf (Reg.HDR_STAT 22)).isSet 20 = true) ∧
          t.cmds = s.cmds ∧ t.media = s.media)) ∧
    (c.stopped = true → c.abort = none →
      (∀ n, s.dueCore { c with stopped := false, abort := some (1, k) } = some n →
        ∃ t, exec .handoverTimeout s = .next t ∧
          t.boot.castle = some { c with stopped := false, abort := some (1, k) } ∧ t.boot.running = s.boot.running ∧
          t.mode = modeCastling) ∧
      (s.dueCore { c with stopped := false, abort := some (1, k) } = none →
        ∃ t, exec .handoverTimeout s = .next t ∧ t.boot.castle = none ∧ t.boot.running = s.boot.running ∧
          t.boot.store = s.boot.store ∧ t.boot.staging = Staging.empty ∧ t.mode = s.serviceMode ∧
          (t.statOf (Reg.HDR_STAT 22)).isSet 19 = true ∧ t.reg Reg.FWU_ABORTS = counterAdd (s.reg Reg.FWU_ABORTS) 1))

/-- R490: in BOOT, with recovery done and the store ahead of the NOR, the committed image goes into the NOR slot not booted with
CSEQ one above the other's, and the castling to it begins; when the write fails the N9 leaves BOOT on the booted image and
that slot is not VALID. -/
def Sys2Proof.Ob.BootCastlingBegins : Prop :=
  ∀ (s : State) (old img : Image), s.boot.booted = some old → s.boot.store.committed = some img → img.manifest ≠ old.manifest →
    s.running = true → s.mode = modeBoot → s.power.recStep = 10 → s.boot.castle = none →
    s.fld Reg.BOT_STATUS Reg.BOT_STATUS_.SLOT = 0 →
    (∃ t, exec (.bootCastle false) s = .next t ∧ t.mode = s.serviceMode ∧ t.boot.castle = none ∧
      (∀ x, t.boot.norB = some x → x.valid = false) ∧ t.boot.norA = s.boot.norA) ∧
    (versionsOk old.manifest img.manifest = true → ∀ x : NorSlot, s.boot.norA = some x →
      ∃ t c, exec (.bootCastle true) s = .next t ∧ t.boot.castle = some c ∧ c.image = img ∧ c.handed = 0 ∧ c.inBoot = true ∧
        t.boot.norB = some { cseq := x.cseq + 1, valid := true, image := img } ∧ t.boot.norA = s.boot.norA ∧
        t.boot.store.norCseq = x.cseq + 1 ∧ t.mode = modeBoot ∧ (t.statOf (Reg.HDR_STAT 22)).isSet 21 = true)

namespace Sys2Proof.Ob

/-- What the failure of a core outside a castling leaves, while another core of its group runs. -/
def coreGone (c : CoreId) (s t : State) : Prop :=
  t.failedCores = s.failedCores ++ [c] ∧ (t.statOf (Reg.HDR_STAT 26)).isSet 19 = true ∧
    (t.reg Reg.MOD_REASON).getLsbD 7 = true ∧ t.running = true ∧
    (c.group = .command → ∀ k q, t.cmds.sqs.look k = some q → q.home ≠ c.idx) ∧
    t.cmds.inflight = s.cmds.inflight ∧ t.media = s.media ∧ t.map = s.map ∧ t.nss = s.nss ∧ t.ram = s.ram

end Sys2Proof.Ob

/-- R494, R496 to R499: a core that fails is isolated, its rings go to cores in service, CORE_FAILED (event bit 19) and the reason
CORE are set, and commands in flight go on; an engine island that fails is isolated with the same reason. Each reason bit
follows its condition, and in SERVE a reason makes the mode DEGRADED. -/
def Sys2Proof.Ob.FaultsLeaveService : Prop :=
  (∀ (c : CoreId) (s : State) (i : Nat), s.coreRuns c = true → s.boot.castle = none → i < groupSize c.group → i ≠ c.idx →
    s.coreFailed c.group i = false →
    (∃ t, exec (.coreWatchdog c) s = .next t ∧ Ob.coreGone c s t) ∧
    (∀ cause : CoreCause, ∃ t, exec (.coreFault c cause) s = .next t ∧ Ob.coreGone c s t)) ∧
  (∀ (kind : EngineKind) (idx j : Nat) (s : State), s.up = true → idx < (engineIslands kind).2.1 →
    s.isIsolated ((engineIslands kind).1 + idx) = false → j < (engineIslands kind).2.1 → j ≠ idx →
    s.isIsolated ((engineIslands kind).1 + j) = false →
    ∃ t, exec (.engineIslandFault kind idx) s = .next t ∧ t.isIsolated ((engineIslands kind).1 + idx) = true ∧
      (t.reg Reg.MOD_REASON).getLsbD 7 = true ∧ t.running = true ∧ t.cmds = s.cmds ∧ t.media = s.media) ∧
  (∀ (r : Nat) (s : State), r < 64 → ((s.reason r true).reg Reg.MOD_REASON).getLsbD r = true ∧
    (s.mode = modeServe ∨ s.mode = modeDegraded → (s.reg Reg.MOD_REASON).getLsbD r = false → r < 11 →
      (s.reason r true).mode = modeDegraded)) ∧
  (∀ (m : Nat) (s : State), m < 6 → s.mode ≠ m →
    (s.enterMode m).mode = m ∧ (s.enterMode m).fld Reg.MOD_STATE Reg.MOD_STATE_.PREVIOUS = s.mode ∧
      ((s.enterMode m).statOf (Reg.HDR_STAT 26)).isSet 16 = true ∧
      ∀ fk ∈ s.fnKeys, ((s.enterMode m).statOf (Reg.EVT_FSTAT fk)).isSet 1 = true)

/-- R500, R501, R547, R548: a halt enters HOLDUP, stops every clock, cuts the flush short and records its cause, its island and the
device sequence number; nothing on the medium changes. A trip of the junction limit is halt cause 5; at 100 °C the reason
THERMAL is set, and it clears below 97 °C. THERMTRIP_N goes low in every mode. -/
def Sys2Proof.Ob.HaltsAndLimits : Prop :=
  (∀ (cause island : Nat) (s : State), s.running = true → 1 ≤ cause → cause ≤ 5 → (cause = 4 → loneIsland island = true) →
    ∃ t, exec (.halt cause island) s = .next t ∧ t.running = false ∧ t.pins.stopped = true ∧
      (t.mode = modeHoldup) ∧ t.fld Reg.MOD_HALT Reg.MOD_HALT_.CAUSE = cause ∧
      (t.fld Reg.MOD_HALT Reg.MOD_HALT_.ISLAND = if cause = 4 then island else 0) ∧
      t.fld Reg.MOD_HALT Reg.MOD_HALT_.DSEQ = (s.reg Reg.MOD_DSEQ).toNat % 2 ^ 48 ∧
      t.fld Reg.MOD_HALT Reg.MOD_HALT_.LAST_CAUSE = s.fld Reg.MOD_HALT Reg.MOD_HALT_.LAST_CAUSE ∧
      t.power.flush = .stopped ∧ t.power.cut = true ∧ t.media.pages = s.media.pages ∧ t.nss = s.nss ∧ t.map = s.map) ∧
  (∀ (temp : Half) (cooled : Bool) (s : State), s.running = true →
    (110 * 16 ≤ temp.toInt → ∃ t, exec (.thermalSample temp cooled true) s = .next t ∧ t.pins.stopped = true ∧
      t.fld Reg.MOD_HALT Reg.MOD_HALT_.CAUSE = 5) ∧
    (s.mode ≠ modeHoldup → 100 * 16 ≤ temp.toInt → ∃ t, exec (.thermalSample temp cooled false) s = .next t ∧
      t.fld Reg.PWR_TEMP Reg.PWR_TEMP_.TEMP = temp.toNat ∧ (t.reg Reg.MOD_REASON).getLsbD reasonThermal = true ∧ t.media = s.media) ∧
    (s.mode ≠ modeHoldup → temp.toInt < 97 * 16 → ∃ t, exec (.thermalSample temp true false) s = .next t ∧
      t.fld Reg.PWR_TEMP Reg.PWR_TEMP_.TEMP = temp.toNat ∧ (t.reg Reg.MOD_REASON).getLsbD reasonThermal = false) ∧
    (97 * 16 ≤ temp.toInt → temp.toInt < 100 * 16 →
      exec (.thermalSample temp cooled false) s =
        .next (s.setFld Reg.PWR_TEMP Reg.PWR_TEMP_.TEMP temp.toNat))) ∧
  (∀ s : State, exec .thermtrip s = .next { s with pins := { s.pins with thermtripLow := true } })

/-- R504, R506, R511: an hour advances MOD_HOURS, which sticks at its maximum with OVF; an armed write of EVT_CLRSTATS clears
every statistics counter but those restored from the device records, leaves every other register, and sets STATS_CLEARED; without
the arming it clears nothing. -/
def Sys2Proof.Ob.CountersAdvance : Prop :=
  (∀ s : State, s.running = true →
    exec .hourTick s = .next (s.setReg Reg.MOD_HOURS (counterAdd (s.reg Reg.MOD_HOURS) 1))) ∧
  (∀ (v : DWord) (n : Nat), (ctrCount.get v + n < 2 ^ 31 - 1 →
      ctrCount.get (counterAdd v n) = ctrCount.get v + n ∧ ctrOvf.get (counterAdd v n) = 0) ∧
    (2 ^ 31 - 1 ≤ ctrCount.get v + n →
      ctrCount.get (counterAdd v n) = 2 ^ 31 - 1 ∧ ctrOvf.get (counterAdd v n) = 1)) ∧
  (∀ (src : Source) (s : State), s.up = true → s.judge src Reg.EVT_CLRSTATS 4 true = .served →
    (s.isArmed src 23 = true → ∃ t, exec (.clearStats src) s = .next t ∧
      (∀ a, isClearedCounter a = true → t.reg a = regReset a) ∧
      (∀ a, isClearedCounter a = false → t.reg a = s.reg a) ∧
      (t.statOf (Reg.HDR_STAT 23)).isSet 17 = true ∧ t.isArmed src 23 = false ∧ t.ram = s.ram ∧ t.cmds = s.cmds) ∧
    (s.isArmed src 23 = false → ∃ t, exec (.clearStats src) s = .next t ∧ t.regs = s.regs ∧
      (t.statOf (headerAddr src 23 0x10)).isSet 1 = true))

/-- R502, R512, R514, R515, R520, R528: FREEZE_N freezes the N9 in any mode and face but the strap face; an armed write of
FRZ_CTRL.FREEZE does so at debug level DIAG or TEST alone. A frozen N9 keeps its registers, queues and memory, and its chains
shift their segments out through the TAP. -/
def Sys2Proof.Ob.FreezeHolds : Prop :=
  (∀ s : State, s.pins.resetLow = false → s.pins.face ≠ .strap → s.pins.frozen = false →
    ∃ t, exec .freezeN s = .next t ∧ t.pins.frozen = true ∧ t.running = false ∧ t.mode = modeFrozen ∧ Out.freezePass 0 ∈ t.out ∧
      t.cmds = s.cmds ∧ t.ram = s.ram ∧ t.media = s.media ∧ t.map = s.map ∧ t.boot = s.boot ∧
      t.reg Reg.MOD_HALT = s.reg Reg.MOD_HALT) ∧
  (∀ s : State, s.pins.resetLow = true ∨ s.pins.face = .strap →
    exec .freezeN s = .next { s with pins := { s.pins with freezeLow := true } }) ∧
  (∀ (src : Source) (s : State), s.up = true → s.judge src Reg.FRZ_CTRL 4 true = .served →
    (s.isArmed src 24 = true → s.debugLevel ≠ 0 → exec (.freezeRequest src) s = .next (s.disarm src 24).freeze) ∧
    (s.isArmed src 24 = true → s.debugLevel = 0 → exec (.freezeRequest src) s = .next (s.disarm src 24)) ∧
    (s.isArmed src 24 = false → ∃ t, exec (.freezeRequest src) s = .next t ∧ t.pins = s.pins ∧ t.regs = s.regs)) ∧
  (∀ (seg : Nat) (s : State), s.pins.frozen = true → seg < 212 →
    exec (.tapOperation (.stateChain seg)) s =
      .next { s with out := s.out ++ [.tap seg (segmentExcluded s.debugLevel seg)] }) ∧
  (∀ (op : TapOp) (s : State), s.pins.frozen = false → exec (.tapOperation op) s = .next s)

/-! ## Management tasks and the sideband port (chapter 03; R544) -/

/-- R107 to R109: any endpoint reads task registers. In IDLE a write sets an argument or data word, and GO makes the writer the
owner and the task BUSY. While the task is not IDLE a write by another endpoint is rejected, counted and recorded, and
changes no task register. ACK from the owner in DONE makes the file IDLE; after 30 s without it, a GO is taken again. A
message with an offset that no task register has changes nothing. -/
def Sys2Proof.Ob.TaskFileTakesMessages : Prop :=
  ∀ (ep : Nat) (s : State), s.up = true →
    (∀ o n : Nat, 1 ≤ n → n ≤ 16 → (∀ i, i < n → taskOffsetOk (o + 4 * i) = true) →
      exec (.mtfMessage ep (.read o n)) s = .next { s with out := s.out ++
        [.mtfReply ep .done ((List.range n).map fun i => (s.reg (0x2_0000_0000 + o + 4 * i)).setWidth 32)] }) ∧
    (∀ o n : Nat, 1 ≤ n → n ≤ 16 → taskOffsetOk o = false →
      exec (.mtfMessage ep (.read o n)) s = .next { s with out := s.out ++ [.mtfReply ep .badOffset []] }) ∧
    (∀ (o : Nat) (w : Word) (l : List Word), l.length < 16 → taskOffsetOk o = false →
      exec (.mtfMessage ep (.write o (w :: l))) s = .next { s with out := s.out ++ [.mtfReply ep .badOffset []] }) ∧
    (∀ (o : Nat) (w : Word), s.taskState = 0 → taskOffsetOk o = true → (0x20 ≤ o ∧ o < 0x40 ∨ 0x1000 ≤ o) →
      ∃ t, exec (.mtfMessage ep (.write o [w])) s = .next t ∧ t.reg (0x2_0000_0000 + o) = w.setWidth 64 ∧
        (∀ a, a ≠ 0x2_0000_0000 + o → t.reg a = s.reg a) ∧ Out.mtfReply ep .done [] ∈ t.out ∧ t.ram = s.ram ∧ t.cmds = s.cmds) ∧
    (∀ w : Word, w.getLsbD 0 = true → (s.taskState = 0 ∨ s.taskState = 2 ∧ s.mtf.expired = true ∧ w.getLsbD 1 = false) →
      ∃ t, exec (.mtfMessage ep (.write 0x08 [w])) s = .next t ∧
        t.fld Reg.CCP_TASK_STAT Reg.CCP_TASK_STAT_.OWNER = ep % 256 ∧
        t.fld Reg.CCP_TASK_STAT Reg.CCP_TASK_STAT_.TAG = w.toNat / 2 ^ 16 % 256 ∧
        t.fld Reg.CCP_TASK_CTRL Reg.CCP_TASK_CTRL_.OPCODE = w.toNat / 2 ^ 24 ∧
        (w.toNat / 2 ^ 24 ≤ 0x0B → t.taskState = 1) ∧
        (0x0B < w.toNat / 2 ^ 24 → t.taskState = 2 ∧ t.fld Reg.CCP_TASK_STAT Reg.CCP_TASK_STAT_.STATUS = 1) ∧
        (∀ a, a ≠ Reg.CCP_TASK_STAT → a ≠ Reg.CCP_TASK_CTRL → t.reg a = s.reg a)) ∧
    (∀ (o : Nat) (w : Word), s.taskState ≠ 0 → s.ownsTask ep = false → taskOffsetOk o = true →
      (o = 8 → w.getLsbD 0 = true → s.taskState = 2 → s.mtf.expired = false) →
      ∃ t, exec (.mtfMessage ep (.write o [w])) s = .next t ∧ Out.mtfReply ep .notOwner [] ∈ t.out ∧
        t.reg Reg.EVT_MTFREJECT = counterAdd (s.reg Reg.EVT_MTFREJECT) 1 ∧
        (∀ a, 0x2_0000_0000 ≤ a → t.reg a = s.reg a)) ∧
    (s.taskState = 2 → s.ownsTask ep = true →
      ∃ t, exec (.mtfTaskAck ep) s = .next t ∧ t.taskState = 0 ∧ (∀ a, a ≠ Reg.CCP_TASK_STAT → t.reg a = s.reg a) ∧
        Out.mtfReply ep .done [] ∈ t.out) ∧
    (s.taskState = 2 → exec .mtfResultExpire s = .next { s with mtf := { s.mtf with expired := true } }) ∧
    (s.taskState ≠ 2 → exec .mtfResultExpire s = .next s)

namespace Sys2Proof.Ob

/-- The OPCODE of the task that a command runs, and the modes in which it does (R110, Table 20). -/
def taskOf : Instr → Option (Nat × List Nat)
  | .mtfHello => some (0, modesAll)
  | .mtfIdentify => some (1, modesAll)
  | .mtfModeGet => some (2, modesAll)
  | .mtfRegRead _ => some (3, modesAll)
  | .mtfRegWrite _ => some (4, modesAll)
  | .mtfLogGet => some (5, modesServing)
  | .mtfFeatureGet => some (6, modesServing)
  | .mtfFeatureSet => some (7, modesSet)
  | .mtfSysnsRead => some (8, modesServing)
  | .mtfSysnsWrite => some (9, modesServing)
  | .mtfFwStage _ => some (10, modesSet)
  | .mtfFwCastle => some (11, modesSet)
  | _ => none

/-- The task of a command is BUSY in a mode that it runs in, after an MTF HELLO. -/
def Busy (i : Instr) (s : State) : Prop :=
  s.up = true ∧ s.taskState = 1 ∧ s.mtf.negotiated = true ∧
    ∃ p, taskOf i = some p ∧ s.fld Reg.CCP_TASK_CTRL Reg.CCP_TASK_CTRL_.OPCODE = p.1 ∧ p.2.contains s.mode = true

/-- The packet of the command that a FEATURE task stands for: feature 0x0001 names a VF in it (R104). -/
def featurePacket (s : State) (op value : Nat) : BitVec 512 :=
  taskPacket op (s.taskArg 1) value 0 (s.taskArg 0 + if s.taskArg 0 = 1 then s.taskArg 4 % 512 * 65536 else 0)

/-- The function that a FEATURE task acts on: the physical function of the port that ARG[4] names, and for feature 0x0006 the
function of it that ARG[4] names. -/
def featureFn (s : State) : Fn :=
  if s.taskArg 0 = 6 then { port := Port.ofNum (s.taskArg 4 / 65536 % 2), idx := s.taskArg 4 % 512 }
  else pfOf (s.taskArg 4 / 65536 % 2)

/-- A task has ended with a status. -/
def Ended (t : State) (status : Nat) : Prop :=
  t.taskState = 2 ∧ t.fld Reg.CCP_TASK_STAT Reg.CCP_TASK_STAT_.STATUS = status

end Sys2Proof.Ob

/-- R108, R110: a task that no GO has started does nothing; before an MTF HELLO only HELLO and IDENTIFY run, any other ends with
NOT_NEGOTIATED; outside its modes a task ends with WRONG_MODE and MOD_STATE. No memory byte changes, and nothing on the medium. -/
def Sys2Proof.Ob.TasksAreGated : Prop :=
  (∀ (i : Instr) (op : Nat) (modes : List Nat) (s : State), Ob.taskOf i = some (op, modes) →
    s.taskState ≠ 1 ∨ s.fld Reg.CCP_TASK_CTRL Reg.CCP_TASK_CTRL_.OPCODE ≠ op ∨ s.up = false → exec i s = .next s) ∧
  (∀ (i : Instr) (op : Nat) (modes : List Nat) (s : State), Ob.taskOf i = some (op, modes) → s.up = true → s.taskState = 1 →
    s.fld Reg.CCP_TASK_CTRL Reg.CCP_TASK_CTRL_.OPCODE = op →
    (1 < op → s.mtf.negotiated = false →
      ∃ t, exec i s = .next t ∧ Ob.Ended t 4 ∧ (∀ a, a ≠ Reg.CCP_TASK_STAT → t.reg a = s.reg a) ∧ t.ram = s.ram ∧
        t.media = s.media) ∧
    (op ≤ 1 ∨ s.mtf.negotiated = true → modes.contains s.mode = false →
      ∃ t, exec i s = .next t ∧ Ob.Ended t 5 ∧ t.reg 0x2_0000_0040 = BitVec.ofNat 64 ((s.reg Reg.MOD_STATE).toNat % 2 ^ 32) ∧
        t.ram = s.ram ∧ t.media = s.media))

/-- R104, R105, R110, R178, R179, R450, R483, R493: what each task does. HELLO agrees on version 1.2; IDENTIFY returns the catalogue;
MODE_GET the mode and the reasons; REG_READ and REG_WRITE access a register that is served, and report the cause of an access
that is not; LOG_GET and FEATURE_GET return what the command of the physical function would, FEATURE_SET sets it; SYSNS_READ
and SYSNS_WRITE move a block of a system namespace; FW_STAGE and FW_CASTLE end as the commands do. -/
def Sys2Proof.Ob.TasksComplete : Prop :=
  (∀ s : State, s.up = true → s.taskState = 1 → s.fld Reg.CCP_TASK_CTRL Reg.CCP_TASK_CTRL_.OPCODE = 0 → s.mode < 4 →
    ∃ t, exec .mtfHello s = .next t ∧ t.reg (taskResult 0) = 0x0102 ∧
      (s.taskArg 0 % 65536 = 0x0102 → Ob.Ended t 0 ∧ t.mtf.negotiated = true) ∧
      (s.taskArg 0 % 65536 ≠ 0x0102 → s.taskArg 0 / 65536 ≠ 0x0102 → Ob.Ended t 3 ∧ t.mtf.negotiated = s.mtf.negotiated)) ∧
  (∀ s : State, Ob.Busy .mtfIdentify s →
    exec .mtfIdentify s = .next ((s.setTaskData (padTo 4096 (s.catalogue 0xFF))).taskDone 0)) ∧
  (∀ s : State, Ob.Busy .mtfModeGet s → ∃ t, exec .mtfModeGet s = .next t ∧ Ob.Ended t 0 ∧
    t.reg (taskResult 0) = BitVec.ofNat 64 ((s.reg Reg.MOD_STATE).toNat % 2 ^ 32) ∧
    t.reg (taskResult 1) = BitVec.ofNat 64 ((s.reg Reg.MOD_REASON).toNat % 2 ^ 32)) ∧
  (∀ (x : Crossing) (s : State), Ob.Busy (.mtfRegRead x) s → s.taskArg 0 < 0x400_0000 → (s.taskArg 1 = 4 ∨ s.taskArg 1 = 8) →
    (s.judge .mtf (s.taskArg 0) (s.taskArg 1) false = .served → crosses .mtf (s.taskArg 0) = false ∨ x ≠ .stalled →
      exec (.mtfRegRead x) s =
        .next ((s.setResult64 0 (s.readReg .mtf (s.taskArg 0) (s.taskArg 1)).toNat).taskDone 0)) ∧
    (∀ c, c < 16 → s.judge .mtf (s.taskArg 0) (s.taskArg 1) false = .error c →
      ∃ t, exec (.mtfRegRead x) s = .next t ∧ Ob.Ended t 6 ∧ t.reg (taskResult 0) = BitVec.ofNat 64 c)) ∧
  (∀ (x : Crossing) (s : State), Ob.Busy (.mtfRegWrite x) s → s.taskArg 0 < 0x400_0000 → (s.taskArg 1 = 4 ∨ s.taskArg 1 = 8) →
    (s.judge .mtf (s.taskArg 0) (s.taskArg 1) true = .served → crosses .mtf (s.taskArg 0) = false ∨ x ≠ .stalled →
      exec (.mtfRegWrite x) s =
        .next ((s.writeReg .mtf (s.taskArg 0) (s.taskArg 1) (BitVec.ofNat 64 (s.taskArg64 2))).taskDone 0)) ∧
    (∀ c, c < 16 → s.judge .mtf (s.taskArg 0) (s.taskArg 1) true = .error c →
      ∃ t, exec (.mtfRegWrite x) s = .next t ∧ Ob.Ended t 6 ∧ t.reg (taskResult 0) = BitVec.ofNat 64 c)) ∧
  (∀ s : State, Ob.Busy .mtfLogGet s → s.taskArg 2 ≤ 4096 →
    s.taskFault (pfOf 0) (taskPacket opLogGet 0 (s.taskArg 1) (s.taskArg 2) (s.taskArg 0)) = none →
    exec .mtfLogGet s = .next (((s.setTaskData
      (logPart (s.logBytes (pfOf 0) (s.taskArg 0)) (s.taskArg 1) (s.taskArg 2))).afterLog (s.taskArg 0)).taskDone 0)) ∧
  (∀ (s : State) (f : Fn), Ob.Busy .mtfFeatureGet s → f = Ob.featureFn s →
    s.taskFault (pfOf (s.taskArg 4 / 65536 % 2)) (Ob.featurePacket s opFeatureGet 0) = none →
    exec .mtfFeatureGet s =
      .next ((s.setResult64 0 (s.featureGet f (s.taskArg 0) (s.taskArg 1) (s.taskArg 4 % 512))).taskDone 0)) ∧
  (∀ (s : State) (f : Fn), Ob.Busy .mtfFeatureSet s → f = Ob.featureFn s →
    s.taskFault (pfOf (s.taskArg 4 / 65536 % 2)) (Ob.featurePacket s opFeatureSet (s.taskArg64 2)) = none →
    exec .mtfFeatureSet s = .next ((s.featureSet f (s.taskArg 0) (s.taskArg 4 % 512) (s.taskArg64 2)).taskDone 0)) ∧
  (∀ (s : State) (n : Namespace), Ob.Busy .mtfSysnsRead s → s.taskArg 0 ≤ 7 → s.nss.look (0xFF00 + s.taskArg 0) = some n →
    n.kind = .systemNs → s.taskArg64 1 < n.size → s.taskMayLock false (0xFF00 + s.taskArg 0) (s.taskArg64 1) = true →
    (n.sysBlock (s.taskArg64 1) = none → exec .mtfSysnsRead s = .next ((s.setTaskData zeroBlock).taskDone 0)) ∧
    (∀ b, n.sysBlock (s.taskArg64 1) = some b → s.dieServes b.dieA = true ∨ s.dieServes b.dieB = true →
      exec .mtfSysnsRead s = .next ((s.setTaskData b.data).taskDone 0))) ∧
  (∀ (s : State) (n : Namespace) (pair : Nat × Nat), Ob.Busy .mtfSysnsWrite s → s.taskArg 0 ≤ 7 →
    s.nss.look (0xFF00 + s.taskArg 0) = some n → s.taskArg64 1 < n.size →
    s.taskMayLock true (0xFF00 + s.taskArg 0) (s.taskArg64 1) = true → s.sysDies = some pair →
    exec .mtfSysnsWrite s = .next ((s.sysWrite (0xFF00 + s.taskArg 0) [(s.taskArg64 1, s.taskBytes,
      genTally s.taskBytes (s.taskArg64 1) n.nstag.toNat 0)]).taskDone 0)) ∧
  (∀ (piece : FwPiece) (s : State), Ob.Busy (.mtfFwStage piece) s → s.taskArg 1 ≤ 4096 →
    s.taskFault (pfOf 0) (taskPacket opFwStage 0 (s.taskArg 0) (s.taskArg 1) (s.taskArg 2)) = none →
    (s.fwStage mtfOwner (s.taskArg 0) (s.taskArg 1 / 4096) (decide (s.taskArg 2 = 1)) piece).1 = stOk 0 →
    exec (.mtfFwStage piece) s = .next (State.taskDone
      (s.fwStage mtfOwner (s.taskArg 0) (s.taskArg 1 / 4096) (decide (s.taskArg 2 = 1)) piece).2 0)) ∧
  (∀ (s : State) (i : Image), Ob.Busy .mtfFwCastle s → s.castleFault mtfOwner = none → s.boot.staging.image = some i →
    ∃ t, exec .mtfFwCastle s = .next t ∧ Ob.Ended t 0 ∧ t.mode = modeCastling ∧
      ∃ c, t.boot.castle = some c ∧ c.image = i ∧ c.handed = 0)

/-- R544: a broadcast makes the sideband port an I3C target; as one it takes the dynamic address that SETDASA or ENTDAA gives, and
as an I2C target it keeps none. -/
def Sys2Proof.Ob.SidebandTakesAddresses : Prop :=
  ∀ s : State, s.running = true →
    exec .i3cBroadcast s = .next { s with mtf := { s.mtf with i3c := true } } ∧
    (∀ a : BitVec 7, s.mtf.i3c = true →
      exec (.setdasa a) s = .next { s with mtf := { s.mtf with dynAddr := some a } } ∧
      exec (.entdaa a) s = .next { s with mtf := { s.mtf with dynAddr := some a } }) ∧
    (∀ a : BitVec 7, s.mtf.i3c = false → exec (.setdasa a) s = .next s ∧ exec (.entdaa a) s = .next s)

/-! ## The whole block: reset, the queue, frames and invariants -/

/-- R502, R494: the state right after power-on. CHIP_RESET_N is low and nothing runs; every register reads its reset value (where
the spec states none the model's own, log entry 5), the mode is BOOT with no mode before it, no command waits, no
event is set, no memory byte is listed, and nothing was ever started. -/
def Obligations.ResetState : Prop :=
  State.reset.pins.resetLow = true ∧ State.reset.running = false ∧ State.reset.mode = modeBoot ∧
    State.reset.fld Reg.MOD_STATE Reg.MOD_STATE_.PREVIOUS = 0 ∧ State.reset.reg Reg.MOD_WDOG = 0xC8 ∧
    (∀ a, State.reset.reg a = regReset a) ∧ (∀ a bit, (State.reset.statOf a).isSet bit = false) ∧
    State.reset.pending = [] ∧ State.reset.ram = [] ∧ Memory.wf State.reset.ram = true ∧ State.reset.evlog = [] ∧
    State.reset.cmds.inflight = [] ∧ State.reset.nss = [] ∧ State.reset.pins.frozen = false ∧
    State.reset.power.firstStart = true

/-- One step takes the command at the front of the queue and is exec of it on the state with the queue's rest; with an empty
queue the block idles (log entry 10, the model's choice). A command that a word would spell goes to the front: no word of the
table spells one, so withFetchWord changes nothing. -/
def Obligations.StepRunsFront : Prop :=
  (∀ (c : Instr) (rest : List Instr) (s : State), s.pending = c :: rest → step s = exec c (s.withPending rest)) ∧
  (∀ s : State, s.pending = [] → step s = .next s) ∧
  (∀ (nbits w : Nat) (s : State), s.withFetchWord nbits w = s)

namespace Sys2Proof.Ob

/-- The parts of the state, with three single fields that few commands change: the fuse row, the reset ball, the freeze. -/
inductive Part where
  | pending
  | free | out | regs | stat | armed | posted | late | isolated | failedCores | cmds | hosts | mtf | deferred | nss
  | map | place | media | herd | power | pools | mat | mules | sdram | boot | pins | ram | evlog
  | fuses | resetLow | frozen
  deriving DecidableEq, Repr

/-- A part is the same in two states. -/
def same (p : Part) (s t : State) : Prop :=
  match p with
  | .pending => t.pending = s.pending
  | .free => t.free = s.free
  | .out => t.out = s.out
  | .regs => t.regs = s.regs
  | .stat => t.stat = s.stat
  | .armed => t.armed = s.armed
  | .posted => t.posted = s.posted
  | .late => t.late = s.late
  | .isolated => t.isolated = s.isolated
  | .failedCores => t.failedCores = s.failedCores
  | .cmds => t.cmds = s.cmds
  | .hosts => t.hosts = s.hosts
  | .mtf => t.mtf = s.mtf
  | .deferred => t.deferred = s.deferred
  | .nss => t.nss = s.nss
  | .map => t.map = s.map
  | .place => t.place = s.place
  | .media => t.media = s.media
  | .herd => t.herd = s.herd
  | .power => t.power = s.power
  | .pools => t.pools = s.pools
  | .mat => t.mat = s.mat
  | .mules => t.mules = s.mules
  | .sdram => t.sdram = s.sdram
  | .boot => t.boot = s.boot
  | .pins => t.pins = s.pins
  | .ram => t.ram = s.ram
  | .evlog => t.evlog = s.evlog
  | .fuses => t.boot.fuses = s.boot.fuses
  | .resetLow => t.pins.resetLow = s.pins.resetLow
  | .frozen => t.pins.frozen = s.pins.frozen

/-- The parts that a command may change; every other part it leaves as it was. -/
def writes (i : Instr) : List Part :=
  match i with
  | .sqDoorbellWrite _ _ _ _ | .cqDoorbellWrite _ _ _ _ =>
      [.out, .regs, .stat, .cmds, .hosts]
  | .blockKeyWrite _ _ _ =>
      [.out, .regs, .stat, .armed]
  | .statAckWrite _ _ _ =>
      [.out, .stat, .hosts]
  | .registerWrite _ _ _ _ _ =>
      [.free, .out, .regs, .stat, .armed, .posted, .cmds, .hosts, .deferred, .nss, .map, .place, .media, .herd, .power,
       .pools, .mat, .mules, .sdram, .boot, .pins, .ram, .evlog, .fuses, .frozen]
  | .registerAccessTimeout _ _ _ =>
      [.free, .out, .regs, .stat, .posted, .late, .evlog]
  | .stalledWriteApply _ _ =>
      [.free, .out, .regs, .stat, .armed, .posted, .late, .cmds, .hosts, .deferred, .nss, .map, .place, .media, .herd,
       .power, .pools, .mat, .mules, .sdram, .boot, .pins, .ram, .evlog, .fuses, .frozen]
  | .packetFetch _ _ | .ringDeleteComplete _ | .nsDetachComplete _ | .heldRecordPost _ _ | .busMasterSet _ | .d0Return _ =>
      [.out, .regs, .cmds, .hosts, .pools]
  | .read _ _ | .write _ _ | .trim _ _ | .writeZeroes _ _ | .compare _ _ | .orderBarrier _ _ | .gatherRead _ _
  | .hello _ _ | .ringCreate _ _ | .ringDelete _ _ | .nsCreate _ _ | .nsDelete _ _ | .nsAttach _ _ | .nsResize _ _
  | .mapRegionAdd _ _ | .mapRegionRemove _ _ | .logGet _ _ | .featureSet _ _ | .featureGet _ _ | .fwStage _ _
  | .fwCastle _ _ | .herdJoin _ _ | .herdLeave _ _ | .herdReshape _ _ | .keyLoad _ _ | .commandAdmit | .lockWaitEnd _
  | .barrierWaitEnd _ | .oaWaitEnd _ | .pipReserveGrant _ | .hmrFetchComplete _ _ | .mapFlashFetchDone _ _
  | .stagingEntryGrant _ | .spaceGrant _ | .aizaikHello _ _ _ | .aizaikHelloAck _ _ _ | .mapData _ _ _ _ | .fragDone _ _
  | .fragData _ _ _ | .peerDeadTimeout _ _ | .jobDeferTimeout _ | .jobRetryTimer | .sweepStripe _
  | .hrdPortAnWrite _ _ _ | .peerLinkChange _ _ | .chargeGrant _ =>
      [.free, .out, .regs, .stat, .cmds, .hosts, .deferred, .nss, .map, .place, .media, .herd, .power, .pools, .boot,
       .pins, .evlog]
  | .mapRegionRemoveComplete _ =>
      [.out, .regs, .cmds, .hosts, .map, .pools]
  | .cqAggTimer _ _ =>
      [.out, .cmds, .hosts]
  | .functionEnable _ =>
      [.regs, .cmds, .hosts]
  | .functionDisable _ | .busMasterClear _ | .d3hotEntry _ =>
      [.free, .out, .regs, .stat, .cmds, .hosts, .deferred, .nss, .map, .place, .herd, .power, .pools, .mules, .sdram,
       .pins, .ram, .evlog]
  | .mtfMessage _ _ | .mtfRegRead _ | .mtfTaskAck _ =>
      [.free, .out, .regs, .stat, .mtf, .evlog]
  | .mtfHello | .mtfIdentify | .mtfModeGet | .mtfFeatureGet | .mtfSysnsRead =>
      [.regs, .mtf]
  | .mtfRegWrite _ =>
      [.free, .out, .regs, .stat, .armed, .cmds, .hosts, .mtf, .deferred, .nss, .map, .place, .media, .herd, .power,
       .pools, .mat, .mules, .sdram, .boot, .pins, .ram, .evlog, .fuses, .frozen]
  | .mtfLogGet =>
      [.free, .regs, .mtf]
  | .mtfFeatureSet =>
      [.out, .regs, .hosts, .mtf, .herd]
  | .mtfSysnsWrite =>
      [.regs, .mtf, .nss]
  | .mtfFwStage _ =>
      [.out, .regs, .stat, .mtf, .boot]
  | .mtfFwCastle =>
      [.free, .out, .regs, .stat, .hosts, .mtf, .boot, .pins, .evlog]
  | .mtfResultExpire | .i3cBroadcast | .setdasa _ | .entdaa _ =>
      [.mtf]
  | .allocGrant _ =>
      [.out, .stat, .pools]
  | .deferredHourlyLog | .dirtyLineRebuild _ _ | .muleRingResume _ _ | .tcmdMrw _ _ _ _ _ | .tcmdMrr _ _ _ _ _ _
  | .tcmdMpc _ _ _ _ _ | .tcmdPatternWrite _ _ _ _ _ | .tcmdPatternCompare _ _ _ _ _ _ | .grdLockWrite _ _
  | .bar0ReadError _ _ _ =>
      [.free, .out, .regs, .stat, .evlog]
  | .hmrFetchTimeout _ =>
      [.free, .out, .regs, .stat, .map, .evlog]
  | .mapPagePlace _ _ =>
      [.out, .regs, .stat, .map]
  | .mapPageDrop _ | .directorySnapshot | .evictionWritebackDone _ _ | .streamDetectorIdle _ | .sdramLossCleanup =>
      [.map]
  | .mapPagePersist _ | .gatherInstall _ =>
      [.regs, .map, .place, .media]
  | .sysnsMerge _ _ =>
      [.nss]
  | .mchScratchWrite _ _ =>
      [.free, .out, .regs, .stat, .armed, .hosts, .map, .evlog]
  | .packWindowExpire _ _ =>
      [.free, .out, .regs, .stat, .cmds, .hosts, .deferred, .nss, .map, .place, .media, .herd, .power, .pools, .pins,
       .evlog]
  | .gatherAgeExpire _ | .rebuildStripe _ _ | .reclaimVictim =>
      [.free, .out, .regs, .stat, .hosts, .map, .place, .media, .evlog]
  | .coreRebalance _ =>
      [.cmds]
  | .copyStripeInstall _ _ =>
      [.free, .out, .regs, .stat, .hosts, .map, .place, .media, .pins, .evlog]
  | .scoreAgeTick | .wearPersist =>
      [.place]
  | .bandEraseStart _ =>
      [.free, .out, .regs, .stat, .hosts, .nss, .place, .media, .pins, .evlog]
  | .chnRead _ _ _ _ | .chnProgram _ _ _ _ | .chnErase _ _ _ _ | .chnReadTrailer _ _ _ _ | .chnGetFeatures _ _ _ _
  | .chnSetFeatures _ _ _ _ | .chnReadParameter _ _ _ _ | .chnResetDie _ _ _ _ | .chnMark _ _ _ _ | .chnReadId _ _ _ _
  | .chnTrain _ _ _ _ =>
      [.free, .out, .stat, .media, .pools]
  | .dieDispatch _ _ | .dieTimeout _ _ _ | .chnRetrain _ _ _ | .carrierPresenceChange _ _ | .carrierButtonPress _
  | .carrierCancel _ _ | .carrierDiscoveryDone _ _ _ _ | .carrierQuiesceDone _ =>
      [.free, .out, .regs, .stat, .hosts, .nss, .place, .media, .power, .pools, .pins, .evlog]
  | .dieOpComplete _ _ _ _ _ =>
      [.free, .out, .regs, .stat, .hosts, .nss, .place, .media, .power, .pools, .sdram, .pins, .ram, .evlog]
  | .suspendIssue _ _ _ | .departureRecordExpire _ =>
      [.regs, .media]
  | .descriptorStarve _ _ _ | .codewordDecode _ _ _ _ =>
      [.media]
  | .chnCheadWrite _ _ _ =>
      [.free, .out, .regs, .stat, .media, .evlog]
  | .chnRateTargetWrite _ _ _ _ =>
      [.free, .out, .regs, .stat, .armed, .hosts, .nss, .place, .media, .power, .pools, .pins, .evlog]
  | .carrierRemove _ _ | .carrierInsert _ _ | .carrierLocate _ _ | .carrierReconcileDone _ _ =>
      [.free, .out, .regs, .stat, .hosts, .nss, .place, .media, .power, .pins, .evlog]
  | .carrierPowerDelay _ | .refuseBlinkExpire _ | .mulePaceResume _ | .hourTick | .frameDiscard _ =>
      [.regs]
  | .evacuationDone _ =>
      [.free, .out, .regs, .stat, .hosts, .nss, .place, .power, .pins, .evlog]
  | .heartbeat _ _ =>
      [.out, .regs, .stat, .herd]
  | .ack _ | .mapOffer _ | .mapRequest _ _ | .fragWrite _ _ _ | .fragRead _ _ | .fragDiscard _ _
  | .sweepDone _ _ _ _ _ _ =>
      [.out, .regs, .herd]
  | .linkHelloRetry _ | .ackTimer _ | .heartbeatTimer =>
      [.out, .herd]
  | .retransmitTimeout _ =>
      [.out, .regs]
  | .leaseExpire =>
      [.free, .out, .regs, .stat, .hosts, .herd, .pins, .evlog]
  | .herdJobStart _ =>
      [.free, .out, .regs, .stat, .hosts, .deferred, .map, .place, .herd, .pins, .evlog]
  | .misslogExpire _ =>
      [.herd]
  | .ethertypeWrite _ _ | .hrdMacWrite _ _ _ =>
      [.free, .out, .regs, .stat, .armed, .cmds, .hosts, .deferred, .nss, .map, .place, .media, .herd, .power, .pools,
       .boot, .pins, .evlog]
  | .powerFail | .bankSample _ | .halt _ _ | .thermalSample _ _ _ =>
      [.free, .out, .regs, .stat, .hosts, .media, .power, .pools, .boot, .pins, .evlog]
  | .energyRecompute | .linkUp _ _ _ _ =>
      [.free, .out, .regs, .stat, .hosts, .pins, .evlog]
  | .horizonWrite =>
      [.power]
  | .flushWritebackDone =>
      [.map, .power]
  | .flushStripeDone _ =>
      [.place, .power]
  | .flushComplete _ =>
      [.power, .pins]
  | .recoveryStep =>
      [.free, .out, .regs, .stat, .cmds, .hosts, .deferred, .nss, .map, .place, .media, .herd, .power, .boot, .pins,
       .evlog]
  | .bpmAllocRequest _ _ | .bpmRelease _ _ =>
      [.free, .out, .regs, .stat, .pools, .evlog]
  | .matchScan _ _ | .matLookup _ _ | .matRead _ _ | .matWrite _ _ | .matInsert _ _ | .matDelete _ _
  | .matInvalidate _ _ =>
      [.free, .out, .regs, .stat, .mat, .evlog]
  | .matchSlideDone _ =>
      [.out, .stat, .mat]
  | .muleRingEnable _ _ | .muleRingKick _ _ =>
      [.free, .out, .regs, .stat, .mules, .evlog]
  | .muleRingDisable _ _ =>
      [.free, .out, .regs, .stat, .pools, .mules, .evlog]
  | .muleDescriptor _ _ =>
      [.free, .out, .regs, .stat, .hosts, .mules, .sdram, .evlog]
  | .muleDescriptorDone _ _ _ _ =>
      [.free, .out, .regs, .stat, .hosts, .pools, .mules, .sdram, .ram, .evlog]
  | .k7Start _ _ _ _ =>
      [.free, .out, .regs, .stat, .hosts, .sdram, .ram, .evlog]
  | .refreshTick _ | .tapOperation _ =>
      [.out]
  | .mr4Poll _ _ =>
      [.out, .regs, .stat, .sdram]
  | .rowIdleClose _ _ =>
      [.sdram]
  | .patrolScrub _ _ =>
      [.free, .out, .regs, .stat, .isolated, .hosts, .map, .media, .power, .pools, .sdram, .boot, .pins, .ram, .evlog]
  | .sdramChannelFailure _ =>
      [.free, .out, .regs, .stat, .isolated, .hosts, .map, .media, .power, .pools, .boot, .pins, .ram, .evlog]
  | .writeLevelTrack _ _ _ _ =>
      [.out, .regs, .stat]
  | .sdcModeWrite _ _ _ =>
      [.free, .out, .regs, .stat, .armed, .ram, .evlog]
  | .configWrite _ _ _ | .vfEnableSet _ =>
      [.out, .hosts]
  | .flr _ | .vfEnableClear _ | .perstAssert _ | .hotReset _ | .linkDown _ | .hstMaxrateWrite _ _ _ =>
      [.free, .out, .regs, .stat, .armed, .cmds, .hosts, .deferred, .nss, .map, .place, .herd, .power, .pools, .mules,
       .sdram, .pins, .ram, .evlog]
  | .perstDeassert _ | .tagQuarantineEnd _ _ =>
      [.hosts]
  | .hostReadCompletion _ _ _ | .completionTimeout _ _ =>
      [.free, .out, .regs, .stat, .cmds, .hosts, .map, .pools, .mules, .sdram, .ram, .evlog]
  | .chipResetAssert | .coreSupplyLoss =>
      [.free, .regs, .stat, .armed, .posted, .late, .isolated, .failedCores, .cmds, .hosts, .mtf, .nss, .map, .place,
       .media, .herd, .power, .pools, .mat, .mules, .sdram, .boot, .pins, .ram, .evlog, .resetLow, .frozen]
  | .chipResetRelease _ _ _ _ =>
      [.free, .out, .regs, .stat, .hosts, .power, .sdram, .pins, .evlog, .resetLow]
  | .strapFaceEnd | .freezeN =>
      [.free, .out, .regs, .stat, .hosts, .pins, .evlog, .frozen]
  | .bootImageCheck _ _ _ =>
      [.out, .regs, .stat, .hosts, .boot]
  | .loaderRun _ _ _ =>
      [.free, .out, .regs, .stat, .hosts, .map, .mat, .boot, .evlog, .fuses]
  | .bootCastle _ | .handoverImportDone _ | .handoverTimeout =>
      [.free, .out, .regs, .stat, .cmds, .hosts, .boot, .pins, .evlog]
  | .fuseProgram _ _ _ =>
      [.free, .out, .regs, .stat, .armed, .hosts, .boot, .evlog, .fuses]
  | .coreHandover =>
      [.regs, .armed, .boot]
  | .coreWatchdog _ | .coreFault _ _ =>
      [.free, .out, .regs, .stat, .failedCores, .cmds, .hosts, .media, .power, .pools, .boot, .pins, .evlog]
  | .engineIslandFault _ _ =>
      [.free, .out, .regs, .stat, .isolated, .hosts, .media, .power, .pools, .boot, .pins, .evlog]
  | .clearStats _ =>
      [.free, .out, .regs, .stat, .armed, .evlog]
  | .thermtrip =>
      [.pins]
  | .freezeRequest _ =>
      [.free, .out, .regs, .stat, .armed, .hosts, .pins, .evlog, .frozen]
  | .channelIslandFault _ =>
      [.free, .out, .regs, .stat, .isolated, .hosts, .nss, .place, .media, .power, .pools, .pins, .evlog]
  | .evacuationCopy _ =>
      [.free, .out, .regs, .stat, .hosts, .nss, .map, .place, .media, .pins, .evlog]

end Sys2Proof.Ob

/-- The frame of every command: exec answers a next state for every command (none stops), and each part of the state that the
command is not listed with is as it was. -/
def Obligations.PartsKept : Prop :=
  ∀ (i : Instr) (s : State), ∃ t, exec i s = .next t ∧ ∀ p : Ob.Part, p ∉ Ob.writes i → Ob.same p s t

/-- The SDRAM's bytes stay in their one form over every step: addresses rise and no listed byte is the one that an
unlisted address reads as (log entry 6). -/
def Obligations.MemoryKept : Prop :=
  ∀ s t : State, Memory.wf s.ram = true → step s = .next t → Memory.wf t.ram = true

/-- R462: a blown fuse never returns to 0, over any step, and so also over a chip reset and the loss of the core supply. -/
def Obligations.FuseBitsStay : Prop :=
  ∀ (s t : State) (bit : Nat), step s = .next t → s.boot.fuses.getLsbD bit = true → t.boot.fuses.getLsbD bit = true

/-- R502, R512: a frozen N9 stays frozen over every step but a chip reset and the loss of the core supply, which end the freeze. -/
def Obligations.FreezeEndsInReset : Prop :=
  (∀ s t : State, s.pins.frozen = true → s.pending.head? ≠ some .chipResetAssert → s.pending.head? ≠ some .coreSupplyLoss →
    step s = .next t → t.pins.frozen = true) ∧
  (∀ s : State, s.pins.resetLow = false →
    ∃ t, exec .chipResetAssert s = .next t ∧ t.pins.frozen = false ∧ t.pins.resetLow = true)

/-- Doorbells in range are taken in, others fault the ring or are discarded: both parts hold. -/
def Obligations.Doorbells : Prop := Ob.DoorbellTaken ∧ Ob.DoorbellRefused

/-- Arming by key, acknowledging events and stamping them: all parts hold. -/
def Obligations.KeysAndEvents : Prop := Ob.KeyArms ∧ Ob.AckClears ∧ Ob.EventStamps

/-- Register writes reach their island and take effect field by field: both parts hold. -/
def Obligations.RegisterWrites : Prop := Ob.RegisterWriteReaches ∧ Ob.FieldsTakeWrites

/-- Setting and clearing a function's ENABLE: both parts hold. -/
def Obligations.FunctionsComeAndGo : Prop := Ob.FunctionEnabled ∧ Ob.FunctionDisabled

/-- Configuration writes, bus mastering and D3hot: both parts hold. -/
def Obligations.Configuration : Prop := Ob.ConfigurationWritten ∧ Ob.BusMasteringFollows

/-- Function-level resets, VF Enable and the resets of a port: both parts hold. -/
def Obligations.HostResets : Prop := Ob.FunctionReset ∧ Ob.PortReset

/-- The host link's state and the tags of requests: both parts hold. -/
def Obligations.LinksAndTags : Prop := Ob.LinkFollows ∧ Ob.TagsFollow

/-- Commands are admitted in order, and those that wait go on when the cause has ended: both parts hold. -/
def Obligations.AdmissionAndWaits : Prop := Ob.CommandAdmitted ∧ Ob.WaitsEnd

/-- What the fetch of a map page leaves: both parts hold. -/
def Obligations.MapFetches : Prop := Ob.HostPageRefused ∧ Ob.PageFetched

/-- Map pages move, are persisted and are given up: both parts hold. -/
def Obligations.MapPages : Prop := Ob.PagesMove ∧ Ob.CacheAndPersistence

/-- Staging drains, and verified copies are installed: both parts hold. -/
def Obligations.StagingAndCopies : Prop := Ob.StagingGoesOn ∧ Ob.CopiesInstall

/-- Reclaim, rebuilding, wear bookkeeping and the hourly logs: all parts hold. -/
def Obligations.ReclaimAndWear : Prop := Ob.ReclaimRuns ∧ Ob.WearGoesOn ∧ Ob.DeferredLogRepeats

/-- Channel descriptors are posted or end at once with a code: both parts hold. -/
def Obligations.DescriptorsPosted : Prop := Ob.DescriptorsPosted ∧ Ob.PostingRefused

/-- Dies start and end their operations: both parts hold. -/
def Obligations.DieOperations : Prop := Ob.DiesStart ∧ Ob.DieOperationsEnd

/-- The commands of CAR_CMD and the carrier states they lead to: both parts hold. -/
def Obligations.Carriers : Prop := Ob.CarrierCommandsComplete ∧ Ob.CarrierStates

/-- Slot inputs and the steps of a carrier's life: both parts hold. -/
def Obligations.CarrierEvents : Prop := Ob.SlotInputs ∧ Ob.CarrierStepsComplete

/-- Herd frames that are refused, and links that come up: both parts hold. -/
def Obligations.FramesAndLinks : Prop := Ob.FramesRefused ∧ Ob.LinksComeUp

/-- Link timers and the registers of the peer ports: both parts hold. -/
def Obligations.LinkTimers : Prop := Ob.LinkTimers ∧ Ob.PeerPortWrites

/-- Power failure and bank samples lead into HOLDUP: both parts hold. -/
def Obligations.PowerFailures : Prop := Ob.PowerFailHolds ∧ Ob.BankSamples

/-- The match unit's commands, its slides and its scan: both parts hold. -/
def Obligations.MatchEngine : Prop := Ob.MatchCommandsComplete ∧ Ob.SlidesAndScan

/-- Mule rings start, stop, and take descriptors: both parts hold. -/
def Obligations.MuleRings : Prop := Ob.MuleRingsComplete ∧ Ob.MuleTakesDescriptor

/-- What a mule descriptor and a K7 transfer do: all parts hold. -/
def Obligations.MuleWork : Prop := Ob.MuleCopies ∧ Ob.MuleWriteBackFails ∧ Ob.K7Starts

/-- The SDRAM patrol, device sparing and channel failure: both parts hold. -/
def Obligations.SdramReliability : Prop := Ob.PatrolComplete ∧ Ob.SdramErrors

/-- SDRAM upkeep and training commands: both parts hold. -/
def Obligations.SdramUpkeep : Prop := Ob.SdramCommandsComplete ∧ Ob.TrainingCommandsComplete

/-- The release of chip reset, and mask ROM: both parts hold. -/
def Obligations.ResetAndRom : Prop := Ob.ResetReleased ∧ Ob.MaskRomChecks

/-- The loader, fuse programming and the guard lock: both parts hold. -/
def Obligations.LoaderAndFuses : Prop := Ob.LoaderRuns ∧ Ob.FusesAndLock

/-- Castling from a service mode and in BOOT: both parts hold. -/
def Obligations.Castling : Prop := Ob.CastlingCommandsComplete ∧ Ob.BootCastlingBegins

/-- Faults of cores and islands, halts and temperature limits: both parts hold. -/
def Obligations.FaultsAndHalts : Prop := Ob.FaultsLeaveService ∧ Ob.HaltsAndLimits

/-- Counters, EVT_CLRSTATS, and the freeze: both parts hold. -/
def Obligations.CountersAndFreeze : Prop := Ob.CountersAdvance ∧ Ob.FreezeHolds

/-- The Management Task File's registers and the gates of its tasks: both parts hold. -/
def Obligations.TaskFile : Prop := Ob.TaskFileTakesMessages ∧ Ob.TasksAreGated

/-- What each management task does, and the sideband's addresses: both parts hold. -/
def Obligations.TasksAndSideband : Prop := Ob.TasksComplete ∧ Ob.SidebandTakesAddresses
end

