-- ==== Sys2Proof/Laws/FramesNotes.lean ====
section
/-! SUPPORT. What the functions of the registers, events, commands and the map leave unchanged: one lemma for each, which lists the parts of the
state that it keeps. -/

namespace Sys2Proof.Machine

open Sys2Proof

set_option linter.all false

@[simp] abbrev KeepsBase (s t : State) : Prop := t.pending = s.pending ∧ t.armed = s.armed ∧ t.posted = s.posted ∧
    t.late = s.late ∧ t.isolated = s.isolated ∧ t.failedCores = s.failedCores ∧ t.mtf = s.mtf ∧ t.mat = s.mat ∧ t.mules
    = s.mules ∧ t.sdram = s.sdram ∧ t.ram = s.ram

@[simp] abbrev ThruBase (k : State → State) (s t : State) : Prop := ((∀ x, (k x).pending = x.pending) → t.pending =
    s.pending) ∧ ((∀ x, (k x).armed = x.armed) → t.armed = s.armed) ∧ ((∀ x, (k x).posted = x.posted) → t.posted =
    s.posted) ∧ ((∀ x, (k x).late = x.late) → t.late = s.late) ∧ ((∀ x, (k x).isolated = x.isolated) → t.isolated =
    s.isolated) ∧ ((∀ x, (k x).failedCores = x.failedCores) → t.failedCores = s.failedCores) ∧ ((∀ x, (k x).mtf = x.mtf)
    → t.mtf = s.mtf) ∧ ((∀ x, (k x).mat = x.mat) → t.mat = s.mat) ∧ ((∀ x, (k x).mules = x.mules) → t.mules = s.mules) ∧
    ((∀ x, (k x).sdram = x.sdram) → t.sdram = s.sdram) ∧ ((∀ x, (k x).ram = x.ram) → t.ram = s.ram)

@[simp] abbrev KeepsNotes (s t : State) : Prop := t.free = s.free ∧ t.out = s.out ∧ t.regs = s.regs ∧ t.stat = s.stat ∧
    t.evlog = s.evlog

@[simp] abbrev ThruNotes (k : State → State) (s t : State) : Prop := ((∀ x, (k x).free = x.free) → t.free = s.free) ∧
    ((∀ x, (k x).out = x.out) → t.out = s.out) ∧ ((∀ x, (k x).regs = x.regs) → t.regs = s.regs) ∧ ((∀ x, (k x).stat =
    x.stat) → t.stat = s.stat) ∧ ((∀ x, (k x).evlog = x.evlog) → t.evlog = s.evlog)

@[simp] abbrev KeepsSpace (s t : State) : Prop := t.nss = s.nss ∧ t.deferred = s.deferred ∧ t.power = s.power ∧ t.herd =
    s.herd

@[simp] abbrev ThruSpace (k : State → State) (s t : State) : Prop := ((∀ x, (k x).nss = x.nss) → t.nss = s.nss) ∧ ((∀ x,
    (k x).deferred = x.deferred) → t.deferred = s.deferred) ∧ ((∀ x, (k x).power = x.power) → t.power = s.power) ∧ ((∀
    x, (k x).herd = x.herd) → t.herd = s.herd)

@[simp] abbrev KeepsStore (s t : State) : Prop := t.map = s.map ∧ t.place = s.place ∧ t.media = s.media

@[simp] abbrev ThruStore (k : State → State) (s t : State) : Prop := ((∀ x, (k x).map = x.map) → t.map = s.map) ∧ ((∀ x,
    (k x).place = x.place) → t.place = s.place) ∧ ((∀ x, (k x).media = x.media) → t.media = s.media)

@[simp] abbrev KeepsHost (s t : State) : Prop := t.cmds = s.cmds ∧ t.hosts = s.hosts ∧ t.pools = s.pools

@[simp] abbrev ThruHost (k : State → State) (s t : State) : Prop := ((∀ x, (k x).cmds = x.cmds) → t.cmds = s.cmds) ∧ ((∀
    x, (k x).hosts = x.hosts) → t.hosts = s.hosts) ∧ ((∀ x, (k x).pools = x.pools) → t.pools = s.pools)

@[simp] abbrev KeepsChip (s t : State) : Prop := t.boot = s.boot ∧ t.pins = s.pins

@[simp] abbrev ThruChip (k : State → State) (s t : State) : Prop := ((∀ x, (k x).boot = x.boot) → t.boot = s.boot) ∧ ((∀
    x, (k x).pins = x.pins) → t.pins = s.pins)

@[simp] theorem foldl_pending {α : Type} (g : State → α → State) (l : List α) (s : State) (h : ∀ s x, (g s x).pending =
    s.pending) : (l.foldl g s).pending = s.pending := by
  induction l generalizing s with
  | nil => rfl
  | cons x l ih => simp [List.foldl, ih, h]

@[simp] theorem foldl_free {α : Type} (g : State → α → State) (l : List α) (s : State) (h : ∀ s x, (g s x).free =
    s.free) : (l.foldl g s).free = s.free := by
  induction l generalizing s with
  | nil => rfl
  | cons x l ih => simp [List.foldl, ih, h]

@[simp] theorem foldl_out {α : Type} (g : State → α → State) (l : List α) (s : State) (h : ∀ s x, (g s x).out = s.out) :
    (l.foldl g s).out = s.out := by
  induction l generalizing s with
  | nil => rfl
  | cons x l ih => simp [List.foldl, ih, h]

@[simp] theorem foldl_regs {α : Type} (g : State → α → State) (l : List α) (s : State) (h : ∀ s x, (g s x).regs =
    s.regs) : (l.foldl g s).regs = s.regs := by
  induction l generalizing s with
  | nil => rfl
  | cons x l ih => simp [List.foldl, ih, h]

@[simp] theorem foldl_stat {α : Type} (g : State → α → State) (l : List α) (s : State) (h : ∀ s x, (g s x).stat =
    s.stat) : (l.foldl g s).stat = s.stat := by
  induction l generalizing s with
  | nil => rfl
  | cons x l ih => simp [List.foldl, ih, h]

@[simp] theorem foldl_armed {α : Type} (g : State → α → State) (l : List α) (s : State) (h : ∀ s x, (g s x).armed =
    s.armed) : (l.foldl g s).armed = s.armed := by
  induction l generalizing s with
  | nil => rfl
  | cons x l ih => simp [List.foldl, ih, h]

@[simp] theorem foldl_posted {α : Type} (g : State → α → State) (l : List α) (s : State) (h : ∀ s x, (g s x).posted =
    s.posted) : (l.foldl g s).posted = s.posted := by
  induction l generalizing s with
  | nil => rfl
  | cons x l ih => simp [List.foldl, ih, h]

@[simp] theorem foldl_late {α : Type} (g : State → α → State) (l : List α) (s : State) (h : ∀ s x, (g s x).late =
    s.late) : (l.foldl g s).late = s.late := by
  induction l generalizing s with
  | nil => rfl
  | cons x l ih => simp [List.foldl, ih, h]

@[simp] theorem foldl_isolated {α : Type} (g : State → α → State) (l : List α) (s : State) (h : ∀ s x, (g s x).isolated
    = s.isolated) : (l.foldl g s).isolated = s.isolated := by
  induction l generalizing s with
  | nil => rfl
  | cons x l ih => simp [List.foldl, ih, h]

@[simp] theorem foldl_failedCores {α : Type} (g : State → α → State) (l : List α) (s : State) (h : ∀ s x, (g s
    x).failedCores = s.failedCores) : (l.foldl g s).failedCores = s.failedCores := by
  induction l generalizing s with
  | nil => rfl
  | cons x l ih => simp [List.foldl, ih, h]

@[simp] theorem foldl_cmds {α : Type} (g : State → α → State) (l : List α) (s : State) (h : ∀ s x, (g s x).cmds =
    s.cmds) : (l.foldl g s).cmds = s.cmds := by
  induction l generalizing s with
  | nil => rfl
  | cons x l ih => simp [List.foldl, ih, h]

@[simp] theorem foldl_hosts {α : Type} (g : State → α → State) (l : List α) (s : State) (h : ∀ s x, (g s x).hosts =
    s.hosts) : (l.foldl g s).hosts = s.hosts := by
  induction l generalizing s with
  | nil => rfl
  | cons x l ih => simp [List.foldl, ih, h]

@[simp] theorem foldl_mtf {α : Type} (g : State → α → State) (l : List α) (s : State) (h : ∀ s x, (g s x).mtf = s.mtf) :
    (l.foldl g s).mtf = s.mtf := by
  induction l generalizing s with
  | nil => rfl
  | cons x l ih => simp [List.foldl, ih, h]

@[simp] theorem foldl_deferred {α : Type} (g : State → α → State) (l : List α) (s : State) (h : ∀ s x, (g s x).deferred
    = s.deferred) : (l.foldl g s).deferred = s.deferred := by
  induction l generalizing s with
  | nil => rfl
  | cons x l ih => simp [List.foldl, ih, h]

@[simp] theorem foldl_nss {α : Type} (g : State → α → State) (l : List α) (s : State) (h : ∀ s x, (g s x).nss = s.nss) :
    (l.foldl g s).nss = s.nss := by
  induction l generalizing s with
  | nil => rfl
  | cons x l ih => simp [List.foldl, ih, h]

@[simp] theorem foldl_map {α : Type} (g : State → α → State) (l : List α) (s : State) (h : ∀ s x, (g s x).map = s.map) :
    (l.foldl g s).map = s.map := by
  induction l generalizing s with
  | nil => rfl
  | cons x l ih => simp [List.foldl, ih, h]

@[simp] theorem foldl_place {α : Type} (g : State → α → State) (l : List α) (s : State) (h : ∀ s x, (g s x).place =
    s.place) : (l.foldl g s).place = s.place := by
  induction l generalizing s with
  | nil => rfl
  | cons x l ih => simp [List.foldl, ih, h]

@[simp] theorem foldl_media {α : Type} (g : State → α → State) (l : List α) (s : State) (h : ∀ s x, (g s x).media =
    s.media) : (l.foldl g s).media = s.media := by
  induction l generalizing s with
  | nil => rfl
  | cons x l ih => simp [List.foldl, ih, h]

@[simp] theorem foldl_herd {α : Type} (g : State → α → State) (l : List α) (s : State) (h : ∀ s x, (g s x).herd =
    s.herd) : (l.foldl g s).herd = s.herd := by
  induction l generalizing s with
  | nil => rfl
  | cons x l ih => simp [List.foldl, ih, h]

@[simp] theorem foldl_power {α : Type} (g : State → α → State) (l : List α) (s : State) (h : ∀ s x, (g s x).power =
    s.power) : (l.foldl g s).power = s.power := by
  induction l generalizing s with
  | nil => rfl
  | cons x l ih => simp [List.foldl, ih, h]

@[simp] theorem foldl_pools {α : Type} (g : State → α → State) (l : List α) (s : State) (h : ∀ s x, (g s x).pools =
    s.pools) : (l.foldl g s).pools = s.pools := by
  induction l generalizing s with
  | nil => rfl
  | cons x l ih => simp [List.foldl, ih, h]

@[simp] theorem foldl_mat {α : Type} (g : State → α → State) (l : List α) (s : State) (h : ∀ s x, (g s x).mat = s.mat) :
    (l.foldl g s).mat = s.mat := by
  induction l generalizing s with
  | nil => rfl
  | cons x l ih => simp [List.foldl, ih, h]

@[simp] theorem foldl_mules {α : Type} (g : State → α → State) (l : List α) (s : State) (h : ∀ s x, (g s x).mules =
    s.mules) : (l.foldl g s).mules = s.mules := by
  induction l generalizing s with
  | nil => rfl
  | cons x l ih => simp [List.foldl, ih, h]

@[simp] theorem foldl_sdram {α : Type} (g : State → α → State) (l : List α) (s : State) (h : ∀ s x, (g s x).sdram =
    s.sdram) : (l.foldl g s).sdram = s.sdram := by
  induction l generalizing s with
  | nil => rfl
  | cons x l ih => simp [List.foldl, ih, h]

@[simp] theorem foldl_boot {α : Type} (g : State → α → State) (l : List α) (s : State) (h : ∀ s x, (g s x).boot =
    s.boot) : (l.foldl g s).boot = s.boot := by
  induction l generalizing s with
  | nil => rfl
  | cons x l ih => simp [List.foldl, ih, h]

@[simp] theorem foldl_pins {α : Type} (g : State → α → State) (l : List α) (s : State) (h : ∀ s x, (g s x).pins =
    s.pins) : (l.foldl g s).pins = s.pins := by
  induction l generalizing s with
  | nil => rfl
  | cons x l ih => simp [List.foldl, ih, h]

@[simp] theorem foldl_ram {α : Type} (g : State → α → State) (l : List α) (s : State) (h : ∀ s x, (g s x).ram = s.ram) :
    (l.foldl g s).ram = s.ram := by
  induction l generalizing s with
  | nil => rfl
  | cons x l ih => simp [List.foldl, ih, h]

@[simp] theorem foldl_evlog {α : Type} (g : State → α → State) (l : List α) (s : State) (h : ∀ s x, (g s x).evlog =
    s.evlog) : (l.foldl g s).evlog = s.evlog := by
  induction l generalizing s with
  | nil => rfl
  | cons x l ih => simp [List.foldl, ih, h]

@[simp] theorem foldl_boot_fuses {α : Type} (g : State → α → State) (l : List α) (s : State) (h : ∀ s x, (g s
    x).boot.fuses = s.boot.fuses) : (l.foldl g s).boot.fuses = s.boot.fuses := by
  induction l generalizing s with
  | nil => rfl
  | cons x l ih => simp [List.foldl, ih, h]

@[simp] theorem foldl_pins_resetLow {α : Type} (g : State → α → State) (l : List α) (s : State) (h : ∀ s x, (g s
    x).pins.resetLow = s.pins.resetLow) : (l.foldl g s).pins.resetLow = s.pins.resetLow := by
  induction l generalizing s with
  | nil => rfl
  | cons x l ih => simp [List.foldl, ih, h]

@[simp] theorem foldl_pins_frozen {α : Type} (g : State → α → State) (l : List α) (s : State) (h : ∀ s x, (g s
    x).pins.frozen = s.pins.frozen) : (l.foldl g s).pins.frozen = s.pins.frozen := by
  induction l generalizing s with
  | nil => rfl
  | cons x l ih => simp [List.foldl, ih, h]

theorem foldl_rel {α : Type} {P : State → State → Prop} (hr : ∀ s, P s s) (ht : ∀ a b c, P a b → P b c → P a c) (g :
    State → α → State) (h : ∀ s x, P s (g s x)) (l : List α) (s : State) : P s (l.foldl g s) := by
  induction l generalizing s with | nil => exact hr s | cons x l ih => exact ht _ _ _ (h s x) (ih _)


/-- A choice between two states keeps what both keep. -/
theorem keep_ite {P : State → Prop} {p : Prop} [Decidable p] {x y : State} (hx : P x) (hy : P y) : P (if p then x else
    y) := by
  split <;> assumption

theorem foldl_snd {α β : Type} {P : State → State → Prop} (hr : ∀ s, P s s) (ht : ∀ a b c, P a b → P b c → P a c) (g : β
    × State → α → β × State) (h : ∀ r x, P r.2 (g r x).2) (l : List α) (r : β × State) : P r.2 (l.foldl g r).2 := by
  induction l generalizing r with
  | nil => exact hr r.2
  | cons x l ih => exact ht _ _ _ (h r x) (ih _)

/-! ## Machine/Ops -/

theorem State.takeFree_frame (s : State) : KeepsBase s (State.takeFree s).2 ∧ (State.takeFree s).2.out = s.out ∧
    (State.takeFree s).2.regs = s.regs ∧ (State.takeFree s).2.stat = s.stat ∧ (State.takeFree s).2.evlog = s.evlog ∧
    KeepsSpace s (State.takeFree s).2 ∧ KeepsStore s (State.takeFree s).2 ∧ KeepsHost s (State.takeFree s).2 ∧ KeepsChip
    s (State.takeFree s).2 := by
  simp [State.takeFree]

theorem State.setReg_frame (s : State) (a : Nat) (v : DWord) : KeepsBase s (State.setReg s a v) ∧ (State.setReg
    s a v).free = s.free ∧ (State.setReg s a v).out = s.out ∧ (State.setReg s a v).stat = s.stat ∧ (State.setReg s a
    v).evlog = s.evlog ∧ KeepsSpace s (State.setReg s a v) ∧ KeepsStore s (State.setReg s a v) ∧ KeepsHost s
    (State.setReg s a v) ∧ KeepsChip s (State.setReg s a v) := by
  simp [State.setReg]

theorem State.setFld_frame (s : State) (a : Nat) (f : Fld) (n : Nat) : KeepsBase s (State.setFld s a f n) ∧
    (State.setFld s a f n).free = s.free ∧ (State.setFld s a f n).out = s.out ∧ (State.setFld s a f n).stat = s.stat ∧
    (State.setFld s a f n).evlog = s.evlog ∧ KeepsSpace s (State.setFld s a f n) ∧ KeepsStore s (State.setFld s a f n) ∧
    KeepsHost s (State.setFld s a f n) ∧ KeepsChip s (State.setFld s a f n) := by
  simp [State.setFld, State.setReg_frame _]

theorem State.count_frame (s : State) (a : Nat) (n : Nat) : KeepsBase s (State.count s a n) ∧ (State.count s a
    n).free = s.free ∧ (State.count s a n).out = s.out ∧ (State.count s a n).stat = s.stat ∧ (State.count s a n).evlog =
    s.evlog ∧ KeepsSpace s (State.count s a n) ∧ KeepsStore s (State.count s a n) ∧ KeepsHost s (State.count s a n) ∧
    KeepsChip s (State.count s a n) := by
  simp [State.count, State.setReg_frame _]

theorem State.setFn_frame (s : State) (k : Nat) (x : FnState) : KeepsBase s (State.setFn s k x) ∧ KeepsNotes s
    (State.setFn s k x) ∧ KeepsSpace s (State.setFn s k x) ∧ KeepsStore s (State.setFn s k x) ∧ (State.setFn s k x).cmds
    = s.cmds ∧ (State.setFn s k x).pools = s.pools ∧ KeepsChip s (State.setFn s k x) := by
  simp [State.setFn]

theorem State.setPort_frame (s : State) (p : Port) (x : PortState) : KeepsBase s (State.setPort s p x) ∧
    KeepsNotes s (State.setPort s p x) ∧ KeepsSpace s (State.setPort s p x) ∧ KeepsStore s (State.setPort s p x) ∧
    (State.setPort s p x).cmds = s.cmds ∧ (State.setPort s p x).pools = s.pools ∧ KeepsChip s (State.setPort s p x) :=
    by
  simp [State.setPort]

theorem State.isolate_frame (s : State) (island : Nat) : (State.isolate s island).pending = s.pending ∧
    (State.isolate s island).armed = s.armed ∧ (State.isolate s island).posted = s.posted ∧ (State.isolate s
    island).late = s.late ∧ (State.isolate s island).failedCores = s.failedCores ∧ (State.isolate s island).mtf = s.mtf
    ∧ (State.isolate s island).mat = s.mat ∧ (State.isolate s island).mules = s.mules ∧ (State.isolate s island).sdram =
    s.sdram ∧ (State.isolate s island).ram = s.ram ∧ KeepsNotes s (State.isolate s island) ∧ KeepsSpace s (State.isolate
    s island) ∧ KeepsStore s (State.isolate s island) ∧ KeepsHost s (State.isolate s island) ∧ KeepsChip s
    (State.isolate s island) := by
  simp [State.isolate]

theorem State.emit_frame (s : State) (o : Out) : KeepsBase s (State.emit s o) ∧ (State.emit s o).free = s.free ∧
    (State.emit s o).regs = s.regs ∧ (State.emit s o).stat = s.stat ∧ (State.emit s o).evlog = s.evlog ∧ KeepsSpace s
    (State.emit s o) ∧ KeepsStore s (State.emit s o) ∧ KeepsHost s (State.emit s o) ∧ KeepsChip s (State.emit s o) := by
  simp [State.emit]

/-! ## Machine/Flags -/

theorem State.setStat_frame (s : State) (a : Nat) (r : StatReg) : KeepsBase s (State.setStat s a r) ∧
    (State.setStat s a r).free = s.free ∧ (State.setStat s a r).out = s.out ∧ (State.setStat s a r).regs = s.regs ∧
    (State.setStat s a r).evlog = s.evlog ∧ KeepsSpace s (State.setStat s a r) ∧ KeepsStore s (State.setStat s a r) ∧
    KeepsHost s (State.setStat s a r) ∧ KeepsChip s (State.setStat s a r) := by
  simp [State.setStat]

theorem State.setVec_frame (s : State) (fk : Nat) (v : Nat) (x : Vec) : KeepsBase s (State.setVec s fk v x) ∧
    KeepsNotes s (State.setVec s fk v x) ∧ KeepsSpace s (State.setVec s fk v x) ∧ KeepsStore s (State.setVec s fk v x) ∧
    (State.setVec s fk v x).cmds = s.cmds ∧ (State.setVec s fk v x).pools = s.pools ∧ KeepsChip s (State.setVec s fk v
    x) := by
  simp [State.setVec]

theorem State.message_frame (s : State) (fk : Nat) (v : Nat) : KeepsBase s (State.message s fk v) ∧
    (State.message s fk v).free = s.free ∧ (State.message s fk v).regs = s.regs ∧ (State.message s fk v).stat = s.stat ∧
    (State.message s fk v).evlog = s.evlog ∧ KeepsSpace s (State.message s fk v) ∧ KeepsStore s (State.message s fk v) ∧
    (State.message s fk v).cmds = s.cmds ∧ (State.message s fk v).pools = s.pools ∧ KeepsChip s (State.message s fk v)
    := by
  unfold State.message
  (repeat' split) <;> simp [State.emit_frame _, State.setVec_frame _]

theorem State.sendPending_frame (s : State) (fk : Nat) (v : Nat) : KeepsBase s (State.sendPending s fk v) ∧
    (State.sendPending s fk v).free = s.free ∧ (State.sendPending s fk v).regs = s.regs ∧ (State.sendPending s fk
    v).stat = s.stat ∧ (State.sendPending s fk v).evlog = s.evlog ∧ KeepsSpace s (State.sendPending s fk v) ∧ KeepsStore
    s (State.sendPending s fk v) ∧ (State.sendPending s fk v).cmds = s.cmds ∧ (State.sendPending s fk v).pools = s.pools
    ∧ KeepsChip s (State.sendPending s fk v) := by
  unfold State.sendPending
  (repeat' split) <;> simp [State.emit_frame _, State.setVec_frame _]

theorem State.sendAllPending_frame (s : State) (fk : Nat) : KeepsBase s (State.sendAllPending s fk) ∧
    (State.sendAllPending s fk).free = s.free ∧ (State.sendAllPending s fk).regs = s.regs ∧ (State.sendAllPending s
    fk).stat = s.stat ∧ (State.sendAllPending s fk).evlog = s.evlog ∧ KeepsSpace s (State.sendAllPending s fk) ∧
    KeepsStore s (State.sendAllPending s fk) ∧ (State.sendAllPending s fk).cmds = s.cmds ∧ (State.sendAllPending s
    fk).pools = s.pools ∧ KeepsChip s (State.sendAllPending s fk) := by
  simp [State.sendAllPending]

theorem State.raiseAt_frame (s : State) (sa : Nat) (ea : Nat) (b : Nat) : KeepsBase s (State.raiseAt s sa ea b)
    ∧ (State.raiseAt s sa ea b).free = s.free ∧ (State.raiseAt s sa ea b).regs = s.regs ∧ (State.raiseAt s sa ea
    b).evlog = s.evlog ∧ KeepsSpace s (State.raiseAt s sa ea b) ∧ KeepsStore s (State.raiseAt s sa ea b) ∧ KeepsHost s
    (State.raiseAt s sa ea b) ∧ KeepsChip s (State.raiseAt s sa ea b) := by
  unfold State.raiseAt
  dsimp only
  (repeat' split) <;> simp [State.emit_frame _, State.setStat_frame _]

theorem State.raise_frame (s : State) (w : Nat) (b : Nat) : KeepsBase s (State.raise s w b) ∧ (State.raise s w
    b).free = s.free ∧ (State.raise s w b).regs = s.regs ∧ (State.raise s w b).evlog = s.evlog ∧ KeepsSpace s
    (State.raise s w b) ∧ KeepsStore s (State.raise s w b) ∧ KeepsHost s (State.raise s w b) ∧ KeepsChip s (State.raise
    s w b) := by
  simp [State.raise, State.raiseAt_frame _]

theorem State.raiseHst_frame (s : State) (p : Port) (b : Nat) : KeepsBase s (State.raiseHst s p b) ∧
    (State.raiseHst s p b).free = s.free ∧ (State.raiseHst s p b).regs = s.regs ∧ (State.raiseHst s p b).evlog = s.evlog
    ∧ KeepsSpace s (State.raiseHst s p b) ∧ KeepsStore s (State.raiseHst s p b) ∧ KeepsHost s (State.raiseHst s p b) ∧
    KeepsChip s (State.raiseHst s p b) := by
  simp [State.raiseHst, State.raiseAt_frame _]

theorem State.raiseFn_frame (s : State) (fk : Nat) (b : Nat) : KeepsBase s (State.raiseFn s fk b) ∧
    (State.raiseFn s fk b).free = s.free ∧ (State.raiseFn s fk b).regs = s.regs ∧ (State.raiseFn s fk b).evlog = s.evlog
    ∧ KeepsSpace s (State.raiseFn s fk b) ∧ KeepsStore s (State.raiseFn s fk b) ∧ (State.raiseFn s fk b).cmds = s.cmds ∧
    (State.raiseFn s fk b).pools = s.pools ∧ KeepsChip s (State.raiseFn s fk b) := by
  unfold State.raiseFn
  dsimp only
  (repeat' split) <;> simp [State.message_frame _, State.setStat_frame _]

theorem State.raiseFns_frame (s : State) (fks : List Nat) (b : Nat) : KeepsBase s (State.raiseFns s fks b) ∧
    (State.raiseFns s fks b).free = s.free ∧ (State.raiseFns s fks b).regs = s.regs ∧ (State.raiseFns s fks b).evlog =
    s.evlog ∧ KeepsSpace s (State.raiseFns s fks b) ∧ KeepsStore s (State.raiseFns s fks b) ∧ (State.raiseFns s fks
    b).cmds = s.cmds ∧ (State.raiseFns s fks b).pools = s.pools ∧ KeepsChip s (State.raiseFns s fks b) := by
  simp [State.raiseFns, State.raiseFn_frame _]

theorem State.raiseNs_frame (s : State) (nsid : Nat) (b : Nat) : KeepsBase s (State.raiseNs s nsid b) ∧
    (State.raiseNs s nsid b).free = s.free ∧ (State.raiseNs s nsid b).regs = s.regs ∧ (State.raiseNs s nsid b).evlog =
    s.evlog ∧ KeepsSpace s (State.raiseNs s nsid b) ∧ KeepsStore s (State.raiseNs s nsid b) ∧ (State.raiseNs s nsid
    b).cmds = s.cmds ∧ (State.raiseNs s nsid b).pools = s.pools ∧ KeepsChip s (State.raiseNs s nsid b) := by
  unfold State.raiseNs
  (repeat' split) <;> simp [State.raiseFns_frame _]

theorem State.takeStamps_frame (s : State) (n : Nat) : KeepsBase s (State.takeStamps s n) ∧ (State.takeStamps s
    n).free = s.free ∧ (State.takeStamps s n).out = s.out ∧ (State.takeStamps s n).stat = s.stat ∧ (State.takeStamps s
    n).evlog = s.evlog ∧ KeepsSpace s (State.takeStamps s n) ∧ KeepsStore s (State.takeStamps s n) ∧ KeepsHost s
    (State.takeStamps s n) ∧ KeepsChip s (State.takeStamps s n) := by
  simp [State.takeStamps, State.setReg_frame _]

theorem State.record_frame (s : State) (window : Nat) (unit : Nat) (kind : Nat) (detail : Nat) (data : List
    Byte) : KeepsBase s (State.record s window unit kind detail data) ∧ KeepsSpace s (State.record s window unit kind
    detail data) ∧ KeepsStore s (State.record s window unit kind detail data) ∧ KeepsHost s (State.record s window unit
    kind detail data) ∧ KeepsChip s (State.record s window unit kind detail data) := by
  unfold State.record
  dsimp only
  (repeat' split) <;> simp [State.count_frame _, State.raise_frame _, State.takeStamps_frame _]

theorem State.raiseRecord_frame (s : State) (w : Nat) (b : Nat) (unit : Nat) (data : List Byte) : KeepsBase s
    (State.raiseRecord s w b unit data) ∧ KeepsSpace s (State.raiseRecord s w b unit data) ∧ KeepsStore s
    (State.raiseRecord s w b unit data) ∧ KeepsHost s (State.raiseRecord s w b unit data) ∧ KeepsChip s
    (State.raiseRecord s w b unit data) := by
  simp [State.raiseRecord, State.raise_frame _, State.record_frame _]

theorem State.enterMode_frame (s : State) (m : Nat) : KeepsBase s (State.enterMode s m) ∧ KeepsSpace s
    (State.enterMode s m) ∧ KeepsStore s (State.enterMode s m) ∧ (State.enterMode s m).cmds = s.cmds ∧ (State.enterMode
    s m).pools = s.pools ∧ (State.enterMode s m).boot = s.boot ∧ (State.enterMode s m).pins.resetLow = s.pins.resetLow ∧
    (State.enterMode s m).pins.frozen = s.pins.frozen := by
  unfold State.enterMode
  (repeat' split) <;> simp [State.raiseFns_frame _, State.raise_frame _, State.record_frame _, State.setReg_frame _]

theorem State.followReasons_frame (s : State) : KeepsBase s (State.followReasons s) ∧ KeepsSpace s
    (State.followReasons s) ∧ KeepsStore s (State.followReasons s) ∧ (State.followReasons s).cmds = s.cmds ∧
    (State.followReasons s).pools = s.pools ∧ (State.followReasons s).boot = s.boot ∧ (State.followReasons
    s).pins.resetLow = s.pins.resetLow ∧ (State.followReasons s).pins.frozen = s.pins.frozen := by
  unfold State.followReasons
  (repeat' split) <;> simp [State.enterMode_frame _]

theorem State.reason_frame (s : State) (r : Nat) (holds : Bool) : KeepsBase s (State.reason s r holds) ∧
    KeepsSpace s (State.reason s r holds) ∧ KeepsStore s (State.reason s r holds) ∧ (State.reason s r holds).cmds =
    s.cmds ∧ (State.reason s r holds).pools = s.pools ∧ (State.reason s r holds).boot = s.boot ∧ (State.reason s r
    holds).pins.resetLow = s.pins.resetLow ∧ (State.reason s r holds).pins.frozen = s.pins.frozen := by
  unfold State.reason
  (repeat' split) <;> simp [State.followReasons_frame _, State.raise_frame _, State.record_frame _, State.setReg_frame
      _]

theorem State.recordFault_frame (s : State) (window : Nat) (unit : Nat) (row : Nat) (part : List Byte) :
    KeepsBase s (State.recordFault s window unit row part) ∧ KeepsSpace s (State.recordFault s window unit row part) ∧
    KeepsStore s (State.recordFault s window unit row part) ∧ KeepsHost s (State.recordFault s window unit row part) ∧
    KeepsChip s (State.recordFault s window unit row part) := by
  simp [State.recordFault, State.record_frame _]

theorem State.regError_frame (s : State) (p : Port) (cause : Nat) (write : Bool) (offset : Nat) : KeepsBase s
    (State.regError s p cause write offset) ∧ (State.regError s p cause write offset).free = s.free ∧ (State.regError s
    p cause write offset).out = s.out ∧ (State.regError s p cause write offset).stat = s.stat ∧ (State.regError s p
    cause write offset).evlog = s.evlog ∧ KeepsSpace s (State.regError s p cause write offset) ∧ KeepsStore s
    (State.regError s p cause write offset) ∧ KeepsHost s (State.regError s p cause write offset) ∧ KeepsChip s
    (State.regError s p cause write offset) := by
  simp [State.regError, State.count_frame _, State.setReg_frame _]

/-! ## Machine/RegAccess -/

theorem State.disarm_frame (s : State) (src : Source) (w : Nat) : (State.disarm s src w).pending = s.pending ∧
    (State.disarm s src w).posted = s.posted ∧ (State.disarm s src w).late = s.late ∧ (State.disarm s src w).isolated =
    s.isolated ∧ (State.disarm s src w).failedCores = s.failedCores ∧ (State.disarm s src w).mtf = s.mtf ∧ (State.disarm
    s src w).mat = s.mat ∧ (State.disarm s src w).mules = s.mules ∧ (State.disarm s src w).sdram = s.sdram ∧
    (State.disarm s src w).ram = s.ram ∧ KeepsNotes s (State.disarm s src w) ∧ KeepsSpace s (State.disarm s src w) ∧
    KeepsStore s (State.disarm s src w) ∧ KeepsHost s (State.disarm s src w) ∧ KeepsChip s (State.disarm s src w) := by
  simp [State.disarm]

theorem State.disarmAll_frame (s : State) (src : Source) : (State.disarmAll s src).pending = s.pending ∧
    (State.disarmAll s src).posted = s.posted ∧ (State.disarmAll s src).late = s.late ∧ (State.disarmAll s src).isolated
    = s.isolated ∧ (State.disarmAll s src).failedCores = s.failedCores ∧ (State.disarmAll s src).mtf = s.mtf ∧
    (State.disarmAll s src).mat = s.mat ∧ (State.disarmAll s src).mules = s.mules ∧ (State.disarmAll s src).sdram =
    s.sdram ∧ (State.disarmAll s src).ram = s.ram ∧ KeepsNotes s (State.disarmAll s src) ∧ KeepsSpace s (State.disarmAll
    s src) ∧ KeepsStore s (State.disarmAll s src) ∧ KeepsHost s (State.disarmAll s src) ∧ KeepsChip s (State.disarmAll s
    src) := by
  simp [State.disarmAll]

theorem State.raiseHdr_frame (s : State) (src : Source) (w : Nat) (b : Nat) : KeepsBase s (State.raiseHdr s src
    w b) ∧ (State.raiseHdr s src w b).free = s.free ∧ (State.raiseHdr s src w b).regs = s.regs ∧ (State.raiseHdr s src w
    b).evlog = s.evlog ∧ KeepsSpace s (State.raiseHdr s src w b) ∧ KeepsStore s (State.raiseHdr s src w b) ∧ KeepsHost s
    (State.raiseHdr s src w b) ∧ KeepsChip s (State.raiseHdr s src w b) := by
  simp [State.raiseHdr, State.raiseAt_frame _]

theorem State.writeKeyAt_frame (s : State) (src : Source) (w : Nat) (base : Nat) (v : Half) : (State.writeKeyAt
    s src w base v).pending = s.pending ∧ (State.writeKeyAt s src w base v).posted = s.posted ∧ (State.writeKeyAt s src
    w base v).late = s.late ∧ (State.writeKeyAt s src w base v).isolated = s.isolated ∧ (State.writeKeyAt s src w base
    v).failedCores = s.failedCores ∧ (State.writeKeyAt s src w base v).mtf = s.mtf ∧ (State.writeKeyAt s src w base
    v).mat = s.mat ∧ (State.writeKeyAt s src w base v).mules = s.mules ∧ (State.writeKeyAt s src w base v).sdram =
    s.sdram ∧ (State.writeKeyAt s src w base v).ram = s.ram ∧ (State.writeKeyAt s src w base v).free = s.free ∧
    (State.writeKeyAt s src w base v).evlog = s.evlog ∧ KeepsSpace s (State.writeKeyAt s src w base v) ∧ KeepsStore s
    (State.writeKeyAt s src w base v) ∧ KeepsHost s (State.writeKeyAt s src w base v) ∧ KeepsChip s (State.writeKeyAt s
    src w base v) := by
  unfold State.writeKeyAt
  (repeat' split) <;> simp [State.disarm_frame _, State.raiseAt_frame _, State.setReg_frame _]

theorem State.writeKey_frame (s : State) (src : Source) (w : Nat) (v : Half) : (State.writeKey s src w
    v).pending = s.pending ∧ (State.writeKey s src w v).posted = s.posted ∧ (State.writeKey s src w v).late = s.late ∧
    (State.writeKey s src w v).isolated = s.isolated ∧ (State.writeKey s src w v).failedCores = s.failedCores ∧
    (State.writeKey s src w v).mtf = s.mtf ∧ (State.writeKey s src w v).mat = s.mat ∧ (State.writeKey s src w v).mules =
    s.mules ∧ (State.writeKey s src w v).sdram = s.sdram ∧ (State.writeKey s src w v).ram = s.ram ∧ (State.writeKey s
    src w v).free = s.free ∧ (State.writeKey s src w v).evlog = s.evlog ∧ KeepsSpace s (State.writeKey s src w v) ∧
    KeepsStore s (State.writeKey s src w v) ∧ KeepsHost s (State.writeKey s src w v) ∧ KeepsChip s (State.writeKey s src
    w v) := by
  simp [State.writeKey, State.writeKeyAt_frame _]

theorem State.signalSet_frame (s : State) (sa : Nat) (only : DWord) : KeepsBase s (State.signalSet s sa only) ∧
    (State.signalSet s sa only).free = s.free ∧ (State.signalSet s sa only).regs = s.regs ∧ (State.signalSet s sa
    only).stat = s.stat ∧ (State.signalSet s sa only).evlog = s.evlog ∧ KeepsSpace s (State.signalSet s sa only) ∧
    KeepsStore s (State.signalSet s sa only) ∧ (State.signalSet s sa only).cmds = s.cmds ∧ (State.signalSet s sa
    only).pools = s.pools ∧ KeepsChip s (State.signalSet s sa only) := by
  unfold State.signalSet
  (repeat' split) <;> simp [State.message_frame _]

theorem State.writeAck_frame (s : State) (sa : Nat) (a : Half) : KeepsBase s (State.writeAck s sa a) ∧
    (State.writeAck s sa a).free = s.free ∧ (State.writeAck s sa a).regs = s.regs ∧ (State.writeAck s sa a).evlog =
    s.evlog ∧ KeepsSpace s (State.writeAck s sa a) ∧ KeepsStore s (State.writeAck s sa a) ∧ (State.writeAck s sa a).cmds
    = s.cmds ∧ (State.writeAck s sa a).pools = s.pools ∧ KeepsChip s (State.writeAck s sa a) := by
  unfold State.writeAck
  dsimp only
  (repeat' split) <;> simp [State.raiseAt_frame _, State.setStat_frame _, State.signalSet_frame _]

theorem State.accessError_frame (s : State) (src : Source) (a : Nat) : KeepsBase s (State.accessError s src a) ∧
    KeepsSpace s (State.accessError s src a) ∧ KeepsStore s (State.accessError s src a) ∧ KeepsHost s (State.accessError
    s src a) ∧ KeepsChip s (State.accessError s src a) := by
  unfold State.accessError
  dsimp only
  (repeat' split) <;> simp [State.raiseHdr_frame _, State.record_frame _]

theorem State.errorResponse_frame (s : State) (src : Source) (a : Nat) (size : Nat) (cause : Nat) (write : Bool)
    : KeepsBase s (State.errorResponse s src a size cause write) ∧ KeepsSpace s (State.errorResponse s src a size cause
    write) ∧ KeepsStore s (State.errorResponse s src a size cause write) ∧ KeepsHost s (State.errorResponse s src a size
    cause write) ∧ KeepsChip s (State.errorResponse s src a size cause write) := by
  unfold State.errorResponse
  (repeat' split) <;> simp [State.accessError_frame _, State.emit_frame _, State.regError_frame _]

theorem State.showIgnored_frame (s : State) (row : RegRow) (base : Nat) (wm : DWord) (v : DWord) : KeepsBase s
    (State.showIgnored s row base wm v) ∧ (State.showIgnored s row base wm v).free = s.free ∧ (State.showIgnored s row
    base wm v).evlog = s.evlog ∧ KeepsSpace s (State.showIgnored s row base wm v) ∧ KeepsStore s (State.showIgnored s
    row base wm v) ∧ KeepsHost s (State.showIgnored s row base wm v) ∧ KeepsChip s (State.showIgnored s row base wm v)
    := by
  unfold State.showIgnored
  (repeat' split) <;> simp [State.raise_frame _, State.setReg_frame _]

theorem State.sdramOff_frame (s : State) : KeepsBase s (State.sdramOff s) ∧ (State.sdramOff s).free = s.free ∧
    (State.sdramOff s).out = s.out ∧ (State.sdramOff s).stat = s.stat ∧ (State.sdramOff s).evlog = s.evlog ∧ KeepsSpace
    s (State.sdramOff s) ∧ KeepsStore s (State.sdramOff s) ∧ KeepsHost s (State.sdramOff s) ∧ KeepsChip s
    (State.sdramOff s) := by
  simp [State.sdramOff, State.setFld_frame _]

theorem State.afterWrite_frame (s : State) (row : RegRow) (base : Nat) (m : DWord) (old : DWord) : KeepsBase s
    (State.afterWrite s row base m old) ∧ (State.afterWrite s row base m old).free = s.free ∧ (State.afterWrite s row
    base m old).stat = s.stat ∧ (State.afterWrite s row base m old).evlog = s.evlog ∧ KeepsSpace s (State.afterWrite s
    row base m old) ∧ KeepsStore s (State.afterWrite s row base m old) ∧ (State.afterWrite s row base m old).cmds =
    s.cmds ∧ (State.afterWrite s row base m old).pools = s.pools ∧ KeepsChip s (State.afterWrite s row base m old) := by
  unfold State.afterWrite
  (repeat' split) <;> simp [State.sdramOff_frame _, State.setReg_frame _, State.signalSet_frame _]

theorem State.writeFields_frame (s : State) (src : Source) (row : RegRow) (base : Nat) (wm : DWord) (v : DWord)
    : (State.writeFields s src row base wm v).pending = s.pending ∧ (State.writeFields s src row base wm v).posted =
    s.posted ∧ (State.writeFields s src row base wm v).late = s.late ∧ (State.writeFields s src row base wm v).isolated
    = s.isolated ∧ (State.writeFields s src row base wm v).failedCores = s.failedCores ∧ (State.writeFields s src row
    base wm v).mtf = s.mtf ∧ (State.writeFields s src row base wm v).mat = s.mat ∧ (State.writeFields s src row base wm
    v).mules = s.mules ∧ (State.writeFields s src row base wm v).sdram = s.sdram ∧ (State.writeFields s src row base wm
    v).ram = s.ram ∧ (State.writeFields s src row base wm v).free = s.free ∧ (State.writeFields s src row base wm
    v).evlog = s.evlog ∧ KeepsSpace s (State.writeFields s src row base wm v) ∧ KeepsStore s (State.writeFields s src
    row base wm v) ∧ (State.writeFields s src row base wm v).cmds = s.cmds ∧ (State.writeFields s src row base wm
    v).pools = s.pools ∧ KeepsChip s (State.writeFields s src row base wm v) := by
  unfold State.writeFields
  dsimp only
  (repeat' split) <;> simp [State.afterWrite_frame _, State.disarm_frame _, State.raiseHdr_frame _, State.raise_frame _,
      State.setReg_frame _, State.showIgnored_frame _]

theorem State.writeMsix_frame (s : State) (fk : Nat) (v : Nat) (word : Nat) (d : Word) : KeepsBase s
    (State.writeMsix s fk v word d) ∧ (State.writeMsix s fk v word d).free = s.free ∧ (State.writeMsix s fk v word
    d).regs = s.regs ∧ (State.writeMsix s fk v word d).stat = s.stat ∧ (State.writeMsix s fk v word d).evlog = s.evlog ∧
    KeepsSpace s (State.writeMsix s fk v word d) ∧ KeepsStore s (State.writeMsix s fk v word d) ∧ (State.writeMsix s fk
    v word d).cmds = s.cmds ∧ (State.writeMsix s fk v word d).pools = s.pools ∧ KeepsChip s (State.writeMsix s fk v word
    d) := by
  simp [State.writeMsix, State.sendPending_frame _, State.setVec_frame _]

theorem State.writePiece_frame (s : State) (src : Source) (a : Nat) (size : Nat) (v : DWord) : (State.writePiece
    s src a size v).pending = s.pending ∧ (State.writePiece s src a size v).posted = s.posted ∧ (State.writePiece s src
    a size v).late = s.late ∧ (State.writePiece s src a size v).isolated = s.isolated ∧ (State.writePiece s src a size
    v).failedCores = s.failedCores ∧ (State.writePiece s src a size v).mtf = s.mtf ∧ (State.writePiece s src a size
    v).mat = s.mat ∧ (State.writePiece s src a size v).mules = s.mules ∧ (State.writePiece s src a size v).sdram =
    s.sdram ∧ (State.writePiece s src a size v).ram = s.ram ∧ (State.writePiece s src a size v).free = s.free ∧
    (State.writePiece s src a size v).evlog = s.evlog ∧ KeepsSpace s (State.writePiece s src a size v) ∧ KeepsStore s
    (State.writePiece s src a size v) ∧ (State.writePiece s src a size v).cmds = s.cmds ∧ (State.writePiece s src a size
    v).pools = s.pools ∧ KeepsChip s (State.writePiece s src a size v) := by
  unfold State.writePiece
  (repeat' split) <;> simp [State.writeFields_frame _, State.writeMsix_frame _]

theorem State.writeGeneric_frame (s : State) (src : Source) (a : Nat) (size : Nat) (v : DWord) :
    (State.writeGeneric s src a size v).pending = s.pending ∧ (State.writeGeneric s src a size v).posted = s.posted ∧
    (State.writeGeneric s src a size v).late = s.late ∧ (State.writeGeneric s src a size v).isolated = s.isolated ∧
    (State.writeGeneric s src a size v).failedCores = s.failedCores ∧ (State.writeGeneric s src a size v).mtf = s.mtf ∧
    (State.writeGeneric s src a size v).mat = s.mat ∧ (State.writeGeneric s src a size v).mules = s.mules ∧
    (State.writeGeneric s src a size v).sdram = s.sdram ∧ (State.writeGeneric s src a size v).ram = s.ram ∧
    (State.writeGeneric s src a size v).free = s.free ∧ (State.writeGeneric s src a size v).evlog = s.evlog ∧ KeepsSpace
    s (State.writeGeneric s src a size v) ∧ KeepsStore s (State.writeGeneric s src a size v) ∧ (State.writeGeneric s src
    a size v).cmds = s.cmds ∧ (State.writeGeneric s src a size v).pools = s.pools ∧ KeepsChip s (State.writeGeneric s
    src a size v) := by
  unfold State.writeGeneric
  (repeat' split) <;> simp [State.writePiece_frame _]

theorem State.deniedResponse_frame (s : State) (src : Source) (a : Nat) : KeepsBase s (State.deniedResponse s
    src a) ∧ KeepsSpace s (State.deniedResponse s src a) ∧ KeepsStore s (State.deniedResponse s src a) ∧ KeepsHost s
    (State.deniedResponse s src a) ∧ KeepsChip s (State.deniedResponse s src a) := by
  unfold State.deniedResponse
  (repeat' split) <;> simp [State.emit_frame _, State.raise_frame _, State.record_frame _]

theorem State.access_frame (s : State) (src : Source) (a : Nat) (size : Nat) (f : State → State) : ThruBase f s
    (State.access s src a size f) ∧ ThruSpace f s (State.access s src a size f) ∧ ThruStore f s (State.access s src a
    size f) ∧ ThruHost f s (State.access s src a size f) ∧ ThruChip f s (State.access s src a size f) := by
  unfold State.access
  (repeat' split) <;> simp +contextual [State.deniedResponse_frame _, State.errorResponse_frame _]


theorem State.access_chip (s : State) (src : Source) (a size : Nat) (f : State → State) : ((∀ x, (f
    x).pins.resetLow = x.pins.resetLow) → (s.access src a size f).pins.resetLow = s.pins.resetLow) ∧ ((∀ x, (f
    x).pins.frozen = x.pins.frozen) → (s.access src a size f).pins.frozen = s.pins.frozen) ∧ ((∀ x, (f x).boot.fuses =
    x.boot.fuses) → (s.access src a size f).boot.fuses = s.boot.fuses) := by
  unfold State.access
  try dsimp only
  (repeat' split) <;> simp +contextual [State.deniedResponse_frame _, State.errorResponse_frame _]

theorem State.keyed_frame (s : State) (src : Source) (w : Nat) (f : State → State) : ((∀ x, (f x).pending =
    x.pending) → (State.keyed s src w f).pending = s.pending) ∧ ((∀ x, (f x).posted = x.posted) → (State.keyed s src w
    f).posted = s.posted) ∧ ((∀ x, (f x).late = x.late) → (State.keyed s src w f).late = s.late) ∧ ((∀ x, (f x).isolated
    = x.isolated) → (State.keyed s src w f).isolated = s.isolated) ∧ ((∀ x, (f x).failedCores = x.failedCores) →
    (State.keyed s src w f).failedCores = s.failedCores) ∧ ((∀ x, (f x).mtf = x.mtf) → (State.keyed s src w f).mtf =
    s.mtf) ∧ ((∀ x, (f x).mat = x.mat) → (State.keyed s src w f).mat = s.mat) ∧ ((∀ x, (f x).mules = x.mules) →
    (State.keyed s src w f).mules = s.mules) ∧ ((∀ x, (f x).sdram = x.sdram) → (State.keyed s src w f).sdram = s.sdram)
    ∧ ((∀ x, (f x).ram = x.ram) → (State.keyed s src w f).ram = s.ram) ∧ ((∀ x, (f x).free = x.free) → (State.keyed s
    src w f).free = s.free) ∧ ((∀ x, (f x).regs = x.regs) → (State.keyed s src w f).regs = s.regs) ∧ ((∀ x, (f x).evlog
    = x.evlog) → (State.keyed s src w f).evlog = s.evlog) ∧ ThruSpace f s (State.keyed s src w f) ∧ ThruStore f s
    (State.keyed s src w f) ∧ ThruHost f s (State.keyed s src w f) ∧ ThruChip f s (State.keyed s src w f) := by
  unfold State.keyed
  (repeat' split) <;> simp +contextual [State.disarm_frame _, State.raiseHdr_frame _, State.raise_frame _]


theorem State.keyed_chip (s : State) (src : Source) (w : Nat) (f : State → State) : ((∀ x, (f x).pins.resetLow =
    x.pins.resetLow) → (s.keyed src w f).pins.resetLow = s.pins.resetLow) ∧ ((∀ x, (f x).pins.frozen = x.pins.frozen) →
    (s.keyed src w f).pins.frozen = s.pins.frozen) ∧ ((∀ x, (f x).boot.fuses = x.boot.fuses) → (s.keyed src w
    f).boot.fuses = s.boot.fuses) := by
  unfold State.keyed
  try dsimp only
  (repeat' split) <;> simp +contextual [State.disarm_frame _, State.raiseHdr_frame _, State.raise_frame _]

/-! ## Machine/Commands -/

theorem State.setSq_frame (s : State) (k : Nat) (r : SubRing) : KeepsBase s (State.setSq s k r) ∧ KeepsNotes s
    (State.setSq s k r) ∧ KeepsSpace s (State.setSq s k r) ∧ KeepsStore s (State.setSq s k r) ∧ (State.setSq s k
    r).hosts = s.hosts ∧ (State.setSq s k r).pools = s.pools ∧ KeepsChip s (State.setSq s k r) := by
  simp [State.setSq]

theorem State.setCq_frame (s : State) (k : Nat) (r : CplRing) : KeepsBase s (State.setCq s k r) ∧ KeepsNotes s
    (State.setCq s k r) ∧ KeepsSpace s (State.setCq s k r) ∧ KeepsStore s (State.setCq s k r) ∧ (State.setCq s k
    r).hosts = s.hosts ∧ (State.setCq s k r).pools = s.pools ∧ KeepsChip s (State.setCq s k r) := by
  simp [State.setCq]

theorem State.setCmd_frame (s : State) (slot : Nat) (c : Cmd) : KeepsBase s (State.setCmd s slot c) ∧ KeepsNotes
    s (State.setCmd s slot c) ∧ KeepsSpace s (State.setCmd s slot c) ∧ KeepsStore s (State.setCmd s slot c) ∧
    (State.setCmd s slot c).hosts = s.hosts ∧ (State.setCmd s slot c).pools = s.pools ∧ KeepsChip s (State.setCmd s slot
    c) := by
  simp [State.setCmd]

theorem State.recordRingFault_frame (s : State) (fk : Nat) (cplKind : Bool) (ring : Nat) (cause : Nat) :
    KeepsBase s (State.recordRingFault s fk cplKind ring cause) ∧ (State.recordRingFault s fk cplKind ring cause).free =
    s.free ∧ (State.recordRingFault s fk cplKind ring cause).evlog = s.evlog ∧ KeepsSpace s (State.recordRingFault s fk
    cplKind ring cause) ∧ KeepsStore s (State.recordRingFault s fk cplKind ring cause) ∧ (State.recordRingFault s fk
    cplKind ring cause).cmds = s.cmds ∧ (State.recordRingFault s fk cplKind ring cause).pools = s.pools ∧ KeepsChip s
    (State.recordRingFault s fk cplKind ring cause) := by
  simp [State.recordRingFault, State.raiseFn_frame _, State.setReg_frame _]

theorem State.faultSq_frame (s : State) (fk : Nat) (ring : Nat) (cause : Nat) : KeepsBase s (State.faultSq s fk
    ring cause) ∧ (State.faultSq s fk ring cause).free = s.free ∧ (State.faultSq s fk ring cause).evlog = s.evlog ∧
    KeepsSpace s (State.faultSq s fk ring cause) ∧ KeepsStore s (State.faultSq s fk ring cause) ∧ (State.faultSq s fk
    ring cause).pools = s.pools ∧ KeepsChip s (State.faultSq s fk ring cause) := by
  unfold State.faultSq
  (repeat' split) <;> simp [State.recordRingFault_frame _, State.setSq_frame _]

theorem State.faultCq_frame (s : State) (fk : Nat) (ring : Nat) (cause : Nat) : KeepsBase s (State.faultCq s fk
    ring cause) ∧ (State.faultCq s fk ring cause).free = s.free ∧ (State.faultCq s fk ring cause).evlog = s.evlog ∧
    KeepsSpace s (State.faultCq s fk ring cause) ∧ KeepsStore s (State.faultCq s fk ring cause) ∧ (State.faultCq s fk
    ring cause).pools = s.pools ∧ KeepsChip s (State.faultCq s fk ring cause) := by
  unfold State.faultCq
  (repeat' split) <;> simp [State.recordRingFault_frame _, State.setCq_frame _]

theorem State.dropDoorbell_frame (s : State) (p : Port) : KeepsBase s (State.dropDoorbell s p) ∧
    (State.dropDoorbell s p).free = s.free ∧ (State.dropDoorbell s p).out = s.out ∧ (State.dropDoorbell s p).stat =
    s.stat ∧ (State.dropDoorbell s p).evlog = s.evlog ∧ KeepsSpace s (State.dropDoorbell s p) ∧ KeepsStore s
    (State.dropDoorbell s p) ∧ KeepsHost s (State.dropDoorbell s p) ∧ KeepsChip s (State.dropDoorbell s p) := by
  simp [State.dropDoorbell, State.count_frame _]

theorem State.sqBell_frame (s : State) (fk : Nat) (ring : Nat) (r : SubRing) (v : Nat) : KeepsBase s
    (State.sqBell s fk ring r v) ∧ (State.sqBell s fk ring r v).free = s.free ∧ (State.sqBell s fk ring r v).evlog =
    s.evlog ∧ KeepsSpace s (State.sqBell s fk ring r v) ∧ KeepsStore s (State.sqBell s fk ring r v) ∧ (State.sqBell s fk
    ring r v).pools = s.pools ∧ KeepsChip s (State.sqBell s fk ring r v) := by
  unfold State.sqBell
  (repeat' split) <;> simp [State.faultSq_frame _, State.setSq_frame _]

theorem State.cqBell_frame (s : State) (fk : Nat) (ring : Nat) (r : CplRing) (v : Nat) : KeepsBase s
    (State.cqBell s fk ring r v) ∧ (State.cqBell s fk ring r v).free = s.free ∧ (State.cqBell s fk ring r v).evlog =
    s.evlog ∧ KeepsSpace s (State.cqBell s fk ring r v) ∧ KeepsStore s (State.cqBell s fk ring r v) ∧ (State.cqBell s fk
    ring r v).pools = s.pools ∧ KeepsChip s (State.cqBell s fk ring r v) := by
  unfold State.cqBell
  (repeat' split) <;> simp [State.faultCq_frame _, State.setCq_frame _]

theorem State.doorbell_frame (s : State) (cpl : Bool) (f : Fn) (off : Nat) (size : Nat) (v : DWord) : KeepsBase
    s (State.doorbell s cpl f off size v) ∧ (State.doorbell s cpl f off size v).free = s.free ∧ (State.doorbell s cpl f
    off size v).evlog = s.evlog ∧ KeepsSpace s (State.doorbell s cpl f off size v) ∧ KeepsStore s (State.doorbell s cpl
    f off size v) ∧ (State.doorbell s cpl f off size v).pools = s.pools ∧ KeepsChip s (State.doorbell s cpl f off size
    v) := by
  unfold State.doorbell
  (repeat' split) <;> simp [State.cqBell_frame _, State.dropDoorbell_frame _, State.emit_frame _, State.sqBell_frame _]

theorem State.unlock_frame (s : State) (slot : Nat) : KeepsBase s (State.unlock s slot) ∧ KeepsNotes s
    (State.unlock s slot) ∧ KeepsSpace s (State.unlock s slot) ∧ KeepsStore s (State.unlock s slot) ∧ (State.unlock s
    slot).hosts = s.hosts ∧ (State.unlock s slot).pools = s.pools ∧ KeepsChip s (State.unlock s slot) := by
  simp [State.unlock]

theorem State.release_frame (s : State) (slot : Nat) : KeepsBase s (State.release s slot) ∧ KeepsNotes s
    (State.release s slot) ∧ KeepsSpace s (State.release s slot) ∧ KeepsStore s (State.release s slot) ∧ (State.release
    s slot).hosts = s.hosts ∧ KeepsChip s (State.release s slot) := by
  simp [State.release]

theorem State.unqueue_frame (s : State) (slot : Nat) : KeepsBase s (State.unqueue s slot) ∧ KeepsNotes s
    (State.unqueue s slot) ∧ KeepsSpace s (State.unqueue s slot) ∧ KeepsStore s (State.unqueue s slot) ∧ (State.unqueue
    s slot).hosts = s.hosts ∧ KeepsChip s (State.unqueue s slot) := by
  simp [State.unqueue]

theorem State.logError_frame (s : State) (c : Cmd) (r : BitVec 256) : KeepsBase s (State.logError s c r) ∧
    (State.logError s c r).free = s.free ∧ (State.logError s c r).out = s.out ∧ (State.logError s c r).stat = s.stat ∧
    (State.logError s c r).evlog = s.evlog ∧ KeepsSpace s (State.logError s c r) ∧ KeepsStore s (State.logError s c r) ∧
    (State.logError s c r).cmds = s.cmds ∧ (State.logError s c r).pools = s.pools ∧ KeepsChip s (State.logError s c r)
    := by
  unfold State.logError
  (repeat' split) <;> simp [State.setFn_frame _, State.takeStamps_frame _]

theorem State.postRecord_frame (s : State) (slot : Nat) (c : Cmd) (cq : Nat) (q : CplRing) (r0 : BitVec 256) :
    KeepsBase s (State.postRecord s slot c cq q r0) ∧ (State.postRecord s slot c cq q r0).free = s.free ∧
    (State.postRecord s slot c cq q r0).stat = s.stat ∧ (State.postRecord s slot c cq q r0).evlog = s.evlog ∧ KeepsSpace
    s (State.postRecord s slot c cq q r0) ∧ KeepsStore s (State.postRecord s slot c cq q r0) ∧ KeepsChip s
    (State.postRecord s slot c cq q r0) := by
  unfold State.postRecord
  dsimp only
  (repeat' split) <;> simp [State.emit_frame _, State.logError_frame _, State.message_frame _, State.release_frame _,
      State.setCq_frame _]

theorem State.complete_frame (s : State) (slot : Nat) (x : Status) : KeepsBase s (State.complete s slot x) ∧
    (State.complete s slot x).free = s.free ∧ (State.complete s slot x).stat = s.stat ∧ (State.complete s slot x).evlog
    = s.evlog ∧ KeepsSpace s (State.complete s slot x) ∧ KeepsStore s (State.complete s slot x) ∧ KeepsChip s
    (State.complete s slot x) := by
  unfold State.complete
  dsimp only
  (repeat' split) <;> simp [State.postRecord_frame _, State.release_frame _, State.setCmd_frame _, State.setCq_frame _,
      State.unqueue_frame _]

theorem State.postHeld_frame (s : State) (fk : Nat) (cq : Nat) : KeepsBase s (State.postHeld s fk cq) ∧
    (State.postHeld s fk cq).free = s.free ∧ (State.postHeld s fk cq).stat = s.stat ∧ (State.postHeld s fk cq).evlog =
    s.evlog ∧ KeepsSpace s (State.postHeld s fk cq) ∧ KeepsStore s (State.postHeld s fk cq) ∧ KeepsChip s
    (State.postHeld s fk cq) := by
  unfold State.postHeld
  (repeat' split) <;> simp [State.postRecord_frame _, State.setCq_frame _]

theorem State.followPool_frame (s : State) (p : Nat) : KeepsBase s (State.followPool s p) ∧ (State.followPool s
    p).free = s.free ∧ (State.followPool s p).regs = s.regs ∧ (State.followPool s p).evlog = s.evlog ∧ KeepsSpace s
    (State.followPool s p) ∧ KeepsStore s (State.followPool s p) ∧ (State.followPool s p).cmds = s.cmds ∧
    (State.followPool s p).hosts = s.hosts ∧ KeepsChip s (State.followPool s p) := by
  unfold State.followPool
  dsimp only
  (repeat' split) <;> simp [State.raise_frame _]

theorem State.freeBuf_frame (s : State) (addr : Nat) : KeepsBase s (State.freeBuf s addr) ∧ (State.freeBuf s
    addr).free = s.free ∧ (State.freeBuf s addr).regs = s.regs ∧ (State.freeBuf s addr).evlog = s.evlog ∧ KeepsSpace s
    (State.freeBuf s addr) ∧ KeepsStore s (State.freeBuf s addr) ∧ (State.freeBuf s addr).cmds = s.cmds ∧ (State.freeBuf
    s addr).hosts = s.hosts ∧ KeepsChip s (State.freeBuf s addr) := by
  unfold State.freeBuf
  (repeat' split) <;> simp [State.followPool_frame _]

theorem State.logAer_frame (s : State) (fk : Nat) (bit : Nat) : KeepsBase s (State.logAer s fk bit) ∧ KeepsNotes
    s (State.logAer s fk bit) ∧ KeepsSpace s (State.logAer s fk bit) ∧ KeepsStore s (State.logAer s fk bit) ∧
    (State.logAer s fk bit).cmds = s.cmds ∧ (State.logAer s fk bit).pools = s.pools ∧ KeepsChip s (State.logAer s fk
    bit) := by
  simp [State.logAer, State.setFn_frame _]

theorem State.countTimeout_frame (s : State) (p : Port) (o : TagOwner) : KeepsBase s (State.countTimeout s p o)
    ∧ (State.countTimeout s p o).free = s.free ∧ (State.countTimeout s p o).evlog = s.evlog ∧ KeepsSpace s
    (State.countTimeout s p o) ∧ KeepsStore s (State.countTimeout s p o) ∧ (State.countTimeout s p o).cmds = s.cmds ∧
    (State.countTimeout s p o).pools = s.pools ∧ KeepsChip s (State.countTimeout s p o) := by
  simp [State.countTimeout, State.count_frame _, State.logAer_frame _, State.raiseHst_frame _]

theorem State.hostTimeout_frame (s : State) (p : Port) (o : TagOwner) : KeepsBase s (State.hostTimeout s p o) ∧
    (State.hostTimeout s p o).free = s.free ∧ (State.hostTimeout s p o).evlog = s.evlog ∧ KeepsSpace s
    (State.hostTimeout s p o) ∧ KeepsStore s (State.hostTimeout s p o) ∧ (State.hostTimeout s p o).cmds = s.cmds ∧
    (State.hostTimeout s p o).pools = s.pools ∧ KeepsChip s (State.hostTimeout s p o) := by
  simp [State.hostTimeout, State.countTimeout_frame _, State.setPort_frame _]

theorem State.readFailed_frame (s : State) (slot : Nat) (c : Cmd) : KeepsBase s (State.readFailed s slot c) ∧
    (State.readFailed s slot c).free = s.free ∧ (State.readFailed s slot c).evlog = s.evlog ∧ KeepsSpace s
    (State.readFailed s slot c) ∧ KeepsStore s (State.readFailed s slot c) ∧ (State.readFailed s slot c).cmds = s.cmds ∧
    (State.readFailed s slot c).pools = s.pools ∧ KeepsChip s (State.readFailed s slot c) := by
  unfold State.readFailed
  (repeat' split) <;> simp [State.hostTimeout_frame _]

theorem State.discardFn_frame (s : State) (fk : Nat) : KeepsBase s (State.discardFn s fk) ∧ KeepsNotes s
    (State.discardFn s fk) ∧ KeepsSpace s (State.discardFn s fk) ∧ KeepsStore s (State.discardFn s fk) ∧
    (State.discardFn s fk).hosts = s.hosts ∧ KeepsChip s (State.discardFn s fk) := by
  simp [State.discardFn]

/-! ## Machine/Intake -/

theorem State.takePacket_frame (s : State) (k : Nat) (r : SubRing) (p : BitVec 512) : KeepsBase s
    (State.takePacket s k r p) ∧ (State.takePacket s k r p).free = s.free ∧ (State.takePacket s k r p).stat = s.stat ∧
    (State.takePacket s k r p).evlog = s.evlog ∧ KeepsSpace s (State.takePacket s k r p) ∧ KeepsStore s
    (State.takePacket s k r p) ∧ KeepsChip s (State.takePacket s k r p) := by
  unfold State.takePacket
  dsimp only
  (repeat' split) <;> simp [State.complete_frame _, State.setCmd_frame _, State.setSq_frame _]

theorem State.takePackets_frame (s : State) (k : Nat) (x3 : List (BitVec 512)) : KeepsBase s (State.takePackets
    s k x3) ∧ (State.takePackets s k x3).free = s.free ∧ (State.takePackets s k x3).stat = s.stat ∧ (State.takePackets s
    k x3).evlog = s.evlog ∧ KeepsSpace s (State.takePackets s k x3) ∧ KeepsStore s (State.takePackets s k x3) ∧
    KeepsChip s (State.takePackets s k x3) := by
  induction x3 generalizing s with
  | nil => simp [State.takePackets, State.takePacket_frame _]
  | cons p ps ih =>
    unfold State.takePackets
    split
    · split
      · simpa [State.takePacket_frame _] using ih (s.takePacket k _ p)
      · simp [State.takePacket_frame _]
    · simp [State.takePacket_frame _]

theorem State.takeTag_frame (s : State) (p : Port) (o : TagOwner) : KeepsBase s (State.takeTag s p o) ∧
    KeepsNotes s (State.takeTag s p o) ∧ KeepsSpace s (State.takeTag s p o) ∧ KeepsStore s (State.takeTag s p o) ∧
    (State.takeTag s p o).cmds = s.cmds ∧ (State.takeTag s p o).pools = s.pools ∧ KeepsChip s (State.takeTag s p o) :=
    by
  simp [State.takeTag, State.setPort_frame _]

theorem State.startService_frame (s : State) (fk : Nat) : KeepsBase s (State.startService s fk) ∧
    (State.startService s fk).free = s.free ∧ (State.startService s fk).out = s.out ∧ (State.startService s fk).stat =
    s.stat ∧ (State.startService s fk).evlog = s.evlog ∧ KeepsSpace s (State.startService s fk) ∧ KeepsStore s
    (State.startService s fk) ∧ (State.startService s fk).hosts = s.hosts ∧ (State.startService s fk).pools = s.pools ∧
    KeepsChip s (State.startService s fk) := by
  unfold State.startService
  (repeat' split) <;> simp [State.setCq_frame _, State.setFld_frame _, State.setSq_frame _]

theorem State.enableFn_frame (s : State) (fk : Nat) : KeepsBase s (State.enableFn s fk) ∧ (State.enableFn s
    fk).free = s.free ∧ (State.enableFn s fk).out = s.out ∧ (State.enableFn s fk).stat = s.stat ∧ (State.enableFn s
    fk).evlog = s.evlog ∧ KeepsSpace s (State.enableFn s fk) ∧ KeepsStore s (State.enableFn s fk) ∧ (State.enableFn s
    fk).pools = s.pools ∧ KeepsChip s (State.enableFn s fk) := by
  unfold State.enableFn
  (repeat' split) <;> simp [State.setFld_frame _, State.setFn_frame _, State.startService_frame _]

theorem State.releaseEnables_frame (s : State) : KeepsBase s (State.releaseEnables s) ∧ (State.releaseEnables
    s).free = s.free ∧ (State.releaseEnables s).out = s.out ∧ (State.releaseEnables s).stat = s.stat ∧
    (State.releaseEnables s).evlog = s.evlog ∧ KeepsSpace s (State.releaseEnables s) ∧ KeepsStore s
    (State.releaseEnables s) ∧ (State.releaseEnables s).pools = s.pools ∧ KeepsChip s (State.releaseEnables s) := by
  unfold State.releaseEnables
  (repeat' split) <;> simp (disch := (intros; (repeat' split) <;> simp [*, State.setFld_frame _, State.setFn_frame _, State.startService_frame _])) [State.setFld_frame _, State.setFn_frame _, State.startService_frame _]

/-! ## Machine/Map -/

theorem State.storeEntry_frame (s : State) (n : Namespace) (u : Nat) (e : BitVec 40) : KeepsBase s
    (State.storeEntry s n u e) ∧ KeepsNotes s (State.storeEntry s n u e) ∧ KeepsSpace s (State.storeEntry s n u e) ∧
    (State.storeEntry s n u e).place = s.place ∧ (State.storeEntry s n u e).media = s.media ∧ KeepsHost s
    (State.storeEntry s n u e) ∧ KeepsChip s (State.storeEntry s n u e) := by
  simp [State.storeEntry]

theorem State.dropRegions_frame (s : State) (p : Port) (event : Bool) : KeepsBase s (State.dropRegions s p
    event) ∧ (State.dropRegions s p event).free = s.free ∧ (State.dropRegions s p event).evlog = s.evlog ∧ KeepsSpace s
    (State.dropRegions s p event) ∧ (State.dropRegions s p event).place = s.place ∧ (State.dropRegions s p event).media
    = s.media ∧ (State.dropRegions s p event).cmds = s.cmds ∧ (State.dropRegions s p event).pools = s.pools ∧ KeepsChip
    s (State.dropRegions s p event) := by
  unfold State.dropRegions
  dsimp only
  (repeat' split) <;> simp [State.count_frame _, State.raiseFn_frame _, State.raise_frame _]

theorem State.rollSealKey_frame (s : State) : KeepsBase s (State.rollSealKey s) ∧ (State.rollSealKey s).free =
    s.free ∧ (State.rollSealKey s).evlog = s.evlog ∧ KeepsSpace s (State.rollSealKey s) ∧ (State.rollSealKey s).place =
    s.place ∧ (State.rollSealKey s).media = s.media ∧ KeepsHost s (State.rollSealKey s) ∧ KeepsChip s (State.rollSealKey
    s) := by
  simp [State.rollSealKey, State.count_frame _, State.raise_frame _]

theorem State.startFetch_frame (s : State) (mpn : Nat) (forStore : Bool) : KeepsBase s (State.startFetch s mpn
    forStore) ∧ KeepsNotes s (State.startFetch s mpn forStore) ∧ KeepsSpace s (State.startFetch s mpn forStore) ∧
    (State.startFetch s mpn forStore).place = s.place ∧ (State.startFetch s mpn forStore).media = s.media ∧
    (State.startFetch s mpn forStore).cmds = s.cmds ∧ (State.startFetch s mpn forStore).pools = s.pools ∧ KeepsChip s
    (State.startFetch s mpn forStore) := by
  unfold State.startFetch
  dsimp only
  (repeat' split) <;> simp [State.setPort_frame _]

theorem State.fallBack_frame (s : State) (mpn : Nat) : KeepsBase s (State.fallBack s mpn) ∧ KeepsNotes s
    (State.fallBack s mpn) ∧ KeepsSpace s (State.fallBack s mpn) ∧ (State.fallBack s mpn).place = s.place ∧
    (State.fallBack s mpn).media = s.media ∧ KeepsHost s (State.fallBack s mpn) ∧ KeepsChip s (State.fallBack s mpn) :=
    by
  simp [State.fallBack]

theorem State.distrust_frame (s : State) (id : Nat) (r : Region) : KeepsBase s (State.distrust s id r) ∧
    KeepsSpace s (State.distrust s id r) ∧ (State.distrust s id r).place = s.place ∧ (State.distrust s id r).media =
    s.media ∧ (State.distrust s id r).cmds = s.cmds ∧ (State.distrust s id r).pools = s.pools ∧ KeepsChip s
    (State.distrust s id r) := by
  unfold State.distrust
  dsimp only
  (repeat' split) <;> simp [State.raiseFn_frame _, State.raiseRecord_frame _]

theorem State.sealFail_frame (s : State) (mpn : Nat) (check : Nat) : KeepsBase s (State.sealFail s mpn check) ∧
    KeepsSpace s (State.sealFail s mpn check) ∧ (State.sealFail s mpn check).place = s.place ∧ (State.sealFail s mpn
    check).media = s.media ∧ (State.sealFail s mpn check).cmds = s.cmds ∧ (State.sealFail s mpn check).pools = s.pools ∧
    KeepsChip s (State.sealFail s mpn check) := by
  unfold State.sealFail
  dsimp only
  (repeat' split) <;> simp [State.count_frame _, State.distrust_frame _, State.fallBack_frame _, State.raiseRecord_frame
      _]

theorem State.fetchError_frame (s : State) (mpn : Nat) : KeepsBase s (State.fetchError s mpn) ∧ KeepsSpace s
    (State.fetchError s mpn) ∧ (State.fetchError s mpn).place = s.place ∧ (State.fetchError s mpn).media = s.media ∧
    KeepsHost s (State.fetchError s mpn) ∧ KeepsChip s (State.fetchError s mpn) := by
  simp [State.fetchError, State.count_frame _, State.fallBack_frame _, State.raiseRecord_frame _]

theorem State.flashFetched_frame (s : State) (mpn : Nat) (readable : Bool) : KeepsBase s (State.flashFetched s
    mpn readable) ∧ KeepsSpace s (State.flashFetched s mpn readable) ∧ (State.flashFetched s mpn readable).place =
    s.place ∧ (State.flashFetched s mpn readable).media = s.media ∧ KeepsHost s (State.flashFetched s mpn readable) ∧
    KeepsChip s (State.flashFetched s mpn readable) := by
  unfold State.flashFetched
  (repeat' split) <;> simp [State.raiseRecord_frame _]

theorem State.allocLine_frame (s : State) (c : Nat) (l : CacheLine) : KeepsBase s (State.allocLine s c l) ∧
    (State.allocLine s c l).free = s.free ∧ (State.allocLine s c l).out = s.out ∧ (State.allocLine s c l).stat = s.stat
    ∧ (State.allocLine s c l).evlog = s.evlog ∧ KeepsSpace s (State.allocLine s c l) ∧ (State.allocLine s c l).place =
    s.place ∧ (State.allocLine s c l).media = s.media ∧ KeepsHost s (State.allocLine s c l) ∧ KeepsChip s
    (State.allocLine s c l) := by
  unfold State.allocLine
  dsimp only
  (repeat' split) <;> simp [State.setReg_frame _]

theorem State.cacheTouch_frame (s : State) (c : Nat) (mpn : Nat) (line : Nat) (dirty : Bool) : KeepsBase s
    (State.cacheTouch s c mpn line dirty) ∧ (State.cacheTouch s c mpn line dirty).free = s.free ∧ (State.cacheTouch s c
    mpn line dirty).out = s.out ∧ (State.cacheTouch s c mpn line dirty).stat = s.stat ∧ (State.cacheTouch s c mpn line
    dirty).evlog = s.evlog ∧ KeepsSpace s (State.cacheTouch s c mpn line dirty) ∧ (State.cacheTouch s c mpn line
    dirty).place = s.place ∧ (State.cacheTouch s c mpn line dirty).media = s.media ∧ KeepsHost s (State.cacheTouch s c
    mpn line dirty) ∧ KeepsChip s (State.cacheTouch s c mpn line dirty) := by
  unfold State.cacheTouch
  dsimp only
  (repeat' split) <;> simp [State.allocLine_frame _, State.count_frame _]

theorem State.cacheFill_frame (s : State) (mpn : Nat) (line : Nat) : KeepsBase s (State.cacheFill s mpn line) ∧
    KeepsNotes s (State.cacheFill s mpn line) ∧ KeepsSpace s (State.cacheFill s mpn line) ∧ (State.cacheFill s mpn
    line).place = s.place ∧ (State.cacheFill s mpn line).media = s.media ∧ KeepsHost s (State.cacheFill s mpn line) ∧
    KeepsChip s (State.cacheFill s mpn line) := by
  simp [State.cacheFill]

theorem State.cacheStore_frame (s : State) (c : Nat) (mpn : Nat) (line : Nat) (whole : Bool) : KeepsBase s
    (State.cacheStore s c mpn line whole) ∧ (State.cacheStore s c mpn line whole).free = s.free ∧ (State.cacheStore s c
    mpn line whole).out = s.out ∧ (State.cacheStore s c mpn line whole).stat = s.stat ∧ (State.cacheStore s c mpn line
    whole).evlog = s.evlog ∧ KeepsSpace s (State.cacheStore s c mpn line whole) ∧ (State.cacheStore s c mpn line
    whole).place = s.place ∧ (State.cacheStore s c mpn line whole).media = s.media ∧ KeepsHost s (State.cacheStore s c
    mpn line whole) ∧ KeepsChip s (State.cacheStore s c mpn line whole) := by
  unfold State.cacheStore
  dsimp only
  (repeat' split) <;> simp [State.cacheTouch_frame _]

theorem State.walk_frame (s : State) (cls : Nat) (n : Namespace) (us : List Nat) : KeepsBase s (State.walk s cls
    n us) ∧ (State.walk s cls n us).free = s.free ∧ (State.walk s cls n us).out = s.out ∧ (State.walk s cls n us).stat =
    s.stat ∧ (State.walk s cls n us).evlog = s.evlog ∧ KeepsSpace s (State.walk s cls n us) ∧ (State.walk s cls n
    us).place = s.place ∧ (State.walk s cls n us).media = s.media ∧ KeepsHost s (State.walk s cls n us) ∧ KeepsChip s
    (State.walk s cls n us) := by
  simp [State.walk, State.cacheTouch_frame _]

theorem State.followGen_frame (s : State) (old : State) : KeepsBase s (State.followGen s old) ∧ KeepsNotes s
    (State.followGen s old) ∧ KeepsSpace s (State.followGen s old) ∧ KeepsStore s (State.followGen s old) ∧
    (State.followGen s old).cmds = s.cmds ∧ (State.followGen s old).pools = s.pools ∧ KeepsChip s (State.followGen s
    old) := by
  unfold State.followGen
  (repeat' split) <;> simp

end Sys2Proof.Machine
end

