-- ==== Sys2Proof/Laws/FramesMedia.lean ====
section
/-! SUPPORT. What the functions of memory banks, the medium, placement, wear, staging and reclaim leave unchanged: one lemma for each, which lists the parts of the
state that it keeps. -/

namespace Sys2Proof.Machine

open Sys2Proof

set_option linter.all false

/-! ## Machine/Banks -/

theorem State.setSdram_frame (s : State) (ch : Nat) (x : Sdram) : (State.setSdram s ch x).pending = s.pending ∧
    (State.setSdram s ch x).armed = s.armed ∧ (State.setSdram s ch x).posted = s.posted ∧ (State.setSdram s ch x).late =
    s.late ∧ (State.setSdram s ch x).isolated = s.isolated ∧ (State.setSdram s ch x).failedCores = s.failedCores ∧
    (State.setSdram s ch x).mtf = s.mtf ∧ (State.setSdram s ch x).mat = s.mat ∧ (State.setSdram s ch x).mules = s.mules
    ∧ (State.setSdram s ch x).ram = s.ram ∧ KeepsNotes s (State.setSdram s ch x) ∧ KeepsSpace s (State.setSdram s ch x)
    ∧ KeepsStore s (State.setSdram s ch x) ∧ KeepsHost s (State.setSdram s ch x) ∧ KeepsChip s (State.setSdram s ch x)
    := by
  simp [State.setSdram]

theorem State.activate_frame (s : State) (ch : Nat) (row : Nat) : (State.activate s ch row).2.pending =
    s.pending ∧ (State.activate s ch row).2.armed = s.armed ∧ (State.activate s ch row).2.posted = s.posted ∧
    (State.activate s ch row).2.late = s.late ∧ (State.activate s ch row).2.isolated = s.isolated ∧ (State.activate s ch
    row).2.failedCores = s.failedCores ∧ (State.activate s ch row).2.mtf = s.mtf ∧ (State.activate s ch row).2.mat =
    s.mat ∧ (State.activate s ch row).2.mules = s.mules ∧ (State.activate s ch row).2.ram = s.ram ∧ (State.activate s ch
    row).2.out = s.out ∧ (State.activate s ch row).2.stat = s.stat ∧ (State.activate s ch row).2.evlog = s.evlog ∧
    KeepsSpace s (State.activate s ch row).2 ∧ KeepsStore s (State.activate s ch row).2 ∧ KeepsHost s (State.activate s
    ch row).2 ∧ KeepsChip s (State.activate s ch row).2 := by
  unfold State.activate
  dsimp only
  (repeat' split) <;> simp [State.count_frame _, State.setSdram_frame _, State.takeFree_frame _]

theorem State.useBank_frame (s : State) (ch : Nat) (k : Nat) (row : Nat) : (State.useBank s ch k row).pending =
    s.pending ∧ (State.useBank s ch k row).armed = s.armed ∧ (State.useBank s ch k row).posted = s.posted ∧
    (State.useBank s ch k row).late = s.late ∧ (State.useBank s ch k row).isolated = s.isolated ∧ (State.useBank s ch k
    row).failedCores = s.failedCores ∧ (State.useBank s ch k row).mtf = s.mtf ∧ (State.useBank s ch k row).mat = s.mat ∧
    (State.useBank s ch k row).mules = s.mules ∧ (State.useBank s ch k row).ram = s.ram ∧ (State.useBank s ch k row).out
    = s.out ∧ (State.useBank s ch k row).stat = s.stat ∧ (State.useBank s ch k row).evlog = s.evlog ∧ KeepsSpace s
    (State.useBank s ch k row) ∧ KeepsStore s (State.useBank s ch k row) ∧ KeepsHost s (State.useBank s ch k row) ∧
    KeepsChip s (State.useBank s ch k row) := by
  unfold State.useBank
  dsimp only
  (repeat' split) <;> simp [State.activate_frame _, State.setSdram_frame _]

theorem State.usePlace_frame (s : State) (lo hi : Nat) (p : Nat × Nat) : (s.usePlace lo hi p).pending =
    s.pending ∧ (s.usePlace lo hi p).armed = s.armed ∧ (s.usePlace lo hi p).posted = s.posted ∧ (s.usePlace lo hi
    p).late = s.late ∧ (s.usePlace lo hi p).isolated = s.isolated ∧ (s.usePlace lo hi p).failedCores = s.failedCores ∧
    (s.usePlace lo hi p).mtf = s.mtf ∧ (s.usePlace lo hi p).mat = s.mat ∧ (s.usePlace lo hi p).mules = s.mules ∧
    (s.usePlace lo hi p).ram = s.ram ∧ (s.usePlace lo hi p).out = s.out ∧ (s.usePlace lo hi p).stat = s.stat ∧
    (s.usePlace lo hi p).evlog = s.evlog ∧ KeepsSpace s (s.usePlace lo hi p) ∧ KeepsStore s (s.usePlace lo hi p) ∧
    KeepsHost s (s.usePlace lo hi p) ∧ KeepsChip s (s.usePlace lo hi p) := by
  unfold State.usePlace
  simp [State.useBank_frame _]

theorem State.useGranule_frame (s : State) (lo hi : Nat) (write : Bool) : (s.useGranule lo hi write).pending =
    s.pending ∧ (s.useGranule lo hi write).armed = s.armed ∧ (s.useGranule lo hi write).posted = s.posted ∧
    (s.useGranule lo hi write).late = s.late ∧ (s.useGranule lo hi write).isolated = s.isolated ∧ (s.useGranule lo hi
    write).failedCores = s.failedCores ∧ (s.useGranule lo hi write).mtf = s.mtf ∧ (s.useGranule lo hi write).mat = s.mat
    ∧ (s.useGranule lo hi write).mules = s.mules ∧ (s.useGranule lo hi write).ram = s.ram ∧ (s.useGranule lo hi
    write).out = s.out ∧ (s.useGranule lo hi write).stat = s.stat ∧ (s.useGranule lo hi write).evlog = s.evlog ∧
    KeepsSpace s (s.useGranule lo hi write) ∧ KeepsStore s (s.useGranule lo hi write) ∧ KeepsHost s (s.useGranule lo hi
    write) ∧ KeepsChip s (s.useGranule lo hi write) := by
  unfold State.useGranule
  simp [State.usePlace_frame _]

theorem useNext_frame (s : State) (x n i : Nat) (write : Bool) : (useNext x n write s i).pending = s.pending ∧
    (useNext x n write s i).armed = s.armed ∧ (useNext x n write s i).posted = s.posted ∧ (useNext x n write s i).late =
    s.late ∧ (useNext x n write s i).isolated = s.isolated ∧ (useNext x n write s i).failedCores = s.failedCores ∧
    (useNext x n write s i).mtf = s.mtf ∧ (useNext x n write s i).mat = s.mat ∧ (useNext x n write s i).mules = s.mules
    ∧ (useNext x n write s i).ram = s.ram ∧ (useNext x n write s i).out = s.out ∧ (useNext x n write s i).stat = s.stat
    ∧ (useNext x n write s i).evlog = s.evlog ∧ KeepsSpace s (useNext x n write s i) ∧ KeepsStore s (useNext x n write s
    i) ∧ KeepsHost s (useNext x n write s i) ∧ KeepsChip s (useNext x n write s i) := by
  unfold useNext
  simp [State.useGranule_frame _]

theorem State.useSdram_frame (s : State) (x n : Nat) (write : Bool) : (s.useSdram x n write).pending = s.pending
    ∧ (s.useSdram x n write).armed = s.armed ∧ (s.useSdram x n write).posted = s.posted ∧ (s.useSdram x n write).late =
    s.late ∧ (s.useSdram x n write).isolated = s.isolated ∧ (s.useSdram x n write).failedCores = s.failedCores ∧
    (s.useSdram x n write).mtf = s.mtf ∧ (s.useSdram x n write).mat = s.mat ∧ (s.useSdram x n write).mules = s.mules ∧
    (s.useSdram x n write).ram = s.ram ∧ (s.useSdram x n write).out = s.out ∧ (s.useSdram x n write).stat = s.stat ∧
    (s.useSdram x n write).evlog = s.evlog ∧ KeepsSpace s (s.useSdram x n write) ∧ KeepsStore s (s.useSdram x n write) ∧
    KeepsHost s (s.useSdram x n write) ∧ KeepsChip s (s.useSdram x n write) := by
  unfold State.useSdram
  simp [useNext_frame _]

theorem State.touch_frame (s : State) (a : Nat) (n : Nat) (write : Bool) : (State.touch s a n write).pending =
    s.pending ∧ (State.touch s a n write).armed = s.armed ∧ (State.touch s a n write).posted = s.posted ∧ (State.touch s
    a n write).late = s.late ∧ (State.touch s a n write).isolated = s.isolated ∧ (State.touch s a n write).failedCores =
    s.failedCores ∧ (State.touch s a n write).mtf = s.mtf ∧ (State.touch s a n write).mat = s.mat ∧ (State.touch s a n
    write).mules = s.mules ∧ (State.touch s a n write).ram = s.ram ∧ (State.touch s a n write).out = s.out ∧
    (State.touch s a n write).stat = s.stat ∧ (State.touch s a n write).evlog = s.evlog ∧ KeepsSpace s (State.touch s a
    n write) ∧ KeepsStore s (State.touch s a n write) ∧ KeepsHost s (State.touch s a n write) ∧ KeepsChip s (State.touch
    s a n write) := by
  unfold State.touch
  (repeat' split) <;> simp [State.useSdram_frame _]

theorem State.store_frame (s : State) (a : Nat) (l : List Byte) : (State.store s a l).pending = s.pending ∧
    (State.store s a l).armed = s.armed ∧ (State.store s a l).posted = s.posted ∧ (State.store s a l).late = s.late ∧
    (State.store s a l).isolated = s.isolated ∧ (State.store s a l).failedCores = s.failedCores ∧ (State.store s a
    l).mtf = s.mtf ∧ (State.store s a l).mat = s.mat ∧ (State.store s a l).mules = s.mules ∧ (State.store s a l).out =
    s.out ∧ (State.store s a l).stat = s.stat ∧ (State.store s a l).evlog = s.evlog ∧ KeepsSpace s (State.store s a l) ∧
    KeepsStore s (State.store s a l) ∧ KeepsHost s (State.store s a l) ∧ KeepsChip s (State.store s a l) := by
  simp [State.store, State.touch_frame _]

theorem State.remapPlain_frame (s : State) (ch : Nat) : (State.remapPlain s ch).pending = s.pending ∧
    (State.remapPlain s ch).armed = s.armed ∧ (State.remapPlain s ch).posted = s.posted ∧ (State.remapPlain s ch).late =
    s.late ∧ (State.remapPlain s ch).isolated = s.isolated ∧ (State.remapPlain s ch).failedCores = s.failedCores ∧
    (State.remapPlain s ch).mtf = s.mtf ∧ (State.remapPlain s ch).mat = s.mat ∧ (State.remapPlain s ch).mules = s.mules
    ∧ (State.remapPlain s ch).sdram = s.sdram ∧ KeepsNotes s (State.remapPlain s ch) ∧ KeepsSpace s (State.remapPlain s
    ch) ∧ KeepsStore s (State.remapPlain s ch) ∧ KeepsHost s (State.remapPlain s ch) ∧ KeepsChip s (State.remapPlain s
    ch) := by
  simp [State.remapPlain]

/-! ## Machine/Media -/

theorem State.setDie_frame (s : State) (dk : Nat) (d : Die) : KeepsBase s (State.setDie s dk d) ∧ KeepsNotes s
    (State.setDie s dk d) ∧ KeepsSpace s (State.setDie s dk d) ∧ (State.setDie s dk d).map = s.map ∧ (State.setDie s dk
    d).place = s.place ∧ KeepsHost s (State.setDie s dk d) ∧ KeepsChip s (State.setDie s dk d) := by
  simp [State.setDie]

theorem State.setBlock_frame (s : State) (dk : Nat) (block : Nat) (e : BlockEntry) : KeepsBase s (State.setBlock
    s dk block e) ∧ KeepsNotes s (State.setBlock s dk block e) ∧ KeepsSpace s (State.setBlock s dk block e) ∧
    (State.setBlock s dk block e).map = s.map ∧ (State.setBlock s dk block e).place = s.place ∧ KeepsHost s
    (State.setBlock s dk block e) ∧ KeepsChip s (State.setBlock s dk block e) := by
  simp [State.setBlock]

theorem State.programPlane_frame (s : State) (addr : Nat) (slc : Bool) (slots : List Codeword) (kind : Nat)
    (band : Nat) (stripe : Nat) : KeepsBase s (State.programPlane s addr slc slots kind band stripe) ∧
    (State.programPlane s addr slc slots kind band stripe).free = s.free ∧ (State.programPlane s addr slc slots kind
    band stripe).out = s.out ∧ (State.programPlane s addr slc slots kind band stripe).stat = s.stat ∧
    (State.programPlane s addr slc slots kind band stripe).evlog = s.evlog ∧ KeepsSpace s (State.programPlane s addr slc
    slots kind band stripe) ∧ (State.programPlane s addr slc slots kind band stripe).map = s.map ∧ (State.programPlane s
    addr slc slots kind band stripe).place = s.place ∧ KeepsHost s (State.programPlane s addr slc slots kind band
    stripe) ∧ KeepsChip s (State.programPlane s addr slc slots kind band stripe) := by
  simp [State.programPlane, State.takeStamps_frame _]

theorem State.eraseBlock_frame (s : State) (dk : Nat) (block : Nat) : KeepsBase s (State.eraseBlock s dk block)
    ∧ KeepsNotes s (State.eraseBlock s dk block) ∧ KeepsSpace s (State.eraseBlock s dk block) ∧ (State.eraseBlock s dk
    block).map = s.map ∧ (State.eraseBlock s dk block).place = s.place ∧ KeepsHost s (State.eraseBlock s dk block) ∧
    KeepsChip s (State.eraseBlock s dk block) := by
  simp [State.eraseBlock]

theorem State.countVia_frame (s : State) (addr : Nat) (v : Via) : KeepsBase s (State.countVia s addr v) ∧
    (State.countVia s addr v).free = s.free ∧ (State.countVia s addr v).evlog = s.evlog ∧ KeepsSpace s (State.countVia s
    addr v) ∧ KeepsStore s (State.countVia s addr v) ∧ KeepsHost s (State.countVia s addr v) ∧ KeepsChip s
    (State.countVia s addr v) := by
  unfold State.countVia
  (repeat' split) <;> simp [State.count_frame _, State.raise_frame _]

/-! ## Machine/Place -/

theorem State.setBand_frame (s : State) (num : Nat) (b : Band) : KeepsBase s (State.setBand s num b) ∧
    KeepsNotes s (State.setBand s num b) ∧ KeepsSpace s (State.setBand s num b) ∧ (State.setBand s num b).map = s.map ∧
    (State.setBand s num b).media = s.media ∧ KeepsHost s (State.setBand s num b) ∧ KeepsChip s (State.setBand s num b)
    := by
  simp [State.setBand]

theorem State.bumpBand_frame (s : State) (addr : Nat) (up : Bool) : KeepsBase s (State.bumpBand s addr up) ∧
    KeepsNotes s (State.bumpBand s addr up) ∧ KeepsSpace s (State.bumpBand s addr up) ∧ (State.bumpBand s addr up).map =
    s.map ∧ (State.bumpBand s addr up).media = s.media ∧ KeepsHost s (State.bumpBand s addr up) ∧ KeepsChip s
    (State.bumpBand s addr up) := by
  unfold State.bumpBand
  (repeat' split) <;> simp [State.setBand_frame _]

theorem State.mapSet_frame (s : State) (n : Namespace) (u : Nat) (e : BitVec 40) : KeepsBase s (State.mapSet s n
    u e) ∧ KeepsNotes s (State.mapSet s n u e) ∧ KeepsSpace s (State.mapSet s n u e) ∧ (State.mapSet s n u e).media =
    s.media ∧ KeepsHost s (State.mapSet s n u e) ∧ KeepsChip s (State.mapSet s n u e) := by
  unfold State.mapSet
  dsimp only
  (repeat' split) <;> simp [State.bumpBand_frame _, State.storeEntry_frame _]

theorem State.closeBand_frame (s : State) (num : Nat) : KeepsBase s (State.closeBand s num) ∧ KeepsNotes s
    (State.closeBand s num) ∧ KeepsSpace s (State.closeBand s num) ∧ (State.closeBand s num).map = s.map ∧
    (State.closeBand s num).media = s.media ∧ KeepsHost s (State.closeBand s num) ∧ KeepsChip s (State.closeBand s num)
    := by
  unfold State.closeBand
  (repeat' split) <;> simp [State.setBand_frame _]

theorem State.closeStale_frame (s : State) (layout : Nat) (stream : Nat) : KeepsBase s (State.closeStale s
    layout stream) ∧ KeepsNotes s (State.closeStale s layout stream) ∧ KeepsSpace s (State.closeStale s layout stream) ∧
    (State.closeStale s layout stream).map = s.map ∧ (State.closeStale s layout stream).media = s.media ∧ KeepsHost s
    (State.closeStale s layout stream) ∧ KeepsChip s (State.closeStale s layout stream) := by
  simp [State.closeStale, State.closeBand_frame _]

theorem State.loseRun_frame (s : State) (nsid : Nat) (n : Namespace) (cause : Nat) (band : Nat) (stripe : Nat)
    (first : Nat) (count : Nat) : KeepsBase s (State.loseRun s nsid n cause band stripe first count) ∧ KeepsSpace s
    (State.loseRun s nsid n cause band stripe first count) ∧ (State.loseRun s nsid n cause band stripe first
    count).media = s.media ∧ (State.loseRun s nsid n cause band stripe first count).cmds = s.cmds ∧ (State.loseRun s
    nsid n cause band stripe first count).pools = s.pools ∧ KeepsChip s (State.loseRun s nsid n cause band stripe first
    count) := by
  unfold State.loseRun
  dsimp only
  (repeat' split) <;> simp [State.count_frame _, State.mapSet_frame _, State.raiseNs_frame _, State.raiseRecord_frame _,
      State.raise_frame _, State.takeStamps_frame _]

theorem State.loseStripe_frame (s : State) (num : Nat) (st : Nat) (cause : Nat) : KeepsBase s (State.loseStripe
    s num st cause) ∧ KeepsSpace s (State.loseStripe s num st cause) ∧ (State.loseStripe s num st cause).media = s.media
    ∧ (State.loseStripe s num st cause).cmds = s.cmds ∧ (State.loseStripe s num st cause).pools = s.pools ∧ KeepsChip s
    (State.loseStripe s num st cause) := by
  unfold State.loseStripe
  (repeat' split) <;> simp [State.loseRun_frame _]

theorem State.clearLost_frame (s : State) : KeepsBase s (State.clearLost s) ∧ KeepsNotes s (State.clearLost s) ∧
    KeepsSpace s (State.clearLost s) ∧ (State.clearLost s).map = s.map ∧ (State.clearLost s).media = s.media ∧ KeepsHost
    s (State.clearLost s) ∧ KeepsChip s (State.clearLost s) := by
  simp [State.clearLost]

theorem State.followCapacity_frame (s : State) : KeepsBase s (State.followCapacity s) ∧ KeepsSpace s
    (State.followCapacity s) ∧ KeepsStore s (State.followCapacity s) ∧ (State.followCapacity s).cmds = s.cmds ∧
    (State.followCapacity s).pools = s.pools ∧ (State.followCapacity s).boot = s.boot ∧ (State.followCapacity
    s).pins.resetLow = s.pins.resetLow ∧ (State.followCapacity s).pins.frozen = s.pins.frozen := by
  unfold State.followCapacity
  dsimp only
  (repeat' split) <;> simp [State.raiseFns_frame _, State.raise_frame _, State.reason_frame _, State.setFld_frame _]

theorem State.setNs_frame (s : State) (nsid : Nat) (n : Namespace) : KeepsBase s (State.setNs s nsid n) ∧
    KeepsNotes s (State.setNs s nsid n) ∧ (State.setNs s nsid n).deferred = s.deferred ∧ (State.setNs s nsid n).power =
    s.power ∧ (State.setNs s nsid n).herd = s.herd ∧ KeepsStore s (State.setNs s nsid n) ∧ KeepsHost s (State.setNs s
    nsid n) ∧ KeepsChip s (State.setNs s nsid n) := by
  simp [State.setNs]

theorem State.fenceNs_frame (s : State) (nsid : Nat) (cause : Nat) : KeepsBase s (State.fenceNs s nsid cause) ∧
    (State.fenceNs s nsid cause).deferred = s.deferred ∧ (State.fenceNs s nsid cause).power = s.power ∧ (State.fenceNs s
    nsid cause).herd = s.herd ∧ KeepsStore s (State.fenceNs s nsid cause) ∧ (State.fenceNs s nsid cause).cmds = s.cmds ∧
    (State.fenceNs s nsid cause).pools = s.pools ∧ (State.fenceNs s nsid cause).boot = s.boot ∧ (State.fenceNs s nsid
    cause).pins.resetLow = s.pins.resetLow ∧ (State.fenceNs s nsid cause).pins.frozen = s.pins.frozen := by
  unfold State.fenceNs
  (repeat' split) <;> simp [State.followCapacity_frame _, State.raiseNs_frame _, State.raiseRecord_frame _,
      State.setNs_frame _]

theorem State.reviewFences_frame (s : State) : KeepsBase s (State.reviewFences s) ∧ (State.reviewFences
    s).deferred = s.deferred ∧ (State.reviewFences s).power = s.power ∧ (State.reviewFences s).herd = s.herd ∧
    KeepsStore s (State.reviewFences s) ∧ (State.reviewFences s).cmds = s.cmds ∧ (State.reviewFences s).pools = s.pools
    ∧ (State.reviewFences s).boot = s.boot ∧ (State.reviewFences s).pins.resetLow = s.pins.resetLow ∧
    (State.reviewFences s).pins.frozen = s.pins.frozen := by
  simp [State.reviewFences, State.followCapacity_frame _, State.raiseNs_frame _, State.raise_frame _, State.setNs_frame
      _]

theorem State.followRedundancy_frame (s : State) : KeepsBase s (State.followRedundancy s) ∧ KeepsSpace s
    (State.followRedundancy s) ∧ (State.followRedundancy s).map = s.map ∧ (State.followRedundancy s).media = s.media ∧
    (State.followRedundancy s).cmds = s.cmds ∧ (State.followRedundancy s).pools = s.pools ∧ (State.followRedundancy
    s).boot = s.boot ∧ (State.followRedundancy s).pins.resetLow = s.pins.resetLow ∧ (State.followRedundancy
    s).pins.frozen = s.pins.frozen := by
  unfold State.followRedundancy
  dsimp only
  (repeat' split) <;> simp [State.raise_frame _, State.reason_frame _]

theorem State.failMembers_frame (s : State) (hit : Nat → Bool) : KeepsBase s (State.failMembers s hit) ∧
    KeepsSpace s (State.failMembers s hit) ∧ (State.failMembers s hit).map = s.map ∧ (State.failMembers s hit).media =
    s.media ∧ (State.failMembers s hit).cmds = s.cmds ∧ (State.failMembers s hit).pools = s.pools ∧ (State.failMembers s
    hit).boot = s.boot ∧ (State.failMembers s hit).pins.resetLow = s.pins.resetLow ∧ (State.failMembers s
    hit).pins.frozen = s.pins.frozen := by
  unfold State.failMembers
  dsimp only
  (repeat' split) <;> simp [State.followRedundancy_frame _, State.raise_frame _]

/-! ## Machine/Wear -/

theorem State.retireBlock_frame (s : State) (dk : Nat) (block : Nat) : KeepsBase s (State.retireBlock s dk
    block) ∧ KeepsSpace s (State.retireBlock s dk block) ∧ (State.retireBlock s dk block).map = s.map ∧
    (State.retireBlock s dk block).cmds = s.cmds ∧ (State.retireBlock s dk block).pools = s.pools ∧ (State.retireBlock s
    dk block).boot = s.boot ∧ (State.retireBlock s dk block).pins.resetLow = s.pins.resetLow ∧ (State.retireBlock s dk
    block).pins.frozen = s.pins.frozen := by
  unfold State.retireBlock
  dsimp only
  (repeat' split) <;> simp [State.followCapacity_frame _, State.raiseRecord_frame _, State.setBlock_frame _,
      State.setDie_frame _, State.setReg_frame _]

theorem State.queueRetire_frame (s : State) (dk : Nat) (block : Nat) : KeepsBase s (State.queueRetire s dk
    block) ∧ KeepsSpace s (State.queueRetire s dk block) ∧ (State.queueRetire s dk block).map = s.map ∧
    (State.queueRetire s dk block).cmds = s.cmds ∧ (State.queueRetire s dk block).pools = s.pools ∧ (State.queueRetire s
    dk block).boot = s.boot ∧ (State.queueRetire s dk block).pins.resetLow = s.pins.resetLow ∧ (State.queueRetire s dk
    block).pins.frozen = s.pins.frozen := by
  unfold State.queueRetire
  dsimp only
  (repeat' split) <;> simp [State.retireBlock_frame _]

theorem State.leaveWindow_frame (s : State) (dk : Nat) (block : Nat) : KeepsBase s (State.leaveWindow s dk
    block) ∧ (State.leaveWindow s dk block).free = s.free ∧ (State.leaveWindow s dk block).regs = s.regs ∧
    (State.leaveWindow s dk block).evlog = s.evlog ∧ KeepsSpace s (State.leaveWindow s dk block) ∧ (State.leaveWindow s
    dk block).map = s.map ∧ (State.leaveWindow s dk block).media = s.media ∧ KeepsHost s (State.leaveWindow s dk block)
    ∧ KeepsChip s (State.leaveWindow s dk block) := by
  unfold State.leaveWindow
  (repeat' split) <;> simp [State.raise_frame _]

theorem State.enterWindow_frame (s : State) (dk : Nat) (block : Nat) : KeepsBase s (State.enterWindow s dk
    block) ∧ (State.enterWindow s dk block).free = s.free ∧ (State.enterWindow s dk block).out = s.out ∧
    (State.enterWindow s dk block).stat = s.stat ∧ (State.enterWindow s dk block).evlog = s.evlog ∧ KeepsSpace s
    (State.enterWindow s dk block) ∧ (State.enterWindow s dk block).map = s.map ∧ (State.enterWindow s dk block).media =
    s.media ∧ KeepsHost s (State.enterWindow s dk block) ∧ KeepsChip s (State.enterWindow s dk block) := by
  unfold State.enterWindow
  dsimp only
  (repeat' split) <;> simp [State.count_frame _]

theorem State.takeTurn_frame (s : State) (dk : Nat) : KeepsBase s (State.takeTurn s dk) ∧ (State.takeTurn s
    dk).free = s.free ∧ (State.takeTurn s dk).evlog = s.evlog ∧ KeepsSpace s (State.takeTurn s dk) ∧ (State.takeTurn s
    dk).map = s.map ∧ KeepsHost s (State.takeTurn s dk) ∧ KeepsChip s (State.takeTurn s dk) := by
  simp [State.takeTurn, State.enterWindow_frame _, State.leaveWindow_frame _, State.setDie_frame _]

theorem State.swapStaging_frame (s : State) (dk : Nat) (block : Nat) : KeepsBase s (State.swapStaging s dk
    block) ∧ KeepsNotes s (State.swapStaging s dk block) ∧ KeepsSpace s (State.swapStaging s dk block) ∧
    (State.swapStaging s dk block).map = s.map ∧ (State.swapStaging s dk block).place = s.place ∧ KeepsHost s
    (State.swapStaging s dk block) ∧ KeepsChip s (State.swapStaging s dk block) := by
  unfold State.swapStaging
  dsimp only
  (repeat' split) <;> simp [State.setDie_frame _]

theorem State.settleAreas_frame (s : State) (dk : Nat) : KeepsBase s (State.settleAreas s dk) ∧ KeepsNotes s
    (State.settleAreas s dk) ∧ KeepsSpace s (State.settleAreas s dk) ∧ (State.settleAreas s dk).map = s.map ∧
    (State.settleAreas s dk).place = s.place ∧ KeepsHost s (State.settleAreas s dk) ∧ KeepsChip s (State.settleAreas s
    dk) := by
  unfold State.settleAreas
  dsimp only
  (repeat' split) <;> simp [State.setDie_frame _]

theorem State.eraseCounts_frame (s : State) (dk : Nat) (block : Nat) : KeepsBase s (State.eraseCounts s dk
    block) ∧ KeepsSpace s (State.eraseCounts s dk block) ∧ (State.eraseCounts s dk block).map = s.map ∧ KeepsHost s
    (State.eraseCounts s dk block) ∧ KeepsChip s (State.eraseCounts s dk block) := by
  unfold State.eraseCounts
  dsimp only
  (repeat' split) <;> simp [State.eraseBlock_frame _, State.raiseRecord_frame _, State.setDie_frame _,
      State.takeTurn_frame _]

theorem State.erased_frame (s : State) (dk : Nat) (block : Nat) (slc : Bool) : KeepsBase s (State.erased s dk
    block slc) ∧ KeepsSpace s (State.erased s dk block slc) ∧ (State.erased s dk block slc).map = s.map ∧ (State.erased
    s dk block slc).cmds = s.cmds ∧ (State.erased s dk block slc).pools = s.pools ∧ (State.erased s dk block slc).boot =
    s.boot ∧ (State.erased s dk block slc).pins.resetLow = s.pins.resetLow ∧ (State.erased s dk block slc).pins.frozen =
    s.pins.frozen := by
  unfold State.erased
  dsimp only
  (repeat' split) <;> simp [State.eraseCounts_frame _, State.queueRetire_frame _, State.settleAreas_frame _,
      State.swapStaging_frame _]

theorem State.flagRecord_frame (s : State) (dk : Nat) (kind : Nat) (block : Nat) (slc : Bool) (suspends : Nat)
    (erases : Nat) : KeepsBase s (State.flagRecord s dk kind block slc suspends erases) ∧ (State.flagRecord s dk kind
    block slc suspends erases).free = s.free ∧ (State.flagRecord s dk kind block slc suspends erases).stat = s.stat ∧
    (State.flagRecord s dk kind block slc suspends erases).evlog = s.evlog ∧ KeepsSpace s (State.flagRecord s dk kind
    block slc suspends erases) ∧ (State.flagRecord s dk kind block slc suspends erases).map = s.map ∧ (State.flagRecord
    s dk kind block slc suspends erases).place = s.place ∧ KeepsHost s (State.flagRecord s dk kind block slc suspends
    erases) ∧ KeepsChip s (State.flagRecord s dk kind block slc suspends erases) := by
  simp [State.flagRecord, State.emit_frame _, State.takeStamps_frame _]

theorem State.rotateFlag_frame (s : State) (dk : Nat) : KeepsBase s (State.rotateFlag s dk) ∧ KeepsSpace s
    (State.rotateFlag s dk) ∧ (State.rotateFlag s dk).map = s.map ∧ KeepsHost s (State.rotateFlag s dk) ∧ KeepsChip s
    (State.rotateFlag s dk) := by
  unfold State.rotateFlag
  dsimp only
  (repeat' split) <;> simp [State.eraseCounts_frame _, State.flagRecord_frame _, State.record_frame _,
      State.setBlock_frame _, State.setDie_frame _]

theorem State.eraseBegin_frame (s : State) (dk : Nat) (block : Nat) (slc : Bool) : KeepsBase s (State.eraseBegin
    s dk block slc) ∧ KeepsSpace s (State.eraseBegin s dk block slc) ∧ (State.eraseBegin s dk block slc).map = s.map ∧
    KeepsHost s (State.eraseBegin s dk block slc) ∧ KeepsChip s (State.eraseBegin s dk block slc) := by
  simp [State.eraseBegin, State.flagRecord_frame _, State.rotateFlag_frame _, State.setBlock_frame _]

theorem State.eraseEnd_frame (s : State) (dk : Nat) (block : Nat) (slc : Bool) (ok : Bool) (suspends : Nat) :
    KeepsBase s (State.eraseEnd s dk block slc ok suspends) ∧ KeepsSpace s (State.eraseEnd s dk block slc ok suspends) ∧
    (State.eraseEnd s dk block slc ok suspends).map = s.map ∧ (State.eraseEnd s dk block slc ok suspends).cmds = s.cmds
    ∧ (State.eraseEnd s dk block slc ok suspends).pools = s.pools ∧ (State.eraseEnd s dk block slc ok suspends).boot =
    s.boot ∧ (State.eraseEnd s dk block slc ok suspends).pins.resetLow = s.pins.resetLow ∧ (State.eraseEnd s dk block
    slc ok suspends).pins.frozen = s.pins.frozen := by
  unfold State.eraseEnd
  (repeat' split) <;> simp [State.erased_frame _, State.flagRecord_frame _, State.queueRetire_frame _,
      State.rotateFlag_frame _]

theorem State.eraseNow_frame (s : State) (dk : Nat) (block : Nat) (slc : Bool) : KeepsBase s (State.eraseNow s
    dk block slc) ∧ KeepsSpace s (State.eraseNow s dk block slc) ∧ (State.eraseNow s dk block slc).map = s.map ∧
    (State.eraseNow s dk block slc).cmds = s.cmds ∧ (State.eraseNow s dk block slc).pools = s.pools ∧ (State.eraseNow s
    dk block slc).boot = s.boot ∧ (State.eraseNow s dk block slc).pins.resetLow = s.pins.resetLow ∧ (State.eraseNow s dk
    block slc).pins.frozen = s.pins.frozen := by
  unfold State.eraseNow
  (repeat' split) <;> simp [State.eraseBegin_frame _, State.eraseEnd_frame _]

/-! ## Machine/Stage -/

theorem State.unstage_frame (s : State) (nsid : Nat) (unit : Nat) : KeepsBase s (State.unstage s nsid unit) ∧
    KeepsNotes s (State.unstage s nsid unit) ∧ KeepsSpace s (State.unstage s nsid unit) ∧ (State.unstage s nsid
    unit).map = s.map ∧ (State.unstage s nsid unit).media = s.media ∧ KeepsHost s (State.unstage s nsid unit) ∧
    KeepsChip s (State.unstage s nsid unit) := by
  simp [State.unstage]

theorem State.setStage_frame (s : State) (nsid : Nat) (unit : Nat) (r : StageRec) : KeepsBase s (State.setStage
    s nsid unit r) ∧ KeepsNotes s (State.setStage s nsid unit r) ∧ KeepsSpace s (State.setStage s nsid unit r) ∧
    (State.setStage s nsid unit r).map = s.map ∧ (State.setStage s nsid unit r).media = s.media ∧ KeepsHost s
    (State.setStage s nsid unit r) ∧ KeepsChip s (State.setStage s nsid unit r) := by
  simp [State.setStage]

theorem State.openBand_frame (s : State) (layout stream : Nat) (r : Nat × State) (h : s.openBand layout stream = some r)
    : KeepsBase s r.2 ∧ r.2.free = s.free ∧ r.2.out = s.out ∧ r.2.stat = s.stat ∧ r.2.evlog = s.evlog ∧ KeepsSpace s r.2
    ∧ r.2.map = s.map ∧ r.2.media = s.media ∧ KeepsHost s r.2 ∧ KeepsChip s r.2 := by
  unfold State.openBand at h
  simp only [Option.map_eq_some_iff] at h
  obtain ⟨m, _, rfl⟩ := h
  simp [State.takeStamps_frame _]

theorem State.bandFor_frame (s : State) (layout stream : Nat) (r : Nat × State) (h : s.bandFor layout stream = some r) :
    KeepsBase s r.2 ∧ r.2.free = s.free ∧ r.2.out = s.out ∧ r.2.stat = s.stat ∧ r.2.evlog = s.evlog ∧ KeepsSpace s r.2 ∧
    r.2.map = s.map ∧ r.2.media = s.media ∧ KeepsHost s r.2 ∧ KeepsChip s r.2 := by
  unfold State.bandFor at h
  split at h
  · obtain rfl := Option.some.inj h
    simp [State.closeStale_frame _, State.openBand_frame _]
  · have := State.openBand_frame _ _ _ _ h
    simp_all [State.closeStale_frame _, State.openBand_frame _]

theorem State.programStripe_frame (s : State) (layout stream : Nat) (units : List (List Codeword)) (r : List Nat × Nat ×
    State) (h : s.programStripe layout stream units = some r) : KeepsBase s r.2.2 ∧ r.2.2.free = s.free ∧ r.2.2.out =
    s.out ∧ r.2.2.stat = s.stat ∧ r.2.2.evlog = s.evlog ∧ KeepsSpace s r.2.2 ∧ r.2.2.map = s.map ∧ KeepsHost s r.2.2 ∧
    KeepsChip s r.2.2 := by
  unfold State.programStripe at h
  split at h
  · cases h
  · rename_i num t hb
    have := State.bandFor_frame _ _ _ _ hb
    split at h
    · cases h
    · obtain rfl := Option.some.inj h
      dsimp only
      split <;> simp_all [State.bandFor_frame _, State.closeBand_frame _, State.count_frame _, State.programPlane_frame
          _, State.setBand_frame _]

theorem State.stageReady_frame (s : State) (dk : Nat) (t : State) (h : s.stageReady dk = some t) : KeepsBase s t ∧
    KeepsSpace s t ∧ t.map = s.map ∧ t.cmds = s.cmds ∧ t.pools = s.pools ∧ t.boot = s.boot ∧ t.pins.resetLow =
    s.pins.resetLow ∧ t.pins.frozen = s.pins.frozen := by
  unfold State.stageReady at h
  dsimp only at h
  repeat' split at h
  all_goals first | cases h; done | (obtain rfl := Option.some.inj h; simp [State.eraseNow_frame _, State.setDie_frame _])

theorem State.programStage_frame (s : State) (dk : Nat) (cws : List Codeword) : KeepsBase s (State.programStage
    s dk cws).1 ∧ KeepsSpace s (State.programStage s dk cws).1 ∧ (State.programStage s dk cws).1.map = s.map ∧
    (State.programStage s dk cws).1.cmds = s.cmds ∧ (State.programStage s dk cws).1.pools = s.pools ∧
    (State.programStage s dk cws).1.boot = s.boot ∧ (State.programStage s dk cws).1.pins.resetLow = s.pins.resetLow ∧
    (State.programStage s dk cws).1.pins.frozen = s.pins.frozen := by
  unfold State.programStage
  split
  · simp [State.programPlane_frame _, State.stageReady_frame _]
  · rename_i t h
    have := State.stageReady_frame _ _ _ h
    simp_all [State.programPlane_frame _, State.stageReady_frame _]

theorem State.setGather_frame (s : State) (i : Nat) (g : Gather) : KeepsBase s (State.setGather s i g) ∧
    KeepsNotes s (State.setGather s i g) ∧ KeepsSpace s (State.setGather s i g) ∧ (State.setGather s i g).map = s.map ∧
    (State.setGather s i g).media = s.media ∧ KeepsHost s (State.setGather s i g) ∧ KeepsChip s (State.setGather s i g)
    := by
  simp [State.setGather]

theorem State.gatherFor_frame (s : State) (stream : Nat) (layout : Nat) : KeepsBase s (State.gatherFor s stream
    layout).2.2 ∧ KeepsNotes s (State.gatherFor s stream layout).2.2 ∧ KeepsSpace s (State.gatherFor s stream
    layout).2.2 ∧ (State.gatherFor s stream layout).2.2.map = s.map ∧ (State.gatherFor s stream layout).2.2.media =
    s.media ∧ KeepsHost s (State.gatherFor s stream layout).2.2 ∧ KeepsChip s (State.gatherFor s stream layout).2.2 :=
    by
  unfold State.gatherFor
  (repeat' split) <;> simp [State.setGather_frame _]

theorem State.joinUnit_frame (s : State) (nsid : Nat) (n : Namespace) (unit : Nat) : KeepsBase s (State.joinUnit
    s nsid n unit) ∧ (State.joinUnit s nsid n unit).free = s.free ∧ (State.joinUnit s nsid n unit).out = s.out ∧
    (State.joinUnit s nsid n unit).stat = s.stat ∧ (State.joinUnit s nsid n unit).evlog = s.evlog ∧ KeepsSpace s
    (State.joinUnit s nsid n unit) ∧ (State.joinUnit s nsid n unit).map = s.map ∧ (State.joinUnit s nsid n unit).media =
    s.media ∧ KeepsHost s (State.joinUnit s nsid n unit) ∧ KeepsChip s (State.joinUnit s nsid n unit) := by
  unfold State.joinUnit
  dsimp only
  (repeat' split) <;> simp [State.gatherFor_frame _, State.setGather_frame _, State.setStage_frame _,
      State.takeStamps_frame _]

theorem State.fillSlot_frame (s : State) (stream : Nat) (nsid : Nat) (unit : Nat) (b : Nat) (c : Option
    Codeword) : KeepsBase s (State.fillSlot s stream nsid unit b c) ∧ KeepsNotes s (State.fillSlot s stream nsid unit b
    c) ∧ KeepsSpace s (State.fillSlot s stream nsid unit b c) ∧ (State.fillSlot s stream nsid unit b c).map = s.map ∧
    (State.fillSlot s stream nsid unit b c).media = s.media ∧ KeepsHost s (State.fillSlot s stream nsid unit b c) ∧
    KeepsChip s (State.fillSlot s stream nsid unit b c) := by
  unfold State.fillSlot
  (repeat' split) <;> simp [State.setGather_frame _]

theorem State.sealLosses_frame (s : State) (g : Gather) : KeepsBase s (State.sealLosses s g) ∧ KeepsSpace s
    (State.sealLosses s g) ∧ (State.sealLosses s g).media = s.media ∧ (State.sealLosses s g).cmds = s.cmds ∧
    (State.sealLosses s g).pools = s.pools ∧ KeepsChip s (State.sealLosses s g) := by
  unfold State.sealLosses
  exact foldl_rel (P := fun s t : State => KeepsBase s t ∧ KeepsSpace s t ∧ t.media = s.media ∧ t.cmds = s.cmds ∧ t.pools = s.pools ∧ KeepsChip s t) (by simp [State.loseStripe_frame _, State.setStage_frame _, State.takeStamps_frame _]) (by intro a b c h1 h2; simp_all [State.loseStripe_frame _, State.setStage_frame _, State.takeStamps_frame _]) _ (by intro s x; dsimp only; (repeat' split) <;> simp [State.loseStripe_frame _, State.setStage_frame _, State.takeStamps_frame _]) _ _

theorem State.drain_frame (s : State) (i : Nat) : KeepsBase s (State.drain s i) ∧ (State.drain s i).free =
    s.free ∧ (State.drain s i).out = s.out ∧ (State.drain s i).stat = s.stat ∧ (State.drain s i).evlog = s.evlog ∧
    KeepsSpace s (State.drain s i) ∧ (State.drain s i).map = s.map ∧ KeepsHost s (State.drain s i) ∧ KeepsChip s
    (State.drain s i) := by
  unfold State.drain
  split
  · simp [State.programStripe_frame _, State.setGather_frame _, State.takeStamps_frame _]
  · dsimp only
    split
    · rename_i h
      have := State.programStripe_frame _ _ _ _ _ h
      simp_all [State.programStripe_frame _, State.setGather_frame _, State.takeStamps_frame _]
    · simp [State.programStripe_frame _, State.setGather_frame _, State.takeStamps_frame _]

theorem State.sealGather_frame (s : State) (i : Nat) : KeepsBase s (State.sealGather s i) ∧ KeepsSpace s
    (State.sealGather s i) ∧ (State.sealGather s i).cmds = s.cmds ∧ (State.sealGather s i).pools = s.pools ∧ KeepsChip s
    (State.sealGather s i) := by
  unfold State.sealGather
  (repeat' split) <;> simp [State.count_frame _, State.drain_frame _, State.sealLosses_frame _, State.setGather_frame _]

theorem State.sealFull_frame (s : State) (stream : Nat) : KeepsBase s (State.sealFull s stream) ∧ KeepsSpace s
    (State.sealFull s stream) ∧ (State.sealFull s stream).cmds = s.cmds ∧ (State.sealFull s stream).pools = s.pools ∧
    KeepsChip s (State.sealFull s stream) := by
  unfold State.sealFull
  (repeat' split) <;> simp [State.sealGather_frame _]

theorem State.sealAll_frame (s : State) : KeepsBase s (State.sealAll s) ∧ KeepsSpace s (State.sealAll s) ∧
    (State.sealAll s).cmds = s.cmds ∧ (State.sealAll s).pools = s.pools ∧ KeepsChip s (State.sealAll s) := by
  simp [State.sealAll, State.sealGather_frame _]

theorem fillStaged_frame (nsid : Nat) (n : Namespace) (unit : Nat) (r : StageRec) (s : State) (b : Nat) :
    KeepsBase s (fillStaged nsid n unit r s b) ∧ KeepsNotes s (fillStaged nsid n unit r s b) ∧ KeepsSpace s (fillStaged
    nsid n unit r s b) ∧ (fillStaged nsid n unit r s b).map = s.map ∧ (fillStaged nsid n unit r s b).media = s.media ∧
    KeepsHost s (fillStaged nsid n unit r s b) ∧ KeepsChip s (fillStaged nsid n unit r s b) := by
  unfold fillStaged
  split <;> simp [State.fillSlot_frame _]

theorem State.gatherUnit_frame (s : State) (nsid : Nat) (n : Namespace) (unit : Nat) (news : List (Nat × Option
    Codeword)) : KeepsBase s (State.gatherUnit s nsid n unit news) ∧ KeepsSpace s (State.gatherUnit s nsid n unit news)
    ∧ (State.gatherUnit s nsid n unit news).cmds = s.cmds ∧ (State.gatherUnit s nsid n unit news).pools = s.pools ∧
    KeepsChip s (State.gatherUnit s nsid n unit news) := by
  unfold State.gatherUnit
  split
  · simp [State.fillSlot_frame _, State.joinUnit_frame _, State.mapSet_frame _, State.sealFull_frame _, fillStaged_frame
      _]
  · dsimp only
    split
    · simp [State.fillSlot_frame _, State.joinUnit_frame _, State.mapSet_frame _, State.sealFull_frame _,
        fillStaged_frame _]
    · (repeat' split) <;> simp [State.fillSlot_frame _, State.joinUnit_frame _, State.mapSet_frame _,
        State.sealFull_frame _, fillStaged_frame _]

theorem State.stagePressure_frame (s : State) : KeepsBase s (State.stagePressure s) ∧ KeepsSpace s
    (State.stagePressure s) ∧ (State.stagePressure s).cmds = s.cmds ∧ (State.stagePressure s).pools = s.pools ∧
    KeepsChip s (State.stagePressure s) := by
  unfold State.stagePressure
  dsimp only
  (repeat' split) <;> simp [State.raise_frame _, State.sealAll_frame _]

theorem State.stageGroup_frame (s : State) (pair : Nat × Nat) (blocks : List (Nat × Nat × Codeword)) : KeepsBase
    s (State.stageGroup s pair blocks) ∧ KeepsSpace s (State.stageGroup s pair blocks) ∧ (State.stageGroup s pair
    blocks).cmds = s.cmds ∧ (State.stageGroup s pair blocks).pools = s.pools ∧ (State.stageGroup s pair blocks).boot =
    s.boot ∧ (State.stageGroup s pair blocks).pins.resetLow = s.pins.resetLow ∧ (State.stageGroup s pair
    blocks).pins.frozen = s.pins.frozen := by
  unfold State.stageGroup
  (repeat' split) <;> simp (disch := (intros; (repeat' split) <;> simp [*, State.gatherUnit_frame _, State.programStage_frame _, State.setStage_frame _])) [State.gatherUnit_frame _, State.programStage_frame _, State.setStage_frame _]

theorem State.installGather_frame (s : State) (g : Gather) : KeepsBase s (State.installGather s g) ∧ KeepsNotes
    s (State.installGather s g) ∧ KeepsSpace s (State.installGather s g) ∧ (State.installGather s g).media = s.media ∧
    KeepsHost s (State.installGather s g) ∧ KeepsChip s (State.installGather s g) := by
  unfold State.installGather
  refine foldl_rel (P := fun s t => KeepsBase s t ∧ KeepsNotes s t ∧ KeepsSpace s t ∧ t.media = s.media ∧ KeepsHost s t
      ∧ KeepsChip s t) (by simp [State.mapSet_frame _, State.unstage_frame _]) (by intro a b c h1 h2; simp_all [State.mapSet_frame _, State.unstage_frame _]) _ ?_ _ _
  intro s e
  (repeat' split) <;> simp [State.mapSet_frame _, State.unstage_frame _]

/-! ## Machine/Reclaim -/

theorem State.programCopy_frame (s : State) (layout : Nat) (stream : Nat) (rebuild : Bool) (units : List (Live ×
    List Codeword)) : KeepsBase s (State.programCopy s layout stream rebuild units) ∧ (State.programCopy s layout stream
    rebuild units).free = s.free ∧ (State.programCopy s layout stream rebuild units).out = s.out ∧ (State.programCopy s
    layout stream rebuild units).stat = s.stat ∧ (State.programCopy s layout stream rebuild units).evlog = s.evlog ∧
    KeepsSpace s (State.programCopy s layout stream rebuild units) ∧ (State.programCopy s layout stream rebuild
    units).map = s.map ∧ KeepsHost s (State.programCopy s layout stream rebuild units) ∧ KeepsChip s (State.programCopy
    s layout stream rebuild units) := by
  unfold State.programCopy
  dsimp only
  split
  · simp [State.programStripe_frame _]
  · rename_i h
    have := State.programStripe_frame _ _ _ _ _ h
    simp_all [State.programStripe_frame _]

theorem State.loseUnreadable_frame (s : State) (us : List Live) (cause : Nat → Nat) : KeepsBase s
    (State.loseUnreadable s us cause) ∧ KeepsSpace s (State.loseUnreadable s us cause) ∧ (State.loseUnreadable s us
    cause).media = s.media ∧ (State.loseUnreadable s us cause).cmds = s.cmds ∧ (State.loseUnreadable s us cause).pools =
    s.pools ∧ KeepsChip s (State.loseUnreadable s us cause) := by
  unfold State.loseUnreadable
  (repeat' split) <;> simp (disch := (intros; (repeat' split) <;> simp [*, State.loseStripe_frame _])) [State.loseStripe_frame _]

theorem State.copyUnits_frame (s : State) (layout : Nat) (stream : Nat) (rebuild : Bool) (us : List Live) (cause
    : Nat → Nat) : KeepsBase s (State.copyUnits s layout stream rebuild us cause) ∧ KeepsSpace s (State.copyUnits s
    layout stream rebuild us cause) ∧ (State.copyUnits s layout stream rebuild us cause).cmds = s.cmds ∧
    (State.copyUnits s layout stream rebuild us cause).pools = s.pools ∧ KeepsChip s (State.copyUnits s layout stream
    rebuild us cause) := by
  simp [State.copyUnits, State.loseUnreadable_frame _, State.programCopy_frame _]

theorem State.relocate_frame (s : State) (nsid : Nat) (unit : Nat) (addr : Nat) : KeepsBase s (State.relocate s
    nsid unit addr) ∧ KeepsSpace s (State.relocate s nsid unit addr) ∧ (State.relocate s nsid unit addr).cmds = s.cmds ∧
    (State.relocate s nsid unit addr).pools = s.pools ∧ KeepsChip s (State.relocate s nsid unit addr) := by
  unfold State.relocate
  (repeat' split) <;> simp [State.copyUnits_frame _]

theorem State.noteDeep_frame (s : State) (addr : Nat) : KeepsBase s (State.noteDeep s addr) ∧ KeepsSpace s
    (State.noteDeep s addr) ∧ (State.noteDeep s addr).map = s.map ∧ (State.noteDeep s addr).cmds = s.cmds ∧
    (State.noteDeep s addr).pools = s.pools ∧ (State.noteDeep s addr).boot = s.boot ∧ (State.noteDeep s
    addr).pins.resetLow = s.pins.resetLow ∧ (State.noteDeep s addr).pins.frozen = s.pins.frozen := by
  unfold State.noteDeep
  dsimp only
  (repeat' split) <;> simp [State.queueRetire_frame _]

theorem installItem_frame (rebuild : Bool) (s : State) (i : CopyItem) : KeepsBase s (installItem rebuild s i) ∧
    (installItem rebuild s i).free = s.free ∧ (installItem rebuild s i).out = s.out ∧ (installItem rebuild s i).stat =
    s.stat ∧ (installItem rebuild s i).evlog = s.evlog ∧ KeepsSpace s (installItem rebuild s i) ∧ (installItem rebuild s
    i).media = s.media ∧ KeepsHost s (installItem rebuild s i) ∧ KeepsChip s (installItem rebuild s i) := by
  unfold installItem
  dsimp only
  (repeat' split) <;> simp [State.count_frame _, State.mapSet_frame _]

theorem State.installCopy_frame (s : State) (c : CopyStripe) : KeepsBase s (State.installCopy s c) ∧ KeepsSpace
    s (State.installCopy s c) ∧ (State.installCopy s c).media = s.media ∧ (State.installCopy s c).cmds = s.cmds ∧
    (State.installCopy s c).pools = s.pools ∧ (State.installCopy s c).boot = s.boot ∧ (State.installCopy s
    c).pins.resetLow = s.pins.resetLow ∧ (State.installCopy s c).pins.frozen = s.pins.frozen := by
  unfold State.installCopy
  simp only [State.followRedundancy_frame _]
  split <;> simp [State.followRedundancy_frame _, State.raise_frame _, installItem_frame _]

theorem State.failCopy_frame (s : State) (c : CopyStripe) : KeepsBase s (State.failCopy s c) ∧ KeepsSpace s
    (State.failCopy s c) ∧ (State.failCopy s c).map = s.map ∧ (State.failCopy s c).cmds = s.cmds ∧ (State.failCopy s
    c).pools = s.pools ∧ (State.failCopy s c).boot = s.boot ∧ (State.failCopy s c).pins.resetLow = s.pins.resetLow ∧
    (State.failCopy s c).pins.frozen = s.pins.frozen := by
  unfold State.failCopy
  (repeat' split) <;> simp [State.closeBand_frame _, State.programCopy_frame _, State.queueRetire_frame _,
      State.raise_frame _]

theorem State.setImage_frame (s : State) (mpn : Nat) (unit : Nat) : KeepsBase s (State.setImage s mpn unit) ∧
    KeepsNotes s (State.setImage s mpn unit) ∧ KeepsSpace s (State.setImage s mpn unit) ∧ (State.setImage s mpn
    unit).media = s.media ∧ KeepsHost s (State.setImage s mpn unit) ∧ KeepsChip s (State.setImage s mpn unit) := by
  unfold State.setImage
  dsimp only
  (repeat' split) <;> simp [State.bumpBand_frame _]

theorem State.programImage_frame (s : State) (mpn : Nat) (seq : DWord) (r : Nat × State) (h : s.programImage mpn seq =
    some r) : KeepsBase s r.2 ∧ r.2.free = s.free ∧ r.2.out = s.out ∧ r.2.stat = s.stat ∧ r.2.evlog = s.evlog ∧
    KeepsSpace s r.2 ∧ r.2.map = s.map ∧ KeepsHost s r.2 ∧ KeepsChip s r.2 := by
  unfold State.programImage at h
  dsimp only at h
  split at h
  · rename_i hs
    have := State.programStripe_frame _ _ _ _ _ hs
    obtain rfl := Option.some.inj h
    simpa [State.programStripe_frame _] using this
  · cases h

theorem State.moveImages_frame (s : State) (num : Nat) : KeepsBase s (State.moveImages s num) ∧
    (State.moveImages s num).free = s.free ∧ (State.moveImages s num).out = s.out ∧ (State.moveImages s num).stat =
    s.stat ∧ (State.moveImages s num).evlog = s.evlog ∧ KeepsSpace s (State.moveImages s num) ∧ KeepsHost s
    (State.moveImages s num) ∧ KeepsChip s (State.moveImages s num) := by
  unfold State.moveImages
  refine foldl_rel (P := fun s t => KeepsBase s t ∧ t.free = s.free ∧ t.out = s.out ∧ t.stat = s.stat ∧ t.evlog =
      s.evlog ∧ KeepsSpace s t ∧ KeepsHost s t ∧ KeepsChip s t) (by simp [State.programImage_frame _, State.setImage_frame _]) (by intro a b c h1 h2; simp_all [State.programImage_frame _, State.setImage_frame _]) _ ?_ _ _
  intro s e
  split
  · rename_i h
    have := State.programImage_frame _ _ _ _ h
    simp_all [State.programImage_frame _, State.setImage_frame _]
  · simp [State.programImage_frame _, State.setImage_frame _]

theorem State.takeVictim_frame (s : State) (num : Nat) : KeepsBase s (State.takeVictim s num) ∧ KeepsSpace s
    (State.takeVictim s num) ∧ (State.takeVictim s num).cmds = s.cmds ∧ (State.takeVictim s num).pools = s.pools ∧
    KeepsChip s (State.takeVictim s num) := by
  unfold State.takeVictim
  (repeat' split) <;> simp [State.copyUnits_frame _, State.moveImages_frame _, State.setBand_frame _]

end Sys2Proof.Machine
end

