-- ==== Sys2Proof/Laws/FramesHerd.lean ====
section
/-! SUPPORT. What the functions of reading, deferred errors, namespaces and the herd leave unchanged: one lemma for each, which lists the parts of the
state that it keeps. -/

namespace Sys2Proof.Machine

open Sys2Proof

set_option linter.all false

/-! ## Machine/Read -/

theorem State.sysWrite_frame (s : State) (nsid : Nat) (blocks : List (Nat × List Byte × BitVec 128)) : KeepsBase
    s (State.sysWrite s nsid blocks) ∧ (State.sysWrite s nsid blocks).free = s.free ∧ (State.sysWrite s nsid blocks).out
    = s.out ∧ (State.sysWrite s nsid blocks).stat = s.stat ∧ (State.sysWrite s nsid blocks).evlog = s.evlog ∧
    (State.sysWrite s nsid blocks).deferred = s.deferred ∧ (State.sysWrite s nsid blocks).power = s.power ∧
    (State.sysWrite s nsid blocks).herd = s.herd ∧ KeepsStore s (State.sysWrite s nsid blocks) ∧ KeepsHost s
    (State.sysWrite s nsid blocks) ∧ KeepsChip s (State.sysWrite s nsid blocks) := by
  unfold State.sysWrite
  (repeat' split) <;> simp [State.setNs_frame _, State.takeStamps_frame _]

theorem State.noteRead_frame (s : State) (nsid : Nat) (unit : Nat) (g : Got) : KeepsBase s (State.noteRead s
    nsid unit g) ∧ KeepsSpace s (State.noteRead s nsid unit g) ∧ (State.noteRead s nsid unit g).cmds = s.cmds ∧
    (State.noteRead s nsid unit g).pools = s.pools ∧ (State.noteRead s nsid unit g).boot = s.boot ∧ (State.noteRead s
    nsid unit g).pins.resetLow = s.pins.resetLow ∧ (State.noteRead s nsid unit g).pins.frozen = s.pins.frozen := by
  unfold State.noteRead
  dsimp only
  (repeat' split) <;> simp [State.countVia_frame _, State.loseStripe_frame _, State.noteDeep_frame _,
      State.relocate_frame _]

theorem countRead_frame (s : State) (e : Nat × Option Codeword) : KeepsBase s (countRead s e) ∧ (countRead s
    e).free = s.free ∧ (countRead s e).evlog = s.evlog ∧ KeepsSpace s (countRead s e) ∧ KeepsStore s (countRead s e) ∧
    KeepsHost s (countRead s e) ∧ KeepsChip s (countRead s e) := by
  unfold countRead
  split <;> simp [State.countVia_frame _]

theorem State.readAround_frame (s : State) (nsid : Nat) (n : Namespace) (addr : Nat) (lbas : List Nat) :
    KeepsBase s (State.readAround s nsid n addr lbas).2 ∧ (State.readAround s nsid n addr lbas).2.evlog = s.evlog ∧
    KeepsSpace s (State.readAround s nsid n addr lbas).2 ∧ KeepsStore s (State.readAround s nsid n addr lbas).2 ∧
    KeepsHost s (State.readAround s nsid n addr lbas).2 ∧ KeepsChip s (State.readAround s nsid n addr lbas).2 := by
  unfold State.readAround
  split
  · simp [State.count_frame _, State.takeFree_frame _, countRead_frame _]
  · dsimp only
    (repeat' split) <;> simp [State.count_frame _, State.takeFree_frame _, countRead_frame _]

theorem State.readArounds_frame (s : State) (nsid : Nat) (n : Namespace) (dclass : Nat) (slba : Nat) (nlb : Nat)
    : KeepsBase s (State.readArounds s nsid n dclass slba nlb).2 ∧ (State.readArounds s nsid n dclass slba nlb).2.evlog
    = s.evlog ∧ KeepsSpace s (State.readArounds s nsid n dclass slba nlb).2 ∧ KeepsStore s (State.readArounds s nsid n
    dclass slba nlb).2 ∧ KeepsHost s (State.readArounds s nsid n dclass slba nlb).2 ∧ KeepsChip s (State.readArounds s
    nsid n dclass slba nlb).2 := by
  unfold State.readArounds
  split
  · simp [State.readAround_frame _]
  · refine foldl_snd (P := fun s t => KeepsBase s t ∧ t.evlog = s.evlog ∧ KeepsSpace s t ∧ KeepsStore s t ∧ KeepsHost s
      t ∧ KeepsChip s t) (by simp [State.readAround_frame _]) (by intro a b c h1 h2; simp_all [State.readAround_frame _]) _ ?_ _ _
    intro r u
    dsimp only
    (repeat' split) <;> simp [State.readAround_frame _]

/-! ## Machine/Deferred -/

theorem State.setDef_frame (s : State) (i : Nat) (e : DefEntry) : KeepsBase s (State.setDef s i e) ∧ KeepsNotes
    s (State.setDef s i e) ∧ (State.setDef s i e).nss = s.nss ∧ (State.setDef s i e).power = s.power ∧ (State.setDef s i
    e).herd = s.herd ∧ KeepsStore s (State.setDef s i e) ∧ KeepsHost s (State.setDef s i e) ∧ KeepsChip s (State.setDef
    s i e) := by
  simp [State.setDef]

theorem State.raiseDeferred_frame (s : State) (nsid : Nat) (herd : Nat) (cause : Nat) (slba : Nat) (nlb : Nat) :
    KeepsBase s (State.raiseDeferred s nsid herd cause slba nlb) ∧ (State.raiseDeferred s nsid herd cause slba nlb).free
    = s.free ∧ (State.raiseDeferred s nsid herd cause slba nlb).evlog = s.evlog ∧ (State.raiseDeferred s nsid herd cause
    slba nlb).nss = s.nss ∧ (State.raiseDeferred s nsid herd cause slba nlb).power = s.power ∧ (State.raiseDeferred s
    nsid herd cause slba nlb).herd = s.herd ∧ KeepsStore s (State.raiseDeferred s nsid herd cause slba nlb) ∧
    (State.raiseDeferred s nsid herd cause slba nlb).cmds = s.cmds ∧ (State.raiseDeferred s nsid herd cause slba
    nlb).pools = s.pools ∧ KeepsChip s (State.raiseDeferred s nsid herd cause slba nlb) := by
  unfold State.raiseDeferred
  dsimp only
  (repeat' split) <;> simp [State.raiseNs_frame _, State.raise_frame _, State.setDef_frame _, State.takeStamps_frame _]

theorem State.closeDef_frame (s : State) (i : Nat) (st : DefState) : KeepsBase s (State.closeDef s i st) ∧
    (State.closeDef s i st).free = s.free ∧ (State.closeDef s i st).out = s.out ∧ (State.closeDef s i st).stat = s.stat
    ∧ (State.closeDef s i st).evlog = s.evlog ∧ (State.closeDef s i st).nss = s.nss ∧ (State.closeDef s i st).power =
    s.power ∧ (State.closeDef s i st).herd = s.herd ∧ KeepsStore s (State.closeDef s i st) ∧ KeepsHost s (State.closeDef
    s i st) ∧ KeepsChip s (State.closeDef s i st) := by
  unfold State.closeDef
  (repeat' split) <;> simp [State.setDef_frame _, State.takeStamps_frame _]

theorem State.noteRedone_frame (s : State) (nsid : Nat) (slba : Nat) (nlb : Nat) : KeepsBase s (State.noteRedone
    s nsid slba nlb) ∧ KeepsNotes s (State.noteRedone s nsid slba nlb) ∧ (State.noteRedone s nsid slba nlb).nss = s.nss
    ∧ (State.noteRedone s nsid slba nlb).power = s.power ∧ (State.noteRedone s nsid slba nlb).herd = s.herd ∧ KeepsStore
    s (State.noteRedone s nsid slba nlb) ∧ KeepsHost s (State.noteRedone s nsid slba nlb) ∧ KeepsChip s
    (State.noteRedone s nsid slba nlb) := by
  simp [State.noteRedone]

theorem State.settleDeferred_frame (s : State) (nsid : Nat) (busy : Nat → Nat → Bool) : KeepsBase s
    (State.settleDeferred s nsid busy) ∧ (State.settleDeferred s nsid busy).free = s.free ∧ (State.settleDeferred s nsid
    busy).out = s.out ∧ (State.settleDeferred s nsid busy).stat = s.stat ∧ (State.settleDeferred s nsid busy).evlog =
    s.evlog ∧ (State.settleDeferred s nsid busy).nss = s.nss ∧ (State.settleDeferred s nsid busy).power = s.power ∧
    (State.settleDeferred s nsid busy).herd = s.herd ∧ KeepsStore s (State.settleDeferred s nsid busy) ∧ KeepsHost s
    (State.settleDeferred s nsid busy) ∧ KeepsChip s (State.settleDeferred s nsid busy) := by
  unfold State.settleDeferred
  (repeat' split) <;> simp (disch := (intros; (repeat' split) <;> simp [*, State.closeDef_frame _])) [State.closeDef_frame _]

theorem State.loseDeferred_frame (s : State) (nsid : Nat) (slba : Nat) (nlb : Nat) : KeepsBase s
    (State.loseDeferred s nsid slba nlb) ∧ KeepsNotes s (State.loseDeferred s nsid slba nlb) ∧ (State.loseDeferred s
    nsid slba nlb).nss = s.nss ∧ (State.loseDeferred s nsid slba nlb).power = s.power ∧ (State.loseDeferred s nsid slba
    nlb).herd = s.herd ∧ KeepsStore s (State.loseDeferred s nsid slba nlb) ∧ KeepsHost s (State.loseDeferred s nsid slba
    nlb) ∧ KeepsChip s (State.loseDeferred s nsid slba nlb) := by
  simp [State.loseDeferred]

theorem State.freeDeferred_frame (s : State) (nsid : Nat) : KeepsBase s (State.freeDeferred s nsid) ∧ KeepsNotes
    s (State.freeDeferred s nsid) ∧ (State.freeDeferred s nsid).nss = s.nss ∧ (State.freeDeferred s nsid).power =
    s.power ∧ (State.freeDeferred s nsid).herd = s.herd ∧ KeepsStore s (State.freeDeferred s nsid) ∧ KeepsHost s
    (State.freeDeferred s nsid) ∧ KeepsChip s (State.freeDeferred s nsid) := by
  simp [State.freeDeferred]

/-! ## Machine/Spaces -/

theorem State.noteTrim_frame (s : State) (nsid : Nat) (n : Namespace) (u : Nat) (bs : List Nat) : KeepsBase s
    (State.noteTrim s nsid n u bs) ∧ KeepsNotes s (State.noteTrim s nsid n u bs) ∧ (State.noteTrim s nsid n u bs).nss =
    s.nss ∧ (State.noteTrim s nsid n u bs).deferred = s.deferred ∧ (State.noteTrim s nsid n u bs).herd = s.herd ∧
    KeepsStore s (State.noteTrim s nsid n u bs) ∧ KeepsHost s (State.noteTrim s nsid n u bs) ∧ KeepsChip s
    (State.noteTrim s nsid n u bs) := by
  unfold State.noteTrim
  dsimp only
  (repeat' split) <;> simp

theorem State.trimUnit_frame (s : State) (nsid : Nat) (n : Namespace) (u : Nat) : KeepsBase s (State.trimUnit s
    nsid n u) ∧ KeepsNotes s (State.trimUnit s nsid n u) ∧ (State.trimUnit s nsid n u).nss = s.nss ∧ (State.trimUnit s
    nsid n u).deferred = s.deferred ∧ (State.trimUnit s nsid n u).herd = s.herd ∧ (State.trimUnit s nsid n u).media =
    s.media ∧ KeepsHost s (State.trimUnit s nsid n u) ∧ KeepsChip s (State.trimUnit s nsid n u) := by
  simp [State.trimUnit, State.mapSet_frame _, State.noteTrim_frame _, State.unstage_frame _]

theorem State.trimPart_frame (s : State) (nsid : Nat) (n : Namespace) (u : Nat) (bs : List Nat) : KeepsBase s
    (State.trimPart s nsid n u bs) ∧ (State.trimPart s nsid n u bs).nss = s.nss ∧ (State.trimPart s nsid n u
    bs).deferred = s.deferred ∧ (State.trimPart s nsid n u bs).herd = s.herd ∧ (State.trimPart s nsid n u bs).cmds =
    s.cmds ∧ (State.trimPart s nsid n u bs).pools = s.pools ∧ KeepsChip s (State.trimPart s nsid n u bs) := by
  simp [State.trimPart, State.gatherUnit_frame _, State.noteTrim_frame _, State.setStage_frame _]

theorem State.trimRange_frame (s : State) (nsid : Nat) (slba : Nat) (nlb : Nat) : KeepsBase s (State.trimRange s
    nsid slba nlb) ∧ (State.trimRange s nsid slba nlb).nss = s.nss ∧ (State.trimRange s nsid slba nlb).deferred =
    s.deferred ∧ (State.trimRange s nsid slba nlb).herd = s.herd ∧ (State.trimRange s nsid slba nlb).cmds = s.cmds ∧
    (State.trimRange s nsid slba nlb).pools = s.pools ∧ KeepsChip s (State.trimRange s nsid slba nlb) := by
  unfold State.trimRange
  (repeat' split) <;> first | (simp [State.trimPart_frame _, State.trimUnit_frame _]; done) | exact foldl_rel (P := fun s t : State => KeepsBase s t ∧ t.nss = s.nss ∧ t.deferred = s.deferred ∧ t.herd = s.herd ∧ t.cmds = s.cmds ∧ t.pools = s.pools ∧ KeepsChip s t) (by simp [State.trimPart_frame _, State.trimUnit_frame _]) (by intro a b c h1 h2; simp_all [State.trimPart_frame _, State.trimUnit_frame _]) _ (by intro s x; dsimp only; (repeat' split) <;> simp [State.trimPart_frame _, State.trimUnit_frame _]) _ _

theorem State.emptyPage_frame (s : State) (mpn : Nat) : KeepsBase s (State.emptyPage s mpn) ∧ KeepsNotes s
    (State.emptyPage s mpn) ∧ KeepsSpace s (State.emptyPage s mpn) ∧ (State.emptyPage s mpn).media = s.media ∧ KeepsHost
    s (State.emptyPage s mpn) ∧ KeepsChip s (State.emptyPage s mpn) := by
  unfold State.emptyPage
  dsimp only
  (repeat' split) <;> simp [State.bumpBand_frame _]

theorem State.dropUnits_frame (s : State) (nsid : Nat) (n : Namespace) (us : List Nat) : KeepsBase s
    (State.dropUnits s nsid n us) ∧ KeepsNotes s (State.dropUnits s nsid n us) ∧ (State.dropUnits s nsid n us).nss =
    s.nss ∧ (State.dropUnits s nsid n us).deferred = s.deferred ∧ (State.dropUnits s nsid n us).herd = s.herd ∧
    (State.dropUnits s nsid n us).media = s.media ∧ KeepsHost s (State.dropUnits s nsid n us) ∧ KeepsChip s
    (State.dropUnits s nsid n us) := by
  unfold State.dropUnits
  exact foldl_rel (P := fun s t : State => KeepsBase s t ∧ KeepsNotes s t ∧ t.nss = s.nss ∧ t.deferred = s.deferred ∧ t.herd = s.herd ∧ t.media = s.media ∧ KeepsHost s t ∧ KeepsChip s t) (by simp [State.bumpBand_frame _, State.noteTrim_frame _, State.unstage_frame _]) (by intro a b c h1 h2; simp_all [State.bumpBand_frame _, State.noteTrim_frame _, State.unstage_frame _]) _ (by intro s x; dsimp only; (repeat' split) <;> simp [State.bumpBand_frame _, State.noteTrim_frame _, State.unstage_frame _]) _ _

theorem State.deleteNs_frame (s : State) (nsid : Nat) : KeepsBase s (State.deleteNs s nsid) ∧ (State.deleteNs s
    nsid).media = s.media ∧ (State.deleteNs s nsid).cmds = s.cmds ∧ (State.deleteNs s nsid).pools = s.pools ∧
    (State.deleteNs s nsid).boot = s.boot ∧ (State.deleteNs s nsid).pins.resetLow = s.pins.resetLow ∧ (State.deleteNs s
    nsid).pins.frozen = s.pins.frozen := by
  unfold State.deleteNs
  (repeat' split) <;> simp [State.dropUnits_frame _, State.emptyPage_frame _, State.freeDeferred_frame _,
      State.reviewFences_frame _]

theorem State.addNs_frame (s : State) (nsid : Nat) (n : Namespace) (tag : Option Half) : KeepsBase s
    (State.addNs s nsid n tag) ∧ (State.addNs s nsid n tag).deferred = s.deferred ∧ (State.addNs s nsid n tag).power =
    s.power ∧ (State.addNs s nsid n tag).herd = s.herd ∧ (State.addNs s nsid n tag).map = s.map ∧ (State.addNs s nsid n
    tag).media = s.media ∧ (State.addNs s nsid n tag).cmds = s.cmds ∧ (State.addNs s nsid n tag).pools = s.pools ∧
    (State.addNs s nsid n tag).boot = s.boot ∧ (State.addNs s nsid n tag).pins.resetLow = s.pins.resetLow ∧ (State.addNs
    s nsid n tag).pins.frozen = s.pins.frozen := by
  unfold State.addNs
  (repeat' split) <;> simp [State.followCapacity_frame _, State.setNs_frame _]

/-! ## Machine/Herd -/

theorem State.setLink_frame (s : State) (peer : Nat) (l : Link) : KeepsBase s (State.setLink s peer l) ∧
    KeepsNotes s (State.setLink s peer l) ∧ (State.setLink s peer l).nss = s.nss ∧ (State.setLink s peer l).deferred =
    s.deferred ∧ (State.setLink s peer l).power = s.power ∧ KeepsStore s (State.setLink s peer l) ∧ KeepsHost s
    (State.setLink s peer l) ∧ KeepsChip s (State.setLink s peer l) := by
  simp [State.setLink]

theorem State.sendReliable_frame (s : State) (peer : Nat) (b : FrameBody) : KeepsBase s (State.sendReliable s
    peer b) ∧ (State.sendReliable s peer b).free = s.free ∧ (State.sendReliable s peer b).regs = s.regs ∧
    (State.sendReliable s peer b).stat = s.stat ∧ (State.sendReliable s peer b).evlog = s.evlog ∧ (State.sendReliable s
    peer b).nss = s.nss ∧ (State.sendReliable s peer b).deferred = s.deferred ∧ (State.sendReliable s peer b).power =
    s.power ∧ KeepsStore s (State.sendReliable s peer b) ∧ KeepsHost s (State.sendReliable s peer b) ∧ KeepsChip s
    (State.sendReliable s peer b) := by
  unfold State.sendReliable
  dsimp only
  (repeat' split) <;> simp [State.emit_frame _, State.setLink_frame _]

theorem State.sendWaiting_frame (x1 : Nat) (x2 : State) (x3 : Nat) : KeepsBase x2 (State.sendWaiting x1 x2 x3) ∧
    (State.sendWaiting x1 x2 x3).free = x2.free ∧ (State.sendWaiting x1 x2 x3).regs = x2.regs ∧ (State.sendWaiting x1 x2
    x3).stat = x2.stat ∧ (State.sendWaiting x1 x2 x3).evlog = x2.evlog ∧ (State.sendWaiting x1 x2 x3).nss = x2.nss ∧
    (State.sendWaiting x1 x2 x3).deferred = x2.deferred ∧ (State.sendWaiting x1 x2 x3).power = x2.power ∧ KeepsStore x2
    (State.sendWaiting x1 x2 x3) ∧ KeepsHost x2 (State.sendWaiting x1 x2 x3) ∧ KeepsChip x2 (State.sendWaiting x1 x2 x3)
    := by
  induction x1 generalizing x2 with
  | zero => simp [State.sendWaiting, State.emit_frame _, State.setLink_frame _]
  | succ n ih =>
    unfold State.sendWaiting
    dsimp only
    (repeat' split) <;> simp [ih, State.emit_frame _, State.setLink_frame _]

theorem State.sendUnreliable_frame (s : State) (plane : Nat) (peer : Nat) (b : FrameBody) : KeepsBase s
    (State.sendUnreliable s plane peer b) ∧ (State.sendUnreliable s plane peer b).free = s.free ∧ (State.sendUnreliable
    s plane peer b).regs = s.regs ∧ (State.sendUnreliable s plane peer b).stat = s.stat ∧ (State.sendUnreliable s plane
    peer b).evlog = s.evlog ∧ (State.sendUnreliable s plane peer b).nss = s.nss ∧ (State.sendUnreliable s plane peer
    b).deferred = s.deferred ∧ (State.sendUnreliable s plane peer b).power = s.power ∧ KeepsStore s
    (State.sendUnreliable s plane peer b) ∧ KeepsHost s (State.sendUnreliable s plane peer b) ∧ KeepsChip s
    (State.sendUnreliable s plane peer b) := by
  simp [State.sendUnreliable, State.emit_frame _, State.setLink_frame _]

theorem State.closeLink_frame (s : State) (peer : Nat) : KeepsBase s (State.closeLink s peer) ∧ KeepsNotes s
    (State.closeLink s peer) ∧ (State.closeLink s peer).nss = s.nss ∧ (State.closeLink s peer).deferred = s.deferred ∧
    (State.closeLink s peer).power = s.power ∧ KeepsStore s (State.closeLink s peer) ∧ KeepsHost s (State.closeLink s
    peer) ∧ KeepsChip s (State.closeLink s peer) := by
  simp [State.closeLink, State.setLink_frame _]

theorem State.closeLinks_frame (s : State) : KeepsBase s (State.closeLinks s) ∧ KeepsNotes s (State.closeLinks
    s) ∧ (State.closeLinks s).nss = s.nss ∧ (State.closeLinks s).deferred = s.deferred ∧ (State.closeLinks s).power =
    s.power ∧ KeepsStore s (State.closeLinks s) ∧ KeepsHost s (State.closeLinks s) ∧ KeepsChip s (State.closeLinks s) :=
    by
  simp [State.closeLinks, State.closeLink_frame _]

theorem State.followHerd_frame (s : State) : KeepsBase s (State.followHerd s) ∧ KeepsSpace s (State.followHerd
    s) ∧ KeepsStore s (State.followHerd s) ∧ (State.followHerd s).cmds = s.cmds ∧ (State.followHerd s).pools = s.pools ∧
    (State.followHerd s).boot = s.boot ∧ (State.followHerd s).pins.resetLow = s.pins.resetLow ∧ (State.followHerd
    s).pins.frozen = s.pins.frozen := by
  simp [State.followHerd, State.reason_frame _]

theorem State.peerDown_frame (s : State) (peer : Nat) : KeepsBase s (State.peerDown s peer) ∧ (State.peerDown s
    peer).nss = s.nss ∧ (State.peerDown s peer).deferred = s.deferred ∧ (State.peerDown s peer).power = s.power ∧
    KeepsStore s (State.peerDown s peer) ∧ (State.peerDown s peer).cmds = s.cmds ∧ (State.peerDown s peer).pools =
    s.pools ∧ (State.peerDown s peer).boot = s.boot ∧ (State.peerDown s peer).pins.resetLow = s.pins.resetLow ∧
    (State.peerDown s peer).pins.frozen = s.pins.frozen := by
  unfold State.peerDown
  dsimp only
  (repeat' split) <;> simp [State.closeLink_frame _, State.followHerd_frame _, State.raiseRecord_frame _,
      State.setLink_frame _]

theorem State.freshen_frame (s : State) (peer : Nat) (epoch : Nat) : KeepsBase s (State.freshen s peer epoch) ∧
    KeepsNotes s (State.freshen s peer epoch) ∧ (State.freshen s peer epoch).nss = s.nss ∧ (State.freshen s peer
    epoch).deferred = s.deferred ∧ (State.freshen s peer epoch).power = s.power ∧ KeepsStore s (State.freshen s peer
    epoch) ∧ KeepsHost s (State.freshen s peer epoch) ∧ KeepsChip s (State.freshen s peer epoch) := by
  unfold State.freshen
  dsimp only
  (repeat' split) <;> simp [State.setLink_frame _]

theorem State.createJob_frame (s : State) (hkey : Nat) (k : Nat) (h : Nat) : KeepsBase s (State.createJob s hkey
    k h) ∧ KeepsNotes s (State.createJob s hkey k h) ∧ (State.createJob s hkey k h).nss = s.nss ∧ (State.createJob s
    hkey k h).deferred = s.deferred ∧ (State.createJob s hkey k h).power = s.power ∧ KeepsStore s (State.createJob s
    hkey k h) ∧ KeepsHost s (State.createJob s hkey k h) ∧ KeepsChip s (State.createJob s hkey k h) := by
  unfold State.createJob
  (repeat' split) <;> simp

theorem State.createJobs_frame (s : State) (nsid : Nat) (slba : Nat) (nlb : Nat) : KeepsBase s (State.createJobs
    s nsid slba nlb) ∧ KeepsNotes s (State.createJobs s nsid slba nlb) ∧ (State.createJobs s nsid slba nlb).nss = s.nss
    ∧ (State.createJobs s nsid slba nlb).power = s.power ∧ KeepsStore s (State.createJobs s nsid slba nlb) ∧ KeepsHost s
    (State.createJobs s nsid slba nlb) ∧ KeepsChip s (State.createJobs s nsid slba nlb) := by
  unfold State.createJobs
  (repeat' split) <;> simp [State.createJob_frame _, State.noteRedone_frame _]

theorem State.sendFragment_frame (s : State) (peer : Nat) (type : Nat) (op : OpHdr) (syms : List Symbol) :
    KeepsBase s (State.sendFragment s peer type op syms) ∧ (State.sendFragment s peer type op syms).free = s.free ∧
    (State.sendFragment s peer type op syms).regs = s.regs ∧ (State.sendFragment s peer type op syms).stat = s.stat ∧
    (State.sendFragment s peer type op syms).evlog = s.evlog ∧ (State.sendFragment s peer type op syms).nss = s.nss ∧
    (State.sendFragment s peer type op syms).deferred = s.deferred ∧ (State.sendFragment s peer type op syms).power =
    s.power ∧ KeepsStore s (State.sendFragment s peer type op syms) ∧ KeepsHost s (State.sendFragment s peer type op
    syms) ∧ KeepsChip s (State.sendFragment s peer type op syms) := by
  simp [State.sendFragment, State.sendReliable_frame _]

theorem State.noteMiss_frame (s : State) (peer : Nat) (hkey : Nat) (k : Nat) (h : Nat) : KeepsBase s
    (State.noteMiss s peer hkey k h) ∧ KeepsNotes s (State.noteMiss s peer hkey k h) ∧ (State.noteMiss s peer hkey k
    h).nss = s.nss ∧ (State.noteMiss s peer hkey k h).deferred = s.deferred ∧ (State.noteMiss s peer hkey k h).power =
    s.power ∧ KeepsStore s (State.noteMiss s peer hkey k h) ∧ KeepsHost s (State.noteMiss s peer hkey k h) ∧ KeepsChip s
    (State.noteMiss s peer hkey k h) := by
  simp [State.noteMiss]

theorem State.sendDiscard_frame (s : State) (peer : Nat) (op : OpHdr) : KeepsBase s (State.sendDiscard s peer
    op) ∧ (State.sendDiscard s peer op).free = s.free ∧ (State.sendDiscard s peer op).regs = s.regs ∧ (State.sendDiscard
    s peer op).stat = s.stat ∧ (State.sendDiscard s peer op).evlog = s.evlog ∧ (State.sendDiscard s peer op).nss = s.nss
    ∧ (State.sendDiscard s peer op).deferred = s.deferred ∧ (State.sendDiscard s peer op).power = s.power ∧ KeepsStore s
    (State.sendDiscard s peer op) ∧ KeepsHost s (State.sendDiscard s peer op) ∧ KeepsChip s (State.sendDiscard s peer
    op) := by
  unfold State.sendDiscard
  (repeat' split) <;> simp [State.sendReliable_frame _]

theorem State.sendStripe_frame (s : State) (p : Placement) (hkey : Nat) (h : Nat) (epoch : Nat) (seq : DWord)
    (units : List (List Symbol)) : KeepsBase s (State.sendStripe s p hkey h epoch seq units) ∧ (State.sendStripe s p
    hkey h epoch seq units).free = s.free ∧ (State.sendStripe s p hkey h epoch seq units).regs = s.regs ∧
    (State.sendStripe s p hkey h epoch seq units).stat = s.stat ∧ (State.sendStripe s p hkey h epoch seq units).evlog =
    s.evlog ∧ (State.sendStripe s p hkey h epoch seq units).nss = s.nss ∧ (State.sendStripe s p hkey h epoch seq
    units).deferred = s.deferred ∧ (State.sendStripe s p hkey h epoch seq units).power = s.power ∧ KeepsStore s
    (State.sendStripe s p hkey h epoch seq units) ∧ KeepsHost s (State.sendStripe s p hkey h epoch seq units) ∧
    KeepsChip s (State.sendStripe s p hkey h epoch seq units) := by
  unfold State.sendStripe
  (repeat' split) <;> simp (disch := (intros; (repeat' split) <;> simp [*, State.noteMiss_frame _, State.sendFragment_frame _])) [State.noteMiss_frame _, State.sendFragment_frame _]

theorem State.loseHerdUnits_frame (s : State) (nsid : Nat) (n : Namespace) (job : Nat) (k : Nat) (h : Nat) :
    KeepsBase s (State.loseHerdUnits s nsid n job k h) ∧ (State.loseHerdUnits s nsid n job k h).nss = s.nss ∧
    (State.loseHerdUnits s nsid n job k h).power = s.power ∧ (State.loseHerdUnits s nsid n job k h).media = s.media ∧
    (State.loseHerdUnits s nsid n job k h).cmds = s.cmds ∧ (State.loseHerdUnits s nsid n job k h).pools = s.pools ∧
    (State.loseHerdUnits s nsid n job k h).boot = s.boot ∧ (State.loseHerdUnits s nsid n job k h).pins.resetLow =
    s.pins.resetLow ∧ (State.loseHerdUnits s nsid n job k h).pins.frozen = s.pins.frozen := by
  unfold State.loseHerdUnits
  dsimp only
  (repeat' split) <;> simp [State.followHerd_frame _, State.loseDeferred_frame _, State.loseRun_frame _,
      State.raiseDeferred_frame _]

theorem State.startJob_frame (s : State) (job : Nat) : KeepsBase s (State.startJob s job) ∧ (State.startJob s
    job).nss = s.nss ∧ (State.startJob s job).power = s.power ∧ (State.startJob s job).media = s.media ∧ (State.startJob
    s job).cmds = s.cmds ∧ (State.startJob s job).pools = s.pools ∧ (State.startJob s job).boot = s.boot ∧
    (State.startJob s job).pins.resetLow = s.pins.resetLow ∧ (State.startJob s job).pins.frozen = s.pins.frozen := by
  unfold State.startJob
  dsimp only
  (repeat' split) <;> simp [State.loseHerdUnits_frame _, State.sendStripe_frame _, State.takeStamps_frame _]

theorem State.endReconcile_frame (s : State) : KeepsBase s (State.endReconcile s) ∧ (State.endReconcile s).nss =
    s.nss ∧ (State.endReconcile s).deferred = s.deferred ∧ (State.endReconcile s).power = s.power ∧ KeepsStore s
    (State.endReconcile s) ∧ KeepsHost s (State.endReconcile s) ∧ KeepsChip s (State.endReconcile s) := by
  unfold State.endReconcile
  exact foldl_rel (P := fun s t : State => KeepsBase s t ∧ t.nss = s.nss ∧ t.deferred = s.deferred ∧ t.power = s.power ∧ KeepsStore s t ∧ KeepsHost s t ∧ KeepsChip s t) (by simp [State.raiseRecord_frame _, State.setLink_frame _]) (by intro a b c h1 h2; simp_all [State.raiseRecord_frame _, State.setLink_frame _]) _ (by intro s x; dsimp only; (repeat' split) <;> simp [State.raiseRecord_frame _, State.setLink_frame _]) _ _

theorem State.finishJob_frame (s : State) (job : Nat) (j : Job) : KeepsBase s (State.finishJob s job j) ∧
    (State.finishJob s job j).nss = s.nss ∧ (State.finishJob s job j).power = s.power ∧ KeepsStore s (State.finishJob s
    job j) ∧ (State.finishJob s job j).cmds = s.cmds ∧ (State.finishJob s job j).pools = s.pools ∧ (State.finishJob s
    job j).boot = s.boot ∧ (State.finishJob s job j).pins.resetLow = s.pins.resetLow ∧ (State.finishJob s job
    j).pins.frozen = s.pins.frozen := by
  unfold State.finishJob
  dsimp only
  (repeat' split) <;> simp [State.endReconcile_frame _, State.followHerd_frame _, State.settleDeferred_frame _]

theorem State.askFragment_frame (s : State) (peer : Nat) (hkey : Nat) (k : Nat) (h : Nat) (j : Nat) : KeepsBase
    s (State.askFragment s peer hkey k h j) ∧ (State.askFragment s peer hkey k h j).free = s.free ∧ (State.askFragment s
    peer hkey k h j).regs = s.regs ∧ (State.askFragment s peer hkey k h j).stat = s.stat ∧ (State.askFragment s peer
    hkey k h j).evlog = s.evlog ∧ (State.askFragment s peer hkey k h j).nss = s.nss ∧ (State.askFragment s peer hkey k h
    j).deferred = s.deferred ∧ (State.askFragment s peer hkey k h j).power = s.power ∧ KeepsStore s (State.askFragment s
    peer hkey k h j) ∧ KeepsHost s (State.askFragment s peer hkey k h j) ∧ KeepsChip s (State.askFragment s peer hkey k
    h j) := by
  simp [State.askFragment, State.sendReliable_frame _]

theorem State.herdUnit_frame (s : State) (p : Placement) (hkey : Nat) (nstag : Nat) (u : Nat) : KeepsBase s
    (State.herdUnit s p hkey nstag u).2 ∧ (State.herdUnit s p hkey nstag u).2.free = s.free ∧ (State.herdUnit s p hkey
    nstag u).2.regs = s.regs ∧ (State.herdUnit s p hkey nstag u).2.stat = s.stat ∧ (State.herdUnit s p hkey nstag
    u).2.evlog = s.evlog ∧ (State.herdUnit s p hkey nstag u).2.nss = s.nss ∧ (State.herdUnit s p hkey nstag
    u).2.deferred = s.deferred ∧ (State.herdUnit s p hkey nstag u).2.power = s.power ∧ KeepsStore s (State.herdUnit s p
    hkey nstag u).2 ∧ KeepsHost s (State.herdUnit s p hkey nstag u).2 ∧ KeepsChip s (State.herdUnit s p hkey nstag u).2
    := by
  unfold State.herdUnit
  dsimp only
  (repeat' split) <;> simp [State.askFragment_frame _]

theorem State.dropFetched_frame (s : State) (hkey : Nat) (k : Nat) (h : Nat) : KeepsBase s (State.dropFetched s
    hkey k h) ∧ KeepsNotes s (State.dropFetched s hkey k h) ∧ (State.dropFetched s hkey k h).nss = s.nss ∧
    (State.dropFetched s hkey k h).deferred = s.deferred ∧ (State.dropFetched s hkey k h).power = s.power ∧ KeepsStore s
    (State.dropFetched s hkey k h) ∧ KeepsHost s (State.dropFetched s hkey k h) ∧ KeepsChip s (State.dropFetched s hkey
    k h) := by
  simp [State.dropFetched]

theorem State.restoreUnit_frame (s : State) (nsid : Nat) (u : Nat) (syms : List Symbol) : KeepsBase s
    (State.restoreUnit s nsid u syms) ∧ (State.restoreUnit s nsid u syms).free = s.free ∧ (State.restoreUnit s nsid u
    syms).out = s.out ∧ (State.restoreUnit s nsid u syms).stat = s.stat ∧ (State.restoreUnit s nsid u syms).evlog =
    s.evlog ∧ KeepsSpace s (State.restoreUnit s nsid u syms) ∧ KeepsHost s (State.restoreUnit s nsid u syms) ∧ KeepsChip
    s (State.restoreUnit s nsid u syms) := by
  unfold State.restoreUnit
  split
  · simp [State.count_frame _, State.mapSet_frame _, State.programStripe_frame _, State.takeStamps_frame _]
  · dsimp only
    split
    · simp [State.count_frame _, State.mapSet_frame _, State.programStripe_frame _, State.takeStamps_frame _]
    · split
      · simp [State.count_frame _, State.mapSet_frame _, State.programStripe_frame _, State.takeStamps_frame _]
      · rename_i h
        have := State.programStripe_frame _ _ _ _ _ h
        simp_all [State.count_frame _, State.mapSet_frame _, State.programStripe_frame _, State.takeStamps_frame _]

/-! ## Machine/HerdMap -/

theorem State.followShape_frame (s : State) : KeepsBase s (State.followShape s) ∧ (State.followShape s).free =
    s.free ∧ (State.followShape s).regs = s.regs ∧ (State.followShape s).evlog = s.evlog ∧ (State.followShape s).nss =
    s.nss ∧ (State.followShape s).deferred = s.deferred ∧ (State.followShape s).power = s.power ∧ KeepsStore s
    (State.followShape s) ∧ KeepsHost s (State.followShape s) ∧ KeepsChip s (State.followShape s) := by
  unfold State.followShape
  dsimp only
  (repeat' split) <;> simp [State.raise_frame _]

theorem State.setHomed_frame (s : State) (nsid : Nat) (h : Homed) : KeepsBase s (State.setHomed s nsid h) ∧
    KeepsNotes s (State.setHomed s nsid h) ∧ (State.setHomed s nsid h).nss = s.nss ∧ (State.setHomed s nsid h).deferred
    = s.deferred ∧ (State.setHomed s nsid h).power = s.power ∧ KeepsStore s (State.setHomed s nsid h) ∧ KeepsHost s
    (State.setHomed s nsid h) ∧ KeepsChip s (State.setHomed s nsid h) := by
  simp [State.setHomed]

theorem State.startSweep_frame (s : State) (nsid : Nat) (h : Homed) (p : Placement) : KeepsBase s
    (State.startSweep s nsid h p) ∧ (State.startSweep s nsid h p).free = s.free ∧ (State.startSweep s nsid h p).regs =
    s.regs ∧ (State.startSweep s nsid h p).evlog = s.evlog ∧ (State.startSweep s nsid h p).nss = s.nss ∧
    (State.startSweep s nsid h p).deferred = s.deferred ∧ (State.startSweep s nsid h p).power = s.power ∧ KeepsStore s
    (State.startSweep s nsid h p) ∧ KeepsHost s (State.startSweep s nsid h p) ∧ KeepsChip s (State.startSweep s nsid h
    p) := by
  unfold State.startSweep
  dsimp only
  (repeat' split) <;> simp [State.raise_frame _, State.setHomed_frame _]

theorem State.dropDeposed_frame (s : State) (nsid : Nat) (n : Namespace) (newHome : Nat) : KeepsBase s
    (State.dropDeposed s nsid n newHome) ∧ (State.dropDeposed s nsid n newHome).media = s.media ∧ (State.dropDeposed s
    nsid n newHome).cmds = s.cmds ∧ (State.dropDeposed s nsid n newHome).pools = s.pools ∧ (State.dropDeposed s nsid n
    newHome).boot = s.boot ∧ (State.dropDeposed s nsid n newHome).pins.resetLow = s.pins.resetLow ∧ (State.dropDeposed s
    nsid n newHome).pins.frozen = s.pins.frozen := by
  simp [State.dropDeposed, State.deleteNs_frame _, State.followHerd_frame _, State.raiseRecord_frame _]

theorem State.depose_frame (s : State) (nsid : Nat) (newHome : Nat) : KeepsBase s (State.depose s nsid newHome)
    ∧ (State.depose s nsid newHome).media = s.media ∧ (State.depose s nsid newHome).cmds = s.cmds ∧ (State.depose s nsid
    newHome).pools = s.pools ∧ (State.depose s nsid newHome).boot = s.boot ∧ (State.depose s nsid newHome).pins.resetLow
    = s.pins.resetLow ∧ (State.depose s nsid newHome).pins.frozen = s.pins.frozen := by
  unfold State.depose
  (repeat' split) <;> simp [State.dropDeposed_frame _, State.setNs_frame _]

theorem reapNs_frame (s : State) (e : Nat × Namespace) : KeepsBase s (reapNs s e) ∧ (reapNs s e).media = s.media
    ∧ (reapNs s e).cmds = s.cmds ∧ (reapNs s e).pools = s.pools ∧ (reapNs s e).boot = s.boot ∧ (reapNs s
    e).pins.resetLow = s.pins.resetLow ∧ (reapNs s e).pins.frozen = s.pins.frozen := by
  unfold reapNs
  (repeat' split) <;> simp [State.dropDeposed_frame _]

theorem State.reapDeposed_frame (s : State) : KeepsBase s s.reapDeposed ∧ s.reapDeposed.media = s.media ∧
    s.reapDeposed.cmds = s.cmds ∧ s.reapDeposed.pools = s.pools ∧ s.reapDeposed.boot = s.boot ∧
    s.reapDeposed.pins.resetLow = s.pins.resetLow ∧ s.reapDeposed.pins.frozen = s.pins.frozen := by
  unfold State.reapDeposed
  simp [reapNs_frame _]

theorem State.evict_frame (s : State) : KeepsBase s (State.evict s) ∧ (State.evict s).media = s.media ∧
    (State.evict s).cmds = s.cmds ∧ (State.evict s).pools = s.pools ∧ (State.evict s).boot = s.boot ∧ (State.evict
    s).pins.resetLow = s.pins.resetLow ∧ (State.evict s).pins.frozen = s.pins.frozen := by
  simp [State.evict, State.closeLinks_frame _, State.depose_frame _, State.raise_frame _]

theorem State.homeConflict_frame (s : State) (data : List Byte) : KeepsBase s (State.homeConflict s data) ∧
    KeepsSpace s (State.homeConflict s data) ∧ KeepsStore s (State.homeConflict s data) ∧ KeepsHost s
    (State.homeConflict s data) ∧ KeepsChip s (State.homeConflict s data) := by
  simp [State.homeConflict, State.raiseRecord_frame _]

theorem State.discardBeyond_frame (s : State) (n : Namespace) (h : Homed) (size : Nat) : KeepsBase s
    (State.discardBeyond s n h size) ∧ (State.discardBeyond s n h size).free = s.free ∧ (State.discardBeyond s n h
    size).regs = s.regs ∧ (State.discardBeyond s n h size).stat = s.stat ∧ (State.discardBeyond s n h size).evlog =
    s.evlog ∧ (State.discardBeyond s n h size).nss = s.nss ∧ (State.discardBeyond s n h size).deferred = s.deferred ∧
    (State.discardBeyond s n h size).power = s.power ∧ KeepsStore s (State.discardBeyond s n h size) ∧ KeepsHost s
    (State.discardBeyond s n h size) ∧ KeepsChip s (State.discardBeyond s n h size) := by
  simp [State.discardBeyond, State.sendDiscard_frame _]

theorem State.createMapped_frame (s : State) (n : Namespace) (x : Option Half) (r : Nat × State) (h : s.createMapped n x
    = .ok r) : KeepsBase s r.2 ∧ r.2.deferred = s.deferred ∧ r.2.power = s.power ∧ r.2.herd = s.herd ∧ r.2.map = s.map ∧
    r.2.media = s.media ∧ r.2.cmds = s.cmds ∧ r.2.pools = s.pools ∧ r.2.boot = s.boot ∧ r.2.pins.resetLow =
    s.pins.resetLow ∧ r.2.pins.frozen = s.pins.frozen := by
  unfold State.createMapped at h
  generalize s.freeNsid false = o at h
  generalize s.freeExtents (extentsFor (n.size / 4)) = q at h
  cases o with
  | none => cases h
  | some nsid =>
    cases q with
    | none => cases h
    | some y =>
      dsimp only at h
      split at h
      · have e : _ = r.2 := congrArg Prod.snd (Except.ok.inj h)
        rw [← e]
        simp [State.addNs_frame _, State.followRedundancy_frame _]
      · cases h

theorem State.resizeNs_frame (s : State) (nsid size : Nat) (t : State) (h : s.resizeNs nsid size = some t) : KeepsBase s
    t ∧ t.deferred = s.deferred ∧ t.herd = s.herd ∧ t.media = s.media ∧ t.cmds = s.cmds ∧ t.pools = s.pools ∧ t.boot =
    s.boot ∧ t.pins.resetLow = s.pins.resetLow ∧ t.pins.frozen = s.pins.frozen := by
  unfold State.resizeNs at h
  split at h
  · cases h
  · dsimp only at h
    split at h
    · simp only [Option.map_eq_some_iff] at h
      obtain ⟨x, _, rfl⟩ := h
      simp [State.clearLost_frame _, State.dropUnits_frame _, State.emptyPage_frame _, State.followCapacity_frame _,
          State.reviewFences_frame _, State.setNs_frame _]
    · obtain rfl := Option.some.inj h
      simp [State.clearLost_frame _, State.dropUnits_frame _, State.emptyPage_frame _, State.followCapacity_frame _,
          State.reviewFences_frame _, State.setNs_frame _]

theorem State.followSize_frame (s : State) (nsid : Nat) (n : Namespace) (h : Homed) (size : Nat) : KeepsBase s
    (State.followSize s nsid n h size) ∧ (State.followSize s nsid n h size).media = s.media ∧ (State.followSize s nsid n
    h size).cmds = s.cmds ∧ (State.followSize s nsid n h size).pools = s.pools ∧ (State.followSize s nsid n h size).boot
    = s.boot ∧ (State.followSize s nsid n h size).pins.resetLow = s.pins.resetLow ∧ (State.followSize s nsid n h
    size).pins.frozen = s.pins.frozen := by
  have h (t : State) (ht : s.resizeNs nsid size = some t) := State.resizeNs_frame _ _ _ _ ht
  unfold State.followSize
  split
  · simp [State.createJobs_frame _, State.discardBeyond_frame _, State.homeConflict_frame _, State.resizeNs_frame _]
  · split
    · split
      · cases e : s.resizeNs nsid size with
        | none => simp [State.createJobs_frame _, State.discardBeyond_frame _, State.homeConflict_frame _,
            State.resizeNs_frame _]
        | some t =>
          have := h t e
          simp_all [State.createJobs_frame _, State.discardBeyond_frame _, State.homeConflict_frame _,
              State.resizeNs_frame _]
      · simp [State.createJobs_frame _, State.discardBeyond_frame _, State.homeConflict_frame _, State.resizeNs_frame _]
    · split
      · simp [State.createJobs_frame _, State.discardBeyond_frame _, State.homeConflict_frame _, State.resizeNs_frame _]
      · rename_i e
        have := h _ e
        dsimp only
        split <;> simp_all [State.createJobs_frame _, State.discardBeyond_frame _, State.homeConflict_frame _,
            State.resizeNs_frame _]

theorem State.takeHome_frame (s : State) (e : MapHome) (old : Placement) (new : Placement) : KeepsBase s
    (State.takeHome s e old new) ∧ (State.takeHome s e old new).deferred = s.deferred ∧ (State.takeHome s e old
    new).power = s.power ∧ (State.takeHome s e old new).map = s.map ∧ (State.takeHome s e old new).media = s.media ∧
    (State.takeHome s e old new).cmds = s.cmds ∧ (State.takeHome s e old new).pools = s.pools ∧ (State.takeHome s e old
    new).boot = s.boot ∧ (State.takeHome s e old new).pins.resetLow = s.pins.resetLow ∧ (State.takeHome s e old
    new).pins.frozen = s.pins.frozen := by
  unfold State.takeHome
  dsimp only
  split
  · simp [State.createMapped_frame _, State.homeConflict_frame _, State.raise_frame _, State.setHomed_frame _]
  · split
    · simp [State.createMapped_frame _, State.homeConflict_frame _, State.raise_frame _, State.setHomed_frame _]
    · rename_i h
      have := State.createMapped_frame _ _ _ _ h
      simp_all [State.createMapped_frame _, State.homeConflict_frame _, State.raise_frame _, State.setHomed_frame _]

theorem State.followHomed_frame (s : State) (m : FlockMap) (nsid : Nat) : KeepsBase s (State.followHomed s m
    nsid) ∧ (State.followHomed s m nsid).media = s.media ∧ (State.followHomed s m nsid).cmds = s.cmds ∧
    (State.followHomed s m nsid).pools = s.pools ∧ (State.followHomed s m nsid).boot = s.boot ∧ (State.followHomed s m
    nsid).pins.resetLow = s.pins.resetLow ∧ (State.followHomed s m nsid).pins.frozen = s.pins.frozen := by
  unfold State.followHomed
  dsimp only
  (repeat' split) <;> simp [State.depose_frame _, State.followSize_frame _, State.setHomed_frame _,
      State.startSweep_frame _]

theorem State.newHomes_frame (s : State) (old : Option FlockMap) (m : FlockMap) : KeepsBase s (State.newHomes s
    old m) ∧ (State.newHomes s old m).deferred = s.deferred ∧ (State.newHomes s old m).power = s.power ∧ (State.newHomes
    s old m).map = s.map ∧ (State.newHomes s old m).media = s.media ∧ (State.newHomes s old m).cmds = s.cmds ∧
    (State.newHomes s old m).pools = s.pools ∧ (State.newHomes s old m).boot = s.boot ∧ (State.newHomes s old
    m).pins.resetLow = s.pins.resetLow ∧ (State.newHomes s old m).pins.frozen = s.pins.frozen := by
  unfold State.newHomes
  exact foldl_rel (P := fun s t : State => KeepsBase s t ∧ t.deferred = s.deferred ∧ t.power = s.power ∧ t.map = s.map ∧ t.media = s.media ∧ t.cmds = s.cmds ∧ t.pools = s.pools ∧ t.boot = s.boot ∧ t.pins.resetLow = s.pins.resetLow ∧ t.pins.frozen = s.pins.frozen) (by simp [State.takeHome_frame _]) (by intro a b c h1 h2; simp_all [State.takeHome_frame _]) _ (by intro s x; dsimp only; (repeat' split) <;> simp [State.takeHome_frame _]) _ _

theorem State.sendHello_frame (s : State) (peer : Nat) : KeepsBase s (State.sendHello s peer) ∧ (State.sendHello
    s peer).free = s.free ∧ (State.sendHello s peer).regs = s.regs ∧ (State.sendHello s peer).stat = s.stat ∧
    (State.sendHello s peer).evlog = s.evlog ∧ KeepsSpace s (State.sendHello s peer) ∧ KeepsStore s (State.sendHello s
    peer) ∧ KeepsHost s (State.sendHello s peer) ∧ KeepsChip s (State.sendHello s peer) := by
  simp [State.sendHello, State.emit_frame _]

theorem State.followLinks_frame (s : State) : KeepsBase s (State.followLinks s) ∧ (State.followLinks s).free =
    s.free ∧ (State.followLinks s).regs = s.regs ∧ (State.followLinks s).stat = s.stat ∧ (State.followLinks s).evlog =
    s.evlog ∧ (State.followLinks s).nss = s.nss ∧ (State.followLinks s).deferred = s.deferred ∧ (State.followLinks
    s).power = s.power ∧ KeepsStore s (State.followLinks s) ∧ KeepsHost s (State.followLinks s) ∧ KeepsChip s
    (State.followLinks s) := by
  unfold State.followLinks
  (repeat' split) <;> simp (disch := (intros; (repeat' split) <;> simp [*, State.closeLink_frame _, State.sendHello_frame _, State.setLink_frame _])) [State.closeLink_frame _, State.sendHello_frame _, State.setLink_frame _]

theorem State.installMap_frame (s : State) (m : FlockMap) : KeepsBase s (State.installMap s m) ∧
    (State.installMap s m).media = s.media ∧ (State.installMap s m).cmds = s.cmds ∧ (State.installMap s m).pools =
    s.pools ∧ (State.installMap s m).boot = s.boot ∧ (State.installMap s m).pins.resetLow = s.pins.resetLow ∧
    (State.installMap s m).pins.frozen = s.pins.frozen := by
  unfold State.installMap
  dsimp only
  (repeat' split) <;> simp [State.evict_frame _, State.followHerd_frame _, State.followHomed_frame _,
      State.followLinks_frame _, State.followShape_frame _, State.newHomes_frame _, State.raiseRecord_frame _,
      State.sendReliable_frame _, State.setFld_frame _, State.setReg_frame _]

theorem State.offerMap_frame (s : State) (m : FlockMap) : KeepsBase s (State.offerMap s m) ∧ (State.offerMap s
    m).media = s.media ∧ (State.offerMap s m).cmds = s.cmds ∧ (State.offerMap s m).pools = s.pools ∧ (State.offerMap s
    m).boot = s.boot ∧ (State.offerMap s m).pins.resetLow = s.pins.resetLow ∧ (State.offerMap s m).pins.frozen =
    s.pins.frozen := by
  unfold State.offerMap
  (repeat' split) <;> simp [State.count_frame _, State.installMap_frame _, State.raiseRecord_frame _, State.raise_frame
      _]

theorem State.loseSwept_frame (s : State) (nsid : Nat) (u : Nat) (cause : Nat) (h : Nat) : KeepsBase s
    (State.loseSwept s nsid u cause h) ∧ KeepsSpace s (State.loseSwept s nsid u cause h) ∧ (State.loseSwept s nsid u
    cause h).media = s.media ∧ (State.loseSwept s nsid u cause h).cmds = s.cmds ∧ (State.loseSwept s nsid u cause
    h).pools = s.pools ∧ KeepsChip s (State.loseSwept s nsid u cause h) := by
  unfold State.loseSwept
  dsimp only
  (repeat' split) <;> simp [State.loseRun_frame _]

theorem State.herdUnits_frame (s : State) (n : Namespace) (us : List (Nat × Placement)) : KeepsBase s
    ((s.herdUnits n us).2) ∧ ((s.herdUnits n us).2).free = s.free ∧ ((s.herdUnits n us).2).regs = s.regs ∧ ((s.herdUnits
    n us).2).stat = s.stat ∧ ((s.herdUnits n us).2).evlog = s.evlog ∧ ((s.herdUnits n us).2).nss = s.nss ∧ ((s.herdUnits
    n us).2).deferred = s.deferred ∧ ((s.herdUnits n us).2).power = s.power ∧ KeepsStore s ((s.herdUnits n us).2) ∧
    KeepsHost s ((s.herdUnits n us).2) ∧ KeepsChip s ((s.herdUnits n us).2) := by
  unfold State.herdUnits
  refine foldl_snd (P := fun s t => KeepsBase s t ∧ t.free = s.free ∧ t.regs = s.regs ∧ t.stat = s.stat ∧ t.evlog =
      s.evlog ∧ t.nss = s.nss ∧ t.deferred = s.deferred ∧ t.power = s.power ∧ KeepsStore s t ∧ KeepsHost s t ∧ KeepsChip
      s t) (by simp [State.herdUnit_frame _]) (by intro a b c h1 h2; simp_all [State.herdUnit_frame _]) _ ?_ _ _
  intro r u
  simp [State.herdUnit_frame _]

theorem takeGot_frame (nsid : Nat) (lose : Bool) (s : State) (e : Nat × Placement × HerdGot) : KeepsBase s
    (takeGot nsid lose s e) ∧ KeepsSpace s (takeGot nsid lose s e) ∧ (takeGot nsid lose s e).cmds = s.cmds ∧ (takeGot
    nsid lose s e).pools = s.pools ∧ KeepsChip s (takeGot nsid lose s e) := by
  unfold takeGot
  (repeat' split) <;> simp [State.loseSwept_frame _, State.restoreUnit_frame _]

theorem State.takeUnits_frame (s : State) (nsid : Nat) (n : Namespace) (lose : Bool) (l : List (Nat × Placement
    × HerdGot)) : KeepsBase s (State.takeUnits s nsid n lose l) ∧ (State.takeUnits s nsid n lose l).nss = s.nss ∧
    (State.takeUnits s nsid n lose l).deferred = s.deferred ∧ (State.takeUnits s nsid n lose l).power = s.power ∧
    (State.takeUnits s nsid n lose l).cmds = s.cmds ∧ (State.takeUnits s nsid n lose l).pools = s.pools ∧ KeepsChip s
    (State.takeUnits s nsid n lose l) := by
  unfold State.takeUnits
  simp [State.dropFetched_frame _, takeGot_frame _]

theorem State.sweepOne_frame (s : State) (nsid : Nat) (h : Nat) : KeepsBase s (State.sweepOne s nsid h).2 ∧
    (State.sweepOne s nsid h).2.nss = s.nss ∧ (State.sweepOne s nsid h).2.deferred = s.deferred ∧ (State.sweepOne s nsid
    h).2.power = s.power ∧ (State.sweepOne s nsid h).2.cmds = s.cmds ∧ (State.sweepOne s nsid h).2.pools = s.pools ∧
    KeepsChip s (State.sweepOne s nsid h).2 := by
  unfold State.sweepOne
  dsimp only
  (repeat' split) <;> simp [State.createJob_frame _, State.herdUnits_frame _, State.sendStripe_frame _,
      State.takeStamps_frame _, State.takeUnits_frame _]

theorem discardAt_frame (new : List Nat) (hkey k x epoch : Nat) (s : State) (e : Nat × Nat) : KeepsBase s
    (discardAt new hkey k x epoch s e) ∧ (discardAt new hkey k x epoch s e).free = s.free ∧ (discardAt new hkey k x
    epoch s e).regs = s.regs ∧ (discardAt new hkey k x epoch s e).stat = s.stat ∧ (discardAt new hkey k x epoch s
    e).evlog = s.evlog ∧ (discardAt new hkey k x epoch s e).nss = s.nss ∧ (discardAt new hkey k x epoch s e).deferred =
    s.deferred ∧ (discardAt new hkey k x epoch s e).power = s.power ∧ KeepsStore s (discardAt new hkey k x epoch s e) ∧
    KeepsHost s (discardAt new hkey k x epoch s e) ∧ KeepsChip s (discardAt new hkey k x epoch s e) := by
  unfold discardAt
  split <;> simp [State.sendDiscard_frame _]

theorem State.discardStripe_frame (s : State) (hkey : Nat) (seg : Placement) (target : Placement) (epoch : Nat)
    (x : Nat) : KeepsBase s (State.discardStripe s hkey seg target epoch x) ∧ (State.discardStripe s hkey seg target
    epoch x).free = s.free ∧ (State.discardStripe s hkey seg target epoch x).regs = s.regs ∧ (State.discardStripe s hkey
    seg target epoch x).stat = s.stat ∧ (State.discardStripe s hkey seg target epoch x).evlog = s.evlog ∧
    (State.discardStripe s hkey seg target epoch x).nss = s.nss ∧ (State.discardStripe s hkey seg target epoch
    x).deferred = s.deferred ∧ (State.discardStripe s hkey seg target epoch x).power = s.power ∧ KeepsStore s
    (State.discardStripe s hkey seg target epoch x) ∧ KeepsHost s (State.discardStripe s hkey seg target epoch x) ∧
    KeepsChip s (State.discardStripe s hkey seg target epoch x) := by
  unfold State.discardStripe
  simp [discardAt_frame _]

theorem State.discardRange_frame (s : State) (n : Namespace) (h : Homed) (lo : Nat) (hi : Nat) : KeepsBase s
    (State.discardRange s n h lo hi) ∧ (State.discardRange s n h lo hi).free = s.free ∧ (State.discardRange s n h lo
    hi).regs = s.regs ∧ (State.discardRange s n h lo hi).stat = s.stat ∧ (State.discardRange s n h lo hi).evlog =
    s.evlog ∧ (State.discardRange s n h lo hi).nss = s.nss ∧ (State.discardRange s n h lo hi).deferred = s.deferred ∧
    (State.discardRange s n h lo hi).power = s.power ∧ KeepsStore s (State.discardRange s n h lo hi) ∧ KeepsHost s
    (State.discardRange s n h lo hi) ∧ KeepsChip s (State.discardRange s n h lo hi) := by
  simp [State.discardRange, State.discardStripe_frame _]

theorem State.endSweep_frame (s : State) (nsid : Nat) (n : Namespace) (h : Homed) : KeepsBase s (State.endSweep
    s nsid n h) ∧ (State.endSweep s nsid n h).free = s.free ∧ (State.endSweep s nsid n h).regs = s.regs ∧
    (State.endSweep s nsid n h).evlog = s.evlog ∧ (State.endSweep s nsid n h).nss = s.nss ∧ (State.endSweep s nsid n
    h).deferred = s.deferred ∧ (State.endSweep s nsid n h).power = s.power ∧ KeepsStore s (State.endSweep s nsid n h) ∧
    KeepsHost s (State.endSweep s nsid n h) ∧ KeepsChip s (State.endSweep s nsid n h) := by
  unfold State.endSweep
  dsimp only
  (repeat' split) <;> simp [State.discardRange_frame _, State.raise_frame _, State.sendReliable_frame _,
      State.setHomed_frame _, State.startSweep_frame _]

theorem State.advanceSweep_frame (s : State) (nsid : Nat) : KeepsBase s (State.advanceSweep s nsid) ∧
    (State.advanceSweep s nsid).free = s.free ∧ (State.advanceSweep s nsid).regs = s.regs ∧ (State.advanceSweep s
    nsid).evlog = s.evlog ∧ (State.advanceSweep s nsid).nss = s.nss ∧ (State.advanceSweep s nsid).deferred = s.deferred
    ∧ (State.advanceSweep s nsid).power = s.power ∧ KeepsStore s (State.advanceSweep s nsid) ∧ KeepsHost s
    (State.advanceSweep s nsid) ∧ KeepsChip s (State.advanceSweep s nsid) := by
  unfold State.advanceSweep
  dsimp only
  (repeat' split) <;> simp [State.discardRange_frame _, State.endSweep_frame _, State.setHomed_frame _]

theorem redoStripe_frame (peer : Nat) (p : Placement) (hkey k : Nat) (s : State) (h : Nat) : KeepsBase s
    (redoStripe peer p hkey k s h) ∧ (redoStripe peer p hkey k s h).nss = s.nss ∧ (redoStripe peer p hkey k s
    h).deferred = s.deferred ∧ (redoStripe peer p hkey k s h).power = s.power ∧ KeepsStore s (redoStripe peer p hkey k s
    h) ∧ KeepsHost s (redoStripe peer p hkey k s h) ∧ KeepsChip s (redoStripe peer p hkey k s h) := by
  unfold redoStripe
  split <;> simp [State.createJob_frame _]

theorem reconcileNs_frame (peer : Nat) (s : State) (e : Nat × Homed) : KeepsBase s (reconcileNs peer s e) ∧
    (reconcileNs peer s e).nss = s.nss ∧ (reconcileNs peer s e).deferred = s.deferred ∧ (reconcileNs peer s e).power =
    s.power ∧ KeepsStore s (reconcileNs peer s e) ∧ KeepsHost s (reconcileNs peer s e) ∧ KeepsChip s (reconcileNs peer s
    e) := by
  unfold reconcileNs
  split <;> simp [State.sendReliable_frame _, redoStripe_frame _]

theorem State.reconcile_frame (s : State) (peer : Nat) : KeepsBase s (State.reconcile s peer) ∧ (State.reconcile
    s peer).nss = s.nss ∧ (State.reconcile s peer).deferred = s.deferred ∧ (State.reconcile s peer).power = s.power ∧
    KeepsStore s (State.reconcile s peer) ∧ KeepsHost s (State.reconcile s peer) ∧ KeepsChip s (State.reconcile s peer)
    := by
  unfold State.reconcile
  dsimp only
  (repeat' split) <;> simp [State.createJob_frame _, State.endReconcile_frame _, State.sendReliable_frame _,
      State.setLink_frame _, reconcileNs_frame _]

theorem State.followPeerPorts_frame (s : State) : KeepsBase s (State.followPeerPorts s) ∧ KeepsSpace s
    (State.followPeerPorts s) ∧ KeepsStore s (State.followPeerPorts s) ∧ (State.followPeerPorts s).cmds = s.cmds ∧
    (State.followPeerPorts s).pools = s.pools ∧ (State.followPeerPorts s).boot = s.boot ∧ (State.followPeerPorts
    s).pins.resetLow = s.pins.resetLow ∧ (State.followPeerPorts s).pins.frozen = s.pins.frozen := by
  simp [State.followPeerPorts, State.reason_frame _]

theorem State.closePlane_frame (s : State) (q : Nat) : KeepsBase s (State.closePlane s q) ∧ KeepsNotes s
    (State.closePlane s q) ∧ (State.closePlane s q).nss = s.nss ∧ (State.closePlane s q).deferred = s.deferred ∧
    (State.closePlane s q).power = s.power ∧ KeepsStore s (State.closePlane s q) ∧ KeepsHost s (State.closePlane s q) ∧
    KeepsChip s (State.closePlane s q) := by
  simp [State.closePlane, State.closeLink_frame _]

end Sys2Proof.Machine
end

