-- ==== Sys2Proof/Laws/FramesCommands.lean ====
section
/-! SUPPORT. What the functions of the input and output commands, firmware and administration leave unchanged: one lemma for each, which lists the parts of the
state that it keeps. -/

namespace Sys2Proof.Machine

open Sys2Proof

set_option linter.all false

/-! ## Machine/Io -/

theorem State.toHost_frame (s : State) (c : Cmd) (off : Nat) (bs : List Byte) : KeepsBase s (State.toHost s c
    off bs) ∧ (State.toHost s c off bs).free = s.free ∧ (State.toHost s c off bs).regs = s.regs ∧ (State.toHost s c off
    bs).stat = s.stat ∧ (State.toHost s c off bs).evlog = s.evlog ∧ KeepsSpace s (State.toHost s c off bs) ∧ KeepsStore
    s (State.toHost s c off bs) ∧ KeepsHost s (State.toHost s c off bs) ∧ KeepsChip s (State.toHost s c off bs) := by
  simp [State.toHost, State.emit_frame _]

theorem State.fetchForLookup_frame (s : State) (c : Cmd) (n : Namespace) (us : List Nat) : KeepsBase s
    (State.fetchForLookup s c n us).2 ∧ KeepsNotes s (State.fetchForLookup s c n us).2 ∧ KeepsSpace s
    (State.fetchForLookup s c n us).2 ∧ (State.fetchForLookup s c n us).2.place = s.place ∧ (State.fetchForLookup s c n
    us).2.media = s.media ∧ (State.fetchForLookup s c n us).2.cmds = s.cmds ∧ (State.fetchForLookup s c n us).2.pools =
    s.pools ∧ KeepsChip s (State.fetchForLookup s c n us).2 := by
  simp [State.fetchForLookup, State.startFetch_frame _]

theorem State.fetchForStore_frame (s : State) (n : Namespace) (us : List Nat) : KeepsBase s (State.fetchForStore
    s n us).2 ∧ KeepsNotes s (State.fetchForStore s n us).2 ∧ KeepsSpace s (State.fetchForStore s n us).2 ∧
    (State.fetchForStore s n us).2.place = s.place ∧ (State.fetchForStore s n us).2.media = s.media ∧
    (State.fetchForStore s n us).2.cmds = s.cmds ∧ (State.fetchForStore s n us).2.pools = s.pools ∧ KeepsChip s
    (State.fetchForStore s n us).2 := by
  simp [State.fetchForStore, State.startFetch_frame _]

theorem State.noteCheck_frame (s : State) (f : InternalFault) : KeepsBase s (State.noteCheck s f) ∧ KeepsSpace s
    (State.noteCheck s f) ∧ KeepsStore s (State.noteCheck s f) ∧ KeepsHost s (State.noteCheck s f) ∧ KeepsChip s
    (State.noteCheck s f) := by
  unfold State.noteCheck
  (repeat' split) <;> simp [State.count_frame _, State.raiseRecord_frame _, State.raise_frame _]

theorem State.noteChecks_frame (s : State) (l : List InternalFault) : KeepsBase s (State.noteChecks s l) ∧
    KeepsSpace s (State.noteChecks s l) ∧ KeepsStore s (State.noteChecks s l) ∧ KeepsHost s (State.noteChecks s l) ∧
    KeepsChip s (State.noteChecks s l) := by
  unfold State.noteChecks
  (repeat' split) <;> simp (disch := (intros; (repeat' split) <;> simp [*, State.noteCheck_frame _])) [State.noteCheck_frame _]

theorem State.readBlock_frame (s : State) (c : Cmd) (n : Namespace) (gone : List Nat) (around : List Nat) (lba :
    Nat) : KeepsBase s (State.readBlock s c n gone around lba).2 ∧ KeepsSpace s (State.readBlock s c n gone around
    lba).2 ∧ (State.readBlock s c n gone around lba).2.cmds = s.cmds ∧ (State.readBlock s c n gone around lba).2.pools =
    s.pools ∧ (State.readBlock s c n gone around lba).2.boot = s.boot ∧ (State.readBlock s c n gone around
    lba).2.pins.resetLow = s.pins.resetLow ∧ (State.readBlock s c n gone around lba).2.pins.frozen = s.pins.frozen := by
  unfold State.readBlock
  dsimp only
  (repeat' split) <;> simp [State.noteChecks_frame _, State.noteRead_frame _]

theorem State.compareBlock_frame (s : State) (c : Cmd) (n : Namespace) (gone : List Nat) (around : List Nat) (i
    : Nat) : KeepsBase s (State.compareBlock s c n gone around i).2 ∧ KeepsSpace s (State.compareBlock s c n gone around
    i).2 ∧ (State.compareBlock s c n gone around i).2.cmds = s.cmds ∧ (State.compareBlock s c n gone around i).2.pools =
    s.pools ∧ (State.compareBlock s c n gone around i).2.boot = s.boot ∧ (State.compareBlock s c n gone around
    i).2.pins.resetLow = s.pins.resetLow ∧ (State.compareBlock s c n gone around i).2.pins.frozen = s.pins.frozen := by
  unfold State.compareBlock
  dsimp only
  split
  · simp [State.readBlock_frame _]
  · have h := State.readBlock_frame s c n gone around (pkSlba c.packet + i)
    split
    · rename_i e
      rw [e] at h
      split <;> exact h
    · exact h

theorem readFrom_rel {P : State → State → Prop} (hr : ∀ s, P s s) (ht : ∀ a b c, P a b → P b c → P a c) (f : State → Nat
    → BlockOut × State) (h : ∀ s i, P s (f s i).2) (k i : Nat) (s : State) : P s (readFrom f k i s).2.2 := by
  induction k generalizing i s with
  | zero => exact hr s
  | succ k ih =>
    have hs := h s i
    unfold readFrom
    split
    · rename_i e
      rw [e] at hs
      exact hs
    · rename_i e
      rw [e] at hs
      exact ht _ _ _ hs (ih _ _)

theorem State.deliver_frame (s : State) (c : Cmd) (good : List (List Byte × BitVec 128)) : KeepsBase s
    (State.deliver s c good) ∧ (State.deliver s c good).free = s.free ∧ (State.deliver s c good).regs = s.regs ∧
    (State.deliver s c good).stat = s.stat ∧ (State.deliver s c good).evlog = s.evlog ∧ KeepsSpace s (State.deliver s c
    good) ∧ KeepsStore s (State.deliver s c good) ∧ KeepsHost s (State.deliver s c good) ∧ KeepsChip s (State.deliver s
    c good) := by
  unfold State.deliver
  dsimp only
  (repeat' split) <;> simp [State.emit_frame _, State.toHost_frame _]

theorem State.loseLevel_frame (s : State) (nsid : Nat) (n : Namespace) (k u : Nat) : KeepsBase s (s.loseLevel
    nsid n k u) ∧ (s.loseLevel nsid n k u).nss = s.nss ∧ (s.loseLevel nsid n k u).power = s.power ∧ (s.loseLevel nsid n
    k u).media = s.media ∧ (s.loseLevel nsid n k u).cmds = s.cmds ∧ (s.loseLevel nsid n k u).pools = s.pools ∧
    (s.loseLevel nsid n k u).boot = s.boot ∧ (s.loseLevel nsid n k u).pins.resetLow = s.pins.resetLow ∧ (s.loseLevel
    nsid n k u).pins.frozen = s.pins.frozen := by
  unfold State.loseLevel
  simp [State.loseHerdUnits_frame _]

theorem State.readHerd_frame (s : State) (nsid : Nat) (n : Namespace) (slba : Nat) (nlb : Nat) : KeepsBase s
    (State.readHerd s nsid n slba nlb).2 ∧ (State.readHerd s nsid n slba nlb).2.nss = s.nss ∧ (State.readHerd s nsid n
    slba nlb).2.power = s.power ∧ (State.readHerd s nsid n slba nlb).2.cmds = s.cmds ∧ (State.readHerd s nsid n slba
    nlb).2.pools = s.pools ∧ (State.readHerd s nsid n slba nlb).2.boot = s.boot ∧ (State.readHerd s nsid n slba
    nlb).2.pins.resetLow = s.pins.resetLow ∧ (State.readHerd s nsid n slba nlb).2.pins.frozen = s.pins.frozen := by
  unfold State.readHerd
  split
  · simp [State.herdUnits_frame _, State.loseLevel_frame _, State.takeUnits_frame _]
  · dsimp only
    split <;> simp [State.herdUnits_frame _, State.loseLevel_frame _, State.takeUnits_frame _]

theorem State.noteUncorrectable_frame (s : State) (x : Option Status) : KeepsBase s (State.noteUncorrectable s
    x) ∧ (State.noteUncorrectable s x).free = s.free ∧ (State.noteUncorrectable s x).evlog = s.evlog ∧ KeepsSpace s
    (State.noteUncorrectable s x) ∧ KeepsStore s (State.noteUncorrectable s x) ∧ KeepsHost s (State.noteUncorrectable s
    x) ∧ KeepsChip s (State.noteUncorrectable s x) := by
  unfold State.noteUncorrectable
  (repeat' split) <;> simp [State.count_frame _, State.raise_frame _]

theorem State.takeGrant_frame (s : State) (slot : Nat) (c : Cmd) (n : Namespace) : KeepsBase s (State.takeGrant
    s slot c n).2 ∧ (State.takeGrant s slot c n).2.deferred = s.deferred ∧ (State.takeGrant s slot c n).2.power =
    s.power ∧ (State.takeGrant s slot c n).2.herd = s.herd ∧ KeepsStore s (State.takeGrant s slot c n).2 ∧
    (State.takeGrant s slot c n).2.pools = s.pools ∧ (State.takeGrant s slot c n).2.boot = s.boot ∧ (State.takeGrant s
    slot c n).2.pins.resetLow = s.pins.resetLow ∧ (State.takeGrant s slot c n).2.pins.frozen = s.pins.frozen := by
  unfold State.takeGrant
  dsimp only
  (repeat' split) <;> simp [State.fenceNs_frame _, State.setCmd_frame _]

theorem State.storeLines_frame (s : State) (c : Cmd) (n : Namespace) (us : List Nat) : KeepsBase s
    (State.storeLines s c n us) ∧ (State.storeLines s c n us).free = s.free ∧ (State.storeLines s c n us).out = s.out ∧
    (State.storeLines s c n us).stat = s.stat ∧ (State.storeLines s c n us).evlog = s.evlog ∧ KeepsSpace s
    (State.storeLines s c n us) ∧ (State.storeLines s c n us).place = s.place ∧ (State.storeLines s c n us).media =
    s.media ∧ KeepsHost s (State.storeLines s c n us) ∧ KeepsChip s (State.storeLines s c n us) := by
  simp [State.storeLines, State.cacheStore_frame _]

theorem State.packGroup_frame (s : State) (key : Nat) : KeepsBase s (State.packGroup s key) ∧ KeepsSpace s
    (State.packGroup s key) ∧ (State.packGroup s key).cmds = s.cmds ∧ (State.packGroup s key).pools = s.pools ∧
    (State.packGroup s key).boot = s.boot ∧ (State.packGroup s key).pins.resetLow = s.pins.resetLow ∧ (State.packGroup s
    key).pins.frozen = s.pins.frozen := by
  unfold State.packGroup
  dsimp only
  (repeat' split) <;> simp [State.stageGroup_frame _, State.takeStamps_frame _]

theorem State.packFlush_frame (rest : Bool) (x2 : Nat) (x3 : State) (x4 : Nat) : KeepsBase x3 (State.packFlush
    rest x2 x3 x4) ∧ KeepsSpace x3 (State.packFlush rest x2 x3 x4) ∧ (State.packFlush rest x2 x3 x4).cmds = x3.cmds ∧
    (State.packFlush rest x2 x3 x4).pools = x3.pools ∧ (State.packFlush rest x2 x3 x4).boot = x3.boot ∧ (State.packFlush
    rest x2 x3 x4).pins.resetLow = x3.pins.resetLow ∧ (State.packFlush rest x2 x3 x4).pins.frozen = x3.pins.frozen := by
  induction x2 generalizing x3 with
  | zero => simp [State.packFlush, State.packGroup_frame _]
  | succ n ih =>
    unfold State.packFlush
    dsimp only
    split
    · simp [ih, State.packGroup_frame _]
    · simp [State.packGroup_frame _]

theorem State.stageWindow_frame (s : State) (slot : Nat) (c : Cmd) (n : Namespace) (pair : Nat × Nat) (i : Nat)
    (k : Nat) : KeepsBase s (State.stageWindow s slot c n pair i k) ∧ KeepsSpace s (State.stageWindow s slot c n pair i
    k) ∧ (State.stageWindow s slot c n pair i k).cmds = s.cmds ∧ (State.stageWindow s slot c n pair i k).pools = s.pools
    ∧ (State.stageWindow s slot c n pair i k).boot = s.boot ∧ (State.stageWindow s slot c n pair i k).pins.resetLow =
    s.pins.resetLow ∧ (State.stageWindow s slot c n pair i k).pins.frozen = s.pins.frozen := by
  simp [State.stageWindow, State.packFlush_frame _, State.storeLines_frame _]

theorem State.updCmd_frame (s : State) (slot : Nat) (f : Cmd → Cmd) : KeepsBase s (State.updCmd s slot f) ∧
    KeepsNotes s (State.updCmd s slot f) ∧ KeepsSpace s (State.updCmd s slot f) ∧ KeepsStore s (State.updCmd s slot f) ∧
    (State.updCmd s slot f).hosts = s.hosts ∧ (State.updCmd s slot f).pools = s.pools ∧ KeepsChip s (State.updCmd s slot
    f) := by
  simp [State.updCmd]

theorem State.alignedStripe_frame (s : State) (c : Cmd) (n : Namespace) (i : Nat) (t : State) (h : s.alignedStripe c n i
    = some t) : KeepsBase s t ∧ KeepsSpace s t ∧ t.cmds = s.cmds ∧ t.pools = s.pools ∧ KeepsChip s t := by
  unfold State.alignedStripe at h
  dsimp only at h
  split at h
  · cases h
  · rename_i e
    have := State.programStripe_frame _ _ _ _ _ e
    obtain rfl := Option.some.inj h
    simp_all [State.mapSet_frame _, State.programStripe_frame _, State.storeLines_frame _, State.takeStamps_frame _,
        State.unstage_frame _]

theorem State.writeWindows_frame (slot : Nat) (n : Namespace) (x3 : Nat) (x4 : State) : KeepsBase x4
    (State.writeWindows slot n x3 x4).2 ∧ KeepsSpace x4 (State.writeWindows slot n x3 x4).2 ∧ (State.writeWindows slot n
    x3 x4).2.pools = x4.pools ∧ (State.writeWindows slot n x3 x4).2.boot = x4.boot ∧ (State.writeWindows slot n x3
    x4).2.pins.resetLow = x4.pins.resetLow ∧ (State.writeWindows slot n x3 x4).2.pins.frozen = x4.pins.frozen := by
  induction x3 generalizing x4 with
  | zero => simp [State.writeWindows, State.alignedStripe_frame _, State.fetchForStore_frame _,
      State.stagePressure_frame _, State.stageWindow_frame _, State.updCmd_frame _]
  | succ k ih =>
    unfold State.writeWindows
    dsimp only
    (repeat' split) <;> simp [ih, State.alignedStripe_frame _, State.fetchForStore_frame _, State.stagePressure_frame _,
        State.stageWindow_frame _, State.updCmd_frame _]
    rename_i e
    have := State.alignedStripe_frame _ _ _ _ _ e
    simp_all [State.alignedStripe_frame _, State.fetchForStore_frame _, State.stagePressure_frame _,
        State.stageWindow_frame _, State.updCmd_frame _]

theorem State.writeEnd_frame (s : State) (c : Cmd) (n : Namespace) : KeepsBase s (State.writeEnd s c n) ∧
    (State.writeEnd s c n).nss = s.nss ∧ (State.writeEnd s c n).power = s.power ∧ (State.writeEnd s c n).cmds = s.cmds ∧
    (State.writeEnd s c n).pools = s.pools ∧ KeepsChip s (State.writeEnd s c n) := by
  unfold State.writeEnd
  dsimp only
  (repeat' split) <;> simp [State.clearLost_frame _, State.createJobs_frame _, State.noteChecks_frame _,
      State.stagePressure_frame _]

theorem sweepAhead_frame (nsid : Nat) (h : Homed) (r : Bool × State) (x : Nat) : KeepsBase r.2 ((sweepAhead nsid
    h r x).2) ∧ ((sweepAhead nsid h r x).2).nss = r.2.nss ∧ ((sweepAhead nsid h r x).2).deferred = r.2.deferred ∧
    ((sweepAhead nsid h r x).2).power = r.2.power ∧ ((sweepAhead nsid h r x).2).cmds = r.2.cmds ∧ ((sweepAhead nsid h r
    x).2).pools = r.2.pools ∧ KeepsChip r.2 ((sweepAhead nsid h r x).2) := by
  unfold sweepAhead
  dsimp only
  (repeat' split) <;> simp [State.setHomed_frame _, State.sweepOne_frame _]

theorem State.sweepFirst_frame (s : State) (nsid : Nat) (slba : Nat) (nlb : Nat) : KeepsBase s (State.sweepFirst
    s nsid slba nlb).2 ∧ (State.sweepFirst s nsid slba nlb).2.nss = s.nss ∧ (State.sweepFirst s nsid slba
    nlb).2.deferred = s.deferred ∧ (State.sweepFirst s nsid slba nlb).2.power = s.power ∧ (State.sweepFirst s nsid slba
    nlb).2.cmds = s.cmds ∧ (State.sweepFirst s nsid slba nlb).2.pools = s.pools ∧ KeepsChip s (State.sweepFirst s nsid
    slba nlb).2 := by
  unfold State.sweepFirst
  split
  · simp [sweepAhead_frame _]
  · refine foldl_snd (P := fun s t => KeepsBase s t ∧ t.nss = s.nss ∧ t.deferred = s.deferred ∧ t.power = s.power ∧
      t.cmds = s.cmds ∧ t.pools = s.pools ∧ KeepsChip s t) (by simp [sweepAhead_frame _]) (by intro a b c h1 h2; simp_all [sweepAhead_frame _]) _ ?_ _ (_, _)
    intro r x
    exact sweepAhead_frame _ _ _ _

theorem State.finishPacked_frame (s : State) : KeepsBase s (State.finishPacked s) ∧ (State.finishPacked s).nss =
    s.nss ∧ (State.finishPacked s).power = s.power ∧ KeepsChip s (State.finishPacked s) := by
  unfold State.finishPacked
  (repeat' split) <;> simp (disch := (intros; (repeat' split) <;> simp [*, State.complete_frame _, State.writeEnd_frame _])) [State.complete_frame _, State.writeEnd_frame _]

theorem State.trimWindows_frame (slot : Nat) (n : Namespace) (x3 : Nat) (x4 : State) : KeepsBase x4
    (State.trimWindows slot n x3 x4).2 ∧ (State.trimWindows slot n x3 x4).2.nss = x4.nss ∧ (State.trimWindows slot n x3
    x4).2.deferred = x4.deferred ∧ (State.trimWindows slot n x3 x4).2.herd = x4.herd ∧ (State.trimWindows slot n x3
    x4).2.pools = x4.pools ∧ KeepsChip x4 (State.trimWindows slot n x3 x4).2 := by
  induction x3 generalizing x4 with
  | zero => simp [State.trimWindows, State.fetchForStore_frame _, State.stagePressure_frame _, State.storeLines_frame _,
      State.trimRange_frame _, State.updCmd_frame _]
  | succ k ih =>
    unfold State.trimWindows
    dsimp only
    (repeat' split) <;> simp [ih, State.fetchForStore_frame _, State.stagePressure_frame _, State.storeLines_frame _,
        State.trimRange_frame _, State.updCmd_frame _]

/-! ## Machine/Firmware -/

theorem State.syncFwu_frame (s : State) : KeepsBase s (State.syncFwu s) ∧ (State.syncFwu s).free = s.free ∧
    (State.syncFwu s).out = s.out ∧ (State.syncFwu s).stat = s.stat ∧ (State.syncFwu s).evlog = s.evlog ∧ KeepsSpace s
    (State.syncFwu s) ∧ KeepsStore s (State.syncFwu s) ∧ KeepsHost s (State.syncFwu s) ∧ KeepsChip s (State.syncFwu s)
    := by
  simp [State.syncFwu, State.setFld_frame _]

theorem State.setBoot_frame (s : State) (b : BootState) : KeepsBase s (State.setBoot s b) ∧ (State.setBoot s
    b).free = s.free ∧ (State.setBoot s b).out = s.out ∧ (State.setBoot s b).stat = s.stat ∧ (State.setBoot s b).evlog =
    s.evlog ∧ KeepsSpace s (State.setBoot s b) ∧ KeepsStore s (State.setBoot s b) ∧ KeepsHost s (State.setBoot s b) ∧
    (State.setBoot s b).pins = s.pins := by
  simp [State.setBoot, State.syncFwu_frame _]


@[simp] theorem State.setBoot_boot (s : State) (b : BootState) : (s.setBoot b).boot = b := by
  simp [State.setBoot, State.syncFwu_frame _]

theorem State.discardStaging_frame (s : State) : KeepsBase s (State.discardStaging s) ∧ (State.discardStaging
    s).free = s.free ∧ (State.discardStaging s).out = s.out ∧ (State.discardStaging s).stat = s.stat ∧
    (State.discardStaging s).evlog = s.evlog ∧ KeepsSpace s (State.discardStaging s) ∧ KeepsStore s
    (State.discardStaging s) ∧ KeepsHost s (State.discardStaging s) ∧ (State.discardStaging s).pins = s.pins := by
  simp [State.discardStaging, State.setBoot_frame _]


theorem State.discardStaging_chip (s : State) : (State.discardStaging s).boot.fuses = s.boot.fuses := by
  generalize ht : State.discardStaging s = t
  unfold State.discardStaging at ht
  try dsimp only at ht
  (repeat' split at ht) <;> subst ht <;> simp

theorem State.keepBlocks_frame (s : State) (i : Image) (first : Nat) (p : FwPiece) : KeepsBase s
    (State.keepBlocks s i first p).2 ∧ (State.keepBlocks s i first p).2.free = s.free ∧ (State.keepBlocks s i first
    p).2.evlog = s.evlog ∧ KeepsSpace s (State.keepBlocks s i first p).2 ∧ KeepsStore s (State.keepBlocks s i first p).2
    ∧ KeepsHost s (State.keepBlocks s i first p).2 ∧ (State.keepBlocks s i first p).2.pins = s.pins := by
  unfold State.keepBlocks
  dsimp only
  (repeat' split) <;> simp [State.raise_frame _, State.setBoot_frame _]


theorem State.keepBlocks_chip (s : State) (i : Image) (first : Nat) (p : FwPiece) : (State.keepBlocks s i first
    p).2.boot.fuses = s.boot.fuses := by
  generalize ht : State.keepBlocks s i first p = t
  unfold State.keepBlocks at ht
  try dsimp only at ht
  (repeat' split at ht) <;> subst ht <;> simp [State.raise_frame _]

theorem State.fwStage_frame (s : State) (owner : Nat) (offset : Nat) (count : Nat) (first : Bool) (p : FwPiece)
    : KeepsBase s (State.fwStage s owner offset count first p).2 ∧ (State.fwStage s owner offset count first p).2.free =
    s.free ∧ (State.fwStage s owner offset count first p).2.evlog = s.evlog ∧ KeepsSpace s (State.fwStage s owner offset
    count first p).2 ∧ KeepsStore s (State.fwStage s owner offset count first p).2 ∧ KeepsHost s (State.fwStage s owner
    offset count first p).2 ∧ (State.fwStage s owner offset count first p).2.pins = s.pins := by
  unfold State.fwStage
  (repeat' split) <;> simp [State.keepBlocks_frame _, State.setBoot_frame _]


theorem State.fwStage_chip (s : State) (owner : Nat) (offset : Nat) (count : Nat) (first : Bool) (p : FwPiece) :
    (State.fwStage s owner offset count first p).2.boot.fuses = s.boot.fuses := by
  generalize ht : State.fwStage s owner offset count first p = t
  unfold State.fwStage at ht
  try dsimp only at ht
  (repeat' split at ht) <;> subst ht <;> simp [State.keepBlocks_chip _]

theorem State.startCastle_frame (s : State) (i : Image) : KeepsBase s (State.startCastle s i) ∧ KeepsSpace s
    (State.startCastle s i) ∧ KeepsStore s (State.startCastle s i) ∧ (State.startCastle s i).cmds = s.cmds ∧
    (State.startCastle s i).pools = s.pools := by
  simp [State.startCastle, State.enterMode_frame _, State.raise_frame _, State.setBoot_frame _, State.takeStamps_frame
      _]


theorem State.startCastle_chip (s : State) (i : Image) : (State.startCastle s i).boot.fuses = s.boot.fuses ∧
    (State.startCastle s i).pins.resetLow = s.pins.resetLow ∧ (State.startCastle s i).pins.frozen = s.pins.frozen := by
  generalize ht : State.startCastle s i = t
  unfold State.startCastle at ht
  try dsimp only at ht
  (repeat' split at ht) <;> subst ht <;> simp [State.enterMode_frame _, State.raise_frame _, State.setBoot_frame _,
      State.takeStamps_frame _]

theorem State.fwCastle_frame (s : State) (owner : Nat) : KeepsBase s (State.fwCastle s owner).2 ∧ KeepsSpace s
    (State.fwCastle s owner).2 ∧ KeepsStore s (State.fwCastle s owner).2 ∧ (State.fwCastle s owner).2.cmds = s.cmds ∧
    (State.fwCastle s owner).2.pools = s.pools := by
  unfold State.fwCastle
  (repeat' split) <;> simp [State.startCastle_frame _]


theorem State.fwCastle_chip (s : State) (owner : Nat) : (State.fwCastle s owner).2.boot.fuses = s.boot.fuses ∧
    (State.fwCastle s owner).2.pins.resetLow = s.pins.resetLow ∧ (State.fwCastle s owner).2.pins.frozen = s.pins.frozen
    := by
  generalize ht : State.fwCastle s owner = t
  unfold State.fwCastle at ht
  try dsimp only at ht
  (repeat' split at ht) <;> subst ht <;> simp [State.startCastle_chip _]

theorem State.leaveBoot_frame (s : State) : KeepsBase s (State.leaveBoot s) ∧ KeepsSpace s (State.leaveBoot s) ∧
    KeepsStore s (State.leaveBoot s) ∧ (State.leaveBoot s).pools = s.pools ∧ (State.leaveBoot s).boot = s.boot ∧
    (State.leaveBoot s).pins.resetLow = s.pins.resetLow ∧ (State.leaveBoot s).pins.frozen = s.pins.frozen := by
  simp [State.leaveBoot, State.enterMode_frame _, State.releaseEnables_frame _]

theorem State.noteCastle_frame (s : State) (c : Castle) (result : Nat) (core : Nat) : KeepsBase s
    (State.noteCastle s c result core) ∧ (State.noteCastle s c result core).out = s.out ∧ (State.noteCastle s c result
    core).regs = s.regs ∧ (State.noteCastle s c result core).stat = s.stat ∧ (State.noteCastle s c result core).evlog =
    s.evlog ∧ KeepsSpace s (State.noteCastle s c result core) ∧ KeepsStore s (State.noteCastle s c result core) ∧
    KeepsHost s (State.noteCastle s c result core) ∧ (State.noteCastle s c result core).pins = s.pins ∧
    (State.noteCastle s c result core).boot.fuses = s.boot.fuses := by
  simp [State.noteCastle, State.takeFree_frame _]

theorem State.closeCastle_frame (s : State) (c : Castle) : KeepsBase s (State.closeCastle s c) ∧ KeepsSpace s
    (State.closeCastle s c) ∧ KeepsStore s (State.closeCastle s c) ∧ (State.closeCastle s c).pools = s.pools := by
  unfold State.closeCastle
  (repeat' split) <;> simp [State.enterMode_frame _, State.leaveBoot_frame _, State.setBoot_frame _]


theorem State.closeCastle_chip (s : State) (c : Castle) : (State.closeCastle s c).boot.fuses = s.boot.fuses ∧
    (State.closeCastle s c).pins.resetLow = s.pins.resetLow ∧ (State.closeCastle s c).pins.frozen = s.pins.frozen := by
  generalize ht : State.closeCastle s c = t
  unfold State.closeCastle at ht
  try dsimp only at ht
  (repeat' split at ht) <;> subst ht <;> simp [State.enterMode_frame _, State.leaveBoot_frame _, State.setBoot_frame _]

theorem State.commitCastle_frame (s : State) (c : Castle) (ok : Bool) : KeepsBase s (State.commitCastle s c ok)
    ∧ KeepsSpace s (State.commitCastle s c ok) ∧ KeepsStore s (State.commitCastle s c ok) ∧ (State.commitCastle s c
    ok).pools = s.pools := by
  unfold State.commitCastle
  (repeat' split) <;> simp [State.closeCastle_frame _, State.count_frame _, State.noteCastle_frame _, State.raise_frame
      _]


theorem State.commitCastle_chip (s : State) (c : Castle) (ok : Bool) : (State.commitCastle s c ok).boot.fuses =
    s.boot.fuses ∧ (State.commitCastle s c ok).pins.resetLow = s.pins.resetLow ∧ (State.commitCastle s c ok).pins.frozen
    = s.pins.frozen := by
  generalize ht : State.commitCastle s c ok = t
  unfold State.commitCastle at ht
  try dsimp only at ht
  (repeat' split at ht) <;> subst ht <;> simp [State.closeCastle_chip _, State.count_frame _, State.noteCastle_frame _,
      State.raise_frame _]

theorem State.endAbort_frame (s : State) (c : Castle) (result : Nat) (core : Nat) : KeepsBase s (State.endAbort
    s c result core) ∧ KeepsSpace s (State.endAbort s c result core) ∧ KeepsStore s (State.endAbort s c result core) ∧
    (State.endAbort s c result core).pools = s.pools := by
  simp [State.endAbort, State.closeCastle_frame _, State.count_frame _, State.noteCastle_frame _, State.raise_frame _]


theorem State.endAbort_chip (s : State) (c : Castle) (result : Nat) (core : Nat) : (State.endAbort s c result
    core).boot.fuses = s.boot.fuses ∧ (State.endAbort s c result core).pins.resetLow = s.pins.resetLow ∧ (State.endAbort
    s c result core).pins.frozen = s.pins.frozen := by
  generalize ht : State.endAbort s c result core = t
  unfold State.endAbort at ht
  try dsimp only at ht
  (repeat' split at ht) <;> subst ht <;> simp [State.closeCastle_chip _, State.count_frame _, State.noteCastle_frame _,
      State.raise_frame _]

theorem State.abortCastle_frame (s : State) (result : Nat) (core : Nat) : KeepsBase s (State.abortCastle s
    result core) ∧ KeepsSpace s (State.abortCastle s result core) ∧ KeepsStore s (State.abortCastle s result core) ∧
    (State.abortCastle s result core).pools = s.pools := by
  unfold State.abortCastle
  dsimp only
  (repeat' split) <;> simp [State.endAbort_frame _, State.setBoot_frame _]


theorem State.abortCastle_chip (s : State) (result : Nat) (core : Nat) : (State.abortCastle s result
    core).boot.fuses = s.boot.fuses ∧ (State.abortCastle s result core).pins.resetLow = s.pins.resetLow ∧
    (State.abortCastle s result core).pins.frozen = s.pins.frozen := by
  generalize ht : State.abortCastle s result core = t
  unfold State.abortCastle at ht
  try dsimp only at ht
  (repeat' split at ht) <;> subst ht <;> simp [State.endAbort_chip _, State.setBoot_frame _]

theorem State.cutCastle_frame (s : State) : KeepsBase s (State.cutCastle s) ∧ (State.cutCastle s).out = s.out ∧
    (State.cutCastle s).stat = s.stat ∧ (State.cutCastle s).evlog = s.evlog ∧ KeepsSpace s (State.cutCastle s) ∧
    KeepsStore s (State.cutCastle s) ∧ KeepsHost s (State.cutCastle s) ∧ (State.cutCastle s).pins = s.pins := by
  unfold State.cutCastle
  (repeat' split) <;> simp [State.noteCastle_frame _, State.setBoot_frame _]


theorem State.cutCastle_chip (s : State) : (State.cutCastle s).boot.fuses = s.boot.fuses := by
  generalize ht : State.cutCastle s = t
  unfold State.cutCastle at ht
  try dsimp only at ht
  (repeat' split at ht) <;> subst ht <;> simp [State.noteCastle_frame _]

theorem State.handedOver_frame (s : State) (c : Castle) (k : Nat) (commitOk : Bool) : KeepsBase s
    (State.handedOver s c k commitOk) ∧ KeepsSpace s (State.handedOver s c k commitOk) ∧ KeepsStore s (State.handedOver
    s c k commitOk) ∧ (State.handedOver s c k commitOk).pools = s.pools := by
  unfold State.handedOver
  dsimp only
  (repeat' split) <;> simp [State.commitCastle_frame _, State.endAbort_frame _, State.setBoot_frame _]


theorem State.handedOver_chip (s : State) (c : Castle) (k : Nat) (commitOk : Bool) : (State.handedOver s c k
    commitOk).boot.fuses = s.boot.fuses ∧ (State.handedOver s c k commitOk).pins.resetLow = s.pins.resetLow ∧
    (State.handedOver s c k commitOk).pins.frozen = s.pins.frozen := by
  generalize ht : State.handedOver s c k commitOk = t
  unfold State.handedOver at ht
  try dsimp only at ht
  (repeat' split at ht) <;> subst ht <;> simp [State.commitCastle_chip _, State.endAbort_chip _, State.setBoot_frame _]

/-! ## Machine/Admin -/

theorem State.helloTurn_frame (s : State) (c : Cmd) : KeepsBase s (State.helloTurn s c).2 ∧ (State.helloTurn s
    c).2.free = s.free ∧ (State.helloTurn s c).2.out = s.out ∧ (State.helloTurn s c).2.stat = s.stat ∧ (State.helloTurn
    s c).2.evlog = s.evlog ∧ KeepsSpace s (State.helloTurn s c).2 ∧ KeepsStore s (State.helloTurn s c).2 ∧ KeepsHost s
    (State.helloTurn s c).2 ∧ KeepsChip s (State.helloTurn s c).2 := by
  unfold State.helloTurn
  (repeat' split) <;> simp [State.setFld_frame _]

theorem State.ringCreate_frame (s : State) (c : Cmd) : KeepsBase s (State.ringCreate s c).2 ∧ KeepsNotes s
    (State.ringCreate s c).2 ∧ KeepsSpace s (State.ringCreate s c).2 ∧ KeepsStore s (State.ringCreate s c).2 ∧
    (State.ringCreate s c).2.hosts = s.hosts ∧ (State.ringCreate s c).2.pools = s.pools ∧ KeepsChip s (State.ringCreate
    s c).2 := by
  unfold State.ringCreate
  dsimp only
  (repeat' split) <;> simp [State.setCq_frame _, State.setSq_frame _]

theorem State.abortRing_frame (s : State) (f : Fn) (ring : Nat) : KeepsBase s (State.abortRing s f ring).2 ∧
    (State.abortRing s f ring).2.free = s.free ∧ (State.abortRing s f ring).2.stat = s.stat ∧ (State.abortRing s f
    ring).2.evlog = s.evlog ∧ KeepsSpace s (State.abortRing s f ring).2 ∧ (State.abortRing s f ring).2.map = s.map ∧
    (State.abortRing s f ring).2.media = s.media ∧ KeepsChip s (State.abortRing s f ring).2 := by
  simp [State.abortRing, State.complete_frame _]

theorem State.ringStop_frame (s : State) (slot : Nat) (c : Cmd) : KeepsBase s (State.ringStop s slot c) ∧
    (State.ringStop s slot c).free = s.free ∧ (State.ringStop s slot c).stat = s.stat ∧ (State.ringStop s slot c).evlog
    = s.evlog ∧ KeepsSpace s (State.ringStop s slot c) ∧ (State.ringStop s slot c).map = s.map ∧ (State.ringStop s slot
    c).media = s.media ∧ KeepsChip s (State.ringStop s slot c) := by
  unfold State.ringStop
  dsimp only
  (repeat' split) <;> simp [State.abortRing_frame _, State.setSq_frame _, State.updCmd_frame _]

theorem State.dropSq_frame (s : State) (f : Fn) (ring : Nat) : KeepsBase s (State.dropSq s f ring) ∧ KeepsNotes
    s (State.dropSq s f ring) ∧ KeepsSpace s (State.dropSq s f ring) ∧ KeepsStore s (State.dropSq s f ring) ∧
    (State.dropSq s f ring).hosts = s.hosts ∧ (State.dropSq s f ring).pools = s.pools ∧ KeepsChip s (State.dropSq s f
    ring) := by
  simp [State.dropSq]

theorem State.ringEnd_frame (s : State) (slot : Nat) (c : Cmd) : KeepsBase s (State.ringEnd s slot c) ∧
    (State.ringEnd s slot c).free = s.free ∧ (State.ringEnd s slot c).stat = s.stat ∧ (State.ringEnd s slot c).evlog =
    s.evlog ∧ KeepsSpace s (State.ringEnd s slot c) ∧ KeepsStore s (State.ringEnd s slot c) ∧ KeepsChip s (State.ringEnd
    s slot c) := by
  unfold State.ringEnd
  dsimp only
  (repeat' split) <;> simp [State.complete_frame _, State.dropSq_frame _]

theorem State.ringDelete_frame (s : State) (slot : Nat) (c : Cmd) : KeepsBase s (State.ringDelete s slot c) ∧
    (State.ringDelete s slot c).free = s.free ∧ (State.ringDelete s slot c).stat = s.stat ∧ (State.ringDelete s slot
    c).evlog = s.evlog ∧ KeepsSpace s (State.ringDelete s slot c) ∧ (State.ringDelete s slot c).map = s.map ∧
    (State.ringDelete s slot c).media = s.media ∧ KeepsChip s (State.ringDelete s slot c) := by
  unfold State.ringDelete
  dsimp only
  (repeat' split) <;> simp [State.complete_frame _, State.ringEnd_frame _, State.ringStop_frame _]

theorem State.homeNew_frame (s : State) (nsid : Nat) : KeepsBase s (State.homeNew s nsid) ∧ KeepsNotes s
    (State.homeNew s nsid) ∧ (State.homeNew s nsid).deferred = s.deferred ∧ (State.homeNew s nsid).power = s.power ∧
    KeepsStore s (State.homeNew s nsid) ∧ KeepsHost s (State.homeNew s nsid) ∧ KeepsChip s (State.homeNew s nsid) := by
  unfold State.homeNew
  dsimp only
  (repeat' split) <;> simp [State.setHomed_frame _, State.setNs_frame _]

theorem State.createSystem_frame (s : State) (size : Nat) (r : Nat × State) (h : s.createSystem size = .ok r) :
    KeepsBase s r.2 ∧ r.2.deferred = s.deferred ∧ r.2.power = s.power ∧ r.2.herd = s.herd ∧ r.2.map = s.map ∧ r.2.media
    = s.media ∧ r.2.cmds = s.cmds ∧ r.2.pools = s.pools ∧ r.2.boot = s.boot ∧ r.2.pins.resetLow = s.pins.resetLow ∧
    r.2.pins.frozen = s.pins.frozen := by
  unfold State.createSystem at h
  generalize s.freeNsid true = o at h
  cases o with
  | none => cases h
  | some nsid =>
    dsimp only at h
    split at h
    · have e : _ = r.2 := congrArg Prod.snd (Except.ok.inj h)
      rw [← e]
      simp [State.addNs_frame _]
    · cases h

theorem State.nsCreate_frame (s : State) (c : Cmd) : KeepsBase s (State.nsCreate s c).2 ∧ (State.nsCreate s
    c).2.deferred = s.deferred ∧ (State.nsCreate s c).2.power = s.power ∧ (State.nsCreate s c).2.map = s.map ∧
    (State.nsCreate s c).2.media = s.media ∧ (State.nsCreate s c).2.cmds = s.cmds ∧ (State.nsCreate s c).2.pools =
    s.pools ∧ (State.nsCreate s c).2.boot = s.boot ∧ (State.nsCreate s c).2.pins.resetLow = s.pins.resetLow ∧
    (State.nsCreate s c).2.pins.frozen = s.pins.frozen := by
  unfold State.nsCreate
  dsimp only
  generalize hr : (if pkSpec c.packet 4 1 = 1 then s.createSystem (pkSlba c.packet) else s.createMapped (newNamespace
      c.packet) none) = r
  cases r with
  | error e => cases e <;> simp [State.createMapped_frame _, State.createSystem_frame _, State.homeNew_frame _]
  | ok x =>
    split at hr
    · have := State.createSystem_frame _ _ _ hr
      simp_all [State.createMapped_frame _, State.createSystem_frame _, State.homeNew_frame _]
    · have := State.createMapped_frame _ _ _ _ hr
      simp_all [State.createMapped_frame _, State.createSystem_frame _, State.homeNew_frame _]

theorem State.detachEnd_frame (s : State) (slot : Nat) (c : Cmd) : KeepsBase s (State.detachEnd s slot c) ∧
    (State.detachEnd s slot c).free = s.free ∧ (State.detachEnd s slot c).stat = s.stat ∧ (State.detachEnd s slot
    c).evlog = s.evlog ∧ KeepsSpace s (State.detachEnd s slot c) ∧ KeepsStore s (State.detachEnd s slot c) ∧ KeepsChip s
    (State.detachEnd s slot c) := by
  unfold State.detachEnd
  (repeat' split) <;> simp [State.complete_frame _, State.updCmd_frame _]

theorem State.nsAttach_frame (s : State) (slot : Nat) (c : Cmd) : KeepsBase s (State.nsAttach s slot c) ∧
    (State.nsAttach s slot c).free = s.free ∧ (State.nsAttach s slot c).stat = s.stat ∧ (State.nsAttach s slot c).evlog
    = s.evlog ∧ (State.nsAttach s slot c).deferred = s.deferred ∧ (State.nsAttach s slot c).power = s.power ∧
    (State.nsAttach s slot c).herd = s.herd ∧ KeepsStore s (State.nsAttach s slot c) ∧ KeepsChip s (State.nsAttach s
    slot c) := by
  unfold State.nsAttach
  dsimp only
  (repeat' split) <;> simp [State.complete_frame _, State.detachEnd_frame _, State.setNs_frame _]

theorem State.regionAdd_frame (s : State) (c : Cmd) : KeepsBase s (State.regionAdd s c).2 ∧ KeepsNotes s
    (State.regionAdd s c).2 ∧ KeepsSpace s (State.regionAdd s c).2 ∧ (State.regionAdd s c).2.place = s.place ∧
    (State.regionAdd s c).2.media = s.media ∧ KeepsHost s (State.regionAdd s c).2 ∧ KeepsChip s (State.regionAdd s c).2
    := by
  unfold State.regionAdd
  dsimp only
  (repeat' split) <;> simp

theorem State.regionEnd_frame (s : State) (slot : Nat) (c : Cmd) : KeepsBase s (State.regionEnd s slot c) ∧
    (State.regionEnd s slot c).free = s.free ∧ (State.regionEnd s slot c).stat = s.stat ∧ (State.regionEnd s slot
    c).evlog = s.evlog ∧ KeepsSpace s (State.regionEnd s slot c) ∧ (State.regionEnd s slot c).place = s.place ∧
    (State.regionEnd s slot c).media = s.media ∧ KeepsChip s (State.regionEnd s slot c) := by
  unfold State.regionEnd
  (repeat' split) <;> simp [State.complete_frame _, State.updCmd_frame _]

theorem State.regionRemove_frame (s : State) (slot : Nat) (c : Cmd) : KeepsBase s (State.regionRemove s slot c)
    ∧ (State.regionRemove s slot c).free = s.free ∧ (State.regionRemove s slot c).stat = s.stat ∧ (State.regionRemove s
    slot c).evlog = s.evlog ∧ KeepsSpace s (State.regionRemove s slot c) ∧ (State.regionRemove s slot c).place = s.place
    ∧ (State.regionRemove s slot c).media = s.media ∧ KeepsChip s (State.regionRemove s slot c) := by
  unfold State.regionRemove
  dsimp only
  (repeat' split) <;> simp [State.complete_frame _, State.regionEnd_frame _]

theorem State.afterLog_frame (s : State) (id : Nat) : KeepsBase s (State.afterLog s id) ∧ (State.afterLog s
    id).out = s.out ∧ (State.afterLog s id).regs = s.regs ∧ (State.afterLog s id).stat = s.stat ∧ (State.afterLog s
    id).evlog = s.evlog ∧ KeepsSpace s (State.afterLog s id) ∧ KeepsStore s (State.afterLog s id) ∧ KeepsHost s
    (State.afterLog s id) ∧ KeepsChip s (State.afterLog s id) := by
  unfold State.afterLog
  (repeat' split) <;> simp

theorem State.logGet_frame (s : State) (c : Cmd) : KeepsBase s (State.logGet s c).2 ∧ (State.logGet s c).2.regs
    = s.regs ∧ (State.logGet s c).2.stat = s.stat ∧ (State.logGet s c).2.evlog = s.evlog ∧ KeepsSpace s (State.logGet s
    c).2 ∧ KeepsStore s (State.logGet s c).2 ∧ KeepsHost s (State.logGet s c).2 ∧ KeepsChip s (State.logGet s c).2 := by
  unfold State.logGet
  dsimp only
  (repeat' split) <;> simp [State.afterLog_frame _, State.emit_frame _]

theorem State.featureSet_frame (s : State) (f : Fn) (feat : Nat) (target : Nat) (value : Nat) : KeepsBase s
    (State.featureSet s f feat target value) ∧ (State.featureSet s f feat target value).free = s.free ∧
    (State.featureSet s f feat target value).stat = s.stat ∧ (State.featureSet s f feat target value).evlog = s.evlog ∧
    (State.featureSet s f feat target value).nss = s.nss ∧ (State.featureSet s f feat target value).deferred =
    s.deferred ∧ (State.featureSet s f feat target value).power = s.power ∧ KeepsStore s (State.featureSet s f feat
    target value) ∧ (State.featureSet s f feat target value).cmds = s.cmds ∧ (State.featureSet s f feat target
    value).pools = s.pools ∧ KeepsChip s (State.featureSet s f feat target value) := by
  unfold State.featureSet
  (repeat' split) <;> simp [State.closeLinks_frame _, State.setFld_frame _, State.setFn_frame _, State.setReg_frame _,
      State.signalSet_frame _]

theorem State.keyLoad_frame (s : State) (c : Cmd) : KeepsBase s (State.keyLoad s c).2 ∧ (State.keyLoad s
    c).2.free = s.free ∧ (State.keyLoad s c).2.evlog = s.evlog ∧ (State.keyLoad s c).2.deferred = s.deferred ∧
    (State.keyLoad s c).2.power = s.power ∧ (State.keyLoad s c).2.herd = s.herd ∧ KeepsStore s (State.keyLoad s c).2 ∧
    KeepsHost s (State.keyLoad s c).2 ∧ KeepsChip s (State.keyLoad s c).2 := by
  unfold State.keyLoad
  dsimp only
  (repeat' split) <;> simp [State.count_frame _, State.raise_frame _, State.setNs_frame _]

theorem State.takeIdentity_frame (s : State) (d : JoinDescriptor) : KeepsBase s (State.takeIdentity s d) ∧
    (State.takeIdentity s d).media = s.media ∧ (State.takeIdentity s d).cmds = s.cmds ∧ (State.takeIdentity s d).pools =
    s.pools ∧ (State.takeIdentity s d).boot = s.boot ∧ (State.takeIdentity s d).pins.resetLow = s.pins.resetLow ∧
    (State.takeIdentity s d).pins.frozen = s.pins.frozen := by
  simp [State.takeIdentity, State.installMap_frame _, State.setFld_frame _]

theorem State.holdingNs_frame (s : State) (d : JoinDescriptor) (t : State) (h : s.holdingNs d = some t) : KeepsBase s t
    ∧ t.deferred = s.deferred ∧ t.power = s.power ∧ t.herd = s.herd ∧ t.map = s.map ∧ t.media = s.media ∧ t.cmds =
    s.cmds ∧ t.pools = s.pools ∧ t.boot = s.boot ∧ t.pins.resetLow = s.pins.resetLow ∧ t.pins.frozen = s.pins.frozen :=
    by
  unfold State.holdingNs at h
  split at h
  · obtain rfl := Option.some.inj h
    simp [State.createMapped_frame _]
  · generalize hr : s.createMapped _ none = r at h
    cases r with
    | error e => cases h
    | ok x =>
      have := State.createMapped_frame _ _ _ _ hr
      obtain rfl := Option.some.inj h
      exact this

theorem State.herdJoin_frame (s : State) (d : JoinDescriptor) : KeepsBase s (State.herdJoin s d).2 ∧
    (State.herdJoin s d).2.media = s.media ∧ (State.herdJoin s d).2.cmds = s.cmds ∧ (State.herdJoin s d).2.pools =
    s.pools ∧ (State.herdJoin s d).2.boot = s.boot ∧ (State.herdJoin s d).2.pins.resetLow = s.pins.resetLow ∧
    (State.herdJoin s d).2.pins.frozen = s.pins.frozen := by
  have h (t : State) (ht : (s.takeIdentity d).holdingNs d = some t) := State.holdingNs_frame _ _ _ ht
  generalize ht : s.herdJoin d = t
  unfold State.herdJoin at ht
  dsimp only at ht
  (repeat' split at ht) <;> subst ht <;> first | (simp [State.followPeerPorts_frame _, State.holdingNs_frame _, State.takeIdentity_frame _]; done) | (rename_i e; have := h _ e; simp_all [State.followPeerPorts_frame _, State.holdingNs_frame _, State.takeIdentity_frame _])

theorem State.herdLeave_frame (s : State) : KeepsBase s (State.herdLeave s) ∧ (State.herdLeave s).media =
    s.media ∧ (State.herdLeave s).cmds = s.cmds ∧ (State.herdLeave s).pools = s.pools ∧ (State.herdLeave s).boot =
    s.boot ∧ (State.herdLeave s).pins.resetLow = s.pins.resetLow ∧ (State.herdLeave s).pins.frozen = s.pins.frozen := by
  simp [State.herdLeave, State.closeLinks_frame _, State.deleteNs_frame _, State.followHerd_frame _,
      State.followPeerPorts_frame _, State.setReg_frame _]

theorem State.herdReshape_frame (s : State) (m : FlockMap) : KeepsBase s (State.herdReshape s m).2 ∧
    (State.herdReshape s m).2.media = s.media ∧ (State.herdReshape s m).2.cmds = s.cmds ∧ (State.herdReshape s
    m).2.pools = s.pools ∧ (State.herdReshape s m).2.boot = s.boot ∧ (State.herdReshape s m).2.pins.resetLow =
    s.pins.resetLow ∧ (State.herdReshape s m).2.pins.frozen = s.pins.frozen := by
  unfold State.herdReshape
  (repeat' split) <;> simp [State.installMap_frame _, State.offerMap_frame _]

/-- What a management command keeps. -/
def AdminKeeps (s t : State) : Prop := KeepsBase s t ∧ t.media = s.media ∧ t.boot.fuses = s.boot.fuses ∧ t.pins.resetLow
    = s.pins.resetLow ∧ t.pins.frozen = s.pins.frozen

theorem readOne_frame (c : Cmd) (n : Namespace) (gone around : List Nat) (s : State) (i : Nat) : KeepsBase s
    ((readOne c n gone around s i).2) ∧ KeepsSpace s ((readOne c n gone around s i).2) ∧ ((readOne c n gone around s
    i).2).cmds = s.cmds ∧ ((readOne c n gone around s i).2).pools = s.pools ∧ ((readOne c n gone around s i).2).boot =
    s.boot ∧ ((readOne c n gone around s i).2).pins.resetLow = s.pins.resetLow ∧ ((readOne c n gone around s
    i).2).pins.frozen = s.pins.frozen := by
  unfold readOne
  split <;> simp [State.compareBlock_frame _, State.readBlock_frame _]

theorem readFrom_frame (c : Cmd) (n : Namespace) (gone around : List Nat) (k i : Nat) (s : State) : KeepsBase s
    ((readFrom (readOne c n gone around) k i s).2.2) ∧ KeepsSpace s ((readFrom (readOne c n gone around) k i s).2.2) ∧
    ((readFrom (readOne c n gone around) k i s).2.2).cmds = s.cmds ∧ ((readFrom (readOne c n gone around) k i
    s).2.2).pools = s.pools ∧ ((readFrom (readOne c n gone around) k i s).2.2).boot = s.boot ∧ ((readFrom (readOne c n
    gone around) k i s).2.2).pins.resetLow = s.pins.resetLow ∧ ((readFrom (readOne c n gone around) k i
    s).2.2).pins.frozen = s.pins.frozen := by
  refine readFrom_rel (P := fun s t => KeepsBase s t ∧ KeepsSpace s t ∧ t.cmds = s.cmds ∧ t.pools = s.pools ∧ t.boot =
      s.boot ∧ t.pins.resetLow = s.pins.resetLow ∧ t.pins.frozen = s.pins.frozen) (by simp [readOne_frame _])
    (by intro a b c h1 h2; simp_all [readOne_frame _]) _ ?_ _ _ _
  intro s i
  exact readOne_frame c n gone around s i

theorem State.readTurn_frame (s : State) (slot : Nat) (c : Cmd) (n : Namespace) : KeepsBase s ((s.readTurn slot
    c n).2) ∧ ((s.readTurn slot c n).2).pools = s.pools ∧ ((s.readTurn slot c n).2).boot = s.boot ∧ ((s.readTurn slot c
    n).2).pins.resetLow = s.pins.resetLow ∧ ((s.readTurn slot c n).2).pins.frozen = s.pins.frozen := by
  generalize ht : s.readTurn slot c n = t
  unfold State.readTurn at ht
  dsimp only at ht
  (repeat' split at ht) <;> subst ht <;> simp [State.deliver_frame _, State.fetchForLookup_frame _,
      State.noteUncorrectable_frame _, State.readArounds_frame _, State.readFailed_frame _, State.readHerd_frame _,
      State.setCmd_frame _, State.walk_frame _, readFrom_frame _]

theorem State.sysWriteTurn_frame (s : State) (slot : Nat) (c : Cmd) : KeepsBase s ((s.sysWriteTurn slot c).2) ∧
    ((s.sysWriteTurn slot c).2).pools = s.pools ∧ ((s.sysWriteTurn slot c).2).boot = s.boot ∧ ((s.sysWriteTurn slot
    c).2).pins.resetLow = s.pins.resetLow ∧ ((s.sysWriteTurn slot c).2).pins.frozen = s.pins.frozen := by
  generalize ht : s.sysWriteTurn slot c = t
  unfold State.sysWriteTurn at ht
  dsimp only at ht
  (repeat' split at ht) <;> subst ht <;> simp [State.noteChecks_frame _, State.readFailed_frame _, State.sysWrite_frame
      _, State.updCmd_frame _]

theorem State.writeTurn_frame (s : State) (slot : Nat) (c : Cmd) (n : Namespace) : KeepsBase s ((s.writeTurn
    slot c n).2) ∧ ((s.writeTurn slot c n).2).pools = s.pools ∧ ((s.writeTurn slot c n).2).boot = s.boot ∧ ((s.writeTurn
    slot c n).2).pins.resetLow = s.pins.resetLow ∧ ((s.writeTurn slot c n).2).pins.frozen = s.pins.frozen := by
  generalize ht : s.writeTurn slot c n = t
  unfold State.writeTurn at ht
  dsimp only at ht
  (repeat' split at ht) <;> subst ht <;> simp [State.readFailed_frame _, State.sweepFirst_frame _,
      State.sysWriteTurn_frame _, State.takeGrant_frame _, State.writeEnd_frame _, State.writeWindows_frame _]

theorem State.trimTurn_frame (s : State) (slot : Nat) (c : Cmd) (n : Namespace) : KeepsBase s ((s.trimTurn slot
    c n).2) ∧ ((s.trimTurn slot c n).2).pools = s.pools ∧ ((s.trimTurn slot c n).2).boot = s.boot ∧ ((s.trimTurn slot c
    n).2).pins.resetLow = s.pins.resetLow ∧ ((s.trimTurn slot c n).2).pins.frozen = s.pins.frozen := by
  generalize ht : s.trimTurn slot c n = t
  unfold State.trimTurn at ht
  dsimp only at ht
  (repeat' split at ht) <;> subst ht <;> simp [State.createJobs_frame _, State.stagePressure_frame _,
      State.sweepFirst_frame _, State.trimWindows_frame _]

theorem State.resizeTurn_frame (s : State) (c : Cmd) (n : Namespace) : KeepsBase s ((s.resizeTurn c n).2) ∧
    ((s.resizeTurn c n).2).pools = s.pools ∧ ((s.resizeTurn c n).2).boot = s.boot ∧ ((s.resizeTurn c n).2).pins.resetLow
    = s.pins.resetLow ∧ ((s.resizeTurn c n).2).pins.frozen = s.pins.frozen := by
  have h (u t : State) (k z : Nat) (hu : u.resizeNs k z = some t) := State.resizeNs_frame u k z t hu
  generalize ht : s.resizeTurn c n = t
  unfold State.resizeTurn at ht
  dsimp only at ht
  (repeat' split at ht) <;> subst ht <;> (first | (simp [State.fetchForStore_frame _, State.resizeNs_frame _]; done) | (rename_i e; have := h _ _ _ _ e; simp_all [State.fetchForStore_frame _, State.resizeNs_frame _]; done) |
      (rename_i e _; have := h _ _ _ _ e; simp_all [State.fetchForStore_frame _, State.resizeNs_frame _]; done) | (rename_i e; have := h _ _ _ _ e; dsimp only; split <;>
      simp_all [State.fetchForStore_frame _, State.resizeNs_frame _]))

theorem State.adminTurn_frame (s : State) (slot : Nat) (c : Cmd) : KeepsBase s (State.adminTurn s slot c) ∧
    (State.adminTurn s slot c).media = s.media ∧ (State.adminTurn s slot c).boot.fuses = s.boot.fuses ∧ (State.adminTurn
    s slot c).pins.resetLow = s.pins.resetLow ∧ (State.adminTurn s slot c).pins.frozen = s.pins.frozen := by
  show AdminKeeps s _
  unfold State.adminTurn
  dsimp only
  repeat' (first | apply keep_ite | split)
  all_goals (unfold AdminKeeps; simp [State.complete_frame _, State.deleteNs_frame _, State.dropSq_frame _, State.featureSet_frame _, State.fwCastle_chip _, State.fwCastle_frame _, State.fwStage_chip _, State.fwStage_frame _, State.helloTurn_frame _, State.herdJoin_frame _, State.herdLeave_frame _, State.herdReshape_frame _, State.keyLoad_frame _, State.logGet_frame _, State.nsAttach_frame _, State.nsCreate_frame _, State.readFailed_frame _, State.regionAdd_frame _, State.regionRemove_frame _, State.ringCreate_frame _, State.ringStop_frame _])

/-! ## Machine/Pipeline -/

theorem State.ioTurn_frame (s : State) (slot : Nat) (c : Cmd) (n : Namespace) : KeepsBase s ((s.ioTurn slot c
    n).2) ∧ ((s.ioTurn slot c n).2).pools = s.pools ∧ ((s.ioTurn slot c n).2).boot = s.boot ∧ ((s.ioTurn slot c
    n).2).pins.resetLow = s.pins.resetLow ∧ ((s.ioTurn slot c n).2).pins.frozen = s.pins.frozen := by
  generalize ht : s.ioTurn slot c n = t
  unfold State.ioTurn at ht
  dsimp only at ht
  (repeat' split at ht) <;> subst ht <;> simp [State.readTurn_frame _, State.trimTurn_frame _, State.writeTurn_frame _]

theorem Turned.follow_frame (r : Turned) (slot : Nat) : KeepsBase r.2 (r.follow slot) ∧ (r.follow slot).deferred
    = r.2.deferred ∧ (r.follow slot).power = r.2.power ∧ (r.follow slot).herd = r.2.herd ∧ KeepsStore r.2 (r.follow
    slot) ∧ KeepsChip r.2 (r.follow slot) := by
  unfold Turned.follow
  split <;> simp [State.complete_frame _, State.updCmd_frame _]

theorem State.perform_frame (s : State) (slot : Nat) : KeepsBase s (State.perform s slot) ∧ (State.perform s
    slot).boot.fuses = s.boot.fuses ∧ (State.perform s slot).pins.resetLow = s.pins.resetLow ∧ (State.perform s
    slot).pins.frozen = s.pins.frozen := by
  generalize ht : s.perform slot = t
  unfold State.perform at ht
  dsimp only at ht
  (repeat' split at ht) <;> subst ht <;> simp [State.adminTurn_frame _, State.complete_frame _, State.finishPacked_frame
      _, State.ioTurn_frame _, State.reapDeposed_frame _, State.resizeTurn_frame _, Turned.follow_frame _]

theorem State.admitNow_frame (s : State) (slot : Nat) (c : Cmd) : KeepsBase s (State.admitNow s slot c) ∧
    (State.admitNow s slot c).boot.fuses = s.boot.fuses ∧ (State.admitNow s slot c).pins.resetLow = s.pins.resetLow ∧
    (State.admitNow s slot c).pins.frozen = s.pins.frozen := by
  unfold State.admitNow
  dsimp only
  (repeat' split) <;> simp [State.count_frame _, State.perform_frame _, State.updCmd_frame _]

theorem State.enterAdmission_frame (s : State) (slot : Nat) (c : Cmd) : KeepsBase s (State.enterAdmission s slot
    c) ∧ (State.enterAdmission s slot c).boot.fuses = s.boot.fuses ∧ (State.enterAdmission s slot c).pins.resetLow =
    s.pins.resetLow ∧ (State.enterAdmission s slot c).pins.frozen = s.pins.frozen := by
  unfold State.enterAdmission
  (repeat' split) <;> simp [State.admitNow_frame _, State.count_frame _, State.raise_frame _, State.updCmd_frame _]

theorem State.reserve_frame (s : State) (slot : Nat) (c : Cmd) : KeepsBase s (State.reserve s slot c) ∧
    (State.reserve s slot c).boot.fuses = s.boot.fuses ∧ (State.reserve s slot c).pins.resetLow = s.pins.resetLow ∧
    (State.reserve s slot c).pins.frozen = s.pins.frozen := by
  simp [State.reserve, State.enterAdmission_frame _, State.setCmd_frame _]

theorem State.askPips_frame (s : State) (slot : Nat) (c : Cmd) : KeepsBase s (State.askPips s slot c) ∧
    (State.askPips s slot c).boot.fuses = s.boot.fuses ∧ (State.askPips s slot c).pins.resetLow = s.pins.resetLow ∧
    (State.askPips s slot c).pins.frozen = s.pins.frozen := by
  unfold State.askPips
  (repeat' split) <;> simp [State.reserve_frame _, State.updCmd_frame _]

theorem State.order_frame (s : State) (slot : Nat) (c : Cmd) : KeepsBase s (State.order s slot c) ∧ (State.order
    s slot c).boot.fuses = s.boot.fuses ∧ (State.order s slot c).pins.resetLow = s.pins.resetLow ∧ (State.order s slot
    c).pins.frozen = s.pins.frozen := by
  unfold State.order
  (repeat' split) <;> simp [State.askPips_frame _, State.updCmd_frame _]

theorem State.interpret_frame (s : State) (slot : Nat) (c : Cmd) : KeepsBase s (State.interpret s slot c) ∧
    (State.interpret s slot c).boot.fuses = s.boot.fuses ∧ (State.interpret s slot c).pins.resetLow = s.pins.resetLow ∧
    (State.interpret s slot c).pins.frozen = s.pins.frozen := by
  unfold State.interpret
  dsimp only
  (repeat' split) <;> simp [State.complete_frame _, State.hostTimeout_frame _, State.order_frame _, State.setCmd_frame
      _]

theorem State.goOn_frame (s : State) (slot : Nat) (st : Stage) (ok : Cmd → Bool) (f : State → Cmd → State) : ((∀
    x c, (f x c).pending = x.pending) → (s.goOn slot st ok f).pending = s.pending) ∧ ((∀ x c, (f x c).armed = x.armed) →
    (s.goOn slot st ok f).armed = s.armed) ∧ ((∀ x c, (f x c).posted = x.posted) → (s.goOn slot st ok f).posted =
    s.posted) ∧ ((∀ x c, (f x c).late = x.late) → (s.goOn slot st ok f).late = s.late) ∧ ((∀ x c, (f x c).isolated =
    x.isolated) → (s.goOn slot st ok f).isolated = s.isolated) ∧ ((∀ x c, (f x c).failedCores = x.failedCores) → (s.goOn
    slot st ok f).failedCores = s.failedCores) ∧ ((∀ x c, (f x c).mtf = x.mtf) → (s.goOn slot st ok f).mtf = s.mtf) ∧
    ((∀ x c, (f x c).mat = x.mat) → (s.goOn slot st ok f).mat = s.mat) ∧ ((∀ x c, (f x c).mules = x.mules) → (s.goOn
    slot st ok f).mules = s.mules) ∧ ((∀ x c, (f x c).sdram = x.sdram) → (s.goOn slot st ok f).sdram = s.sdram) ∧ ((∀ x
    c, (f x c).ram = x.ram) → (s.goOn slot st ok f).ram = s.ram) ∧ ((∀ x c, (f x c).free = x.free) → (s.goOn slot st ok
    f).free = s.free) ∧ ((∀ x c, (f x c).out = x.out) → (s.goOn slot st ok f).out = s.out) ∧ ((∀ x c, (f x c).regs =
    x.regs) → (s.goOn slot st ok f).regs = s.regs) ∧ ((∀ x c, (f x c).stat = x.stat) → (s.goOn slot st ok f).stat =
    s.stat) ∧ ((∀ x c, (f x c).evlog = x.evlog) → (s.goOn slot st ok f).evlog = s.evlog) ∧ ((∀ x c, (f x c).nss = x.nss)
    → (s.goOn slot st ok f).nss = s.nss) ∧ ((∀ x c, (f x c).deferred = x.deferred) → (s.goOn slot st ok f).deferred =
    s.deferred) ∧ ((∀ x c, (f x c).power = x.power) → (s.goOn slot st ok f).power = s.power) ∧ ((∀ x c, (f x c).herd =
    x.herd) → (s.goOn slot st ok f).herd = s.herd) ∧ ((∀ x c, (f x c).map = x.map) → (s.goOn slot st ok f).map = s.map)
    ∧ ((∀ x c, (f x c).place = x.place) → (s.goOn slot st ok f).place = s.place) ∧ ((∀ x c, (f x c).media = x.media) →
    (s.goOn slot st ok f).media = s.media) ∧ ((∀ x c, (f x c).cmds = x.cmds) → (s.goOn slot st ok f).cmds = s.cmds) ∧
    ((∀ x c, (f x c).hosts = x.hosts) → (s.goOn slot st ok f).hosts = s.hosts) ∧ ((∀ x c, (f x c).pools = x.pools) →
    (s.goOn slot st ok f).pools = s.pools) ∧ ((∀ x c, (f x c).boot = x.boot) → (s.goOn slot st ok f).boot = s.boot) ∧
    ((∀ x c, (f x c).pins = x.pins) → (s.goOn slot st ok f).pins = s.pins) ∧ ((∀ x c, (f x c).pins.resetLow =
    x.pins.resetLow) → (s.goOn slot st ok f).pins.resetLow = s.pins.resetLow) ∧ ((∀ x c, (f x c).pins.frozen =
    x.pins.frozen) → (s.goOn slot st ok f).pins.frozen = s.pins.frozen) ∧ ((∀ x c, (f x c).boot.fuses = x.boot.fuses) →
    (s.goOn slot st ok f).boot.fuses = s.boot.fuses) := by
  unfold State.goOn
  (repeat' split) <;> simp +contextual

theorem State.retry_frame (s : State) (slot : Nat) (st : Stage) : KeepsBase s (State.retry s slot st) ∧
    (State.retry s slot st).boot.fuses = s.boot.fuses ∧ (State.retry s slot st).pins.resetLow = s.pins.resetLow ∧
    (State.retry s slot st).pins.frozen = s.pins.frozen := by
  unfold State.retry State.goOn
  (repeat' split) <;> simp [State.perform_frame _]

theorem State.wakeHerd_frame (s : State) : KeepsBase s (State.wakeHerd s) ∧ (State.wakeHerd s).boot.fuses =
    s.boot.fuses ∧ (State.wakeHerd s).pins.resetLow = s.pins.resetLow ∧ (State.wakeHerd s).pins.frozen = s.pins.frozen
    := by
  simp [State.wakeHerd, State.retry_frame _]

theorem wakeSlot_frame (mpn : Nat) (s : State) (slot : Nat) : KeepsBase s (wakeSlot mpn s slot) ∧ (wakeSlot mpn
    s slot).boot.fuses = s.boot.fuses ∧ (wakeSlot mpn s slot).pins.resetLow = s.pins.resetLow ∧ (wakeSlot mpn s
    slot).pins.frozen = s.pins.frozen := by
  unfold wakeSlot State.goOn
  (repeat' split) <;> simp [State.perform_frame _, State.setCmd_frame _]

theorem State.wakeMap_frame (s : State) (mpn : Nat) : KeepsBase s (State.wakeMap s mpn) ∧ (State.wakeMap s
    mpn).boot.fuses = s.boot.fuses ∧ (State.wakeMap s mpn).pins.resetLow = s.pins.resetLow ∧ (State.wakeMap s
    mpn).pins.frozen = s.pins.frozen := by
  unfold State.wakeMap
  simp [wakeSlot_frame _]

theorem State.dropPageTag_frame (s : State) (mpn : Nat) : KeepsBase s (State.dropPageTag s mpn) ∧ KeepsNotes s
    (State.dropPageTag s mpn) ∧ KeepsSpace s (State.dropPageTag s mpn) ∧ KeepsStore s (State.dropPageTag s mpn) ∧
    (State.dropPageTag s mpn).cmds = s.cmds ∧ (State.dropPageTag s mpn).pools = s.pools ∧ KeepsChip s (State.dropPageTag
    s mpn) := by
  simp [State.dropPageTag, State.setPort_frame _]

theorem moveBusiest_frame (least : Nat) (s : State) (i : Nat) : KeepsBase s (moveBusiest least s i) ∧ KeepsNotes
    s (moveBusiest least s i) ∧ KeepsSpace s (moveBusiest least s i) ∧ KeepsStore s (moveBusiest least s i) ∧
    (moveBusiest least s i).hosts = s.hosts ∧ (moveBusiest least s i).pools = s.pools ∧ KeepsChip s (moveBusiest least s
    i) := by
  unfold moveBusiest
  (repeat' split) <;> simp [State.setSq_frame _]

theorem State.rebalance_frame (s : State) (busy : List Nat) : KeepsBase s (State.rebalance s busy) ∧ KeepsNotes
    s (State.rebalance s busy) ∧ KeepsSpace s (State.rebalance s busy) ∧ KeepsStore s (State.rebalance s busy) ∧
    (State.rebalance s busy).hosts = s.hosts ∧ (State.rebalance s busy).pools = s.pools ∧ KeepsChip s (State.rebalance s
    busy) := by
  unfold State.rebalance
  dsimp only
  split <;> simp [moveBusiest_frame _]

end Sys2Proof.Machine
end

