-- ==== Sys2Proof/Laws/FramesChannels.lean ====
section
/-! SUPPORT. What the functions of herd frames, channels, carriers and power leave unchanged: one lemma for each, which lists the parts of the
state that it keeps. -/

namespace Sys2Proof.Machine

open Sys2Proof

set_option linter.all false

/-! ## Machine/HerdFrames -/

theorem State.dropFrame_frame (s : State) (plane : Nat) : KeepsBase s (State.dropFrame s plane) ∧
    (State.dropFrame s plane).free = s.free ∧ (State.dropFrame s plane).out = s.out ∧ (State.dropFrame s plane).stat =
    s.stat ∧ (State.dropFrame s plane).evlog = s.evlog ∧ KeepsSpace s (State.dropFrame s plane) ∧ KeepsStore s
    (State.dropFrame s plane) ∧ KeepsHost s (State.dropFrame s plane) ∧ KeepsChip s (State.dropFrame s plane) := by
  simp [State.dropFrame, State.count_frame _]

theorem State.heard_frame (s : State) (h : FrameHdr) : KeepsBase s (State.heard s h) ∧ KeepsNotes s (State.heard
    s h) ∧ (State.heard s h).nss = s.nss ∧ (State.heard s h).deferred = s.deferred ∧ (State.heard s h).power = s.power ∧
    KeepsStore s (State.heard s h) ∧ KeepsHost s (State.heard s h) ∧ KeepsChip s (State.heard s h) := by
  unfold State.heard
  dsimp only
  (repeat' split) <;> simp [State.freshen_frame _, State.setLink_frame _]

theorem State.ackTo_frame (s : State) (peer : Nat) (a : Word) : KeepsBase s (State.ackTo s peer a) ∧
    (State.ackTo s peer a).free = s.free ∧ (State.ackTo s peer a).regs = s.regs ∧ (State.ackTo s peer a).stat = s.stat ∧
    (State.ackTo s peer a).evlog = s.evlog ∧ (State.ackTo s peer a).nss = s.nss ∧ (State.ackTo s peer a).deferred =
    s.deferred ∧ (State.ackTo s peer a).power = s.power ∧ KeepsStore s (State.ackTo s peer a) ∧ KeepsHost s (State.ackTo
    s peer a) ∧ KeepsChip s (State.ackTo s peer a) := by
  simp [State.ackTo, State.sendWaiting_frame _, State.setLink_frame _]

theorem State.sendAck_frame (s : State) (peer : Nat) : KeepsBase s (State.sendAck s peer) ∧ (State.sendAck s
    peer).free = s.free ∧ (State.sendAck s peer).regs = s.regs ∧ (State.sendAck s peer).stat = s.stat ∧ (State.sendAck s
    peer).evlog = s.evlog ∧ (State.sendAck s peer).nss = s.nss ∧ (State.sendAck s peer).deferred = s.deferred ∧
    (State.sendAck s peer).power = s.power ∧ KeepsStore s (State.sendAck s peer) ∧ KeepsHost s (State.sendAck s peer) ∧
    KeepsChip s (State.sendAck s peer) := by
  simp [State.sendAck, State.sendUnreliable_frame _]

theorem State.accept_frame (s : State) (h : FrameHdr) (f : State → State) : ThruBase f s (State.accept s h f) ∧
    ((∀ x, (f x).free = x.free) → (State.accept s h f).free = s.free) ∧ ((∀ x, (f x).regs = x.regs) → (State.accept s h
    f).regs = s.regs) ∧ ((∀ x, (f x).stat = x.stat) → (State.accept s h f).stat = s.stat) ∧ ((∀ x, (f x).evlog =
    x.evlog) → (State.accept s h f).evlog = s.evlog) ∧ ((∀ x, (f x).nss = x.nss) → (State.accept s h f).nss = s.nss) ∧
    ((∀ x, (f x).deferred = x.deferred) → (State.accept s h f).deferred = s.deferred) ∧ ((∀ x, (f x).power = x.power) →
    (State.accept s h f).power = s.power) ∧ ThruStore f s (State.accept s h f) ∧ ThruHost f s (State.accept s h f) ∧
    ThruChip f s (State.accept s h f) := by
  unfold State.accept
  dsimp only
  (repeat' split) <;> simp +contextual [State.sendAck_frame _, State.setLink_frame _]


theorem State.accept_chip (s : State) (h : FrameHdr) (f : State → State) : ((∀ x, (f x).pins.resetLow =
    x.pins.resetLow) → (s.accept h f).pins.resetLow = s.pins.resetLow) ∧ ((∀ x, (f x).pins.frozen = x.pins.frozen) →
    (s.accept h f).pins.frozen = s.pins.frozen) ∧ ((∀ x, (f x).boot.fuses = x.boot.fuses) → (s.accept h f).boot.fuses =
    s.boot.fuses) := by
  unfold State.accept
  try dsimp only
  (repeat' split) <;> simp +contextual [State.sendAck_frame _, State.setLink_frame _]

theorem State.receive_frame (s : State) (h : FrameHdr) (len : Nat) (reliable : Bool) (f : State → State) :
    ThruBase f s (State.receive s h len reliable f) ∧ ((∀ x, (f x).free = x.free) → (State.receive s h len reliable
    f).free = s.free) ∧ ((∀ x, (f x).stat = x.stat) → (State.receive s h len reliable f).stat = s.stat) ∧ ((∀ x, (f
    x).evlog = x.evlog) → (State.receive s h len reliable f).evlog = s.evlog) ∧ ((∀ x, (f x).nss = x.nss) →
    (State.receive s h len reliable f).nss = s.nss) ∧ ((∀ x, (f x).deferred = x.deferred) → (State.receive s h len
    reliable f).deferred = s.deferred) ∧ ((∀ x, (f x).power = x.power) → (State.receive s h len reliable f).power =
    s.power) ∧ ThruStore f s (State.receive s h len reliable f) ∧ ThruHost f s (State.receive s h len reliable f) ∧
    ThruChip f s (State.receive s h len reliable f) := by
  unfold State.receive
  dsimp only
  (repeat' split) <;> simp +contextual [State.accept_frame _, State.ackTo_frame _, State.dropFrame_frame _,
      State.heard_frame _]


theorem State.receive_chip (s : State) (h : FrameHdr) (len : Nat) (reliable : Bool) (f : State → State) : ((∀ x,
    (f x).pins.resetLow = x.pins.resetLow) → (s.receive h len reliable f).pins.resetLow = s.pins.resetLow) ∧ ((∀ x, (f
    x).pins.frozen = x.pins.frozen) → (s.receive h len reliable f).pins.frozen = s.pins.frozen) ∧ ((∀ x, (f
    x).boot.fuses = x.boot.fuses) → (s.receive h len reliable f).boot.fuses = s.boot.fuses) := by
  unfold State.receive
  try dsimp only
  (repeat' split) <;> simp +contextual [State.accept_chip _, State.ackTo_frame _, State.dropFrame_frame _,
      State.heard_frame _]

theorem State.linkGoesUp_frame (s : State) (peer : Nat) (plane : Nat) (version : Nat) (peerEpoch : Nat) :
    KeepsBase s (State.linkGoesUp s peer plane version peerEpoch) ∧ (State.linkGoesUp s peer plane version
    peerEpoch).nss = s.nss ∧ (State.linkGoesUp s peer plane version peerEpoch).deferred = s.deferred ∧ (State.linkGoesUp
    s peer plane version peerEpoch).power = s.power ∧ KeepsStore s (State.linkGoesUp s peer plane version peerEpoch) ∧
    (State.linkGoesUp s peer plane version peerEpoch).cmds = s.cmds ∧ (State.linkGoesUp s peer plane version
    peerEpoch).pools = s.pools ∧ (State.linkGoesUp s peer plane version peerEpoch).boot = s.boot ∧ (State.linkGoesUp s
    peer plane version peerEpoch).pins.resetLow = s.pins.resetLow ∧ (State.linkGoesUp s peer plane version
    peerEpoch).pins.frozen = s.pins.frozen := by
  unfold State.linkGoesUp
  dsimp only
  (repeat' split) <;> simp [State.followHerd_frame _, State.followShape_frame _, State.raiseRecord_frame _,
      State.reconcile_frame _, State.sendReliable_frame _, State.setLink_frame _]

theorem State.resend_frame (s : State) (peer : Nat) : KeepsBase s (State.resend s peer) ∧ (State.resend s
    peer).free = s.free ∧ (State.resend s peer).stat = s.stat ∧ (State.resend s peer).evlog = s.evlog ∧ KeepsSpace s
    (State.resend s peer) ∧ KeepsStore s (State.resend s peer) ∧ KeepsHost s (State.resend s peer) ∧ KeepsChip s
    (State.resend s peer) := by
  simp [State.resend, State.count_frame _, State.emit_frame _]

theorem State.losePlane_frame (s : State) (peer : Nat) (plane : Nat) : KeepsBase s (State.losePlane s peer
    plane) ∧ (State.losePlane s peer plane).nss = s.nss ∧ (State.losePlane s peer plane).deferred = s.deferred ∧
    (State.losePlane s peer plane).power = s.power ∧ KeepsStore s (State.losePlane s peer plane) ∧ (State.losePlane s
    peer plane).cmds = s.cmds ∧ (State.losePlane s peer plane).pools = s.pools ∧ (State.losePlane s peer plane).boot =
    s.boot ∧ (State.losePlane s peer plane).pins.resetLow = s.pins.resetLow ∧ (State.losePlane s peer plane).pins.frozen
    = s.pins.frozen := by
  unfold State.losePlane
  dsimp only
  (repeat' split) <;> simp [State.peerDown_frame _, State.resend_frame _, State.setLink_frame _]

theorem State.answerOp_frame (s : State) (peer : Nat) (type : Nat) (op : OpHdr) (status : Nat) : KeepsBase s
    (State.answerOp s peer type op status) ∧ (State.answerOp s peer type op status).free = s.free ∧ (State.answerOp s
    peer type op status).regs = s.regs ∧ (State.answerOp s peer type op status).stat = s.stat ∧ (State.answerOp s peer
    type op status).evlog = s.evlog ∧ (State.answerOp s peer type op status).nss = s.nss ∧ (State.answerOp s peer type
    op status).deferred = s.deferred ∧ (State.answerOp s peer type op status).power = s.power ∧ KeepsStore s
    (State.answerOp s peer type op status) ∧ KeepsHost s (State.answerOp s peer type op status) ∧ KeepsChip s
    (State.answerOp s peer type op status) := by
  simp [State.answerOp, State.sendReliable_frame _]

theorem State.holdFragment_frame (s : State) (peer : Nat) (op : OpHdr) (syms : List Symbol) : KeepsBase s
    (State.holdFragment s peer op syms) ∧ (State.holdFragment s peer op syms).free = s.free ∧ (State.holdFragment s peer
    op syms).regs = s.regs ∧ (State.holdFragment s peer op syms).stat = s.stat ∧ (State.holdFragment s peer op
    syms).evlog = s.evlog ∧ (State.holdFragment s peer op syms).nss = s.nss ∧ (State.holdFragment s peer op
    syms).deferred = s.deferred ∧ (State.holdFragment s peer op syms).power = s.power ∧ KeepsStore s (State.holdFragment
    s peer op syms) ∧ KeepsHost s (State.holdFragment s peer op syms) ∧ KeepsChip s (State.holdFragment s peer op syms)
    := by
  unfold State.holdFragment
  dsimp only
  (repeat' split) <;> simp [State.answerOp_frame _]

theorem State.settleIncoming_frame (s : State) (x : Incoming) : KeepsBase s (State.settleIncoming s x) ∧
    (State.settleIncoming s x).free = s.free ∧ (State.settleIncoming s x).regs = s.regs ∧ (State.settleIncoming s
    x).stat = s.stat ∧ (State.settleIncoming s x).evlog = s.evlog ∧ (State.settleIncoming s x).nss = s.nss ∧
    (State.settleIncoming s x).deferred = s.deferred ∧ (State.settleIncoming s x).power = s.power ∧ KeepsStore s
    (State.settleIncoming s x) ∧ KeepsHost s (State.settleIncoming s x) ∧ KeepsChip s (State.settleIncoming s x) := by
  unfold State.settleIncoming
  dsimp only
  (repeat' split) <;> simp [State.holdFragment_frame _]

theorem State.peerLink_frame (s : State) (q : Nat) (up : Bool) : KeepsBase s (State.peerLink s q up) ∧
    (State.peerLink s q up).nss = s.nss ∧ (State.peerLink s q up).deferred = s.deferred ∧ (State.peerLink s q up).power
    = s.power ∧ KeepsStore s (State.peerLink s q up) ∧ (State.peerLink s q up).cmds = s.cmds ∧ (State.peerLink s q
    up).pools = s.pools ∧ (State.peerLink s q up).boot = s.boot ∧ (State.peerLink s q up).pins.resetLow =
    s.pins.resetLow ∧ (State.peerLink s q up).pins.frozen = s.pins.frozen := by
  unfold State.peerLink
  dsimp only
  (repeat' split) <;> simp [State.followPeerPorts_frame _, State.losePlane_frame _, State.recordFault_frame _,
      State.setFld_frame _]

/-! ## Machine/Channels -/

theorem State.setChan_frame (s : State) (ch : Nat) (c : Chan) : KeepsBase s (State.setChan s ch c) ∧ KeepsNotes
    s (State.setChan s ch c) ∧ KeepsSpace s (State.setChan s ch c) ∧ (State.setChan s ch c).map = s.map ∧ (State.setChan
    s ch c).place = s.place ∧ KeepsHost s (State.setChan s ch c) ∧ KeepsChip s (State.setChan s ch c) := by
  simp [State.setChan]

theorem State.sweepReleases_frame (s : State) : KeepsBase s (State.sweepReleases s) ∧ (State.sweepReleases
    s).free = s.free ∧ (State.sweepReleases s).regs = s.regs ∧ (State.sweepReleases s).evlog = s.evlog ∧ KeepsSpace s
    (State.sweepReleases s) ∧ KeepsStore s (State.sweepReleases s) ∧ (State.sweepReleases s).cmds = s.cmds ∧
    (State.sweepReleases s).hosts = s.hosts ∧ KeepsChip s (State.sweepReleases s) := by
  simp [State.sweepReleases, State.freeBuf_frame _]

theorem State.endDesc_frame (s : State) (d : Desc) (ch : Nat) (code : Nat) (suspends : Nat) (stat : Nat)
    (elapsed : Nat) : KeepsBase s (State.endDesc s d ch code suspends stat elapsed) ∧ (State.endDesc s d ch code
    suspends stat elapsed).free = s.free ∧ (State.endDesc s d ch code suspends stat elapsed).regs = s.regs ∧
    (State.endDesc s d ch code suspends stat elapsed).evlog = s.evlog ∧ KeepsSpace s (State.endDesc s d ch code suspends
    stat elapsed) ∧ (State.endDesc s d ch code suspends stat elapsed).map = s.map ∧ (State.endDesc s d ch code suspends
    stat elapsed).place = s.place ∧ (State.endDesc s d ch code suspends stat elapsed).cmds = s.cmds ∧ (State.endDesc s d
    ch code suspends stat elapsed).hosts = s.hosts ∧ KeepsChip s (State.endDesc s d ch code suspends stat elapsed) := by
  unfold State.endDesc
  dsimp only
  (repeat' split) <;> simp [State.emit_frame _, State.setChan_frame _, State.sweepReleases_frame _]

theorem State.endFree_frame (s : State) (d : Desc) (ch : Nat) (code : Nat) (suspends : Nat) : KeepsBase s
    (State.endFree s d ch code suspends) ∧ (State.endFree s d ch code suspends).regs = s.regs ∧ (State.endFree s d ch
    code suspends).evlog = s.evlog ∧ KeepsSpace s (State.endFree s d ch code suspends) ∧ (State.endFree s d ch code
    suspends).map = s.map ∧ (State.endFree s d ch code suspends).place = s.place ∧ (State.endFree s d ch code
    suspends).cmds = s.cmds ∧ (State.endFree s d ch code suspends).hosts = s.hosts ∧ KeepsChip s (State.endFree s d ch
    code suspends) := by
  simp [State.endFree, State.endDesc_frame _, State.takeFree_frame _]

theorem State.followJournal_frame (s : State) (old : State) : KeepsBase s (State.followJournal s old) ∧
    (State.followJournal s old).nss = s.nss ∧ (State.followJournal s old).deferred = s.deferred ∧ (State.followJournal s
    old).herd = s.herd ∧ KeepsStore s (State.followJournal s old) ∧ (State.followJournal s old).cmds = s.cmds ∧
    (State.followJournal s old).pools = s.pools ∧ (State.followJournal s old).boot = s.boot ∧ (State.followJournal s
    old).pins.resetLow = s.pins.resetLow ∧ (State.followJournal s old).pins.frozen = s.pins.frozen := by
  unfold State.followJournal
  (repeat' split) <;> simp [State.raiseRecord_frame _, State.reason_frame _]

theorem State.mediaChanged_frame (s : State) (old : State) : KeepsBase s (State.mediaChanged s old) ∧
    (State.mediaChanged s old).deferred = s.deferred ∧ (State.mediaChanged s old).herd = s.herd ∧ (State.mediaChanged s
    old).map = s.map ∧ (State.mediaChanged s old).media = s.media ∧ (State.mediaChanged s old).cmds = s.cmds ∧
    (State.mediaChanged s old).pools = s.pools ∧ (State.mediaChanged s old).boot = s.boot ∧ (State.mediaChanged s
    old).pins.resetLow = s.pins.resetLow ∧ (State.mediaChanged s old).pins.frozen = s.pins.frozen := by
  unfold State.mediaChanged
  (repeat' split) <;> simp [State.followCapacity_frame _, State.followGen_frame _, State.followJournal_frame _,
      State.followRedundancy_frame _, State.reviewFences_frame _]

theorem State.dropDescs_frame (s : State) (dks : List Nat) : KeepsBase s (State.dropDescs s dks) ∧
    (State.dropDescs s dks).regs = s.regs ∧ (State.dropDescs s dks).evlog = s.evlog ∧ KeepsSpace s (State.dropDescs s
    dks) ∧ (State.dropDescs s dks).map = s.map ∧ (State.dropDescs s dks).place = s.place ∧ (State.dropDescs s dks).cmds
    = s.cmds ∧ (State.dropDescs s dks).hosts = s.hosts ∧ KeepsChip s (State.dropDescs s dks) := by
  unfold State.dropDescs
  exact foldl_rel (P := fun s t : State => KeepsBase s t ∧ t.regs = s.regs ∧ t.evlog = s.evlog ∧ KeepsSpace s t ∧ t.map = s.map ∧ t.place = s.place ∧ t.cmds = s.cmds ∧ t.hosts = s.hosts ∧ KeepsChip s t) (by simp [State.endFree_frame _, State.setChan_frame _, State.setDie_frame _]) (by intro a b c h1 h2; simp_all [State.endFree_frame _, State.setChan_frame _, State.setDie_frame _]) _ (by intro s x; dsimp only; (repeat' split) <;> simp [State.endFree_frame _, State.setChan_frame _, State.setDie_frame _]) _ _

theorem State.closeBandsOn_frame (s : State) (hit : Nat → Bool) : KeepsBase s (State.closeBandsOn s hit) ∧
    KeepsNotes s (State.closeBandsOn s hit) ∧ KeepsSpace s (State.closeBandsOn s hit) ∧ (State.closeBandsOn s hit).map =
    s.map ∧ (State.closeBandsOn s hit).media = s.media ∧ KeepsHost s (State.closeBandsOn s hit) ∧ KeepsChip s
    (State.closeBandsOn s hit) := by
  simp [State.closeBandsOn, State.closeBand_frame _]

theorem State.failDies_frame (s : State) (dks : List Nat) : KeepsBase s (State.failDies s dks) ∧ KeepsSpace s
    (State.failDies s dks) ∧ (State.failDies s dks).map = s.map ∧ (State.failDies s dks).cmds = s.cmds ∧ (State.failDies
    s dks).boot = s.boot ∧ (State.failDies s dks).pins.resetLow = s.pins.resetLow ∧ (State.failDies s dks).pins.frozen =
    s.pins.frozen := by
  simp [State.failDies, State.closeBandsOn_frame _, State.dropDescs_frame _, State.failMembers_frame _,
      State.setReg_frame _]

theorem State.setCarrier_frame (s : State) (c : Nat) (x : Carrier) : KeepsBase s (State.setCarrier s c x) ∧
    KeepsNotes s (State.setCarrier s c x) ∧ KeepsSpace s (State.setCarrier s c x) ∧ (State.setCarrier s c x).map = s.map
    ∧ (State.setCarrier s c x).place = s.place ∧ KeepsHost s (State.setCarrier s c x) ∧ KeepsChip s (State.setCarrier s
    c x) := by
  simp [State.setCarrier]

theorem State.setCarState_frame (s : State) (c : Nat) (st : Nat) : KeepsBase s (State.setCarState s c st) ∧
    (State.setCarState s c st).free = s.free ∧ (State.setCarState s c st).out = s.out ∧ (State.setCarState s c st).stat
    = s.stat ∧ (State.setCarState s c st).evlog = s.evlog ∧ KeepsSpace s (State.setCarState s c st) ∧ KeepsStore s
    (State.setCarState s c st) ∧ KeepsHost s (State.setCarState s c st) ∧ KeepsChip s (State.setCarState s c st) := by
  unfold State.setCarState
  dsimp only
  (repeat' split) <;> simp [State.setFld_frame _]

theorem State.clearCarrier_frame (s : State) (c : Nat) : KeepsBase s (State.clearCarrier s c) ∧
    (State.clearCarrier s c).free = s.free ∧ (State.clearCarrier s c).out = s.out ∧ (State.clearCarrier s c).stat =
    s.stat ∧ (State.clearCarrier s c).evlog = s.evlog ∧ KeepsSpace s (State.clearCarrier s c) ∧ (State.clearCarrier s
    c).map = s.map ∧ (State.clearCarrier s c).place = s.place ∧ KeepsHost s (State.clearCarrier s c) ∧ KeepsChip s
    (State.clearCarrier s c) := by
  simp [State.clearCarrier, State.setFld_frame _, State.setReg_frame _]

theorem State.writeRecord_frame (s : State) (c : Nat) (flags : Nat) : KeepsBase s (State.writeRecord s c flags)
    ∧ (State.writeRecord s c flags).free = s.free ∧ (State.writeRecord s c flags).stat = s.stat ∧ (State.writeRecord s c
    flags).evlog = s.evlog ∧ KeepsSpace s (State.writeRecord s c flags) ∧ (State.writeRecord s c flags).map = s.map ∧
    (State.writeRecord s c flags).place = s.place ∧ KeepsHost s (State.writeRecord s c flags) ∧ KeepsChip s
    (State.writeRecord s c flags) := by
  simp [State.writeRecord, State.emit_frame _, State.setCarrier_frame _, State.setReg_frame _]

theorem State.advanceEpoch_frame (s : State) : KeepsBase s (State.advanceEpoch s) ∧ (State.advanceEpoch s).free
    = s.free ∧ (State.advanceEpoch s).stat = s.stat ∧ (State.advanceEpoch s).evlog = s.evlog ∧ KeepsSpace s
    (State.advanceEpoch s) ∧ (State.advanceEpoch s).map = s.map ∧ (State.advanceEpoch s).place = s.place ∧ KeepsHost s
    (State.advanceEpoch s) ∧ KeepsChip s (State.advanceEpoch s) := by
  simp [State.advanceEpoch, State.setReg_frame _, State.writeRecord_frame _]

theorem State.dropStaged_frame (s : State) (c : Nat) : KeepsBase s (State.dropStaged s c) ∧ KeepsNotes s
    (State.dropStaged s c) ∧ KeepsSpace s (State.dropStaged s c) ∧ (State.dropStaged s c).map = s.map ∧
    (State.dropStaged s c).media = s.media ∧ KeepsHost s (State.dropStaged s c) ∧ KeepsChip s (State.dropStaged s c) :=
    by
  simp [State.dropStaged]

theorem State.cutErases_frame (s : State) (dks : List Nat) : KeepsBase s (State.cutErases s dks) ∧ KeepsSpace s
    (State.cutErases s dks) ∧ KeepsStore s (State.cutErases s dks) ∧ KeepsHost s (State.cutErases s dks) ∧ KeepsChip s
    (State.cutErases s dks) := by
  unfold State.cutErases
  exact foldl_rel (P := fun s t : State => KeepsBase s t ∧ KeepsSpace s t ∧ KeepsStore s t ∧ KeepsHost s t ∧ KeepsChip s t) (by simp [State.raiseRecord_frame _]) (by intro a b c h1 h2; simp_all [State.raiseRecord_frame _]) _ (by intro s x; dsimp only; (repeat' split) <;> simp [State.raiseRecord_frame _]) _ _

theorem State.switchOff_frame (s : State) (c : Nat) : KeepsBase s (State.switchOff s c) ∧ KeepsSpace s
    (State.switchOff s c) ∧ (State.switchOff s c).map = s.map ∧ (State.switchOff s c).cmds = s.cmds ∧ (State.switchOff s
    c).hosts = s.hosts ∧ KeepsChip s (State.switchOff s c) := by
  simp [State.switchOff, State.clearCarrier_frame _, State.cutErases_frame _, State.dropDescs_frame _,
      State.dropStaged_frame _, State.setFld_frame _]

theorem State.leaveService_frame (s : State) (c : Nat) : KeepsBase s (State.leaveService s c) ∧ KeepsSpace s
    (State.leaveService s c) ∧ (State.leaveService s c).map = s.map ∧ (State.leaveService s c).cmds = s.cmds ∧
    (State.leaveService s c).pools = s.pools ∧ (State.leaveService s c).boot = s.boot ∧ (State.leaveService s
    c).pins.resetLow = s.pins.resetLow ∧ (State.leaveService s c).pins.frozen = s.pins.frozen := by
  simp [State.leaveService, State.closeBandsOn_frame _, State.failMembers_frame _, State.setCarrier_frame _]

theorem State.depart_frame (s : State) (c : Nat) (gone : Bool) : KeepsBase s (State.depart s c gone) ∧
    KeepsSpace s (State.depart s c gone) ∧ (State.depart s c gone).map = s.map ∧ (State.depart s c gone).cmds = s.cmds ∧
    (State.depart s c gone).boot = s.boot ∧ (State.depart s c gone).pins.resetLow = s.pins.resetLow ∧ (State.depart s c
    gone).pins.frozen = s.pins.frozen := by
  have h : KeepsBase s (if 5 ≤ s.carState c then s.leaveService c else s) ∧ KeepsSpace s (if 5 ≤ s.carState c then
      s.leaveService c else s) ∧ (if 5 ≤ s.carState c then s.leaveService c else s).map = s.map ∧ (if 5 ≤ s.carState c
      then s.leaveService c else s).cmds = s.cmds ∧ (if 5 ≤ s.carState c then s.leaveService c else s).boot = s.boot ∧
      (if 5 ≤ s.carState c then s.leaveService c else s).pins.resetLow = s.pins.resetLow ∧ (if 5 ≤ s.carState c then
      s.leaveService c else s).pins.frozen = s.pins.frozen := by
    split <;> simp [State.advanceEpoch_frame _, State.leaveService_frame _, State.raiseRecord_frame _,
        State.recordFault_frame _, State.setCarState_frame _, State.switchOff_frame _]
  generalize ht : s.depart c gone = t
  unfold State.depart at ht
  dsimp only at ht
  generalize (if 5 ≤ s.carState c then s.leaveService c else s) = u at *
  subst ht
  simp_all [State.advanceEpoch_frame _, State.leaveService_frame _, State.raiseRecord_frame _, State.recordFault_frame
      _, State.setCarState_frame _, State.switchOff_frame _]

theorem State.failCarrierIf_frame (s : State) (c : Nat) : KeepsBase s (State.failCarrierIf s c) ∧ KeepsSpace s
    (State.failCarrierIf s c) ∧ (State.failCarrierIf s c).map = s.map ∧ (State.failCarrierIf s c).cmds = s.cmds ∧
    (State.failCarrierIf s c).boot = s.boot ∧ (State.failCarrierIf s c).pins.resetLow = s.pins.resetLow ∧
    (State.failCarrierIf s c).pins.frozen = s.pins.frozen := by
  unfold State.failCarrierIf
  dsimp only
  (repeat' split) <;> simp [State.depart_frame _]

theorem State.failChannel_frame (s : State) (ch : Nat) : KeepsBase s (State.failChannel s ch) ∧ KeepsSpace s
    (State.failChannel s ch) ∧ (State.failChannel s ch).map = s.map ∧ (State.failChannel s ch).cmds = s.cmds ∧
    (State.failChannel s ch).boot = s.boot ∧ (State.failChannel s ch).pins.resetLow = s.pins.resetLow ∧
    (State.failChannel s ch).pins.frozen = s.pins.frozen := by
  simp [State.failChannel, State.failCarrierIf_frame _, State.failDies_frame _, State.raiseRecord_frame _,
      State.recordFault_frame _]

theorem State.failDie_frame (s : State) (dk : Nat) : KeepsBase s (State.failDie s dk) ∧ KeepsSpace s
    (State.failDie s dk) ∧ (State.failDie s dk).map = s.map ∧ (State.failDie s dk).cmds = s.cmds ∧ (State.failDie s
    dk).boot = s.boot ∧ (State.failDie s dk).pins.resetLow = s.pins.resetLow ∧ (State.failDie s dk).pins.frozen =
    s.pins.frozen := by
  unfold State.failDie
  dsimp only
  (repeat' split) <;> simp [State.failChannel_frame _, State.failDies_frame _, State.raiseRecord_frame _,
      State.recordFault_frame _]

theorem State.post_frame (s : State) (ch : Nat) (queue : Nat) (byCore : Bool) (bits : BitVec 256) : KeepsBase s
    (State.post s ch queue byCore bits) ∧ (State.post s ch queue byCore bits).regs = s.regs ∧ (State.post s ch queue
    byCore bits).evlog = s.evlog ∧ KeepsSpace s (State.post s ch queue byCore bits) ∧ (State.post s ch queue byCore
    bits).map = s.map ∧ (State.post s ch queue byCore bits).place = s.place ∧ (State.post s ch queue byCore bits).cmds =
    s.cmds ∧ (State.post s ch queue byCore bits).hosts = s.hosts ∧ KeepsChip s (State.post s ch queue byCore bits) := by
  unfold State.post
  dsimp only
  (repeat' split) <;> simp [State.endFree_frame _, State.setChan_frame _]

theorem State.takeDesc_frame (s : State) (ch : Nat) (d : Desc) : KeepsBase s (State.takeDesc s ch d) ∧
    KeepsNotes s (State.takeDesc s ch d) ∧ KeepsSpace s (State.takeDesc s ch d) ∧ (State.takeDesc s ch d).map = s.map ∧
    (State.takeDesc s ch d).place = s.place ∧ KeepsHost s (State.takeDesc s ch d) ∧ KeepsChip s (State.takeDesc s ch d)
    := by
  simp [State.takeDesc, State.setChan_frame _]

theorem State.beginDesc_frame (s : State) (ch : Nat) (d : Desc) : KeepsBase s (s.beginDesc ch d) ∧ (s.beginDesc
    ch d).free = s.free ∧ (s.beginDesc ch d).regs = s.regs ∧ (s.beginDesc ch d).stat = s.stat ∧ (s.beginDesc ch d).evlog
    = s.evlog ∧ KeepsSpace s (s.beginDesc ch d) ∧ (s.beginDesc ch d).map = s.map ∧ (s.beginDesc ch d).place = s.place ∧
    KeepsHost s (s.beginDesc ch d) ∧ KeepsChip s (s.beginDesc ch d) := by
  unfold State.beginDesc
  simp [State.emit_frame _, State.setDie_frame _]

theorem State.markBlock_frame (s : State) (dk block value : Nat) (t : State) (h : s.markBlock dk block value = some t) :
    KeepsBase s t ∧ KeepsSpace s t ∧ t.map = s.map ∧ t.cmds = s.cmds ∧ t.pools = s.pools ∧ t.boot = s.boot ∧
    t.pins.resetLow = s.pins.resetLow ∧ t.pins.frozen = s.pins.frozen := by
  unfold State.markBlock at h
  dsimp only at h
  (repeat' split at h) <;> first | (cases h; done) | (obtain rfl := Option.some.inj h; simp [State.retireBlock_frame _, State.setBlock_frame _, State.setDie_frame _])

theorem State.startDesc_frame (s : State) (ch : Nat) (d : Desc) : KeepsBase s (State.startDesc s ch d) ∧
    KeepsSpace s (State.startDesc s ch d) ∧ (State.startDesc s ch d).map = s.map ∧ (State.startDesc s ch d).cmds =
    s.cmds ∧ (State.startDesc s ch d).boot = s.boot ∧ (State.startDesc s ch d).pins.resetLow = s.pins.resetLow ∧
    (State.startDesc s ch d).pins.frozen = s.pins.frozen := by
  generalize ht : s.startDesc ch d = t
  unfold State.startDesc at ht
  dsimp only at ht
  (repeat' split at ht) <;> subst ht <;> first
    | (simp [State.beginDesc_frame _, State.count_frame _, State.endFree_frame _, State.eraseBegin_frame _, State.failDie_frame _, State.markBlock_frame _, State.raiseRecord_frame _, State.takeDesc_frame _]; done)
    | (rename_i e; have := State.markBlock_frame _ _ _ _ _ e; simp_all [State.beginDesc_frame _, State.count_frame _, State.endFree_frame _, State.eraseBegin_frame _, State.failDie_frame _, State.markBlock_frame _, State.raiseRecord_frame _, State.takeDesc_frame _])

theorem State.dispatchDie_frame (s : State) (ch : Nat) (die : Nat) : KeepsBase s (State.dispatchDie s ch die) ∧
    KeepsSpace s (State.dispatchDie s ch die) ∧ (State.dispatchDie s ch die).map = s.map ∧ (State.dispatchDie s ch
    die).cmds = s.cmds ∧ (State.dispatchDie s ch die).boot = s.boot ∧ (State.dispatchDie s ch die).pins.resetLow =
    s.pins.resetLow ∧ (State.dispatchDie s ch die).pins.frozen = s.pins.frozen := by
  unfold State.dispatchDie
  dsimp only
  (repeat' split) <;> simp [State.emit_frame _, State.setDie_frame _, State.startDesc_frame _]

theorem State.takeBytes_frame (s : State) (n : Nat) : KeepsBase s (State.takeBytes s n).2 ∧ (State.takeBytes s
    n).2.out = s.out ∧ (State.takeBytes s n).2.regs = s.regs ∧ (State.takeBytes s n).2.stat = s.stat ∧ (State.takeBytes
    s n).2.evlog = s.evlog ∧ KeepsSpace s (State.takeBytes s n).2 ∧ KeepsStore s (State.takeBytes s n).2 ∧ KeepsHost s
    (State.takeBytes s n).2 ∧ KeepsChip s (State.takeBytes s n).2 := by
  simp [State.takeBytes]

theorem State.rawBytes_frame (s : State) (addr : Nat) (slot : Nat) (retry : Nat) : KeepsBase s (State.rawBytes s
    addr slot retry).2 ∧ (State.rawBytes s addr slot retry).2.out = s.out ∧ (State.rawBytes s addr slot retry).2.regs =
    s.regs ∧ (State.rawBytes s addr slot retry).2.stat = s.stat ∧ (State.rawBytes s addr slot retry).2.evlog = s.evlog ∧
    KeepsSpace s (State.rawBytes s addr slot retry).2 ∧ KeepsStore s (State.rawBytes s addr slot retry).2 ∧ KeepsHost s
    (State.rawBytes s addr slot retry).2 ∧ KeepsChip s (State.rawBytes s addr slot retry).2 := by
  unfold State.rawBytes
  (repeat' split) <;> simp [State.takeBytes_frame _]

theorem State.readOut_frame (s : State) (dk : Nat) (d : Desc) : (State.readOut s dk d).pending = s.pending ∧
    (State.readOut s dk d).armed = s.armed ∧ (State.readOut s dk d).posted = s.posted ∧ (State.readOut s dk d).late =
    s.late ∧ (State.readOut s dk d).isolated = s.isolated ∧ (State.readOut s dk d).failedCores = s.failedCores ∧
    (State.readOut s dk d).mtf = s.mtf ∧ (State.readOut s dk d).mat = s.mat ∧ (State.readOut s dk d).mules = s.mules ∧
    (State.readOut s dk d).out = s.out ∧ (State.readOut s dk d).stat = s.stat ∧ (State.readOut s dk d).evlog = s.evlog ∧
    KeepsSpace s (State.readOut s dk d) ∧ KeepsStore s (State.readOut s dk d) ∧ KeepsHost s (State.readOut s dk d) ∧
    KeepsChip s (State.readOut s dk d) := by
  simp [State.readOut, State.rawBytes_frame _, State.store_frame _]

theorem State.trailersOut_frame (s : State) (dk : Nat) (d : Desc) : (State.trailersOut s dk d).pending =
    s.pending ∧ (State.trailersOut s dk d).armed = s.armed ∧ (State.trailersOut s dk d).posted = s.posted ∧
    (State.trailersOut s dk d).late = s.late ∧ (State.trailersOut s dk d).isolated = s.isolated ∧ (State.trailersOut s
    dk d).failedCores = s.failedCores ∧ (State.trailersOut s dk d).mtf = s.mtf ∧ (State.trailersOut s dk d).mat = s.mat
    ∧ (State.trailersOut s dk d).mules = s.mules ∧ (State.trailersOut s dk d).out = s.out ∧ (State.trailersOut s dk
    d).stat = s.stat ∧ (State.trailersOut s dk d).evlog = s.evlog ∧ KeepsSpace s (State.trailersOut s dk d) ∧ KeepsStore
    s (State.trailersOut s dk d) ∧ KeepsHost s (State.trailersOut s dk d) ∧ KeepsChip s (State.trailersOut s dk d) := by
  simp [State.trailersOut, State.store_frame _]

theorem State.programmed_frame (s : State) (dk : Nat) (d : Desc) (ok : Bool) : (State.programmed s dk d
    ok).pending = s.pending ∧ (State.programmed s dk d ok).armed = s.armed ∧ (State.programmed s dk d ok).posted =
    s.posted ∧ (State.programmed s dk d ok).late = s.late ∧ (State.programmed s dk d ok).isolated = s.isolated ∧
    (State.programmed s dk d ok).failedCores = s.failedCores ∧ (State.programmed s dk d ok).mtf = s.mtf ∧
    (State.programmed s dk d ok).mat = s.mat ∧ (State.programmed s dk d ok).mules = s.mules ∧ (State.programmed s dk d
    ok).ram = s.ram ∧ (State.programmed s dk d ok).out = s.out ∧ (State.programmed s dk d ok).stat = s.stat ∧
    (State.programmed s dk d ok).evlog = s.evlog ∧ KeepsSpace s (State.programmed s dk d ok) ∧ (State.programmed s dk d
    ok).map = s.map ∧ (State.programmed s dk d ok).place = s.place ∧ KeepsHost s (State.programmed s dk d ok) ∧
    KeepsChip s (State.programmed s dk d ok) := by
  unfold State.programmed
  (repeat' split) <;> simp [State.setBlock_frame _, State.touch_frame _]

theorem State.completeOp_frame (s : State) (ch : Nat) (die : Nat) (o : DieOp) (ok : Bool) (stat : Nat) (elapsed
    : Nat) : (State.completeOp s ch die o ok stat elapsed).pending = s.pending ∧ (State.completeOp s ch die o ok stat
    elapsed).armed = s.armed ∧ (State.completeOp s ch die o ok stat elapsed).posted = s.posted ∧ (State.completeOp s ch
    die o ok stat elapsed).late = s.late ∧ (State.completeOp s ch die o ok stat elapsed).isolated = s.isolated ∧
    (State.completeOp s ch die o ok stat elapsed).failedCores = s.failedCores ∧ (State.completeOp s ch die o ok stat
    elapsed).mtf = s.mtf ∧ (State.completeOp s ch die o ok stat elapsed).mat = s.mat ∧ (State.completeOp s ch die o ok
    stat elapsed).mules = s.mules ∧ KeepsSpace s (State.completeOp s ch die o ok stat elapsed) ∧ (State.completeOp s ch
    die o ok stat elapsed).map = s.map ∧ (State.completeOp s ch die o ok stat elapsed).cmds = s.cmds ∧ (State.completeOp
    s ch die o ok stat elapsed).boot = s.boot ∧ (State.completeOp s ch die o ok stat elapsed).pins.resetLow =
    s.pins.resetLow ∧ (State.completeOp s ch die o ok stat elapsed).pins.frozen = s.pins.frozen := by
  unfold State.completeOp
  dsimp only
  (repeat' split) <;> simp [State.endDesc_frame _, State.eraseEnd_frame _, State.programmed_frame _, State.readOut_frame
      _, State.setDie_frame _, State.setFld_frame _, State.store_frame _, State.takeBytes_frame _,
      State.trailersOut_frame _]

theorem State.trainChannel_frame (s : State) (ch : Nat) (trains : List Bool) : KeepsBase s (State.trainChannel s
    ch trains) ∧ KeepsSpace s (State.trainChannel s ch trains) ∧ (State.trainChannel s ch trains).map = s.map ∧
    (State.trainChannel s ch trains).cmds = s.cmds ∧ (State.trainChannel s ch trains).boot = s.boot ∧
    (State.trainChannel s ch trains).pins.resetLow = s.pins.resetLow ∧ (State.trainChannel s ch trains).pins.frozen =
    s.pins.frozen := by
  unfold State.trainChannel
  dsimp only
  (repeat' split) <;> simp [State.failChannel_frame _, State.raiseRecord_frame _, State.setFld_frame _]

/-! ## Machine/Carriers -/

theorem State.takeDie_frame (s : State) (dk : Nat) (p : DieParams) : KeepsBase s (State.takeDie s dk p) ∧
    KeepsNotes s (State.takeDie s dk p) ∧ KeepsSpace s (State.takeDie s dk p) ∧ (State.takeDie s dk p).map = s.map ∧
    KeepsHost s (State.takeDie s dk p) ∧ KeepsChip s (State.takeDie s dk p) := by
  unfold State.takeDie
  dsimp only
  (repeat' split) <;> simp [State.setDie_frame _]

theorem State.takeOneDie_frame (s : State) (ch d : Nat) (p : DieParams) (bad : Bool) : KeepsBase s (s.takeOneDie
    ch d p bad) ∧ KeepsSpace s (s.takeOneDie ch d p bad) ∧ (s.takeOneDie ch d p bad).map = s.map ∧ (s.takeOneDie ch d p
    bad).cmds = s.cmds ∧ (s.takeOneDie ch d p bad).boot = s.boot ∧ (s.takeOneDie ch d p bad).pins.resetLow =
    s.pins.resetLow ∧ (s.takeOneDie ch d p bad).pins.frozen = s.pins.frozen := by
  unfold State.takeOneDie
  dsimp only
  (repeat' split) <;> simp [State.raiseRecord_frame _, State.takeDie_frame _]

theorem State.takeChannel_frame (s : State) (ch : Nat) (dies : List DieParams) : KeepsBase s (State.takeChannel
    s ch dies) ∧ KeepsSpace s (State.takeChannel s ch dies) ∧ (State.takeChannel s ch dies).map = s.map ∧
    (State.takeChannel s ch dies).cmds = s.cmds ∧ (State.takeChannel s ch dies).boot = s.boot ∧ (State.takeChannel s ch
    dies).pins.resetLow = s.pins.resetLow ∧ (State.takeChannel s ch dies).pins.frozen = s.pins.frozen := by
  unfold State.takeChannel
  simp [State.setFld_frame _, State.setReg_frame _, State.takeOneDie_frame _, State.trainChannel_frame _]

theorem State.firstFlags_frame (s : State) (dk : Nat) : KeepsBase s (State.firstFlags s dk) ∧ KeepsNotes s
    (State.firstFlags s dk) ∧ KeepsSpace s (State.firstFlags s dk) ∧ (State.firstFlags s dk).map = s.map ∧
    (State.firstFlags s dk).place = s.place ∧ KeepsHost s (State.firstFlags s dk) ∧ KeepsChip s (State.firstFlags s dk)
    := by
  unfold State.firstFlags
  dsimp only
  (repeat' split) <;> simp [State.setDie_frame _]

theorem State.setBlocks_frame (s : State) (dk : Nat) (f : Nat → BlockEntry) : KeepsBase s (State.setBlocks s dk
    f) ∧ KeepsNotes s (State.setBlocks s dk f) ∧ KeepsSpace s (State.setBlocks s dk f) ∧ (State.setBlocks s dk f).map =
    s.map ∧ (State.setBlocks s dk f).place = s.place ∧ KeepsHost s (State.setBlocks s dk f) ∧ KeepsChip s
    (State.setBlocks s dk f) := by
  simp [State.setBlocks, State.setBlock_frame _]

theorem State.beginReconcile_frame (s : State) (c : Nat) : KeepsBase s (State.beginReconcile s c) ∧
    (State.beginReconcile s c).out = s.out ∧ (State.beginReconcile s c).stat = s.stat ∧ (State.beginReconcile s c).evlog
    = s.evlog ∧ KeepsSpace s (State.beginReconcile s c) ∧ (State.beginReconcile s c).map = s.map ∧ (State.beginReconcile
    s c).place = s.place ∧ KeepsHost s (State.beginReconcile s c) ∧ KeepsChip s (State.beginReconcile s c) := by
  unfold State.beginReconcile
  dsimp only
  (repeat' split) <;> simp [State.firstFlags_frame _, State.setBlocks_frame _, State.setCarrier_frame _,
      State.setReg_frame _, State.takeFree_frame _]

theorem State.clearFailedOn_frame (s : State) (c : Nat) (nums : List Nat) : KeepsBase s (State.clearFailedOn s c
    nums) ∧ KeepsNotes s (State.clearFailedOn s c nums) ∧ KeepsSpace s (State.clearFailedOn s c nums) ∧
    (State.clearFailedOn s c nums).map = s.map ∧ (State.clearFailedOn s c nums).media = s.media ∧ KeepsHost s
    (State.clearFailedOn s c nums) ∧ KeepsChip s (State.clearFailedOn s c nums) := by
  simp [State.clearFailedOn]

theorem State.intoService_frame (s : State) (c : Nat) : KeepsBase s (State.intoService s c) ∧ (State.intoService
    s c).free = s.free ∧ (State.intoService s c).out = s.out ∧ (State.intoService s c).stat = s.stat ∧
    (State.intoService s c).evlog = s.evlog ∧ KeepsSpace s (State.intoService s c) ∧ (State.intoService s c).map = s.map
    ∧ (State.intoService s c).place = s.place ∧ KeepsHost s (State.intoService s c) ∧ KeepsChip s (State.intoService s
    c) := by
  simp [State.intoService, State.setCarState_frame _, State.settleAreas_frame _]

theorem State.powerUp_frame (s : State) (c : Nat) : KeepsBase s (State.powerUp s c) ∧ (State.powerUp s c).free =
    s.free ∧ (State.powerUp s c).out = s.out ∧ (State.powerUp s c).stat = s.stat ∧ (State.powerUp s c).evlog = s.evlog ∧
    KeepsSpace s (State.powerUp s c) ∧ KeepsStore s (State.powerUp s c) ∧ KeepsHost s (State.powerUp s c) ∧ KeepsChip s
    (State.powerUp s c) := by
  simp [State.powerUp, State.setCarState_frame _, State.setFld_frame _]

theorem State.backOff_frame (s : State) (c : Nat) : KeepsBase s (State.backOff s c) ∧ KeepsSpace s
    (State.backOff s c) ∧ (State.backOff s c).map = s.map ∧ (State.backOff s c).cmds = s.cmds ∧ (State.backOff s
    c).hosts = s.hosts ∧ KeepsChip s (State.backOff s c) := by
  simp [State.backOff, State.setCarState_frame _, State.switchOff_frame _]

theorem State.endLocate_frame (s : State) (c : Nat) : KeepsBase s (State.endLocate s c) ∧ (State.endLocate s
    c).free = s.free ∧ (State.endLocate s c).out = s.out ∧ (State.endLocate s c).stat = s.stat ∧ (State.endLocate s
    c).evlog = s.evlog ∧ KeepsSpace s (State.endLocate s c) ∧ (State.endLocate s c).map = s.map ∧ (State.endLocate s
    c).place = s.place ∧ KeepsHost s (State.endLocate s c) ∧ KeepsChip s (State.endLocate s c) := by
  unfold State.endLocate
  (repeat' split) <;> simp [State.setCarState_frame _, State.setCarrier_frame _]

theorem State.refuse_frame (s : State) (c : Nat) (why : Nat) : KeepsBase s (State.refuse s c why) ∧ KeepsSpace s
    (State.refuse s c why) ∧ KeepsStore s (State.refuse s c why) ∧ KeepsHost s (State.refuse s c why) ∧ KeepsChip s
    (State.refuse s c why) := by
  unfold State.refuse
  dsimp only
  (repeat' split) <;> simp [State.raiseRecord_frame _, State.setFld_frame _]

theorem State.startRemoval_frame (s : State) (c : Nat) : KeepsBase s (State.startRemoval s c) ∧ KeepsSpace s
    (State.startRemoval s c) ∧ (State.startRemoval s c).map = s.map ∧ (State.startRemoval s c).place = s.place ∧
    KeepsHost s (State.startRemoval s c) ∧ KeepsChip s (State.startRemoval s c) := by
  unfold State.startRemoval
  (repeat' split) <;> simp [State.refuse_frame _, State.setCarState_frame _, State.setCarrier_frame _]

theorem State.cancelRemoval_frame (s : State) (c : Nat) : KeepsBase s (State.cancelRemoval s c) ∧
    (State.cancelRemoval s c).free = s.free ∧ (State.cancelRemoval s c).out = s.out ∧ (State.cancelRemoval s c).stat =
    s.stat ∧ (State.cancelRemoval s c).evlog = s.evlog ∧ KeepsSpace s (State.cancelRemoval s c) ∧ KeepsStore s
    (State.cancelRemoval s c) ∧ KeepsHost s (State.cancelRemoval s c) ∧ KeepsChip s (State.cancelRemoval s c) := by
  simp [State.cancelRemoval, State.setCarState_frame _]

theorem State.restage_frame (s : State) (e : Nat × Nat × Bool) : KeepsBase s (State.restage s e) ∧ KeepsSpace s
    (State.restage s e) ∧ (State.restage s e).map = s.map ∧ (State.restage s e).cmds = s.cmds ∧ (State.restage s
    e).pools = s.pools ∧ (State.restage s e).boot = s.boot ∧ (State.restage s e).pins.resetLow = s.pins.resetLow ∧
    (State.restage s e).pins.frozen = s.pins.frozen := by
  unfold State.restage
  dsimp only
  (repeat' split) <;> simp [State.programStage_frame _]

theorem State.moveSystem_frame (s : State) (c : Nat) : KeepsBase s (State.moveSystem s c) ∧ KeepsNotes s
    (State.moveSystem s c) ∧ (State.moveSystem s c).deferred = s.deferred ∧ (State.moveSystem s c).power = s.power ∧
    (State.moveSystem s c).herd = s.herd ∧ KeepsStore s (State.moveSystem s c) ∧ KeepsHost s (State.moveSystem s c) ∧
    KeepsChip s (State.moveSystem s c) := by
  simp [State.moveSystem]

theorem State.evacCopy_frame (s : State) (c : Nat) : KeepsBase s (s.evacCopy c) ∧ (s.evacCopy c).deferred =
    s.deferred ∧ (s.evacCopy c).power = s.power ∧ (s.evacCopy c).herd = s.herd ∧ (s.evacCopy c).cmds = s.cmds ∧
    (s.evacCopy c).pools = s.pools ∧ (s.evacCopy c).boot = s.boot ∧ (s.evacCopy c).pins.resetLow = s.pins.resetLow ∧
    (s.evacCopy c).pins.frozen = s.pins.frozen := by
  unfold State.evacCopy
  dsimp only
  split <;> simp [State.copyUnits_frame _]

theorem State.evacImage_frame (s : State) (c : Nat) : KeepsBase s (s.evacImage c) ∧ (s.evacImage c).free =
    s.free ∧ (s.evacImage c).out = s.out ∧ (s.evacImage c).stat = s.stat ∧ (s.evacImage c).evlog = s.evlog ∧ KeepsSpace
    s (s.evacImage c) ∧ KeepsHost s (s.evacImage c) ∧ KeepsChip s (s.evacImage c) := by
  generalize ht : s.evacImage c = t
  unfold State.evacImage at ht
  (repeat' split at ht) <;> subst ht <;> first
    | (simp [State.programImage_frame _, State.setImage_frame _]; done)
    | (rename_i e; have := State.programImage_frame _ _ _ _ e; simp_all [State.programImage_frame _, State.setImage_frame _])

theorem State.evacuate_frame (s : State) (c : Nat) : KeepsBase s (State.evacuate s c) ∧ (State.evacuate s
    c).deferred = s.deferred ∧ (State.evacuate s c).power = s.power ∧ (State.evacuate s c).herd = s.herd ∧
    (State.evacuate s c).cmds = s.cmds ∧ (State.evacuate s c).pools = s.pools ∧ (State.evacuate s c).boot = s.boot ∧
    (State.evacuate s c).pins.resetLow = s.pins.resetLow ∧ (State.evacuate s c).pins.frozen = s.pins.frozen := by
  unfold State.evacuate
  simp [State.evacCopy_frame _, State.evacImage_frame _, State.moveSystem_frame _, State.restage_frame _]

/-! ## Machine/Power -/

theorem State.recompute_frame (s : State) : KeepsBase s (State.recompute s) ∧ KeepsSpace s (State.recompute s) ∧
    KeepsStore s (State.recompute s) ∧ (State.recompute s).cmds = s.cmds ∧ (State.recompute s).pools = s.pools ∧
    (State.recompute s).boot = s.boot ∧ (State.recompute s).pins.resetLow = s.pins.resetLow ∧ (State.recompute
    s).pins.frozen = s.pins.frozen := by
  unfold State.recompute
  dsimp only
  (repeat' split) <;> simp [State.raise_frame _, State.reason_frame _, State.setFld_frame _]

theorem State.takeSample_frame (s : State) (code : BitVec 10) : KeepsBase s (State.takeSample s code) ∧
    (State.takeSample s code).free = s.free ∧ (State.takeSample s code).out = s.out ∧ (State.takeSample s code).stat =
    s.stat ∧ (State.takeSample s code).evlog = s.evlog ∧ KeepsSpace s (State.takeSample s code) ∧ KeepsStore s
    (State.takeSample s code) ∧ KeepsHost s (State.takeSample s code) ∧ KeepsChip s (State.takeSample s code) := by
  simp [State.takeSample, State.setFld_frame _]

theorem State.stopDescs_frame (s : State) : KeepsBase s (State.stopDescs s) ∧ (State.stopDescs s).regs = s.regs
    ∧ (State.stopDescs s).evlog = s.evlog ∧ KeepsSpace s (State.stopDescs s) ∧ (State.stopDescs s).map = s.map ∧
    (State.stopDescs s).place = s.place ∧ (State.stopDescs s).cmds = s.cmds ∧ (State.stopDescs s).hosts = s.hosts ∧
    KeepsChip s (State.stopDescs s) := by
  simp [State.stopDescs, State.endFree_frame _, State.setChan_frame _]

theorem State.enterHoldup_frame (s : State) (bySense : Bool) : KeepsBase s (State.enterHoldup s bySense) ∧
    (State.enterHoldup s bySense).nss = s.nss ∧ (State.enterHoldup s bySense).deferred = s.deferred ∧ (State.enterHoldup
    s bySense).herd = s.herd ∧ (State.enterHoldup s bySense).map = s.map ∧ (State.enterHoldup s bySense).place = s.place
    ∧ (State.enterHoldup s bySense).cmds = s.cmds := by
  simp [State.enterHoldup, State.count_frame _, State.cutCastle_frame _, State.discardStaging_frame _,
      State.enterMode_frame _, State.stopDescs_frame _]


theorem State.enterHoldup_chip (s : State) (bySense : Bool) : (State.enterHoldup s bySense).boot.fuses =
    s.boot.fuses ∧ (State.enterHoldup s bySense).pins.resetLow = s.pins.resetLow ∧ (State.enterHoldup s
    bySense).pins.frozen = s.pins.frozen := by
  generalize ht : State.enterHoldup s bySense = t
  unfold State.enterHoldup at ht
  try dsimp only at ht
  (repeat' split at ht) <;> subst ht <;> simp [State.count_frame _, State.cutCastle_chip _, State.cutCastle_frame _,
      State.discardStaging_chip _, State.discardStaging_frame _, State.enterMode_frame _, State.stopDescs_frame _]

theorem State.haltNow_frame (s : State) (cause : Nat) (island : Nat) : KeepsBase s (State.haltNow s cause
    island) ∧ (State.haltNow s cause island).nss = s.nss ∧ (State.haltNow s cause island).deferred = s.deferred ∧
    (State.haltNow s cause island).herd = s.herd ∧ (State.haltNow s cause island).map = s.map ∧ (State.haltNow s cause
    island).place = s.place ∧ (State.haltNow s cause island).cmds = s.cmds := by
  unfold State.haltNow
  (repeat' split) <;> simp [State.enterHoldup_frame _, State.record_frame _, State.setFld_frame _]


theorem State.haltNow_chip (s : State) (cause : Nat) (island : Nat) : (State.haltNow s cause island).boot.fuses
    = s.boot.fuses ∧ (State.haltNow s cause island).pins.resetLow = s.pins.resetLow ∧ (State.haltNow s cause
    island).pins.frozen = s.pins.frozen := by
  generalize ht : State.haltNow s cause island = t
  unfold State.haltNow at ht
  try dsimp only at ht
  (repeat' split at ht) <;> subst ht <;> simp [State.enterHoldup_chip _, State.record_frame _, State.setFld_frame _]

theorem State.fixSet_frame (s : State) : KeepsBase s (State.fixSet s) ∧ KeepsNotes s (State.fixSet s) ∧
    (State.fixSet s).nss = s.nss ∧ (State.fixSet s).deferred = s.deferred ∧ (State.fixSet s).herd = s.herd ∧
    (State.fixSet s).place = s.place ∧ (State.fixSet s).media = s.media ∧ KeepsHost s (State.fixSet s) ∧ KeepsChip s
    (State.fixSet s) := by
  simp [State.fixSet]

theorem State.endFlush_frame (s : State) (us : Nat) : KeepsBase s (State.endFlush s us) ∧ KeepsNotes s
    (State.endFlush s us) ∧ (State.endFlush s us).nss = s.nss ∧ (State.endFlush s us).deferred = s.deferred ∧
    (State.endFlush s us).herd = s.herd ∧ KeepsStore s (State.endFlush s us) ∧ KeepsHost s (State.endFlush s us) ∧
    (State.endFlush s us).boot = s.boot ∧ (State.endFlush s us).pins.resetLow = s.pins.resetLow ∧ (State.endFlush s
    us).pins.frozen = s.pins.frozen := by
  simp [State.endFlush]

theorem State.writeHorizon_frame (s : State) : KeepsBase s (State.writeHorizon s) ∧ KeepsNotes s
    (State.writeHorizon s) ∧ (State.writeHorizon s).nss = s.nss ∧ (State.writeHorizon s).deferred = s.deferred ∧
    (State.writeHorizon s).herd = s.herd ∧ KeepsStore s (State.writeHorizon s) ∧ KeepsHost s (State.writeHorizon s) ∧
    KeepsChip s (State.writeHorizon s) := by
  simp [State.writeHorizon]

end Sys2Proof.Machine
end

