-- ==== Sys2Proof/Laws/FramesEngines.lean ====
section
/-! SUPPORT. What the functions of the buffer pools, mules, endpoint and SDRAM leave unchanged: one lemma for each, which lists the parts of the
state that it keeps. -/

namespace Sys2Proof.Machine

open Sys2Proof

set_option linter.all false

/-! ## Machine/Pools -/

theorem State.setAllocResp_frame (s : State) (src : Source) (r : AllocResp) : KeepsBase s (State.setAllocResp s
    src r) ∧ KeepsNotes s (State.setAllocResp s src r) ∧ KeepsSpace s (State.setAllocResp s src r) ∧ KeepsStore s
    (State.setAllocResp s src r) ∧ (State.setAllocResp s src r).cmds = s.cmds ∧ (State.setAllocResp s src r).hosts =
    s.hosts ∧ KeepsChip s (State.setAllocResp s src r) := by
  simp [State.setAllocResp]

theorem State.grantBuf_frame (s : State) (src : Source) (p : Nat) (cls : Nat) : KeepsBase s (State.grantBuf s
    src p cls) ∧ (State.grantBuf s src p cls).free = s.free ∧ (State.grantBuf s src p cls).regs = s.regs ∧
    (State.grantBuf s src p cls).evlog = s.evlog ∧ KeepsSpace s (State.grantBuf s src p cls) ∧ KeepsStore s
    (State.grantBuf s src p cls) ∧ (State.grantBuf s src p cls).cmds = s.cmds ∧ (State.grantBuf s src p cls).hosts =
    s.hosts ∧ KeepsChip s (State.grantBuf s src p cls) := by
  simp [State.grantBuf, State.followPool_frame _, State.setAllocResp_frame _]

theorem State.allocate_frame (s : State) (src : Source) (cls : Nat) (p : Nat) : KeepsBase s (State.allocate s
    src cls p) ∧ (State.allocate s src cls p).free = s.free ∧ (State.allocate s src cls p).evlog = s.evlog ∧ KeepsSpace
    s (State.allocate s src cls p) ∧ KeepsStore s (State.allocate s src cls p) ∧ (State.allocate s src cls p).cmds =
    s.cmds ∧ (State.allocate s src cls p).hosts = s.hosts ∧ KeepsChip s (State.allocate s src cls p) := by
  unfold State.allocate
  (repeat' split) <;> simp [State.count_frame _, State.grantBuf_frame _, State.setAllocResp_frame _]

theorem State.setMatResp_frame (s : State) (src : Source) (r : MatResp) : (State.setMatResp s src r).pending =
    s.pending ∧ (State.setMatResp s src r).armed = s.armed ∧ (State.setMatResp s src r).posted = s.posted ∧
    (State.setMatResp s src r).late = s.late ∧ (State.setMatResp s src r).isolated = s.isolated ∧ (State.setMatResp s
    src r).failedCores = s.failedCores ∧ (State.setMatResp s src r).mtf = s.mtf ∧ (State.setMatResp s src r).mules =
    s.mules ∧ (State.setMatResp s src r).sdram = s.sdram ∧ (State.setMatResp s src r).ram = s.ram ∧ KeepsNotes s
    (State.setMatResp s src r) ∧ KeepsSpace s (State.setMatResp s src r) ∧ KeepsStore s (State.setMatResp s src r) ∧
    KeepsHost s (State.setMatResp s src r) ∧ KeepsChip s (State.setMatResp s src r) := by
  simp [State.setMatResp]

theorem State.matRefuse_frame (s : State) (src : Source) (reason : Nat) : (State.matRefuse s src reason).pending
    = s.pending ∧ (State.matRefuse s src reason).armed = s.armed ∧ (State.matRefuse s src reason).posted = s.posted ∧
    (State.matRefuse s src reason).late = s.late ∧ (State.matRefuse s src reason).isolated = s.isolated ∧
    (State.matRefuse s src reason).failedCores = s.failedCores ∧ (State.matRefuse s src reason).mtf = s.mtf ∧
    (State.matRefuse s src reason).mules = s.mules ∧ (State.matRefuse s src reason).sdram = s.sdram ∧ (State.matRefuse s
    src reason).ram = s.ram ∧ (State.matRefuse s src reason).free = s.free ∧ (State.matRefuse s src reason).regs =
    s.regs ∧ (State.matRefuse s src reason).evlog = s.evlog ∧ KeepsSpace s (State.matRefuse s src reason) ∧ KeepsStore s
    (State.matRefuse s src reason) ∧ KeepsHost s (State.matRefuse s src reason) ∧ KeepsChip s (State.matRefuse s src
    reason) := by
  simp [State.matRefuse, State.raise_frame _, State.setMatResp_frame _]

theorem State.loadMat_frame (s : State) (e : MatEntry) : KeepsBase s (State.loadMat s e) ∧ (State.loadMat s
    e).free = s.free ∧ (State.loadMat s e).out = s.out ∧ (State.loadMat s e).stat = s.stat ∧ (State.loadMat s e).evlog =
    s.evlog ∧ KeepsSpace s (State.loadMat s e) ∧ KeepsStore s (State.loadMat s e) ∧ KeepsHost s (State.loadMat s e) ∧
    KeepsChip s (State.loadMat s e) := by
  simp [State.loadMat, State.setReg_frame _]

theorem State.matAt_frame (s : State) (a : Nat) : KeepsBase s (State.matAt s a).2 ∧ (State.matAt s a).2.out =
    s.out ∧ (State.matAt s a).2.regs = s.regs ∧ (State.matAt s a).2.stat = s.stat ∧ (State.matAt s a).2.evlog = s.evlog
    ∧ KeepsSpace s (State.matAt s a).2 ∧ KeepsStore s (State.matAt s a).2 ∧ KeepsHost s (State.matAt s a).2 ∧ KeepsChip
    s (State.matAt s a).2 := by
  unfold State.matAt
  (repeat' split) <;> simp

theorem State.setMat_frame (s : State) (m : SMap MatEntry) : (State.setMat s m).pending = s.pending ∧
    (State.setMat s m).armed = s.armed ∧ (State.setMat s m).posted = s.posted ∧ (State.setMat s m).late = s.late ∧
    (State.setMat s m).isolated = s.isolated ∧ (State.setMat s m).failedCores = s.failedCores ∧ (State.setMat s m).mtf =
    s.mtf ∧ (State.setMat s m).mules = s.mules ∧ (State.setMat s m).sdram = s.sdram ∧ (State.setMat s m).ram = s.ram ∧
    KeepsNotes s (State.setMat s m) ∧ KeepsSpace s (State.setMat s m) ∧ KeepsStore s (State.setMat s m) ∧ KeepsHost s
    (State.setMat s m) ∧ KeepsChip s (State.setMat s m) := by
  simp [State.setMat]

theorem State.matCmd_frame (s : State) (src : Source) (a : Nat) (f : State → State) : ((∀ x, (f x).pending =
    x.pending) → (State.matCmd s src a f).pending = s.pending) ∧ ((∀ x, (f x).armed = x.armed) → (State.matCmd s src a
    f).armed = s.armed) ∧ ((∀ x, (f x).posted = x.posted) → (State.matCmd s src a f).posted = s.posted) ∧ ((∀ x, (f
    x).late = x.late) → (State.matCmd s src a f).late = s.late) ∧ ((∀ x, (f x).isolated = x.isolated) → (State.matCmd s
    src a f).isolated = s.isolated) ∧ ((∀ x, (f x).failedCores = x.failedCores) → (State.matCmd s src a f).failedCores =
    s.failedCores) ∧ ((∀ x, (f x).mtf = x.mtf) → (State.matCmd s src a f).mtf = s.mtf) ∧ ((∀ x, (f x).mules = x.mules) →
    (State.matCmd s src a f).mules = s.mules) ∧ ((∀ x, (f x).sdram = x.sdram) → (State.matCmd s src a f).sdram =
    s.sdram) ∧ ((∀ x, (f x).ram = x.ram) → (State.matCmd s src a f).ram = s.ram) ∧ ThruSpace f s (State.matCmd s src a
    f) ∧ ThruStore f s (State.matCmd s src a f) ∧ ThruHost f s (State.matCmd s src a f) ∧ ThruChip f s (State.matCmd s
    src a f) := by
  unfold State.matCmd
  (repeat' (first | apply And.intro | intro _)) <;> (repeat' split) <;> (try simp (disch := (intros; (repeat' split) <;> simp [*, State.access_frame _, State.matRefuse_frame _, State.setFld_frame _])) [*, State.access_frame _, State.matRefuse_frame _, State.setFld_frame _]) <;> (repeat' split) <;> simp_all (disch := (intros; (repeat' split) <;> simp [*, State.access_frame _, State.matRefuse_frame _, State.setFld_frame _])) [State.access_frame _, State.matRefuse_frame _, State.setFld_frame _]

theorem State.queueSlide_frame (s : State) (src : Source) (a : Nat) (e : Option MatEntry) : (State.queueSlide s
    src a e).pending = s.pending ∧ (State.queueSlide s src a e).armed = s.armed ∧ (State.queueSlide s src a e).posted =
    s.posted ∧ (State.queueSlide s src a e).late = s.late ∧ (State.queueSlide s src a e).isolated = s.isolated ∧
    (State.queueSlide s src a e).failedCores = s.failedCores ∧ (State.queueSlide s src a e).mtf = s.mtf ∧
    (State.queueSlide s src a e).mules = s.mules ∧ (State.queueSlide s src a e).sdram = s.sdram ∧ (State.queueSlide s
    src a e).ram = s.ram ∧ KeepsNotes s (State.queueSlide s src a e) ∧ KeepsSpace s (State.queueSlide s src a e) ∧
    KeepsStore s (State.queueSlide s src a e) ∧ KeepsHost s (State.queueSlide s src a e) ∧ KeepsChip s (State.queueSlide
    s src a e) := by
  simp [State.queueSlide, State.setMatResp_frame _]

theorem State.repairMat_frame (s : State) (a : Nat) : (State.repairMat s a).pending = s.pending ∧
    (State.repairMat s a).armed = s.armed ∧ (State.repairMat s a).posted = s.posted ∧ (State.repairMat s a).late =
    s.late ∧ (State.repairMat s a).isolated = s.isolated ∧ (State.repairMat s a).failedCores = s.failedCores ∧
    (State.repairMat s a).mtf = s.mtf ∧ (State.repairMat s a).mules = s.mules ∧ (State.repairMat s a).sdram = s.sdram ∧
    (State.repairMat s a).ram = s.ram ∧ KeepsSpace s (State.repairMat s a) ∧ KeepsStore s (State.repairMat s a) ∧
    KeepsHost s (State.repairMat s a) ∧ KeepsChip s (State.repairMat s a) := by
  unfold State.repairMat
  (repeat' split) <;> simp [State.count_frame _, State.raiseRecord_frame _, State.setMat_frame _]

/-! ## Machine/Mules -/

theorem State.setMule_frame (s : State) (r : Nat) (x : MuleRing) : (State.setMule s r x).pending = s.pending ∧
    (State.setMule s r x).armed = s.armed ∧ (State.setMule s r x).posted = s.posted ∧ (State.setMule s r x).late =
    s.late ∧ (State.setMule s r x).isolated = s.isolated ∧ (State.setMule s r x).failedCores = s.failedCores ∧
    (State.setMule s r x).mtf = s.mtf ∧ (State.setMule s r x).mat = s.mat ∧ (State.setMule s r x).sdram = s.sdram ∧
    (State.setMule s r x).ram = s.ram ∧ KeepsNotes s (State.setMule s r x) ∧ KeepsSpace s (State.setMule s r x) ∧
    KeepsStore s (State.setMule s r x) ∧ KeepsHost s (State.setMule s r x) ∧ KeepsChip s (State.setMule s r x) := by
  simp [State.setMule]

theorem State.haltRing_frame (s : State) (r : Nat) (dir : Nat) (kind : Nat) (addr : Nat) : KeepsBase s
    (State.haltRing s r dir kind addr) ∧ KeepsSpace s (State.haltRing s r dir kind addr) ∧ KeepsStore s (State.haltRing
    s r dir kind addr) ∧ KeepsHost s (State.haltRing s r dir kind addr) ∧ KeepsChip s (State.haltRing s r dir kind addr)
    := by
  simp [State.haltRing, State.raiseRecord_frame _, State.setFld_frame _, State.setReg_frame _]

theorem State.putOut_frame (s : State) (d : BitVec 256) (addr : Nat) (l : List Byte) : (State.putOut s d addr
    l).pending = s.pending ∧ (State.putOut s d addr l).armed = s.armed ∧ (State.putOut s d addr l).posted = s.posted ∧
    (State.putOut s d addr l).late = s.late ∧ (State.putOut s d addr l).isolated = s.isolated ∧ (State.putOut s d addr
    l).failedCores = s.failedCores ∧ (State.putOut s d addr l).mtf = s.mtf ∧ (State.putOut s d addr l).mat = s.mat ∧
    (State.putOut s d addr l).mules = s.mules ∧ (State.putOut s d addr l).stat = s.stat ∧ (State.putOut s d addr
    l).evlog = s.evlog ∧ KeepsSpace s (State.putOut s d addr l) ∧ KeepsStore s (State.putOut s d addr l) ∧ KeepsHost s
    (State.putOut s d addr l) ∧ KeepsChip s (State.putOut s d addr l) := by
  unfold State.putOut
  (repeat' split) <;> simp [State.emit_frame _, State.store_frame _]

theorem State.writeBackDesc_frame (s : State) (r : Nat) (d : BitVec 256) (status : Nat) (done : Nat) :
    (State.writeBackDesc s r d status done).pending = s.pending ∧ (State.writeBackDesc s r d status done).armed =
    s.armed ∧ (State.writeBackDesc s r d status done).posted = s.posted ∧ (State.writeBackDesc s r d status done).late =
    s.late ∧ (State.writeBackDesc s r d status done).isolated = s.isolated ∧ (State.writeBackDesc s r d status
    done).failedCores = s.failedCores ∧ (State.writeBackDesc s r d status done).mtf = s.mtf ∧ (State.writeBackDesc s r d
    status done).mat = s.mat ∧ (State.writeBackDesc s r d status done).evlog = s.evlog ∧ KeepsSpace s
    (State.writeBackDesc s r d status done) ∧ KeepsStore s (State.writeBackDesc s r d status done) ∧
    (State.writeBackDesc s r d status done).cmds = s.cmds ∧ (State.writeBackDesc s r d status done).hosts = s.hosts ∧
    KeepsChip s (State.writeBackDesc s r d status done) := by
  unfold State.writeBackDesc
  (repeat' split) <;> simp [State.emit_frame _, State.raise_frame _, State.setFld_frame _, State.setMule_frame _,
      State.store_frame _, State.sweepReleases_frame _]

theorem State.endMule_frame (s : State) (r : Nat) (d : BitVec 256) (status : Nat) (done : Nat) (ok : Bool) :
    (State.endMule s r d status done ok).pending = s.pending ∧ (State.endMule s r d status done ok).armed = s.armed ∧
    (State.endMule s r d status done ok).posted = s.posted ∧ (State.endMule s r d status done ok).late = s.late ∧
    (State.endMule s r d status done ok).isolated = s.isolated ∧ (State.endMule s r d status done ok).failedCores =
    s.failedCores ∧ (State.endMule s r d status done ok).mtf = s.mtf ∧ (State.endMule s r d status done ok).mat = s.mat
    ∧ KeepsSpace s (State.endMule s r d status done ok) ∧ KeepsStore s (State.endMule s r d status done ok) ∧
    (State.endMule s r d status done ok).cmds = s.cmds ∧ (State.endMule s r d status done ok).hosts = s.hosts ∧
    KeepsChip s (State.endMule s r d status done ok) := by
  unfold State.endMule
  (repeat' split) <;> simp [State.haltRing_frame _, State.setMule_frame _, State.writeBackDesc_frame _]

theorem State.makeTallies_frame (s : State) (els : List (Nat × Nat)) (src : List Byte) : (State.makeTallies s
    els src).pending = s.pending ∧ (State.makeTallies s els src).armed = s.armed ∧ (State.makeTallies s els src).posted
    = s.posted ∧ (State.makeTallies s els src).late = s.late ∧ (State.makeTallies s els src).isolated = s.isolated ∧
    (State.makeTallies s els src).failedCores = s.failedCores ∧ (State.makeTallies s els src).mtf = s.mtf ∧
    (State.makeTallies s els src).mat = s.mat ∧ (State.makeTallies s els src).mules = s.mules ∧ (State.makeTallies s els
    src).out = s.out ∧ (State.makeTallies s els src).stat = s.stat ∧ (State.makeTallies s els src).evlog = s.evlog ∧
    KeepsSpace s (State.makeTallies s els src) ∧ KeepsStore s (State.makeTallies s els src) ∧ KeepsHost s
    (State.makeTallies s els src) ∧ KeepsChip s (State.makeTallies s els src) := by
  simp [State.makeTallies, State.store_frame _]

theorem State.moveBytes_frame (s : State) (d : BitVec 256) (src : List Byte) (dst : List (Nat × Nat)) :
    (State.moveBytes s d src dst).pending = s.pending ∧ (State.moveBytes s d src dst).armed = s.armed ∧ (State.moveBytes
    s d src dst).posted = s.posted ∧ (State.moveBytes s d src dst).late = s.late ∧ (State.moveBytes s d src
    dst).isolated = s.isolated ∧ (State.moveBytes s d src dst).failedCores = s.failedCores ∧ (State.moveBytes s d src
    dst).mtf = s.mtf ∧ (State.moveBytes s d src dst).mat = s.mat ∧ (State.moveBytes s d src dst).mules = s.mules ∧
    (State.moveBytes s d src dst).stat = s.stat ∧ (State.moveBytes s d src dst).evlog = s.evlog ∧ KeepsSpace s
    (State.moveBytes s d src dst) ∧ KeepsStore s (State.moveBytes s d src dst) ∧ KeepsHost s (State.moveBytes s d src
    dst) ∧ KeepsChip s (State.moveBytes s d src dst) := by
  simp [State.moveBytes, State.putOut_frame _]

theorem State.runMove_frame (s : State) (d : BitVec 256) (srcs : List (Nat × Nat)) (dst : List (Nat × Nat))
    (data : List Byte) (cut : Option Nat) : (State.runMove s d srcs dst data cut).2.pending = s.pending ∧ (State.runMove
    s d srcs dst data cut).2.armed = s.armed ∧ (State.runMove s d srcs dst data cut).2.posted = s.posted ∧
    (State.runMove s d srcs dst data cut).2.late = s.late ∧ (State.runMove s d srcs dst data cut).2.isolated =
    s.isolated ∧ (State.runMove s d srcs dst data cut).2.failedCores = s.failedCores ∧ (State.runMove s d srcs dst data
    cut).2.mtf = s.mtf ∧ (State.runMove s d srcs dst data cut).2.mat = s.mat ∧ (State.runMove s d srcs dst data
    cut).2.mules = s.mules ∧ (State.runMove s d srcs dst data cut).2.stat = s.stat ∧ (State.runMove s d srcs dst data
    cut).2.evlog = s.evlog ∧ KeepsSpace s (State.runMove s d srcs dst data cut).2 ∧ KeepsStore s (State.runMove s d srcs
    dst data cut).2 ∧ KeepsHost s (State.runMove s d srcs dst data cut).2 ∧ KeepsChip s (State.runMove s d srcs dst data
    cut).2 := by
  unfold State.runMove
  (repeat' split) <;> simp [State.makeTallies_frame _, State.moveBytes_frame _, State.touch_frame _]

theorem State.runDesc_frame (s : State) (d : BitVec 256) (data : List Byte) (cut : Option Nat) : (State.runDesc
    s d data cut).2.pending = s.pending ∧ (State.runDesc s d data cut).2.armed = s.armed ∧ (State.runDesc s d data
    cut).2.posted = s.posted ∧ (State.runDesc s d data cut).2.late = s.late ∧ (State.runDesc s d data cut).2.isolated =
    s.isolated ∧ (State.runDesc s d data cut).2.failedCores = s.failedCores ∧ (State.runDesc s d data cut).2.mtf = s.mtf
    ∧ (State.runDesc s d data cut).2.mat = s.mat ∧ (State.runDesc s d data cut).2.mules = s.mules ∧ (State.runDesc s d
    data cut).2.stat = s.stat ∧ (State.runDesc s d data cut).2.evlog = s.evlog ∧ KeepsSpace s (State.runDesc s d data
    cut).2 ∧ KeepsStore s (State.runDesc s d data cut).2 ∧ KeepsHost s (State.runDesc s d data cut).2 ∧ KeepsChip s
    (State.runDesc s d data cut).2 := by
  unfold State.runDesc
  dsimp only
  (repeat' split) <;> simp [State.runMove_frame _]

theorem State.takeMuleTag_frame (s : State) (r : Nat) (d : BitVec 256) : KeepsBase s (State.takeMuleTag s r d) ∧
    KeepsNotes s (State.takeMuleTag s r d) ∧ KeepsSpace s (State.takeMuleTag s r d) ∧ KeepsStore s (State.takeMuleTag s
    r d) ∧ (State.takeMuleTag s r d).cmds = s.cmds ∧ (State.takeMuleTag s r d).pools = s.pools ∧ KeepsChip s
    (State.takeMuleTag s r d) := by
  unfold State.takeMuleTag
  dsimp only
  (repeat' split) <;> simp [State.takeTag_frame _]

theorem State.dropMuleTags_frame (s : State) (r : Nat) : KeepsBase s (State.dropMuleTags s r) ∧ KeepsNotes s
    (State.dropMuleTags s r) ∧ KeepsSpace s (State.dropMuleTags s r) ∧ KeepsStore s (State.dropMuleTags s r) ∧
    (State.dropMuleTags s r).cmds = s.cmds ∧ (State.dropMuleTags s r).pools = s.pools ∧ KeepsChip s (State.dropMuleTags
    s r) := by
  unfold State.dropMuleTags
  exact foldl_rel (P := fun s t : State => KeepsBase s t ∧ KeepsNotes s t ∧ KeepsSpace s t ∧ KeepsStore s t ∧ t.cmds = s.cmds ∧ t.pools = s.pools ∧ KeepsChip s t) (by simp [State.setPort_frame _]) (by intro a b c h1 h2; simp_all [State.setPort_frame _]) _ (by intro s x; dsimp only; (repeat' split) <;> simp [State.setPort_frame _]) _ _

theorem State.muleTimeout_frame (s : State) (r : Nat) (d : BitVec 256) : KeepsBase s (State.muleTimeout s r d) ∧
    (State.muleTimeout s r d).free = s.free ∧ (State.muleTimeout s r d).evlog = s.evlog ∧ KeepsSpace s
    (State.muleTimeout s r d) ∧ KeepsStore s (State.muleTimeout s r d) ∧ (State.muleTimeout s r d).cmds = s.cmds ∧
    (State.muleTimeout s r d).pools = s.pools ∧ KeepsChip s (State.muleTimeout s r d) := by
  unfold State.muleTimeout
  (repeat' split) <;> simp [State.dropMuleTags_frame _, State.hostTimeout_frame _]

theorem State.startMule_frame (s : State) (r : Nat) (fetchOk : Bool) : (State.startMule s r fetchOk).pending =
    s.pending ∧ (State.startMule s r fetchOk).armed = s.armed ∧ (State.startMule s r fetchOk).posted = s.posted ∧
    (State.startMule s r fetchOk).late = s.late ∧ (State.startMule s r fetchOk).isolated = s.isolated ∧ (State.startMule
    s r fetchOk).failedCores = s.failedCores ∧ (State.startMule s r fetchOk).mtf = s.mtf ∧ (State.startMule s r
    fetchOk).mat = s.mat ∧ (State.startMule s r fetchOk).ram = s.ram ∧ KeepsSpace s (State.startMule s r fetchOk) ∧
    KeepsStore s (State.startMule s r fetchOk) ∧ (State.startMule s r fetchOk).cmds = s.cmds ∧ (State.startMule s r
    fetchOk).pools = s.pools ∧ KeepsChip s (State.startMule s r fetchOk) := by
  unfold State.startMule
  dsimp only
  (repeat' split) <;> simp [State.haltRing_frame _, State.setFld_frame _, State.setMule_frame _, State.takeMuleTag_frame
      _, State.touch_frame _]

theorem State.abortMules_frame (s : State) (fk : Nat) : (State.abortMules s fk).pending = s.pending ∧
    (State.abortMules s fk).armed = s.armed ∧ (State.abortMules s fk).posted = s.posted ∧ (State.abortMules s fk).late =
    s.late ∧ (State.abortMules s fk).isolated = s.isolated ∧ (State.abortMules s fk).failedCores = s.failedCores ∧
    (State.abortMules s fk).mtf = s.mtf ∧ (State.abortMules s fk).mat = s.mat ∧ (State.abortMules s fk).sdram = s.sdram
    ∧ (State.abortMules s fk).ram = s.ram ∧ KeepsNotes s (State.abortMules s fk) ∧ KeepsSpace s (State.abortMules s fk)
    ∧ KeepsStore s (State.abortMules s fk) ∧ KeepsHost s (State.abortMules s fk) ∧ KeepsChip s (State.abortMules s fk)
    := by
  simp [State.abortMules]

theorem State.k7Finish_frame (s : State) (p : Port) (n : Nat) (got : List Byte) (ok : Bool) : (State.k7Finish s
    p n got ok).pending = s.pending ∧ (State.k7Finish s p n got ok).armed = s.armed ∧ (State.k7Finish s p n got
    ok).posted = s.posted ∧ (State.k7Finish s p n got ok).late = s.late ∧ (State.k7Finish s p n got ok).isolated =
    s.isolated ∧ (State.k7Finish s p n got ok).failedCores = s.failedCores ∧ (State.k7Finish s p n got ok).mtf = s.mtf ∧
    (State.k7Finish s p n got ok).mat = s.mat ∧ (State.k7Finish s p n got ok).mules = s.mules ∧ (State.k7Finish s p n
    got ok).stat = s.stat ∧ (State.k7Finish s p n got ok).evlog = s.evlog ∧ KeepsSpace s (State.k7Finish s p n got ok) ∧
    KeepsStore s (State.k7Finish s p n got ok) ∧ KeepsHost s (State.k7Finish s p n got ok) ∧ KeepsChip s (State.k7Finish
    s p n got ok) := by
  unfold State.k7Finish
  dsimp only
  (repeat' split) <;> simp [State.emit_frame _, State.setFld_frame _, State.store_frame _]

theorem State.k7Move_frame (s : State) (src : Source) (n : Nat) (data : List Byte) (ans : HostAnswer) :
    (State.k7Move s src n data ans).pending = s.pending ∧ (State.k7Move s src n data ans).armed = s.armed ∧
    (State.k7Move s src n data ans).posted = s.posted ∧ (State.k7Move s src n data ans).late = s.late ∧ (State.k7Move s
    src n data ans).isolated = s.isolated ∧ (State.k7Move s src n data ans).failedCores = s.failedCores ∧ (State.k7Move
    s src n data ans).mtf = s.mtf ∧ (State.k7Move s src n data ans).mat = s.mat ∧ (State.k7Move s src n data ans).mules
    = s.mules ∧ (State.k7Move s src n data ans).evlog = s.evlog ∧ KeepsSpace s (State.k7Move s src n data ans) ∧
    KeepsStore s (State.k7Move s src n data ans) ∧ (State.k7Move s src n data ans).cmds = s.cmds ∧ (State.k7Move s src n
    data ans).pools = s.pools ∧ KeepsChip s (State.k7Move s src n data ans) := by
  unfold State.k7Move
  dsimp only
  (repeat' split) <;> simp [State.hostTimeout_frame _, State.k7Finish_frame _, State.setFld_frame _, State.takeTag_frame
      _]

/-! ## Machine/Endpoint -/

theorem State.ownerFails_frame (s : State) (p : Port) (o : TagOwner) : (State.ownerFails s p o).pending =
    s.pending ∧ (State.ownerFails s p o).armed = s.armed ∧ (State.ownerFails s p o).posted = s.posted ∧
    (State.ownerFails s p o).late = s.late ∧ (State.ownerFails s p o).isolated = s.isolated ∧ (State.ownerFails s p
    o).failedCores = s.failedCores ∧ (State.ownerFails s p o).mtf = s.mtf ∧ (State.ownerFails s p o).mat = s.mat ∧
    KeepsSpace s (State.ownerFails s p o) ∧ (State.ownerFails s p o).place = s.place ∧ (State.ownerFails s p o).media =
    s.media ∧ KeepsChip s (State.ownerFails s p o) := by
  unfold State.ownerFails
  (repeat' split) <;> simp [State.complete_frame _, State.faultSq_frame _, State.fetchError_frame _,
      State.k7Finish_frame _, State.setMule_frame _]

theorem State.dropTag_frame (s : State) (p : Port) (t : Tag) : KeepsBase s (State.dropTag s p t) ∧ KeepsNotes s
    (State.dropTag s p t) ∧ KeepsSpace s (State.dropTag s p t) ∧ KeepsStore s (State.dropTag s p t) ∧ (State.dropTag s p
    t).cmds = s.cmds ∧ (State.dropTag s p t).pools = s.pools ∧ KeepsChip s (State.dropTag s p t) := by
  simp [State.dropTag, State.setPort_frame _]

theorem State.abandonReads_frame (s : State) (fk : Nat) : (State.abandonReads s fk).pending = s.pending ∧
    (State.abandonReads s fk).armed = s.armed ∧ (State.abandonReads s fk).posted = s.posted ∧ (State.abandonReads s
    fk).late = s.late ∧ (State.abandonReads s fk).isolated = s.isolated ∧ (State.abandonReads s fk).failedCores =
    s.failedCores ∧ (State.abandonReads s fk).mtf = s.mtf ∧ (State.abandonReads s fk).mat = s.mat ∧ (State.abandonReads
    s fk).mules = s.mules ∧ (State.abandonReads s fk).stat = s.stat ∧ (State.abandonReads s fk).evlog = s.evlog ∧
    KeepsSpace s (State.abandonReads s fk) ∧ KeepsStore s (State.abandonReads s fk) ∧ (State.abandonReads s fk).cmds =
    s.cmds ∧ (State.abandonReads s fk).pools = s.pools ∧ KeepsChip s (State.abandonReads s fk) := by
  unfold State.abandonReads
  dsimp only
  (repeat' split) <;> simp [State.k7Finish_frame _, State.setPort_frame _]

theorem State.abortHostCmds_frame (s : State) (fk : Nat) : KeepsBase s (State.abortHostCmds s fk) ∧
    (State.abortHostCmds s fk).media = s.media ∧ (State.abortHostCmds s fk).boot = s.boot := by
  simp [State.abortHostCmds, State.complete_frame _, State.reapDeposed_frame _]


theorem State.abortHostCmds_chip (s : State) (fk : Nat) : (State.abortHostCmds s fk).pins.resetLow =
    s.pins.resetLow ∧ (State.abortHostCmds s fk).pins.frozen = s.pins.frozen := by
  generalize ht : State.abortHostCmds s fk = t
  unfold State.abortHostCmds at ht
  try dsimp only at ht
  (repeat' split at ht) <;> subst ht <;> simp [State.complete_frame _, State.reapDeposed_frame _]

theorem State.stopMaster_frame (s : State) (fk : Nat) : (State.stopMaster s fk).pending = s.pending ∧
    (State.stopMaster s fk).armed = s.armed ∧ (State.stopMaster s fk).posted = s.posted ∧ (State.stopMaster s fk).late =
    s.late ∧ (State.stopMaster s fk).isolated = s.isolated ∧ (State.stopMaster s fk).failedCores = s.failedCores ∧
    (State.stopMaster s fk).mtf = s.mtf ∧ (State.stopMaster s fk).mat = s.mat ∧ (State.stopMaster s fk).media = s.media
    ∧ (State.stopMaster s fk).boot = s.boot := by
  unfold State.stopMaster
  (repeat' split) <;> simp [State.abandonReads_frame _, State.abortHostCmds_frame _, State.abortMules_frame _,
      State.dropRegions_frame _]


theorem State.stopMaster_chip (s : State) (fk : Nat) : (State.stopMaster s fk).pins.resetLow = s.pins.resetLow ∧
    (State.stopMaster s fk).pins.frozen = s.pins.frozen := by
  generalize ht : State.stopMaster s fk = t
  unfold State.stopMaster at ht
  try dsimp only at ht
  (repeat' split at ht) <;> subst ht <;> simp [State.abandonReads_frame _, State.abortHostCmds_chip _,
      State.abortMules_frame _, State.dropRegions_frame _]

theorem State.resumeMaster_frame (s : State) (fk : Nat) : KeepsBase s (State.resumeMaster s fk) ∧
    (State.resumeMaster s fk).free = s.free ∧ (State.resumeMaster s fk).stat = s.stat ∧ (State.resumeMaster s fk).evlog
    = s.evlog ∧ KeepsSpace s (State.resumeMaster s fk) ∧ KeepsStore s (State.resumeMaster s fk) ∧ KeepsChip s
    (State.resumeMaster s fk) := by
  simp [State.resumeMaster, State.postHeld_frame _, State.sendAllPending_frame _]

theorem State.resetFnRegs_frame (s : State) (fk : Nat) : KeepsBase s (State.resetFnRegs s fk) ∧
    (State.resetFnRegs s fk).free = s.free ∧ (State.resetFnRegs s fk).out = s.out ∧ (State.resetFnRegs s fk).evlog =
    s.evlog ∧ KeepsSpace s (State.resetFnRegs s fk) ∧ KeepsStore s (State.resetFnRegs s fk) ∧ KeepsHost s
    (State.resetFnRegs s fk) ∧ KeepsChip s (State.resetFnRegs s fk) := by
  simp [State.resetFnRegs]

theorem State.resetFn_frame (s : State) (fk : Nat) : (State.resetFn s fk).pending = s.pending ∧ (State.resetFn s
    fk).posted = s.posted ∧ (State.resetFn s fk).late = s.late ∧ (State.resetFn s fk).isolated = s.isolated ∧
    (State.resetFn s fk).failedCores = s.failedCores ∧ (State.resetFn s fk).mtf = s.mtf ∧ (State.resetFn s fk).mat =
    s.mat ∧ (State.resetFn s fk).media = s.media ∧ (State.resetFn s fk).boot = s.boot := by
  unfold State.resetFn
  (repeat' split) <;> simp [State.abandonReads_frame _, State.abortMules_frame _, State.disarmAll_frame _,
      State.discardFn_frame _, State.dropRegions_frame _, State.reapDeposed_frame _, State.resetFnRegs_frame _,
      State.setFn_frame _]


theorem State.resetFn_chip (s : State) (fk : Nat) : (State.resetFn s fk).pins.resetLow = s.pins.resetLow ∧
    (State.resetFn s fk).pins.frozen = s.pins.frozen := by
  generalize ht : State.resetFn s fk = t
  unfold State.resetFn at ht
  try dsimp only at ht
  (repeat' split at ht) <;> subst ht <;> simp [State.abandonReads_frame _, State.abortMules_frame _,
      State.disarmAll_frame _, State.discardFn_frame _, State.dropRegions_frame _, State.reapDeposed_frame _,
      State.resetFnRegs_frame _, State.setFn_frame _]

theorem State.removeVfs_frame (s : State) (p : Port) : (State.removeVfs s p).pending = s.pending ∧
    (State.removeVfs s p).posted = s.posted ∧ (State.removeVfs s p).late = s.late ∧ (State.removeVfs s p).isolated =
    s.isolated ∧ (State.removeVfs s p).failedCores = s.failedCores ∧ (State.removeVfs s p).mtf = s.mtf ∧
    (State.removeVfs s p).mat = s.mat ∧ (State.removeVfs s p).media = s.media ∧ (State.removeVfs s p).boot = s.boot :=
    by
  simp [State.removeVfs, State.resetFn_frame _, State.setPort_frame _]


theorem State.removeVfs_chip (s : State) (p : Port) : (State.removeVfs s p).pins.resetLow = s.pins.resetLow ∧
    (State.removeVfs s p).pins.frozen = s.pins.frozen := by
  generalize ht : State.removeVfs s p = t
  unfold State.removeVfs at ht
  try dsimp only at ht
  (repeat' split at ht) <;> subst ht <;> simp [State.resetFn_chip _, State.setPort_frame _]

theorem State.resetFns_frame (s : State) (p : Port) : (State.resetFns s p).pending = s.pending ∧ (State.resetFns
    s p).posted = s.posted ∧ (State.resetFns s p).late = s.late ∧ (State.resetFns s p).isolated = s.isolated ∧
    (State.resetFns s p).failedCores = s.failedCores ∧ (State.resetFns s p).mtf = s.mtf ∧ (State.resetFns s p).mat =
    s.mat ∧ (State.resetFns s p).media = s.media ∧ (State.resetFns s p).boot = s.boot := by
  simp [State.resetFns, State.removeVfs_frame _, State.resetFn_frame _, State.setPort_frame _]


theorem State.resetFns_chip (s : State) (p : Port) : (State.resetFns s p).pins.resetLow = s.pins.resetLow ∧
    (State.resetFns s p).pins.frozen = s.pins.frozen := by
  generalize ht : State.resetFns s p = t
  unfold State.resetFns at ht
  try dsimp only at ht
  (repeat' split at ht) <;> subst ht <;> simp [State.removeVfs_chip _, State.resetFn_chip _, State.setPort_frame _]

theorem State.configField_frame (s : State) (f : Fn) (field : CfgField) (v : Word) : KeepsBase s
    (State.configField s f field v) ∧ (State.configField s f field v).free = s.free ∧ (State.configField s f field
    v).regs = s.regs ∧ (State.configField s f field v).stat = s.stat ∧ (State.configField s f field v).evlog = s.evlog ∧
    KeepsSpace s (State.configField s f field v) ∧ KeepsStore s (State.configField s f field v) ∧ (State.configField s f
    field v).cmds = s.cmds ∧ (State.configField s f field v).pools = s.pools ∧ KeepsChip s (State.configField s f field
    v) := by
  unfold State.configField
  dsimp only
  (repeat' split) <;> simp [State.sendAllPending_frame _, State.setFn_frame _, State.setPort_frame _]

theorem State.resetPort_frame (s : State) (p : Port) : (State.resetPort s p).pending = s.pending ∧
    (State.resetPort s p).posted = s.posted ∧ (State.resetPort s p).late = s.late ∧ (State.resetPort s p).isolated =
    s.isolated ∧ (State.resetPort s p).failedCores = s.failedCores ∧ (State.resetPort s p).mtf = s.mtf ∧
    (State.resetPort s p).mat = s.mat ∧ (State.resetPort s p).media = s.media ∧ (State.resetPort s p).boot = s.boot :=
    by
  simp [State.resetPort, State.count_frame _, State.reason_frame _, State.resetFns_frame _, State.setPort_frame _,
      State.setReg_frame _]


theorem State.resetPort_chip (s : State) (p : Port) : (State.resetPort s p).pins.resetLow = s.pins.resetLow ∧
    (State.resetPort s p).pins.frozen = s.pins.frozen := by
  generalize ht : State.resetPort s p = t
  unfold State.resetPort at ht
  try dsimp only at ht
  (repeat' split at ht) <;> subst ht <;> simp [State.count_frame _, State.reason_frame _, State.resetFns_chip _,
      State.setPort_frame _, State.setReg_frame _]

theorem State.portUp_frame (s : State) (p : Port) (rate : Nat) (width : Nat) (flit : Bool) : KeepsBase s
    (State.portUp s p rate width flit) ∧ KeepsSpace s (State.portUp s p rate width flit) ∧ KeepsStore s (State.portUp s
    p rate width flit) ∧ (State.portUp s p rate width flit).cmds = s.cmds ∧ (State.portUp s p rate width flit).pools =
    s.pools ∧ (State.portUp s p rate width flit).boot = s.boot ∧ (State.portUp s p rate width flit).pins.resetLow =
    s.pins.resetLow ∧ (State.portUp s p rate width flit).pins.frozen = s.pins.frozen := by
  unfold State.portUp
  (repeat' split) <;> simp [State.raiseHst_frame _, State.reason_frame _, State.setFld_frame _, State.setPort_frame _]

/-! ## Machine/Sdram -/

theorem State.followHot_frame (s : State) (ch : Nat) : KeepsBase s (State.followHot s ch) ∧ (State.followHot s
    ch).free = s.free ∧ (State.followHot s ch).evlog = s.evlog ∧ KeepsSpace s (State.followHot s ch) ∧ KeepsStore s
    (State.followHot s ch) ∧ KeepsHost s (State.followHot s ch) ∧ KeepsChip s (State.followHot s ch) := by
  unfold State.followHot
  dsimp only
  (repeat' split) <;> simp [State.raise_frame _, State.setFld_frame _]

theorem State.followHotForce_frame (s : State) : KeepsBase s (State.followHotForce s) ∧ (State.followHotForce
    s).free = s.free ∧ (State.followHotForce s).evlog = s.evlog ∧ KeepsSpace s (State.followHotForce s) ∧ KeepsStore s
    (State.followHotForce s) ∧ KeepsHost s (State.followHotForce s) ∧ KeepsChip s (State.followHotForce s) := by
  unfold State.followHotForce
  (repeat' split) <;> simp (disch := (intros; (repeat' split) <;> simp [*, State.followHot_frame _])) [State.followHot_frame _]

theorem State.loseBuffers_frame (s : State) : KeepsBase s (State.loseBuffers s) ∧ (State.loseBuffers s).free =
    s.free ∧ (State.loseBuffers s).regs = s.regs ∧ (State.loseBuffers s).evlog = s.evlog ∧ KeepsSpace s
    (State.loseBuffers s) ∧ KeepsStore s (State.loseBuffers s) ∧ (State.loseBuffers s).cmds = s.cmds ∧
    (State.loseBuffers s).hosts = s.hosts ∧ KeepsChip s (State.loseBuffers s) := by
  simp [State.loseBuffers, State.followPool_frame _]

theorem State.failSdram_frame (s : State) (ch : Nat) : (State.failSdram s ch).pending = s.pending ∧
    (State.failSdram s ch).armed = s.armed ∧ (State.failSdram s ch).posted = s.posted ∧ (State.failSdram s ch).late =
    s.late ∧ (State.failSdram s ch).failedCores = s.failedCores ∧ (State.failSdram s ch).mtf = s.mtf ∧ (State.failSdram
    s ch).mat = s.mat ∧ (State.failSdram s ch).mules = s.mules ∧ (State.failSdram s ch).sdram = s.sdram ∧
    (State.failSdram s ch).nss = s.nss ∧ (State.failSdram s ch).deferred = s.deferred ∧ (State.failSdram s ch).herd =
    s.herd ∧ (State.failSdram s ch).place = s.place ∧ (State.failSdram s ch).cmds = s.cmds := by
  unfold State.failSdram
  dsimp only
  (repeat' split) <;> simp [State.discardStaging_frame _, State.haltNow_frame _, State.isolate_frame _,
      State.loseBuffers_frame _, State.raise_frame _, State.reason_frame _, State.recordFault_frame _,
      State.remapPlain_frame _, State.setFld_frame _]


theorem State.failSdram_chip (s : State) (ch : Nat) : (State.failSdram s ch).boot.fuses = s.boot.fuses ∧
    (State.failSdram s ch).pins.resetLow = s.pins.resetLow ∧ (State.failSdram s ch).pins.frozen = s.pins.frozen := by
  generalize ht : State.failSdram s ch = t
  unfold State.failSdram at ht
  try dsimp only at ht
  (repeat' split at ht) <;> subst ht <;> simp [State.discardStaging_chip _, State.discardStaging_frame _,
      State.haltNow_chip _, State.isolate_frame _, State.loseBuffers_frame _, State.raise_frame _, State.reason_frame _,
      State.recordFault_frame _, State.remapPlain_frame _, State.setFld_frame _]

theorem State.markDevice_frame (s : State) (ch : Nat) (rank : Nat) (device : Nat) : KeepsBase s
    (State.markDevice s ch rank device) ∧ KeepsSpace s (State.markDevice s ch rank device) ∧ KeepsStore s
    (State.markDevice s ch rank device) ∧ (State.markDevice s ch rank device).cmds = s.cmds ∧ (State.markDevice s ch
    rank device).pools = s.pools ∧ (State.markDevice s ch rank device).boot = s.boot ∧ (State.markDevice s ch rank
    device).pins.resetLow = s.pins.resetLow ∧ (State.markDevice s ch rank device).pins.frozen = s.pins.frozen := by
  simp [State.markDevice, State.raise_frame _, State.reason_frame _, State.recordFault_frame _, State.setFld_frame _]

theorem State.corrected_frame (s : State) (ch : Nat) (rank : Nat) (device : Nat) : (State.corrected s ch rank
    device).pending = s.pending ∧ (State.corrected s ch rank device).armed = s.armed ∧ (State.corrected s ch rank
    device).posted = s.posted ∧ (State.corrected s ch rank device).late = s.late ∧ (State.corrected s ch rank
    device).isolated = s.isolated ∧ (State.corrected s ch rank device).failedCores = s.failedCores ∧ (State.corrected s
    ch rank device).mtf = s.mtf ∧ (State.corrected s ch rank device).mat = s.mat ∧ (State.corrected s ch rank
    device).mules = s.mules ∧ (State.corrected s ch rank device).ram = s.ram ∧ KeepsSpace s (State.corrected s ch rank
    device) ∧ KeepsStore s (State.corrected s ch rank device) ∧ (State.corrected s ch rank device).cmds = s.cmds ∧
    (State.corrected s ch rank device).pools = s.pools ∧ (State.corrected s ch rank device).boot = s.boot ∧
    (State.corrected s ch rank device).pins.resetLow = s.pins.resetLow ∧ (State.corrected s ch rank device).pins.frozen
    = s.pins.frozen := by
  unfold State.corrected
  dsimp only
  (repeat' split) <;> simp [State.count_frame _, State.markDevice_frame _, State.raise_frame _, State.setSdram_frame _]

theorem State.uncorrectable_frame (s : State) (ch : Nat) (mirror : Bool) : (State.uncorrectable s ch
    mirror).pending = s.pending ∧ (State.uncorrectable s ch mirror).armed = s.armed ∧ (State.uncorrectable s ch
    mirror).posted = s.posted ∧ (State.uncorrectable s ch mirror).late = s.late ∧ (State.uncorrectable s ch
    mirror).failedCores = s.failedCores ∧ (State.uncorrectable s ch mirror).mtf = s.mtf ∧ (State.uncorrectable s ch
    mirror).mat = s.mat ∧ (State.uncorrectable s ch mirror).mules = s.mules ∧ (State.uncorrectable s ch mirror).nss =
    s.nss ∧ (State.uncorrectable s ch mirror).deferred = s.deferred ∧ (State.uncorrectable s ch mirror).herd = s.herd ∧
    (State.uncorrectable s ch mirror).place = s.place ∧ (State.uncorrectable s ch mirror).cmds = s.cmds := by
  unfold State.uncorrectable
  dsimp only
  (repeat' split) <;> simp [State.count_frame _, State.failSdram_frame _, State.haltNow_frame _, State.raise_frame _,
      State.setSdram_frame _]


theorem State.uncorrectable_chip (s : State) (ch : Nat) (mirror : Bool) : (State.uncorrectable s ch
    mirror).boot.fuses = s.boot.fuses ∧ (State.uncorrectable s ch mirror).pins.resetLow = s.pins.resetLow ∧
    (State.uncorrectable s ch mirror).pins.frozen = s.pins.frozen := by
  generalize ht : State.uncorrectable s ch mirror = t
  unfold State.uncorrectable at ht
  try dsimp only at ht
  (repeat' split at ht) <;> subst ht <;> simp [State.count_frame _, State.failSdram_chip _, State.haltNow_chip _,
      State.raise_frame _, State.setSdram_frame _]

theorem State.initSdram_frame (s : State) (ch : Nat) : (State.initSdram s ch).pending = s.pending ∧
    (State.initSdram s ch).armed = s.armed ∧ (State.initSdram s ch).posted = s.posted ∧ (State.initSdram s ch).late =
    s.late ∧ (State.initSdram s ch).isolated = s.isolated ∧ (State.initSdram s ch).failedCores = s.failedCores ∧
    (State.initSdram s ch).mtf = s.mtf ∧ (State.initSdram s ch).mat = s.mat ∧ (State.initSdram s ch).mules = s.mules ∧
    (State.initSdram s ch).sdram = s.sdram ∧ KeepsNotes s (State.initSdram s ch) ∧ KeepsSpace s (State.initSdram s ch) ∧
    KeepsStore s (State.initSdram s ch) ∧ KeepsHost s (State.initSdram s ch) ∧ KeepsChip s (State.initSdram s ch) := by
  simp [State.initSdram]

theorem State.trainCmd_frame (s : State) (src : Source) (ch : Nat) (op : Nat) (operand : Half) (result : State →
    State) : ThruBase result s (State.trainCmd s src ch op operand result) ∧ ThruSpace result s (State.trainCmd s src ch
    op operand result) ∧ ThruStore result s (State.trainCmd s src ch op operand result) ∧ ThruHost result s
    (State.trainCmd s src ch op operand result) ∧ ThruChip result s (State.trainCmd s src ch op operand result) := by
  unfold State.trainCmd
  (repeat' (first | apply And.intro | intro _)) <;> (repeat' split) <;> (try simp (disch := (intros; (repeat' split) <;> simp [*, State.access_frame _, State.emit_frame _, State.setFld_frame _])) [*, State.access_frame _, State.emit_frame _, State.setFld_frame _]) <;> (repeat' split) <;> simp_all (disch := (intros; (repeat' split) <;> simp [*, State.access_frame _, State.emit_frame _, State.setFld_frame _])) [State.access_frame _, State.emit_frame _, State.setFld_frame _]

end Sys2Proof.Machine
end

