-- ==== Sys2Proof/Laws/FramesBoot.lean ====
section
/-! SUPPORT. What the functions of boot, recovery and modes leave unchanged: one lemma for each, which lists the parts of the
state that it keeps. -/

namespace Sys2Proof.Machine

open Sys2Proof

set_option linter.all false

/-! ## Machine/Boot -/

theorem State.chipReset_frame (s : State) : (State.chipReset s).pending = s.pending ∧ (State.chipReset s).free =
    s.free ∧ (State.chipReset s).out = s.out ∧ (State.chipReset s).deferred = s.deferred := by
  simp [State.chipReset]


theorem State.chipReset_chip (s : State) : s.chipReset.boot.fuses = s.boot.fuses ∧ s.chipReset.pins.resetLow =
    true := by
  simp [State.chipReset, Pins.overReset]

theorem State.showFuses_frame (s : State) : KeepsBase s (State.showFuses s) ∧ (State.showFuses s).free = s.free
    ∧ (State.showFuses s).out = s.out ∧ (State.showFuses s).stat = s.stat ∧ (State.showFuses s).evlog = s.evlog ∧
    KeepsSpace s (State.showFuses s) ∧ KeepsStore s (State.showFuses s) ∧ KeepsHost s (State.showFuses s) ∧ KeepsChip s
    (State.showFuses s) := by
  simp [State.showFuses, State.setFld_frame _, State.setReg_frame _]

theorem State.senseFuses_frame (s : State) : KeepsBase s (State.senseFuses s) ∧ (State.senseFuses s).free =
    s.free ∧ (State.senseFuses s).evlog = s.evlog ∧ KeepsSpace s (State.senseFuses s) ∧ KeepsStore s (State.senseFuses
    s) ∧ KeepsHost s (State.senseFuses s) ∧ KeepsChip s (State.senseFuses s) := by
  unfold State.senseFuses
  dsimp only
  (repeat' split) <;> simp [State.raise_frame _, State.showFuses_frame _]

theorem State.seedSdram_frame (s : State) : (State.seedSdram s).pending = s.pending ∧ (State.seedSdram s).armed
    = s.armed ∧ (State.seedSdram s).posted = s.posted ∧ (State.seedSdram s).late = s.late ∧ (State.seedSdram s).isolated
    = s.isolated ∧ (State.seedSdram s).failedCores = s.failedCores ∧ (State.seedSdram s).mtf = s.mtf ∧ (State.seedSdram
    s).mat = s.mat ∧ (State.seedSdram s).mules = s.mules ∧ (State.seedSdram s).ram = s.ram ∧ (State.seedSdram s).out =
    s.out ∧ (State.seedSdram s).regs = s.regs ∧ (State.seedSdram s).stat = s.stat ∧ (State.seedSdram s).evlog = s.evlog
    ∧ KeepsSpace s (State.seedSdram s) ∧ KeepsStore s (State.seedSdram s) ∧ KeepsHost s (State.seedSdram s) ∧ KeepsChip
    s (State.seedSdram s) := by
  simp [State.seedSdram, State.setSdram_frame _, State.takeFree_frame _]

theorem State.freeze_frame (s : State) : KeepsBase s (State.freeze s) ∧ KeepsSpace s (State.freeze s) ∧
    KeepsStore s (State.freeze s) ∧ (State.freeze s).cmds = s.cmds ∧ (State.freeze s).pools = s.pools ∧ (State.freeze
    s).boot = s.boot := by
  simp [State.freeze, State.emit_frame _, State.enterMode_frame _]


theorem State.freeze_chip (s : State) : (State.freeze s).pins.resetLow = s.pins.resetLow := by
  generalize ht : State.freeze s = t
  unfold State.freeze at ht
  try dsimp only at ht
  (repeat' split at ht) <;> subst ht <;> simp [State.emit_frame _, State.enterMode_frame _]

theorem State.bootCode_frame (s : State) (code : Nat) : KeepsBase s (State.bootCode s code) ∧ (State.bootCode s
    code).free = s.free ∧ (State.bootCode s code).out = s.out ∧ (State.bootCode s code).stat = s.stat ∧ (State.bootCode
    s code).evlog = s.evlog ∧ KeepsSpace s (State.bootCode s code) ∧ KeepsStore s (State.bootCode s code) ∧ KeepsHost s
    (State.bootCode s code) ∧ KeepsChip s (State.bootCode s code) := by
  simp [State.bootCode, State.setFld_frame _]

theorem State.endRetry_frame (s : State) (ssvid : Half) (ssid : Half) : KeepsBase s (State.endRetry s ssvid
    ssid) ∧ KeepsNotes s (State.endRetry s ssvid ssid) ∧ KeepsSpace s (State.endRetry s ssvid ssid) ∧ KeepsStore s
    (State.endRetry s ssvid ssid) ∧ (State.endRetry s ssvid ssid).cmds = s.cmds ∧ (State.endRetry s ssvid ssid).pools =
    s.pools ∧ KeepsChip s (State.endRetry s ssvid ssid) := by
  simp [State.endRetry, State.setPort_frame _]

theorem State.bootStops_frame (s : State) (code : Nat) : KeepsBase s (State.bootStops s code) ∧ (State.bootStops
    s code).free = s.free ∧ (State.bootStops s code).stat = s.stat ∧ (State.bootStops s code).evlog = s.evlog ∧
    KeepsSpace s (State.bootStops s code) ∧ KeepsStore s (State.bootStops s code) ∧ (State.bootStops s code).cmds =
    s.cmds ∧ (State.bootStops s code).pools = s.pools ∧ KeepsChip s (State.bootStops s code) := by
  simp [State.bootStops, State.bootCode_frame _, State.emit_frame _, State.endRetry_frame _]

theorem State.rejectSlot_frame (s : State) (k : Nat) : KeepsBase s (State.rejectSlot s k) ∧ (State.rejectSlot s
    k).free = s.free ∧ (State.rejectSlot s k).out = s.out ∧ (State.rejectSlot s k).stat = s.stat ∧ (State.rejectSlot s
    k).evlog = s.evlog ∧ KeepsSpace s (State.rejectSlot s k) ∧ KeepsStore s (State.rejectSlot s k) ∧ KeepsHost s
    (State.rejectSlot s k) ∧ KeepsChip s (State.rejectSlot s k) := by
  simp [State.rejectSlot, State.setFld_frame _]

theorem State.tryslots_frame (s : State) (x2 : List (Nat × NorSlot)) (x3 : Bool) : KeepsBase s (State.tryslots s
    x2 x3) ∧ (State.tryslots s x2 x3).free = s.free ∧ (State.tryslots s x2 x3).evlog = s.evlog ∧ KeepsSpace s
    (State.tryslots s x2 x3) ∧ KeepsStore s (State.tryslots s x2 x3) ∧ (State.tryslots s x2 x3).cmds = s.cmds ∧
    (State.tryslots s x2 x3).pools = s.pools ∧ (State.tryslots s x2 x3).pins = s.pins ∧ (State.tryslots s x2
    x3).boot.fuses = s.boot.fuses := by
  induction x2 generalizing s x3 with
  | nil => simp [State.tryslots, State.bootStops_frame _, State.raise_frame _, State.rejectSlot_frame _,
      State.setBoot_frame _, State.setFld_frame _]
  | cons e l ih =>
    obtain ⟨k, x⟩ := e
    generalize ht : s.tryslots ((k, x) :: l) x3 = t
    unfold State.tryslots at ht
    dsimp only at ht
    (repeat' split at ht) <;> subst ht <;> simp [ih, State.bootStops_frame _, State.raise_frame _,
        State.rejectSlot_frame _, State.setBoot_frame _, State.setFld_frame _]

theorem State.blowFuse_frame (s : State) (b : Nat) (blows : Bool) : KeepsBase s (State.blowFuse s b blows) ∧
    (State.blowFuse s b blows).free = s.free ∧ (State.blowFuse s b blows).evlog = s.evlog ∧ KeepsSpace s (State.blowFuse
    s b blows) ∧ KeepsStore s (State.blowFuse s b blows) ∧ KeepsHost s (State.blowFuse s b blows) ∧ (State.blowFuse s b
    blows).pins = s.pins := by
  unfold State.blowFuse
  dsimp only
  (repeat' split) <;> simp [State.bootCode_frame _, State.raise_frame _, State.setFld_frame _, State.showFuses_frame _]

theorem blowAll_frame (s : State) (l : List Nat) : KeepsBase s (blowAll s l) ∧ KeepsSpace s (blowAll s l) ∧
    KeepsStore s (blowAll s l) ∧ KeepsHost s (blowAll s l) ∧ (blowAll s l).pins = s.pins := by
  unfold blowAll
  simp [State.blowFuse_frame _]

theorem revokeOne_frame (img : Image) (board : Option Board) (s : State) (k : Nat) : KeepsBase s (revokeOne img
    board s k) ∧ KeepsSpace s (revokeOne img board s k) ∧ KeepsStore s (revokeOne img board s k) ∧ KeepsHost s
    (revokeOne img board s k) ∧ (revokeOne img board s k).pins = s.pins := by
  unfold revokeOne
  (repeat' split) <;> simp [State.record_frame _, blowAll_frame _]

theorem State.fuseRequests_frame (s : State) (img : Image) (board : Option Board) : KeepsBase s (s.fuseRequests
    img board) ∧ KeepsSpace s (s.fuseRequests img board) ∧ KeepsStore s (s.fuseRequests img board) ∧ KeepsHost s
    (s.fuseRequests img board) ∧ (s.fuseRequests img board).pins = s.pins := by
  generalize ht : s.fuseRequests img board = t
  unfold State.fuseRequests at ht
  dsimp only at ht
  (repeat' split at ht) <;> subst ht <;> simp [blowAll_frame _, revokeOne_frame _]

theorem State.writeFences_frame (s : State) (ws : List Window) : (State.writeFences s ws).pending = s.pending ∧
    (State.writeFences s ws).armed = s.armed ∧ (State.writeFences s ws).posted = s.posted ∧ (State.writeFences s
    ws).late = s.late ∧ (State.writeFences s ws).isolated = s.isolated ∧ (State.writeFences s ws).failedCores =
    s.failedCores ∧ (State.writeFences s ws).mtf = s.mtf ∧ (State.writeFences s ws).mules = s.mules ∧ (State.writeFences
    s ws).sdram = s.sdram ∧ (State.writeFences s ws).ram = s.ram ∧ KeepsSpace s (State.writeFences s ws) ∧ KeepsStore s
    (State.writeFences s ws) ∧ KeepsHost s (State.writeFences s ws) ∧ KeepsChip s (State.writeFences s ws) := by
  unfold State.writeFences
  (repeat' split) <;> simp (disch := (intros; (repeat' split) <;> simp [*, State.record_frame _, State.setFld_frame _, State.setMat_frame _])) [State.record_frame _, State.setFld_frame _, State.setMat_frame _]

theorem State.writeGuardSet_frame (s : State) (img : Image) (b : Board) : (State.writeGuardSet s img b).pending
    = s.pending ∧ (State.writeGuardSet s img b).armed = s.armed ∧ (State.writeGuardSet s img b).posted = s.posted ∧
    (State.writeGuardSet s img b).late = s.late ∧ (State.writeGuardSet s img b).isolated = s.isolated ∧
    (State.writeGuardSet s img b).failedCores = s.failedCores ∧ (State.writeGuardSet s img b).mtf = s.mtf ∧
    (State.writeGuardSet s img b).mules = s.mules ∧ (State.writeGuardSet s img b).sdram = s.sdram ∧ (State.writeGuardSet
    s img b).ram = s.ram ∧ KeepsSpace s (State.writeGuardSet s img b) ∧ KeepsStore s (State.writeGuardSet s img b) ∧
    KeepsHost s (State.writeGuardSet s img b) ∧ KeepsChip s (State.writeGuardSet s img b) := by
  simp [State.writeGuardSet, State.setFld_frame _, State.setReg_frame _, State.writeFences_frame _]

theorem State.writeNor_frame (s : State) (img : Image) : KeepsBase s (State.writeNor s img) ∧ KeepsNotes s
    (State.writeNor s img) ∧ KeepsSpace s (State.writeNor s img) ∧ KeepsStore s (State.writeNor s img) ∧ KeepsHost s
    (State.writeNor s img) ∧ (State.writeNor s img).pins = s.pins ∧ (State.writeNor s img).boot.fuses = s.boot.fuses :=
    by
  unfold State.writeNor
  dsimp only
  (repeat' split) <;> simp

theorem State.spoilNor_frame (s : State) : KeepsBase s (State.spoilNor s) ∧ KeepsNotes s (State.spoilNor s) ∧
    KeepsSpace s (State.spoilNor s) ∧ KeepsStore s (State.spoilNor s) ∧ KeepsHost s (State.spoilNor s) ∧ (State.spoilNor
    s).pins = s.pins ∧ (State.spoilNor s).boot.fuses = s.boot.fuses := by
  unfold State.spoilNor
  (repeat' split) <;> simp

/-! ## Machine/Recovery -/

theorem State.forgetMedia_frame (s : State) : KeepsBase s s.forgetMedia ∧ KeepsNotes s s.forgetMedia ∧ KeepsHost
    s s.forgetMedia ∧ s.forgetMedia.pins = s.pins ∧ s.forgetMedia.boot.fuses = s.boot.fuses := by
  unfold State.forgetMedia
  simp

theorem State.scanIntents_frame (s : State) : KeepsBase s (State.scanIntents s) ∧ KeepsSpace s
    (State.scanIntents s) ∧ KeepsStore s (State.scanIntents s) ∧ KeepsHost s (State.scanIntents s) ∧ KeepsChip s
    (State.scanIntents s) := by
  unfold State.scanIntents
  (repeat' split) <;> simp (disch := (intros; (repeat' split) <;> simp [*, State.raiseRecord_frame _])) [State.raiseRecord_frame _]

theorem State.loadRecords_frame (s : State) : KeepsBase s (State.loadRecords s) ∧ (State.loadRecords s).free =
    s.free ∧ (State.loadRecords s).out = s.out ∧ (State.loadRecords s).stat = s.stat ∧ (State.loadRecords s).evlog =
    s.evlog ∧ KeepsSpace s (State.loadRecords s) ∧ KeepsStore s (State.loadRecords s) ∧ KeepsHost s (State.loadRecords
    s) ∧ KeepsChip s (State.loadRecords s) := by
  unfold State.loadRecords
  (repeat' split) <;> simp (disch := (intros; (repeat' split) <;> simp [*, State.setCarState_frame _, State.setReg_frame _])) [State.setCarState_frame _, State.setReg_frame _]

theorem State.classStop_frame (s : State) : KeepsBase s (State.classStop s) ∧ KeepsSpace s (State.classStop s) ∧
    KeepsStore s (State.classStop s) ∧ KeepsHost s (State.classStop s) ∧ KeepsChip s (State.classStop s) := by
  unfold State.classStop
  dsimp only
  (repeat' split) <;> simp [State.raiseRecord_frame _, State.setFld_frame _]

theorem revertBlock_frame (old : StageRec) (p : StageRec × State) (b : Nat) : KeepsBase p.2 ((revertBlock old p
    b).2) ∧ ((revertBlock old p b).2).out = p.2.out ∧ ((revertBlock old p b).2).regs = p.2.regs ∧ ((revertBlock old p
    b).2).stat = p.2.stat ∧ ((revertBlock old p b).2).evlog = p.2.evlog ∧ KeepsSpace p.2 ((revertBlock old p b).2) ∧
    KeepsStore p.2 ((revertBlock old p b).2) ∧ KeepsHost p.2 ((revertBlock old p b).2) ∧ KeepsChip p.2 ((revertBlock old
    p b).2) := by
  unfold revertBlock
  dsimp only
  split <;> simp [State.takeFree_frame _]

theorem revertBlocks_frame (old : StageRec) (l : List Nat) (p : StageRec × State) : KeepsBase p.2 ((l.foldl
    (revertBlock old) p).2) ∧ ((l.foldl (revertBlock old) p).2).out = p.2.out ∧ ((l.foldl (revertBlock old) p).2).regs =
    p.2.regs ∧ ((l.foldl (revertBlock old) p).2).stat = p.2.stat ∧ ((l.foldl (revertBlock old) p).2).evlog = p.2.evlog ∧
    KeepsSpace p.2 ((l.foldl (revertBlock old) p).2) ∧ KeepsStore p.2 ((l.foldl (revertBlock old) p).2) ∧ KeepsHost p.2
    ((l.foldl (revertBlock old) p).2) ∧ KeepsChip p.2 ((l.foldl (revertBlock old) p).2) :=
  foldl_snd (P := fun s t => KeepsBase s t ∧ t.out = s.out ∧ t.regs = s.regs ∧ t.stat = s.stat ∧ t.evlog = s.evlog ∧
      KeepsSpace s t ∧ KeepsStore s t ∧ KeepsHost s t ∧ KeepsChip s t) (by simp)
    (by intro a b c h1 h2; simp_all) _ (revertBlock_frame old) _ _

theorem State.revertTrim_frame (s : State) (t : TrimNote) : KeepsBase s (State.revertTrim s t) ∧
    (State.revertTrim s t).out = s.out ∧ (State.revertTrim s t).regs = s.regs ∧ (State.revertTrim s t).stat = s.stat ∧
    (State.revertTrim s t).evlog = s.evlog ∧ KeepsSpace s (State.revertTrim s t) ∧ (State.revertTrim s t).media =
    s.media ∧ KeepsHost s (State.revertTrim s t) ∧ KeepsChip s (State.revertTrim s t) := by
  generalize hu : s.revertTrim t = u
  unfold State.revertTrim at hu
  dsimp only at hu
  (repeat' split at hu) <;> subst hu <;> simp [State.mapSet_frame _, State.setStage_frame _, State.unstage_frame _,
      revertBlocks_frame _]

theorem State.replayJobs_frame (s : State) : KeepsBase s (State.replayJobs s) ∧ KeepsNotes s (State.replayJobs
    s) ∧ (State.replayJobs s).nss = s.nss ∧ (State.replayJobs s).power = s.power ∧ KeepsStore s (State.replayJobs s) ∧
    KeepsHost s (State.replayJobs s) ∧ KeepsChip s (State.replayJobs s) := by
  unfold State.replayJobs
  exact foldl_rel (P := fun s t : State => KeepsBase s t ∧ KeepsNotes s t ∧ t.nss = s.nss ∧ t.power = s.power ∧ KeepsStore s t ∧ KeepsHost s t ∧ KeepsChip s t) (by simp [State.createJobs_frame _]) (by intro a b c h1 h2; simp_all [State.createJobs_frame _]) _ (by intro s x; dsimp only; (repeat' split) <;> simp [State.createJobs_frame _]) _ _

theorem installIf_frame (s : State) (e : Nat × Gather) : KeepsBase s (installIf s e) ∧ KeepsNotes s (installIf s
    e) ∧ KeepsSpace s (installIf s e) ∧ (installIf s e).media = s.media ∧ KeepsHost s (installIf s e) ∧ KeepsChip s
    (installIf s e) := by
  unfold installIf
  split <;> simp [State.installGather_frame _]

theorem State.replay_frame (s : State) : KeepsBase s (State.replay s) ∧ (State.replay s).out = s.out ∧
    (State.replay s).stat = s.stat ∧ (State.replay s).evlog = s.evlog ∧ (State.replay s).nss = s.nss ∧ (State.replay
    s).media = s.media ∧ KeepsHost s (State.replay s) ∧ KeepsChip s (State.replay s) := by
  unfold State.replay
  simp [-List.foldl_reverse, State.replayJobs_frame _, State.revertTrim_frame _, State.setFld_frame _, installIf_frame
      _]

theorem State.closeOpenBands_frame (s : State) : KeepsBase s (State.closeOpenBands s) ∧ KeepsNotes s
    (State.closeOpenBands s) ∧ KeepsSpace s (State.closeOpenBands s) ∧ (State.closeOpenBands s).map = s.map ∧
    (State.closeOpenBands s).media = s.media ∧ KeepsHost s (State.closeOpenBands s) ∧ KeepsChip s (State.closeOpenBands
    s) := by
  unfold State.closeOpenBands
  (repeat' split) <;> simp (disch := (intros; (repeat' split) <;> simp [*, State.closeBand_frame _])) [State.closeBand_frame _]

theorem State.departAtStart_frame (s : State) (c : Nat) : KeepsBase s (State.departAtStart s c) ∧ KeepsSpace s
    (State.departAtStart s c) ∧ (State.departAtStart s c).map = s.map ∧ (State.departAtStart s c).cmds = s.cmds ∧
    (State.departAtStart s c).pools = s.pools ∧ (State.departAtStart s c).boot = s.boot ∧ (State.departAtStart s
    c).pins.resetLow = s.pins.resetLow ∧ (State.departAtStart s c).pins.frozen = s.pins.frozen := by
  unfold State.departAtStart
  (repeat' split) <;> simp [State.dropStaged_frame _, State.failMembers_frame _, State.setCarrier_frame _,
      State.setReg_frame _]

theorem settleOne_frame (s : State) (c : Nat) : KeepsBase s (settleOne s c) ∧ (settleOne s c).out = s.out ∧
    (settleOne s c).stat = s.stat ∧ (settleOne s c).evlog = s.evlog ∧ KeepsSpace s (settleOne s c) ∧ (settleOne s c).map
    = s.map ∧ (settleOne s c).place = s.place ∧ KeepsHost s (settleOne s c) ∧ KeepsChip s (settleOne s c) := by
  unfold settleOne
  dsimp only
  split <;> simp [State.beginReconcile_frame _, State.setCarrier_frame _]

theorem State.settleCarriers_frame (s : State) : KeepsBase s (State.settleCarriers s) ∧ KeepsSpace s
    (State.settleCarriers s) ∧ (State.settleCarriers s).map = s.map ∧ (State.settleCarriers s).cmds = s.cmds ∧
    (State.settleCarriers s).pools = s.pools ∧ (State.settleCarriers s).boot = s.boot := by
  unfold State.settleCarriers
  simp [State.departAtStart_frame _, settleOne_frame _]


theorem State.settleCarriers_chip (s : State) : (State.settleCarriers s).pins.resetLow = s.pins.resetLow ∧
    (State.settleCarriers s).pins.frozen = s.pins.frozen := by
  unfold State.settleCarriers
  simp [State.departAtStart_frame _, settleOne_frame _]

theorem State.restoreState_frame (s : State) : KeepsBase s (State.restoreState s) ∧ (State.restoreState s).cmds
    = s.cmds ∧ (State.restoreState s).pools = s.pools ∧ (State.restoreState s).boot = s.boot := by
  simp [State.restoreState, State.closeOpenBands_frame _, State.reapDeposed_frame _, State.setBlocks_frame _,
      State.setReg_frame _, State.settleCarriers_frame _]


theorem State.restoreState_chip (s : State) : (State.restoreState s).pins.resetLow = s.pins.resetLow ∧
    (State.restoreState s).pins.frozen = s.pins.frozen := by
  generalize ht : State.restoreState s = t
  unfold State.restoreState at ht
  try dsimp only at ht
  (repeat' split at ht) <;> subst ht <;> simp [State.closeOpenBands_frame _, State.reapDeposed_frame _,
      State.setBlocks_frame _, State.setReg_frame _, State.settleCarriers_chip _]

theorem State.renewRecords_frame (s : State) : KeepsBase s (State.renewRecords s) ∧ (State.renewRecords s).free
    = s.free ∧ (State.renewRecords s).stat = s.stat ∧ (State.renewRecords s).evlog = s.evlog ∧ KeepsSpace s
    (State.renewRecords s) ∧ (State.renewRecords s).map = s.map ∧ (State.renewRecords s).place = s.place ∧ KeepsHost s
    (State.renewRecords s) ∧ KeepsChip s (State.renewRecords s) := by
  unfold State.renewRecords
  (repeat' split) <;> simp (disch := (intros; (repeat' split) <;> simp [*, State.writeRecord_frame _])) [State.writeRecord_frame _]

theorem State.readyDies_frame (s : State) : KeepsBase s (State.readyDies s) ∧ KeepsSpace s (State.readyDies s) ∧
    (State.readyDies s).map = s.map ∧ (State.readyDies s).cmds = s.cmds ∧ (State.readyDies s).pools = s.pools ∧
    (State.readyDies s).boot = s.boot ∧ (State.readyDies s).pins.resetLow = s.pins.resetLow ∧ (State.readyDies
    s).pins.frozen = s.pins.frozen := by
  unfold State.readyDies
  exact foldl_rel (P := fun s t : State => KeepsBase s t ∧ KeepsSpace s t ∧ t.map = s.map ∧ t.cmds = s.cmds ∧ t.pools = s.pools ∧ t.boot = s.boot ∧ t.pins.resetLow = s.pins.resetLow ∧ t.pins.frozen = s.pins.frozen) (by simp [State.eraseNow_frame _, State.settleAreas_frame _]) (by intro a b c h1 h2; simp_all [State.eraseNow_frame _, State.settleAreas_frame _]) _ (by intro s x; dsimp only; (repeat' split) <;> simp [State.eraseNow_frame _, State.settleAreas_frame _]) _ _

theorem State.rejoin_frame (s : State) : KeepsBase s (State.rejoin s) ∧ (State.rejoin s).free = s.free ∧
    (State.rejoin s).out = s.out ∧ (State.rejoin s).stat = s.stat ∧ (State.rejoin s).evlog = s.evlog ∧ KeepsSpace s
    (State.rejoin s) ∧ (State.rejoin s).map = s.map ∧ (State.rejoin s).media = s.media ∧ KeepsHost s (State.rejoin s) ∧
    KeepsChip s (State.rejoin s) := by
  unfold State.rejoin
  exact foldl_rel (P := fun s t : State => KeepsBase s t ∧ t.free = s.free ∧ t.out = s.out ∧ t.stat = s.stat ∧ t.evlog = s.evlog ∧ KeepsSpace s t ∧ t.map = s.map ∧ t.media = s.media ∧ KeepsHost s t ∧ KeepsChip s t) (by simp [State.joinUnit_frame _]) (by intro a b c h1 h2; simp_all [State.joinUnit_frame _]) _ (by intro s x; dsimp only; (repeat' split) <;> simp [State.joinUnit_frame _]) _ _

theorem State.followAll_frame (s : State) : KeepsBase s (State.followAll s) ∧ (State.followAll s).deferred =
    s.deferred ∧ (State.followAll s).herd = s.herd ∧ (State.followAll s).map = s.map ∧ (State.followAll s).media =
    s.media ∧ (State.followAll s).cmds = s.cmds ∧ (State.followAll s).pools = s.pools ∧ (State.followAll s).boot =
    s.boot ∧ (State.followAll s).pins.resetLow = s.pins.resetLow ∧ (State.followAll s).pins.frozen = s.pins.frozen := by
  simp [State.followAll, State.followHerd_frame _, State.followPeerPorts_frame _, State.mediaChanged_frame _,
      State.recompute_frame _]

theorem State.compareStore_frame (s : State) : KeepsBase s (State.compareStore s) ∧ (State.compareStore s).free
    = s.free ∧ (State.compareStore s).regs = s.regs ∧ (State.compareStore s).evlog = s.evlog ∧ KeepsSpace s
    (State.compareStore s) ∧ KeepsStore s (State.compareStore s) ∧ KeepsHost s (State.compareStore s) ∧
    (State.compareStore s).pins = s.pins ∧ (State.compareStore s).boot.fuses = s.boot.fuses := by
  unfold State.compareStore
  dsimp only
  (repeat' split) <;> simp [State.raise_frame _]

theorem State.startSession_frame (s : State) : KeepsBase s (State.startSession s) ∧ (State.startSession
    s).deferred = s.deferred ∧ (State.startSession s).herd = s.herd ∧ (State.startSession s).map = s.map ∧
    (State.startSession s).pools = s.pools ∧ (State.startSession s).boot.fuses = s.boot.fuses ∧ (State.startSession
    s).pins.resetLow = s.pins.resetLow ∧ (State.startSession s).pins.frozen = s.pins.frozen := by
  unfold State.startSession
  dsimp only
  (repeat' split) <;> simp [State.compareStore_frame _, State.followAll_frame _, State.leaveBoot_frame _,
      State.readyDies_frame _, State.rejoin_frame _, State.renewRecords_frame _]

theorem State.atStep_frame (s : State) (n : Nat) : KeepsBase s (State.atStep s n) ∧ KeepsNotes s (State.atStep s
    n) ∧ (State.atStep s n).nss = s.nss ∧ (State.atStep s n).deferred = s.deferred ∧ (State.atStep s n).herd = s.herd ∧
    KeepsStore s (State.atStep s n) ∧ KeepsHost s (State.atStep s n) ∧ KeepsChip s (State.atStep s n) := by
  simp [State.atStep]

theorem State.startDiscovery_frame (s : State) : KeepsBase s (State.startDiscovery s) ∧ (State.startDiscovery
    s).free = s.free ∧ (State.startDiscovery s).out = s.out ∧ (State.startDiscovery s).stat = s.stat ∧
    (State.startDiscovery s).evlog = s.evlog ∧ KeepsSpace s (State.startDiscovery s) ∧ KeepsStore s
    (State.startDiscovery s) ∧ KeepsHost s (State.startDiscovery s) ∧ KeepsChip s (State.startDiscovery s) := by
  simp [State.startDiscovery, State.setCarState_frame _, State.setFld_frame _]

theorem State.recover_frame (s : State) : KeepsBase s (State.recover s) ∧ (State.recover s).pools = s.pools := by
  unfold State.recover
  (repeat' split) <;> simp [State.atStep_frame _, State.classStop_frame _, State.forgetMedia_frame _,
      State.loadRecords_frame _, State.replay_frame _, State.restoreState_frame _, State.scanIntents_frame _,
      State.startDiscovery_frame _, State.startSession_frame _]


theorem State.recover_chip (s : State) : (State.recover s).boot.fuses = s.boot.fuses ∧ (State.recover
    s).pins.resetLow = s.pins.resetLow ∧ (State.recover s).pins.frozen = s.pins.frozen := by
  generalize ht : State.recover s = t
  unfold State.recover at ht
  try dsimp only at ht
  (repeat' split at ht) <;> subst ht <;> simp [State.atStep_frame _, State.classStop_frame _, State.forgetMedia_frame _,
      State.loadRecords_frame _, State.replay_frame _, State.restoreState_chip _, State.restoreState_frame _,
      State.scanIntents_frame _, State.startDiscovery_frame _, State.startSession_frame _]

/-! ## Machine/Modes -/

theorem State.rehome_frame (s : State) (i : Nat) : KeepsBase s (State.rehome s i).1 ∧ KeepsNotes s (State.rehome
    s i).1 ∧ KeepsSpace s (State.rehome s i).1 ∧ KeepsStore s (State.rehome s i).1 ∧ (State.rehome s i).1.hosts =
    s.hosts ∧ (State.rehome s i).1.pools = s.pools ∧ KeepsChip s (State.rehome s i).1 := by
  simp [State.rehome, State.setSq_frame _]

theorem State.failCore_frame (s : State) (c : CoreId) (cause : Nat) : (State.failCore s c cause).pending =
    s.pending ∧ (State.failCore s c cause).armed = s.armed ∧ (State.failCore s c cause).posted = s.posted ∧
    (State.failCore s c cause).late = s.late ∧ (State.failCore s c cause).isolated = s.isolated ∧ (State.failCore s c
    cause).mtf = s.mtf ∧ (State.failCore s c cause).mat = s.mat ∧ (State.failCore s c cause).mules = s.mules ∧
    (State.failCore s c cause).sdram = s.sdram ∧ (State.failCore s c cause).ram = s.ram ∧ (State.failCore s c cause).nss
    = s.nss ∧ (State.failCore s c cause).deferred = s.deferred ∧ (State.failCore s c cause).herd = s.herd ∧
    (State.failCore s c cause).map = s.map ∧ (State.failCore s c cause).place = s.place := by
  unfold State.failCore
  dsimp only
  (repeat' split) <;> simp [State.abortCastle_frame _, State.haltNow_frame _, State.raise_frame _, State.reason_frame _,
      State.recordFault_frame _, State.rehome_frame _]


theorem State.failCore_chip (s : State) (c : CoreId) (cause : Nat) : (State.failCore s c cause).boot.fuses =
    s.boot.fuses ∧ (State.failCore s c cause).pins.resetLow = s.pins.resetLow ∧ (State.failCore s c cause).pins.frozen =
    s.pins.frozen := by
  generalize ht : State.failCore s c cause = t
  unfold State.failCore at ht
  try dsimp only at ht
  (repeat' split at ht) <;> subst ht <;> simp [State.abortCastle_chip _, State.haltNow_chip _, State.raise_frame _,
      State.reason_frame _, State.recordFault_frame _, State.rehome_frame _]

end Sys2Proof.Machine
end

