-- ==== Sys2Proof/Laws/FramesExec.lean ====
section
/-! SUPPORT. What the functions of the meanings of the commands leave unchanged: one lemma for each, which lists the parts of the
state that it keeps. -/

namespace Sys2Proof.Machine

open Sys2Proof

set_option linter.all false

@[simp] theorem after_answer (u : State) (p : Bool) (s t : State) : after u (answer p s t) = if p then t else s := by
  cases p <;> rfl

@[simp] theorem after_next (u t : State) : after u (.next t) = t := rfl

@[simp] theorem ite_pending (p : Prop) [Decidable p] (s t : State) : (if p then s else t).pending = if p then s.pending
    else t.pending := by
  split <;> rfl

@[simp] theorem ite_free (p : Prop) [Decidable p] (s t : State) : (if p then s else t).free = if p then s.free else
    t.free := by
  split <;> rfl

@[simp] theorem ite_out (p : Prop) [Decidable p] (s t : State) : (if p then s else t).out = if p then s.out else t.out := by
  split <;> rfl

@[simp] theorem ite_regs (p : Prop) [Decidable p] (s t : State) : (if p then s else t).regs = if p then s.regs else
    t.regs := by
  split <;> rfl

@[simp] theorem ite_stat (p : Prop) [Decidable p] (s t : State) : (if p then s else t).stat = if p then s.stat else
    t.stat := by
  split <;> rfl

@[simp] theorem ite_armed (p : Prop) [Decidable p] (s t : State) : (if p then s else t).armed = if p then s.armed else
    t.armed := by
  split <;> rfl

@[simp] theorem ite_posted (p : Prop) [Decidable p] (s t : State) : (if p then s else t).posted = if p then s.posted
    else t.posted := by
  split <;> rfl

@[simp] theorem ite_late (p : Prop) [Decidable p] (s t : State) : (if p then s else t).late = if p then s.late else
    t.late := by
  split <;> rfl

@[simp] theorem ite_isolated (p : Prop) [Decidable p] (s t : State) : (if p then s else t).isolated = if p then
    s.isolated else t.isolated := by
  split <;> rfl

@[simp] theorem ite_failedCores (p : Prop) [Decidable p] (s t : State) : (if p then s else t).failedCores = if p then
    s.failedCores else t.failedCores := by
  split <;> rfl

@[simp] theorem ite_cmds (p : Prop) [Decidable p] (s t : State) : (if p then s else t).cmds = if p then s.cmds else
    t.cmds := by
  split <;> rfl

@[simp] theorem ite_hosts (p : Prop) [Decidable p] (s t : State) : (if p then s else t).hosts = if p then s.hosts else
    t.hosts := by
  split <;> rfl

@[simp] theorem ite_mtf (p : Prop) [Decidable p] (s t : State) : (if p then s else t).mtf = if p then s.mtf else t.mtf := by
  split <;> rfl

@[simp] theorem ite_deferred (p : Prop) [Decidable p] (s t : State) : (if p then s else t).deferred = if p then
    s.deferred else t.deferred := by
  split <;> rfl

@[simp] theorem ite_nss (p : Prop) [Decidable p] (s t : State) : (if p then s else t).nss = if p then s.nss else t.nss := by
  split <;> rfl

@[simp] theorem ite_map (p : Prop) [Decidable p] (s t : State) : (if p then s else t).map = if p then s.map else t.map := by
  split <;> rfl

@[simp] theorem ite_place (p : Prop) [Decidable p] (s t : State) : (if p then s else t).place = if p then s.place else
    t.place := by
  split <;> rfl

@[simp] theorem ite_media (p : Prop) [Decidable p] (s t : State) : (if p then s else t).media = if p then s.media else
    t.media := by
  split <;> rfl

@[simp] theorem ite_herd (p : Prop) [Decidable p] (s t : State) : (if p then s else t).herd = if p then s.herd else
    t.herd := by
  split <;> rfl

@[simp] theorem ite_power (p : Prop) [Decidable p] (s t : State) : (if p then s else t).power = if p then s.power else
    t.power := by
  split <;> rfl

@[simp] theorem ite_pools (p : Prop) [Decidable p] (s t : State) : (if p then s else t).pools = if p then s.pools else
    t.pools := by
  split <;> rfl

@[simp] theorem ite_mat (p : Prop) [Decidable p] (s t : State) : (if p then s else t).mat = if p then s.mat else t.mat := by
  split <;> rfl

@[simp] theorem ite_mules (p : Prop) [Decidable p] (s t : State) : (if p then s else t).mules = if p then s.mules else
    t.mules := by
  split <;> rfl

@[simp] theorem ite_sdram (p : Prop) [Decidable p] (s t : State) : (if p then s else t).sdram = if p then s.sdram else
    t.sdram := by
  split <;> rfl

@[simp] theorem ite_boot (p : Prop) [Decidable p] (s t : State) : (if p then s else t).boot = if p then s.boot else
    t.boot := by
  split <;> rfl

@[simp] theorem ite_pins (p : Prop) [Decidable p] (s t : State) : (if p then s else t).pins = if p then s.pins else
    t.pins := by
  split <;> rfl

@[simp] theorem ite_ram (p : Prop) [Decidable p] (s t : State) : (if p then s else t).ram = if p then s.ram else t.ram := by
  split <;> rfl

@[simp] theorem ite_evlog (p : Prop) [Decidable p] (s t : State) : (if p then s else t).evlog = if p then s.evlog else
    t.evlog := by
  split <;> rfl

theorem execBlockKeyWrite_frame (src : Source) (window : Nat) (v : Half) (s : State) (u : State) : (after u
    (execBlockKeyWrite src window v s)).pending = s.pending ∧ (after u (execBlockKeyWrite src window v s)).posted =
    s.posted ∧ (after u (execBlockKeyWrite src window v s)).late = s.late ∧ (after u (execBlockKeyWrite src window v
    s)).isolated = s.isolated ∧ (after u (execBlockKeyWrite src window v s)).failedCores = s.failedCores ∧ (after u
    (execBlockKeyWrite src window v s)).mtf = s.mtf ∧ (after u (execBlockKeyWrite src window v s)).mat = s.mat ∧ (after
    u (execBlockKeyWrite src window v s)).mules = s.mules ∧ (after u (execBlockKeyWrite src window v s)).sdram = s.sdram
    ∧ (after u (execBlockKeyWrite src window v s)).ram = s.ram ∧ (after u (execBlockKeyWrite src window v s)).free =
    s.free ∧ (after u (execBlockKeyWrite src window v s)).evlog = s.evlog ∧ KeepsSpace s (after u (execBlockKeyWrite src
    window v s)) ∧ KeepsStore s (after u (execBlockKeyWrite src window v s)) ∧ KeepsHost s (after u (execBlockKeyWrite
    src window v s)) ∧ KeepsChip s (after u (execBlockKeyWrite src window v s)) := by
  generalize ht : after u (execBlockKeyWrite src window v s) = t
  unfold execBlockKeyWrite at ht
  try dsimp only at ht
  (repeat' split at ht) <;> (try simp only [after_answer, after_next] at ht) <;> (repeat' split at ht) <;> subst ht <;>
    simp [State.writeKey_frame _]

theorem execStatAckWrite_frame (src : Source) (reg : Nat) (a : Half) (s : State) (u : State) : KeepsBase s
    (after u (execStatAckWrite src reg a s)) ∧ (after u (execStatAckWrite src reg a s)).free = s.free ∧ (after u
    (execStatAckWrite src reg a s)).regs = s.regs ∧ (after u (execStatAckWrite src reg a s)).evlog = s.evlog ∧
    KeepsSpace s (after u (execStatAckWrite src reg a s)) ∧ KeepsStore s (after u (execStatAckWrite src reg a s)) ∧
    (after u (execStatAckWrite src reg a s)).cmds = s.cmds ∧ (after u (execStatAckWrite src reg a s)).pools = s.pools ∧
    KeepsChip s (after u (execStatAckWrite src reg a s)) := by
  generalize ht : after u (execStatAckWrite src reg a s) = t
  unfold execStatAckWrite at ht
  try dsimp only at ht
  (repeat' split at ht) <;> (try simp only [after_answer, after_next] at ht) <;> (repeat' split at ht) <;> subst ht <;>
    simp [State.writeAck_frame _]

theorem execRegisterAccessTimeout_frame (src : Source) (a : Nat) (write : Bool) (s : State) (u : State) : (after
    u (execRegisterAccessTimeout src a write s)).pending = s.pending ∧ (after u (execRegisterAccessTimeout src a write
    s)).armed = s.armed ∧ (after u (execRegisterAccessTimeout src a write s)).isolated = s.isolated ∧ (after u
    (execRegisterAccessTimeout src a write s)).failedCores = s.failedCores ∧ (after u (execRegisterAccessTimeout src a
    write s)).mtf = s.mtf ∧ (after u (execRegisterAccessTimeout src a write s)).mat = s.mat ∧ (after u
    (execRegisterAccessTimeout src a write s)).mules = s.mules ∧ (after u (execRegisterAccessTimeout src a write
    s)).sdram = s.sdram ∧ (after u (execRegisterAccessTimeout src a write s)).ram = s.ram ∧ KeepsSpace s (after u
    (execRegisterAccessTimeout src a write s)) ∧ KeepsStore s (after u (execRegisterAccessTimeout src a write s)) ∧
    KeepsHost s (after u (execRegisterAccessTimeout src a write s)) ∧ KeepsChip s (after u (execRegisterAccessTimeout
    src a write s)) := by
  generalize ht : after u (execRegisterAccessTimeout src a write s) = t
  unfold execRegisterAccessTimeout at ht
  try dsimp only at ht
  (repeat' split at ht) <;> (try simp only [after_answer, after_next] at ht) <;> (repeat' split at ht) <;> subst ht <;>
    simp [State.errorResponse_frame _]

theorem execBar0ReadError_frame (p : Port) (a size : Nat) (s : State) (u : State) : KeepsBase s (after u
    (execBar0ReadError p a size s)) ∧ KeepsSpace s (after u (execBar0ReadError p a size s)) ∧ KeepsStore s (after u
    (execBar0ReadError p a size s)) ∧ KeepsHost s (after u (execBar0ReadError p a size s)) ∧ KeepsChip s (after u
    (execBar0ReadError p a size s)) := by
  generalize ht : after u (execBar0ReadError p a size s) = t
  unfold execBar0ReadError at ht
  try dsimp only at ht
  (repeat' split at ht) <;> (try simp only [after_answer, after_next] at ht) <;> (repeat' split at ht) <;> subst ht <;>
    simp [State.emit_frame _, State.errorResponse_frame _]

theorem execSqDoorbellWrite_frame (f : Fn) (off size : Nat) (v : DWord) (s : State) (u : State) : KeepsBase s
    (after u (execSqDoorbellWrite f off size v s)) ∧ (after u (execSqDoorbellWrite f off size v s)).free = s.free ∧
    (after u (execSqDoorbellWrite f off size v s)).evlog = s.evlog ∧ KeepsSpace s (after u (execSqDoorbellWrite f off
    size v s)) ∧ KeepsStore s (after u (execSqDoorbellWrite f off size v s)) ∧ (after u (execSqDoorbellWrite f off size
    v s)).pools = s.pools ∧ KeepsChip s (after u (execSqDoorbellWrite f off size v s)) := by
  generalize ht : after u (execSqDoorbellWrite f off size v s) = t
  unfold execSqDoorbellWrite at ht
  try dsimp only at ht
  (repeat' split at ht) <;> (try simp only [after_answer, after_next] at ht) <;> (repeat' split at ht) <;> subst ht <;>
    simp [State.doorbell_frame _]

theorem execCqDoorbellWrite_frame (f : Fn) (off size : Nat) (v : DWord) (s : State) (u : State) : KeepsBase s
    (after u (execCqDoorbellWrite f off size v s)) ∧ (after u (execCqDoorbellWrite f off size v s)).free = s.free ∧
    (after u (execCqDoorbellWrite f off size v s)).evlog = s.evlog ∧ KeepsSpace s (after u (execCqDoorbellWrite f off
    size v s)) ∧ KeepsStore s (after u (execCqDoorbellWrite f off size v s)) ∧ (after u (execCqDoorbellWrite f off size
    v s)).pools = s.pools ∧ KeepsChip s (after u (execCqDoorbellWrite f off size v s)) := by
  generalize ht : after u (execCqDoorbellWrite f off size v s) = t
  unfold execCqDoorbellWrite at ht
  try dsimp only at ht
  (repeat' split at ht) <;> (try simp only [after_answer, after_next] at ht) <;> (repeat' split at ht) <;> subst ht <;>
    simp [State.doorbell_frame _]

theorem execPacketFetch_frame (p : Port) (packets : List (BitVec 512)) (s : State) (u : State) : KeepsBase s
    (after u (execPacketFetch p packets s)) ∧ (after u (execPacketFetch p packets s)).free = s.free ∧ (after u
    (execPacketFetch p packets s)).stat = s.stat ∧ (after u (execPacketFetch p packets s)).evlog = s.evlog ∧ KeepsSpace
    s (after u (execPacketFetch p packets s)) ∧ KeepsStore s (after u (execPacketFetch p packets s)) ∧ KeepsChip s
    (after u (execPacketFetch p packets s)) := by
  generalize ht : after u (execPacketFetch p packets s) = t
  unfold execPacketFetch at ht
  try dsimp only at ht
  (repeat' split at ht) <;> (try simp only [after_answer, after_next] at ht) <;> (repeat' split at ht) <;> subst ht <;>
    simp [State.setPort_frame _, State.takePackets_frame _, State.takeTag_frame _]

theorem execHeldRecordPost_frame (f : Fn) (cq : Nat) (s : State) (u : State) : KeepsBase s (after u
    (execHeldRecordPost f cq s)) ∧ (after u (execHeldRecordPost f cq s)).free = s.free ∧ (after u (execHeldRecordPost f
    cq s)).stat = s.stat ∧ (after u (execHeldRecordPost f cq s)).evlog = s.evlog ∧ KeepsSpace s (after u
    (execHeldRecordPost f cq s)) ∧ KeepsStore s (after u (execHeldRecordPost f cq s)) ∧ KeepsChip s (after u
    (execHeldRecordPost f cq s)) := by
  generalize ht : after u (execHeldRecordPost f cq s) = t
  unfold execHeldRecordPost at ht
  try dsimp only at ht
  (repeat' split at ht) <;> (try simp only [after_answer, after_next] at ht) <;> (repeat' split at ht) <;> subst ht <;>
    simp [State.postHeld_frame _]

theorem execCqAggTimer_frame (f : Fn) (cq : Nat) (s : State) (u : State) : KeepsBase s (after u (execCqAggTimer
    f cq s)) ∧ (after u (execCqAggTimer f cq s)).free = s.free ∧ (after u (execCqAggTimer f cq s)).regs = s.regs ∧
    (after u (execCqAggTimer f cq s)).stat = s.stat ∧ (after u (execCqAggTimer f cq s)).evlog = s.evlog ∧ KeepsSpace s
    (after u (execCqAggTimer f cq s)) ∧ KeepsStore s (after u (execCqAggTimer f cq s)) ∧ (after u (execCqAggTimer f cq
    s)).pools = s.pools ∧ KeepsChip s (after u (execCqAggTimer f cq s)) := by
  generalize ht : after u (execCqAggTimer f cq s) = t
  unfold execCqAggTimer at ht
  try dsimp only at ht
  (repeat' split at ht) <;> (try simp only [after_answer, after_next] at ht) <;> (repeat' split at ht) <;> subst ht <;>
    simp [State.message_frame _, State.setCq_frame _]

theorem execFunctionEnable_frame (f : Fn) (s : State) (u : State) : KeepsBase s (after u (execFunctionEnable f
    s)) ∧ (after u (execFunctionEnable f s)).free = s.free ∧ (after u (execFunctionEnable f s)).out = s.out ∧ (after u
    (execFunctionEnable f s)).stat = s.stat ∧ (after u (execFunctionEnable f s)).evlog = s.evlog ∧ KeepsSpace s (after u
    (execFunctionEnable f s)) ∧ KeepsStore s (after u (execFunctionEnable f s)) ∧ (after u (execFunctionEnable f
    s)).pools = s.pools ∧ KeepsChip s (after u (execFunctionEnable f s)) := by
  generalize ht : after u (execFunctionEnable f s) = t
  unfold execFunctionEnable at ht
  try dsimp only at ht
  (repeat' split at ht) <;> (try simp only [after_answer, after_next] at ht) <;> (repeat' split at ht) <;> subst ht <;>
    simp [State.enableFn_frame _]

theorem execMapPagePlace_frame (mpn : Nat) (p : Port) (s : State) (u : State) : KeepsBase s (after u
    (execMapPagePlace mpn p s)) ∧ (after u (execMapPagePlace mpn p s)).free = s.free ∧ (after u (execMapPagePlace mpn p
    s)).evlog = s.evlog ∧ KeepsSpace s (after u (execMapPagePlace mpn p s)) ∧ (after u (execMapPagePlace mpn p s)).place
    = s.place ∧ (after u (execMapPagePlace mpn p s)).media = s.media ∧ KeepsHost s (after u (execMapPagePlace mpn p s))
    ∧ KeepsChip s (after u (execMapPagePlace mpn p s)) := by
  generalize ht : after u (execMapPagePlace mpn p s) = t
  unfold execMapPagePlace at ht
  try dsimp only at ht
  (repeat' split at ht) <;> (try simp only [after_answer, after_next] at ht) <;> (repeat' split at ht) <;> subst ht <;>
    simp [State.emit_frame _, State.rollSealKey_frame _]

theorem execMapPageDrop_frame (mpn : Nat) (s : State) (u : State) : KeepsBase s (after u (execMapPageDrop mpn
    s)) ∧ KeepsNotes s (after u (execMapPageDrop mpn s)) ∧ KeepsSpace s (after u (execMapPageDrop mpn s)) ∧ (after u
    (execMapPageDrop mpn s)).place = s.place ∧ (after u (execMapPageDrop mpn s)).media = s.media ∧ KeepsHost s (after u
    (execMapPageDrop mpn s)) ∧ KeepsChip s (after u (execMapPageDrop mpn s)) := by
  generalize ht : after u (execMapPageDrop mpn s) = t
  unfold execMapPageDrop at ht
  try dsimp only at ht
  (repeat' split at ht) <;> (try simp only [after_answer, after_next] at ht) <;> (repeat' split at ht) <;> subst ht <;>
    simp

theorem execEvictionWritebackDone_frame (island index : Nat) (s : State) (u : State) : KeepsBase s (after u
    (execEvictionWritebackDone island index s)) ∧ KeepsNotes s (after u (execEvictionWritebackDone island index s)) ∧
    KeepsSpace s (after u (execEvictionWritebackDone island index s)) ∧ (after u (execEvictionWritebackDone island index
    s)).place = s.place ∧ (after u (execEvictionWritebackDone island index s)).media = s.media ∧ KeepsHost s (after u
    (execEvictionWritebackDone island index s)) ∧ KeepsChip s (after u (execEvictionWritebackDone island index s)) := by
  generalize ht : after u (execEvictionWritebackDone island index s) = t
  unfold execEvictionWritebackDone at ht
  try dsimp only at ht
  (repeat' split at ht) <;> (try simp only [after_answer, after_next] at ht) <;> (repeat' split at ht) <;> subst ht <;>
    simp

theorem execStreamDetectorIdle_frame (detector : Nat) (s : State) (u : State) : KeepsBase s (after u
    (execStreamDetectorIdle detector s)) ∧ KeepsNotes s (after u (execStreamDetectorIdle detector s)) ∧ KeepsSpace s
    (after u (execStreamDetectorIdle detector s)) ∧ (after u (execStreamDetectorIdle detector s)).place = s.place ∧
    (after u (execStreamDetectorIdle detector s)).media = s.media ∧ KeepsHost s (after u (execStreamDetectorIdle
    detector s)) ∧ KeepsChip s (after u (execStreamDetectorIdle detector s)) := by
  generalize ht : after u (execStreamDetectorIdle detector s) = t
  unfold execStreamDetectorIdle at ht
  try dsimp only at ht
  (repeat' split at ht) <;> (try simp only [after_answer, after_next] at ht) <;> (repeat' split at ht) <;> subst ht <;>
    simp

theorem execDirtyLineRebuild_frame (mpn line : Nat) (s : State) (u : State) : KeepsBase s (after u
    (execDirtyLineRebuild mpn line s)) ∧ KeepsSpace s (after u (execDirtyLineRebuild mpn line s)) ∧ KeepsStore s (after
    u (execDirtyLineRebuild mpn line s)) ∧ KeepsHost s (after u (execDirtyLineRebuild mpn line s)) ∧ KeepsChip s (after
    u (execDirtyLineRebuild mpn line s)) := by
  generalize ht : after u (execDirtyLineRebuild mpn line s) = t
  unfold execDirtyLineRebuild at ht
  try dsimp only at ht
  (repeat' split at ht) <;> (try simp only [after_answer, after_next] at ht) <;> (repeat' split at ht) <;> subst ht <;>
    simp [State.raiseRecord_frame _]

theorem execMchScratchWrite_frame (src : Source) (value : Word) (s : State) (u : State) : (after u
    (execMchScratchWrite src value s)).pending = s.pending ∧ (after u (execMchScratchWrite src value s)).posted =
    s.posted ∧ (after u (execMchScratchWrite src value s)).late = s.late ∧ (after u (execMchScratchWrite src value
    s)).isolated = s.isolated ∧ (after u (execMchScratchWrite src value s)).failedCores = s.failedCores ∧ (after u
    (execMchScratchWrite src value s)).mtf = s.mtf ∧ (after u (execMchScratchWrite src value s)).mat = s.mat ∧ (after u
    (execMchScratchWrite src value s)).mules = s.mules ∧ (after u (execMchScratchWrite src value s)).sdram = s.sdram ∧
    (after u (execMchScratchWrite src value s)).ram = s.ram ∧ KeepsSpace s (after u (execMchScratchWrite src value s)) ∧
    (after u (execMchScratchWrite src value s)).place = s.place ∧ (after u (execMchScratchWrite src value s)).media =
    s.media ∧ (after u (execMchScratchWrite src value s)).cmds = s.cmds ∧ (after u (execMchScratchWrite src value
    s)).pools = s.pools ∧ KeepsChip s (after u (execMchScratchWrite src value s)) := by
  generalize ht : after u (execMchScratchWrite src value s) = t
  unfold execMchScratchWrite at ht
  try dsimp only at ht
  (repeat' split at ht) <;> (try simp only [after_answer, after_next] at ht) <;> (repeat' split at ht) <;> subst ht <;>
    simp [State.access_frame _, State.followGen_frame _, State.keyed_frame _, State.raise_frame _, State.setFld_frame _]

theorem eraseMember_frame (slc : Bool) (s : State) (m : Member) : KeepsBase s (eraseMember slc s m) ∧
    (eraseMember slc s m).deferred = s.deferred ∧ (eraseMember slc s m).power = s.power ∧ (eraseMember slc s m).herd =
    s.herd ∧ (eraseMember slc s m).map = s.map ∧ (eraseMember slc s m).cmds = s.cmds ∧ (eraseMember slc s m).pools =
    s.pools ∧ (eraseMember slc s m).boot = s.boot ∧ (eraseMember slc s m).pins.resetLow = s.pins.resetLow ∧ (eraseMember
    slc s m).pins.frozen = s.pins.frozen := by
  unfold eraseMember
  dsimp only
  (repeat' split) <;> simp [State.eraseNow_frame _, State.retireBlock_frame _]

theorem execBandEraseStart_frame (band : Nat) (s : State) (u : State) : KeepsBase s (after u (execBandEraseStart
    band s)) ∧ (after u (execBandEraseStart band s)).deferred = s.deferred ∧ (after u (execBandEraseStart band s)).power
    = s.power ∧ (after u (execBandEraseStart band s)).herd = s.herd ∧ (after u (execBandEraseStart band s)).map = s.map
    ∧ (after u (execBandEraseStart band s)).cmds = s.cmds ∧ (after u (execBandEraseStart band s)).pools = s.pools ∧
    (after u (execBandEraseStart band s)).boot = s.boot ∧ (after u (execBandEraseStart band s)).pins.resetLow =
    s.pins.resetLow ∧ (after u (execBandEraseStart band s)).pins.frozen = s.pins.frozen := by
  generalize ht : after u (execBandEraseStart band s) = t
  unfold execBandEraseStart at ht
  try dsimp only at ht
  (repeat' split at ht) <;> (try simp only [after_answer, after_next] at ht) <;> (repeat' split at ht) <;> subst ht <;>
    simp [State.followRedundancy_frame _, State.reviewFences_frame _, eraseMember_frame _]

theorem execWearPersist_frame (s : State) (u : State) : KeepsBase s (after u (execWearPersist s)) ∧ KeepsNotes s
    (after u (execWearPersist s)) ∧ KeepsSpace s (after u (execWearPersist s)) ∧ (after u (execWearPersist s)).map =
    s.map ∧ (after u (execWearPersist s)).media = s.media ∧ KeepsHost s (after u (execWearPersist s)) ∧ KeepsChip s
    (after u (execWearPersist s)) := by
  generalize ht : after u (execWearPersist s) = t
  unfold execWearPersist at ht
  try dsimp only at ht
  (repeat' split at ht) <;> (try simp only [after_answer, after_next] at ht) <;> (repeat' split at ht) <;> subst ht <;>
    simp

theorem execScoreAgeTick_frame (s : State) (u : State) : KeepsBase s (after u (execScoreAgeTick s)) ∧ KeepsNotes
    s (after u (execScoreAgeTick s)) ∧ KeepsSpace s (after u (execScoreAgeTick s)) ∧ (after u (execScoreAgeTick s)).map
    = s.map ∧ (after u (execScoreAgeTick s)).media = s.media ∧ KeepsHost s (after u (execScoreAgeTick s)) ∧ KeepsChip s
    (after u (execScoreAgeTick s)) := by
  generalize ht : after u (execScoreAgeTick s) = t
  unfold execScoreAgeTick at ht
  try dsimp only at ht
  (repeat' split at ht) <;> (try simp only [after_answer, after_next] at ht) <;> (repeat' split at ht) <;> subst ht <;>
    simp

theorem execGatherInstall_frame (stripe : Nat) (s : State) (u : State) : KeepsBase s (after u (execGatherInstall
    stripe s)) ∧ (after u (execGatherInstall stripe s)).free = s.free ∧ (after u (execGatherInstall stripe s)).out =
    s.out ∧ (after u (execGatherInstall stripe s)).stat = s.stat ∧ (after u (execGatherInstall stripe s)).evlog =
    s.evlog ∧ KeepsSpace s (after u (execGatherInstall stripe s)) ∧ KeepsHost s (after u (execGatherInstall stripe s)) ∧
    KeepsChip s (after u (execGatherInstall stripe s)) := by
  generalize ht : after u (execGatherInstall stripe s) = t
  unfold execGatherInstall at ht
  try dsimp only at ht
  (repeat' split at ht) <;> (try simp only [after_answer, after_next] at ht) <;> (repeat' split at ht) <;> subst ht <;>
    simp [State.drain_frame _, State.installGather_frame _]

theorem execGatherAgeExpire_frame (stream : Nat) (s : State) (u : State) : KeepsBase s (after u
    (execGatherAgeExpire stream s)) ∧ KeepsSpace s (after u (execGatherAgeExpire stream s)) ∧ (after u
    (execGatherAgeExpire stream s)).cmds = s.cmds ∧ (after u (execGatherAgeExpire stream s)).pools = s.pools ∧ KeepsChip
    s (after u (execGatherAgeExpire stream s)) := by
  generalize ht : after u (execGatherAgeExpire stream s) = t
  unfold execGatherAgeExpire at ht
  try dsimp only at ht
  (repeat' split at ht) <;> (try simp only [after_answer, after_next] at ht) <;> (repeat' split at ht) <;> subst ht <;>
    simp [State.sealGather_frame _]

theorem execCopyStripeInstall_frame (stripe : Nat) (verified : Bool) (s : State) (u : State) : KeepsBase s
    (after u (execCopyStripeInstall stripe verified s)) ∧ KeepsSpace s (after u (execCopyStripeInstall stripe verified
    s)) ∧ (after u (execCopyStripeInstall stripe verified s)).cmds = s.cmds ∧ (after u (execCopyStripeInstall stripe
    verified s)).pools = s.pools ∧ (after u (execCopyStripeInstall stripe verified s)).boot = s.boot ∧ (after u
    (execCopyStripeInstall stripe verified s)).pins.resetLow = s.pins.resetLow ∧ (after u (execCopyStripeInstall stripe
    verified s)).pins.frozen = s.pins.frozen := by
  generalize ht : after u (execCopyStripeInstall stripe verified s) = t
  unfold execCopyStripeInstall at ht
  try dsimp only at ht
  (repeat' split at ht) <;> (try simp only [after_answer, after_next] at ht) <;> (repeat' split at ht) <;> subst ht <;>
    simp [State.failCopy_frame _, State.installCopy_frame _]

theorem execRebuildStripe_frame (band stripe : Nat) (s : State) (u : State) : KeepsBase s (after u
    (execRebuildStripe band stripe s)) ∧ KeepsSpace s (after u (execRebuildStripe band stripe s)) ∧ (after u
    (execRebuildStripe band stripe s)).cmds = s.cmds ∧ (after u (execRebuildStripe band stripe s)).pools = s.pools ∧
    KeepsChip s (after u (execRebuildStripe band stripe s)) := by
  generalize ht : after u (execRebuildStripe band stripe s) = t
  unfold execRebuildStripe at ht
  try dsimp only at ht
  (repeat' split at ht) <;> (try simp only [after_answer, after_next] at ht) <;> (repeat' split at ht) <;> subst ht <;>
    simp [State.copyUnits_frame _]

theorem execReclaimVictim_frame (s : State) (u : State) : KeepsBase s (after u (execReclaimVictim s)) ∧
    KeepsSpace s (after u (execReclaimVictim s)) ∧ (after u (execReclaimVictim s)).cmds = s.cmds ∧ (after u
    (execReclaimVictim s)).pools = s.pools ∧ KeepsChip s (after u (execReclaimVictim s)) := by
  generalize ht : after u (execReclaimVictim s) = t
  unfold execReclaimVictim at ht
  try dsimp only at ht
  (repeat' split at ht) <;> (try simp only [after_answer, after_next] at ht) <;> (repeat' split at ht) <;> subst ht <;>
    simp [State.copyUnits_frame _, State.takeVictim_frame _]

theorem execSysnsMerge_frame (ns logPair : Nat) (s : State) (u : State) : KeepsBase s (after u (execSysnsMerge
    ns logPair s)) ∧ KeepsNotes s (after u (execSysnsMerge ns logPair s)) ∧ (after u (execSysnsMerge ns logPair
    s)).deferred = s.deferred ∧ (after u (execSysnsMerge ns logPair s)).power = s.power ∧ (after u (execSysnsMerge ns
    logPair s)).herd = s.herd ∧ KeepsStore s (after u (execSysnsMerge ns logPair s)) ∧ KeepsHost s (after u
    (execSysnsMerge ns logPair s)) ∧ KeepsChip s (after u (execSysnsMerge ns logPair s)) := by
  generalize ht : after u (execSysnsMerge ns logPair s) = t
  unfold execSysnsMerge at ht
  try dsimp only at ht
  (repeat' split at ht) <;> (try simp only [after_answer, after_next] at ht) <;> (repeat' split at ht) <;> subst ht <;>
    simp [State.setNs_frame _]

theorem execDeferredHourlyLog_frame (s : State) (u : State) : KeepsBase s (after u (execDeferredHourlyLog s)) ∧
    KeepsSpace s (after u (execDeferredHourlyLog s)) ∧ KeepsStore s (after u (execDeferredHourlyLog s)) ∧ KeepsHost s
    (after u (execDeferredHourlyLog s)) ∧ KeepsChip s (after u (execDeferredHourlyLog s)) := by
  generalize ht : after u (execDeferredHourlyLog s) = t
  unfold execDeferredHourlyLog at ht
  try dsimp only at ht
  (repeat' split at ht) <;> (try simp only [after_answer, after_next] at ht) <;> (repeat' split at ht) <;> subst ht <;>
    simp [State.record_frame _]

theorem execMisslogExpire_frame (peer : Nat) (s : State) (u : State) : KeepsBase s (after u (execMisslogExpire
    peer s)) ∧ KeepsNotes s (after u (execMisslogExpire peer s)) ∧ (after u (execMisslogExpire peer s)).nss = s.nss ∧
    (after u (execMisslogExpire peer s)).deferred = s.deferred ∧ (after u (execMisslogExpire peer s)).power = s.power ∧
    KeepsStore s (after u (execMisslogExpire peer s)) ∧ KeepsHost s (after u (execMisslogExpire peer s)) ∧ KeepsChip s
    (after u (execMisslogExpire peer s)) := by
  generalize ht : after u (execMisslogExpire peer s) = t
  unfold execMisslogExpire at ht
  try dsimp only at ht
  (repeat' split at ht) <;> (try simp only [after_answer, after_next] at ht) <;> (repeat' split at ht) <;> subst ht <;>
    simp

theorem execCoreHandover_frame (s : State) (u : State) : (after u (execCoreHandover s)).pending = s.pending ∧
    (after u (execCoreHandover s)).posted = s.posted ∧ (after u (execCoreHandover s)).late = s.late ∧ (after u
    (execCoreHandover s)).isolated = s.isolated ∧ (after u (execCoreHandover s)).failedCores = s.failedCores ∧ (after u
    (execCoreHandover s)).mtf = s.mtf ∧ (after u (execCoreHandover s)).mat = s.mat ∧ (after u (execCoreHandover
    s)).mules = s.mules ∧ (after u (execCoreHandover s)).sdram = s.sdram ∧ (after u (execCoreHandover s)).ram = s.ram ∧
    (after u (execCoreHandover s)).free = s.free ∧ (after u (execCoreHandover s)).out = s.out ∧ (after u
    (execCoreHandover s)).stat = s.stat ∧ (after u (execCoreHandover s)).evlog = s.evlog ∧ KeepsSpace s (after u
    (execCoreHandover s)) ∧ KeepsStore s (after u (execCoreHandover s)) ∧ KeepsHost s (after u (execCoreHandover s)) ∧
    (after u (execCoreHandover s)).pins = s.pins ∧ (after u (execCoreHandover s)).boot.fuses = s.boot.fuses := by
  generalize ht : after u (execCoreHandover s) = t
  unfold execCoreHandover at ht
  try dsimp only at ht
  (repeat' split at ht) <;> (try simp only [after_answer, after_next] at ht) <;> (repeat' split at ht) <;> subst ht <;>
    simp [State.disarmAll_frame _, State.setBoot_frame _]

theorem execHandoverImportDone_frame (commitOk : Bool) (s : State) (u : State) : KeepsBase s (after u
    (execHandoverImportDone commitOk s)) ∧ KeepsSpace s (after u (execHandoverImportDone commitOk s)) ∧ KeepsStore s
    (after u (execHandoverImportDone commitOk s)) ∧ (after u (execHandoverImportDone commitOk s)).pools = s.pools ∧
    (after u (execHandoverImportDone commitOk s)).boot.fuses = s.boot.fuses ∧ (after u (execHandoverImportDone commitOk
    s)).pins.resetLow = s.pins.resetLow ∧ (after u (execHandoverImportDone commitOk s)).pins.frozen = s.pins.frozen :=
    by
  generalize ht : after u (execHandoverImportDone commitOk s) = t
  unfold execHandoverImportDone at ht
  try dsimp only at ht
  (repeat' split at ht) <;> (try simp only [after_answer, after_next] at ht) <;> (repeat' split at ht) <;> subst ht <;>
    simp [State.handedOver_chip _, State.handedOver_frame _]

theorem execHandoverTimeout_frame (s : State) (u : State) : KeepsBase s (after u (execHandoverTimeout s)) ∧
    KeepsSpace s (after u (execHandoverTimeout s)) ∧ KeepsStore s (after u (execHandoverTimeout s)) ∧ (after u
    (execHandoverTimeout s)).pools = s.pools ∧ (after u (execHandoverTimeout s)).boot.fuses = s.boot.fuses ∧ (after u
    (execHandoverTimeout s)).pins.resetLow = s.pins.resetLow ∧ (after u (execHandoverTimeout s)).pins.frozen =
    s.pins.frozen := by
  generalize ht : after u (execHandoverTimeout s) = t
  unfold execHandoverTimeout at ht
  try dsimp only at ht
  (repeat' split at ht) <;> (try simp only [after_answer, after_next] at ht) <;> (repeat' split at ht) <;> subst ht <;>
    simp [State.abortCastle_chip _, State.abortCastle_frame _]

theorem execRead_frame (slot : Nat) (h : HostSide) (s : State) (u : State) : KeepsBase s (after u (execRead slot
    h s)) ∧ (after u (execRead slot h s)).boot.fuses = s.boot.fuses ∧ (after u (execRead slot h s)).pins.resetLow =
    s.pins.resetLow ∧ (after u (execRead slot h s)).pins.frozen = s.pins.frozen := by
  generalize ht : after u (execRead slot h s) = t
  unfold execRead runCommand at ht
  try dsimp only at ht
  (repeat' split at ht) <;> (try simp only [after_answer, after_next] at ht) <;> (repeat' split at ht) <;> subst ht <;>
    simp [State.interpret_frame _]

theorem execWrite_frame (slot : Nat) (h : HostSide) (s : State) (u : State) : KeepsBase s (after u (execWrite
    slot h s)) ∧ (after u (execWrite slot h s)).boot.fuses = s.boot.fuses ∧ (after u (execWrite slot h s)).pins.resetLow
    = s.pins.resetLow ∧ (after u (execWrite slot h s)).pins.frozen = s.pins.frozen := by
  generalize ht : after u (execWrite slot h s) = t
  unfold execWrite runCommand at ht
  try dsimp only at ht
  (repeat' split at ht) <;> (try simp only [after_answer, after_next] at ht) <;> (repeat' split at ht) <;> subst ht <;>
    simp [State.interpret_frame _]

theorem execTrim_frame (slot : Nat) (h : HostSide) (s : State) (u : State) : KeepsBase s (after u (execTrim slot
    h s)) ∧ (after u (execTrim slot h s)).boot.fuses = s.boot.fuses ∧ (after u (execTrim slot h s)).pins.resetLow =
    s.pins.resetLow ∧ (after u (execTrim slot h s)).pins.frozen = s.pins.frozen := by
  generalize ht : after u (execTrim slot h s) = t
  unfold execTrim runCommand at ht
  try dsimp only at ht
  (repeat' split at ht) <;> (try simp only [after_answer, after_next] at ht) <;> (repeat' split at ht) <;> subst ht <;>
    simp [State.interpret_frame _]

theorem execWriteZeroes_frame (slot : Nat) (h : HostSide) (s : State) (u : State) : KeepsBase s (after u
    (execWriteZeroes slot h s)) ∧ (after u (execWriteZeroes slot h s)).boot.fuses = s.boot.fuses ∧ (after u
    (execWriteZeroes slot h s)).pins.resetLow = s.pins.resetLow ∧ (after u (execWriteZeroes slot h s)).pins.frozen =
    s.pins.frozen := by
  generalize ht : after u (execWriteZeroes slot h s) = t
  unfold execWriteZeroes runCommand at ht
  try dsimp only at ht
  (repeat' split at ht) <;> (try simp only [after_answer, after_next] at ht) <;> (repeat' split at ht) <;> subst ht <;>
    simp [State.interpret_frame _]

theorem execCompare_frame (slot : Nat) (h : HostSide) (s : State) (u : State) : KeepsBase s (after u
    (execCompare slot h s)) ∧ (after u (execCompare slot h s)).boot.fuses = s.boot.fuses ∧ (after u (execCompare slot h
    s)).pins.resetLow = s.pins.resetLow ∧ (after u (execCompare slot h s)).pins.frozen = s.pins.frozen := by
  generalize ht : after u (execCompare slot h s) = t
  unfold execCompare runCommand at ht
  try dsimp only at ht
  (repeat' split at ht) <;> (try simp only [after_answer, after_next] at ht) <;> (repeat' split at ht) <;> subst ht <;>
    simp [State.interpret_frame _]

theorem execOrderBarrier_frame (slot : Nat) (h : HostSide) (s : State) (u : State) : KeepsBase s (after u
    (execOrderBarrier slot h s)) ∧ (after u (execOrderBarrier slot h s)).boot.fuses = s.boot.fuses ∧ (after u
    (execOrderBarrier slot h s)).pins.resetLow = s.pins.resetLow ∧ (after u (execOrderBarrier slot h s)).pins.frozen =
    s.pins.frozen := by
  generalize ht : after u (execOrderBarrier slot h s) = t
  unfold execOrderBarrier runCommand at ht
  try dsimp only at ht
  (repeat' split at ht) <;> (try simp only [after_answer, after_next] at ht) <;> (repeat' split at ht) <;> subst ht <;>
    simp [State.interpret_frame _]

theorem execGatherRead_frame (slot : Nat) (h : HostSide) (s : State) (u : State) : KeepsBase s (after u
    (execGatherRead slot h s)) ∧ (after u (execGatherRead slot h s)).boot.fuses = s.boot.fuses ∧ (after u
    (execGatherRead slot h s)).pins.resetLow = s.pins.resetLow ∧ (after u (execGatherRead slot h s)).pins.frozen =
    s.pins.frozen := by
  generalize ht : after u (execGatherRead slot h s) = t
  unfold execGatherRead runCommand at ht
  try dsimp only at ht
  (repeat' split at ht) <;> (try simp only [after_answer, after_next] at ht) <;> (repeat' split at ht) <;> subst ht <;>
    simp [State.interpret_frame _]

theorem execHello_frame (slot : Nat) (h : HostSide) (s : State) (u : State) : KeepsBase s (after u (execHello
    slot h s)) ∧ (after u (execHello slot h s)).boot.fuses = s.boot.fuses ∧ (after u (execHello slot h s)).pins.resetLow
    = s.pins.resetLow ∧ (after u (execHello slot h s)).pins.frozen = s.pins.frozen := by
  generalize ht : after u (execHello slot h s) = t
  unfold execHello runCommand at ht
  try dsimp only at ht
  (repeat' split at ht) <;> (try simp only [after_answer, after_next] at ht) <;> (repeat' split at ht) <;> subst ht <;>
    simp [State.interpret_frame _]

theorem execRingCreate_frame (slot : Nat) (h : HostSide) (s : State) (u : State) : KeepsBase s (after u
    (execRingCreate slot h s)) ∧ (after u (execRingCreate slot h s)).boot.fuses = s.boot.fuses ∧ (after u
    (execRingCreate slot h s)).pins.resetLow = s.pins.resetLow ∧ (after u (execRingCreate slot h s)).pins.frozen =
    s.pins.frozen := by
  generalize ht : after u (execRingCreate slot h s) = t
  unfold execRingCreate runCommand at ht
  try dsimp only at ht
  (repeat' split at ht) <;> (try simp only [after_answer, after_next] at ht) <;> (repeat' split at ht) <;> subst ht <;>
    simp [State.interpret_frame _]

theorem execRingDelete_frame (slot : Nat) (h : HostSide) (s : State) (u : State) : KeepsBase s (after u
    (execRingDelete slot h s)) ∧ (after u (execRingDelete slot h s)).boot.fuses = s.boot.fuses ∧ (after u
    (execRingDelete slot h s)).pins.resetLow = s.pins.resetLow ∧ (after u (execRingDelete slot h s)).pins.frozen =
    s.pins.frozen := by
  generalize ht : after u (execRingDelete slot h s) = t
  unfold execRingDelete runCommand at ht
  try dsimp only at ht
  (repeat' split at ht) <;> (try simp only [after_answer, after_next] at ht) <;> (repeat' split at ht) <;> subst ht <;>
    simp [State.interpret_frame _]

theorem execNsCreate_frame (slot : Nat) (h : HostSide) (s : State) (u : State) : KeepsBase s (after u
    (execNsCreate slot h s)) ∧ (after u (execNsCreate slot h s)).boot.fuses = s.boot.fuses ∧ (after u (execNsCreate slot
    h s)).pins.resetLow = s.pins.resetLow ∧ (after u (execNsCreate slot h s)).pins.frozen = s.pins.frozen := by
  generalize ht : after u (execNsCreate slot h s) = t
  unfold execNsCreate runCommand at ht
  try dsimp only at ht
  (repeat' split at ht) <;> (try simp only [after_answer, after_next] at ht) <;> (repeat' split at ht) <;> subst ht <;>
    simp [State.interpret_frame _]

theorem execNsDelete_frame (slot : Nat) (h : HostSide) (s : State) (u : State) : KeepsBase s (after u
    (execNsDelete slot h s)) ∧ (after u (execNsDelete slot h s)).boot.fuses = s.boot.fuses ∧ (after u (execNsDelete slot
    h s)).pins.resetLow = s.pins.resetLow ∧ (after u (execNsDelete slot h s)).pins.frozen = s.pins.frozen := by
  generalize ht : after u (execNsDelete slot h s) = t
  unfold execNsDelete runCommand at ht
  try dsimp only at ht
  (repeat' split at ht) <;> (try simp only [after_answer, after_next] at ht) <;> (repeat' split at ht) <;> subst ht <;>
    simp [State.interpret_frame _]

theorem execNsAttach_frame (slot : Nat) (h : HostSide) (s : State) (u : State) : KeepsBase s (after u
    (execNsAttach slot h s)) ∧ (after u (execNsAttach slot h s)).boot.fuses = s.boot.fuses ∧ (after u (execNsAttach slot
    h s)).pins.resetLow = s.pins.resetLow ∧ (after u (execNsAttach slot h s)).pins.frozen = s.pins.frozen := by
  generalize ht : after u (execNsAttach slot h s) = t
  unfold execNsAttach runCommand at ht
  try dsimp only at ht
  (repeat' split at ht) <;> (try simp only [after_answer, after_next] at ht) <;> (repeat' split at ht) <;> subst ht <;>
    simp [State.interpret_frame _]

theorem execNsResize_frame (slot : Nat) (h : HostSide) (s : State) (u : State) : KeepsBase s (after u
    (execNsResize slot h s)) ∧ (after u (execNsResize slot h s)).boot.fuses = s.boot.fuses ∧ (after u (execNsResize slot
    h s)).pins.resetLow = s.pins.resetLow ∧ (after u (execNsResize slot h s)).pins.frozen = s.pins.frozen := by
  generalize ht : after u (execNsResize slot h s) = t
  unfold execNsResize runCommand at ht
  try dsimp only at ht
  (repeat' split at ht) <;> (try simp only [after_answer, after_next] at ht) <;> (repeat' split at ht) <;> subst ht <;>
    simp [State.interpret_frame _]

theorem execMapRegionAdd_frame (slot : Nat) (h : HostSide) (s : State) (u : State) : KeepsBase s (after u
    (execMapRegionAdd slot h s)) ∧ (after u (execMapRegionAdd slot h s)).boot.fuses = s.boot.fuses ∧ (after u
    (execMapRegionAdd slot h s)).pins.resetLow = s.pins.resetLow ∧ (after u (execMapRegionAdd slot h s)).pins.frozen =
    s.pins.frozen := by
  generalize ht : after u (execMapRegionAdd slot h s) = t
  unfold execMapRegionAdd runCommand at ht
  try dsimp only at ht
  (repeat' split at ht) <;> (try simp only [after_answer, after_next] at ht) <;> (repeat' split at ht) <;> subst ht <;>
    simp [State.interpret_frame _]

theorem execMapRegionRemove_frame (slot : Nat) (h : HostSide) (s : State) (u : State) : KeepsBase s (after u
    (execMapRegionRemove slot h s)) ∧ (after u (execMapRegionRemove slot h s)).boot.fuses = s.boot.fuses ∧ (after u
    (execMapRegionRemove slot h s)).pins.resetLow = s.pins.resetLow ∧ (after u (execMapRegionRemove slot h
    s)).pins.frozen = s.pins.frozen := by
  generalize ht : after u (execMapRegionRemove slot h s) = t
  unfold execMapRegionRemove runCommand at ht
  try dsimp only at ht
  (repeat' split at ht) <;> (try simp only [after_answer, after_next] at ht) <;> (repeat' split at ht) <;> subst ht <;>
    simp [State.interpret_frame _]

theorem execLogGet_frame (slot : Nat) (h : HostSide) (s : State) (u : State) : KeepsBase s (after u (execLogGet
    slot h s)) ∧ (after u (execLogGet slot h s)).boot.fuses = s.boot.fuses ∧ (after u (execLogGet slot h
    s)).pins.resetLow = s.pins.resetLow ∧ (after u (execLogGet slot h s)).pins.frozen = s.pins.frozen := by
  generalize ht : after u (execLogGet slot h s) = t
  unfold execLogGet runCommand at ht
  try dsimp only at ht
  (repeat' split at ht) <;> (try simp only [after_answer, after_next] at ht) <;> (repeat' split at ht) <;> subst ht <;>
    simp [State.interpret_frame _]

theorem execFeatureSet_frame (slot : Nat) (h : HostSide) (s : State) (u : State) : KeepsBase s (after u
    (execFeatureSet slot h s)) ∧ (after u (execFeatureSet slot h s)).boot.fuses = s.boot.fuses ∧ (after u
    (execFeatureSet slot h s)).pins.resetLow = s.pins.resetLow ∧ (after u (execFeatureSet slot h s)).pins.frozen =
    s.pins.frozen := by
  generalize ht : after u (execFeatureSet slot h s) = t
  unfold execFeatureSet runCommand at ht
  try dsimp only at ht
  (repeat' split at ht) <;> (try simp only [after_answer, after_next] at ht) <;> (repeat' split at ht) <;> subst ht <;>
    simp [State.interpret_frame _]

theorem execFeatureGet_frame (slot : Nat) (h : HostSide) (s : State) (u : State) : KeepsBase s (after u
    (execFeatureGet slot h s)) ∧ (after u (execFeatureGet slot h s)).boot.fuses = s.boot.fuses ∧ (after u
    (execFeatureGet slot h s)).pins.resetLow = s.pins.resetLow ∧ (after u (execFeatureGet slot h s)).pins.frozen =
    s.pins.frozen := by
  generalize ht : after u (execFeatureGet slot h s) = t
  unfold execFeatureGet runCommand at ht
  try dsimp only at ht
  (repeat' split at ht) <;> (try simp only [after_answer, after_next] at ht) <;> (repeat' split at ht) <;> subst ht <;>
    simp [State.interpret_frame _]

theorem execFwStage_frame (slot : Nat) (h : HostSide) (s : State) (u : State) : KeepsBase s (after u
    (execFwStage slot h s)) ∧ (after u (execFwStage slot h s)).boot.fuses = s.boot.fuses ∧ (after u (execFwStage slot h
    s)).pins.resetLow = s.pins.resetLow ∧ (after u (execFwStage slot h s)).pins.frozen = s.pins.frozen := by
  generalize ht : after u (execFwStage slot h s) = t
  unfold execFwStage runCommand at ht
  try dsimp only at ht
  (repeat' split at ht) <;> (try simp only [after_answer, after_next] at ht) <;> (repeat' split at ht) <;> subst ht <;>
    simp [State.interpret_frame _]

theorem execFwCastle_frame (slot : Nat) (h : HostSide) (s : State) (u : State) : KeepsBase s (after u
    (execFwCastle slot h s)) ∧ (after u (execFwCastle slot h s)).boot.fuses = s.boot.fuses ∧ (after u (execFwCastle slot
    h s)).pins.resetLow = s.pins.resetLow ∧ (after u (execFwCastle slot h s)).pins.frozen = s.pins.frozen := by
  generalize ht : after u (execFwCastle slot h s) = t
  unfold execFwCastle runCommand at ht
  try dsimp only at ht
  (repeat' split at ht) <;> (try simp only [after_answer, after_next] at ht) <;> (repeat' split at ht) <;> subst ht <;>
    simp [State.interpret_frame _]

theorem execKeyLoad_frame (slot : Nat) (h : HostSide) (s : State) (u : State) : KeepsBase s (after u
    (execKeyLoad slot h s)) ∧ (after u (execKeyLoad slot h s)).boot.fuses = s.boot.fuses ∧ (after u (execKeyLoad slot h
    s)).pins.resetLow = s.pins.resetLow ∧ (after u (execKeyLoad slot h s)).pins.frozen = s.pins.frozen := by
  generalize ht : after u (execKeyLoad slot h s) = t
  unfold execKeyLoad runCommand at ht
  try dsimp only at ht
  (repeat' split at ht) <;> (try simp only [after_answer, after_next] at ht) <;> (repeat' split at ht) <;> subst ht <;>
    simp [State.interpret_frame _]

theorem execHerdJoin_frame (slot : Nat) (h : HostSide) (s : State) (u : State) : KeepsBase s (after u
    (execHerdJoin slot h s)) ∧ (after u (execHerdJoin slot h s)).boot.fuses = s.boot.fuses ∧ (after u (execHerdJoin slot
    h s)).pins.resetLow = s.pins.resetLow ∧ (after u (execHerdJoin slot h s)).pins.frozen = s.pins.frozen := by
  generalize ht : after u (execHerdJoin slot h s) = t
  unfold execHerdJoin runCommand at ht
  try dsimp only at ht
  (repeat' split at ht) <;> (try simp only [after_answer, after_next] at ht) <;> (repeat' split at ht) <;> subst ht <;>
    simp [State.interpret_frame _]

theorem execHerdLeave_frame (slot : Nat) (h : HostSide) (s : State) (u : State) : KeepsBase s (after u
    (execHerdLeave slot h s)) ∧ (after u (execHerdLeave slot h s)).boot.fuses = s.boot.fuses ∧ (after u (execHerdLeave
    slot h s)).pins.resetLow = s.pins.resetLow ∧ (after u (execHerdLeave slot h s)).pins.frozen = s.pins.frozen := by
  generalize ht : after u (execHerdLeave slot h s) = t
  unfold execHerdLeave runCommand at ht
  try dsimp only at ht
  (repeat' split at ht) <;> (try simp only [after_answer, after_next] at ht) <;> (repeat' split at ht) <;> subst ht <;>
    simp [State.interpret_frame _]

theorem execHerdReshape_frame (slot : Nat) (h : HostSide) (s : State) (u : State) : KeepsBase s (after u
    (execHerdReshape slot h s)) ∧ (after u (execHerdReshape slot h s)).boot.fuses = s.boot.fuses ∧ (after u
    (execHerdReshape slot h s)).pins.resetLow = s.pins.resetLow ∧ (after u (execHerdReshape slot h s)).pins.frozen =
    s.pins.frozen := by
  generalize ht : after u (execHerdReshape slot h s) = t
  unfold execHerdReshape at ht
  try dsimp only at ht
  (repeat' split at ht) <;> (try simp only [after_answer, after_next] at ht) <;> (repeat' split at ht) <;> subst ht <;>
    simp [State.interpret_frame _, State.wakeHerd_frame _]

theorem execCommandAdmit_frame (s : State) (u : State) : KeepsBase s (after u (execCommandAdmit s)) ∧ (after u
    (execCommandAdmit s)).boot.fuses = s.boot.fuses ∧ (after u (execCommandAdmit s)).pins.resetLow = s.pins.resetLow ∧
    (after u (execCommandAdmit s)).pins.frozen = s.pins.frozen := by
  generalize ht : after u (execCommandAdmit s) = t
  unfold execCommandAdmit at ht
  try dsimp only at ht
  (repeat' split at ht) <;> (try simp only [after_answer, after_next] at ht) <;> (repeat' split at ht) <;> subst ht <;>
    simp [State.admitNow_frame _]

theorem execLockWaitEnd_frame (slot : Nat) (s : State) (u : State) : KeepsBase s (after u (execLockWaitEnd slot
    s)) ∧ (after u (execLockWaitEnd slot s)).boot.fuses = s.boot.fuses ∧ (after u (execLockWaitEnd slot
    s)).pins.resetLow = s.pins.resetLow ∧ (after u (execLockWaitEnd slot s)).pins.frozen = s.pins.frozen := by
  generalize ht : after u (execLockWaitEnd slot s) = t
  unfold execLockWaitEnd at ht
  try dsimp only at ht
  (repeat' split at ht) <;> (try simp only [after_answer, after_next] at ht) <;> (repeat' split at ht) <;> subst ht <;>
    simp [State.retry_frame _]

theorem execBarrierWaitEnd_frame (slot : Nat) (s : State) (u : State) : KeepsBase s (after u (execBarrierWaitEnd
    slot s)) ∧ (after u (execBarrierWaitEnd slot s)).boot.fuses = s.boot.fuses ∧ (after u (execBarrierWaitEnd slot
    s)).pins.resetLow = s.pins.resetLow ∧ (after u (execBarrierWaitEnd slot s)).pins.frozen = s.pins.frozen := by
  generalize ht : after u (execBarrierWaitEnd slot s) = t
  unfold execBarrierWaitEnd at ht
  try dsimp only at ht
  (repeat' split at ht) <;> (try simp only [after_answer, after_next] at ht) <;> (repeat' split at ht) <;> subst ht <;>
    simp [State.askPips_frame _, State.goOn_frame _]

theorem execOaWaitEnd_frame (slot : Nat) (s : State) (u : State) : KeepsBase s (after u (execOaWaitEnd slot s))
    ∧ (after u (execOaWaitEnd slot s)).boot.fuses = s.boot.fuses ∧ (after u (execOaWaitEnd slot s)).pins.resetLow =
    s.pins.resetLow ∧ (after u (execOaWaitEnd slot s)).pins.frozen = s.pins.frozen := by
  generalize ht : after u (execOaWaitEnd slot s) = t
  unfold execOaWaitEnd at ht
  try dsimp only at ht
  (repeat' split at ht) <;> (try simp only [after_answer, after_next] at ht) <;> (repeat' split at ht) <;> subst ht <;>
    simp [State.askPips_frame _, State.goOn_frame _]

theorem execPipReserveGrant_frame (cls : Nat) (s : State) (u : State) : KeepsBase s (after u
    (execPipReserveGrant cls s)) ∧ (after u (execPipReserveGrant cls s)).boot.fuses = s.boot.fuses ∧ (after u
    (execPipReserveGrant cls s)).pins.resetLow = s.pins.resetLow ∧ (after u (execPipReserveGrant cls s)).pins.frozen =
    s.pins.frozen := by
  generalize ht : after u (execPipReserveGrant cls s) = t
  unfold execPipReserveGrant at ht
  try dsimp only at ht
  (repeat' split at ht) <;> (try simp only [after_answer, after_next] at ht) <;> (repeat' split at ht) <;> subst ht <;>
    simp [State.reserve_frame _]

theorem execSpaceGrant_frame (slot : Nat) (s : State) (u : State) : KeepsBase s (after u (execSpaceGrant slot
    s)) ∧ (after u (execSpaceGrant slot s)).boot.fuses = s.boot.fuses ∧ (after u (execSpaceGrant slot s)).pins.resetLow
    = s.pins.resetLow ∧ (after u (execSpaceGrant slot s)).pins.frozen = s.pins.frozen := by
  generalize ht : after u (execSpaceGrant slot s) = t
  unfold execSpaceGrant at ht
  try dsimp only at ht
  (repeat' split at ht) <;> (try simp only [after_answer, after_next] at ht) <;> (repeat' split at ht) <;> subst ht <;>
    simp [State.retry_frame _]

theorem execStagingEntryGrant_frame (slot : Nat) (s : State) (u : State) : KeepsBase s (after u
    (execStagingEntryGrant slot s)) ∧ (after u (execStagingEntryGrant slot s)).boot.fuses = s.boot.fuses ∧ (after u
    (execStagingEntryGrant slot s)).pins.resetLow = s.pins.resetLow ∧ (after u (execStagingEntryGrant slot
    s)).pins.frozen = s.pins.frozen := by
  generalize ht : after u (execStagingEntryGrant slot s) = t
  unfold execStagingEntryGrant at ht
  try dsimp only at ht
  (repeat' split at ht) <;> (try simp only [after_answer, after_next] at ht) <;> (repeat' split at ht) <;> subst ht <;>
    simp [State.retry_frame _]

theorem execChargeGrant_frame (slot : Nat) (s : State) (u : State) : KeepsBase s (after u (execChargeGrant slot
    s)) ∧ (after u (execChargeGrant slot s)).boot.fuses = s.boot.fuses ∧ (after u (execChargeGrant slot
    s)).pins.resetLow = s.pins.resetLow ∧ (after u (execChargeGrant slot s)).pins.frozen = s.pins.frozen := by
  generalize ht : after u (execChargeGrant slot s) = t
  unfold execChargeGrant at ht
  try dsimp only at ht
  (repeat' split at ht) <;> (try simp only [after_answer, after_next] at ht) <;> (repeat' split at ht) <;> subst ht <;>
    simp [State.retry_frame _]

theorem execRingDeleteComplete_frame (slot : Nat) (s : State) (u : State) : KeepsBase s (after u
    (execRingDeleteComplete slot s)) ∧ (after u (execRingDeleteComplete slot s)).free = s.free ∧ (after u
    (execRingDeleteComplete slot s)).stat = s.stat ∧ (after u (execRingDeleteComplete slot s)).evlog = s.evlog ∧
    KeepsSpace s (after u (execRingDeleteComplete slot s)) ∧ KeepsStore s (after u (execRingDeleteComplete slot s)) ∧
    KeepsChip s (after u (execRingDeleteComplete slot s)) := by
  generalize ht : after u (execRingDeleteComplete slot s) = t
  unfold execRingDeleteComplete at ht
  try dsimp only at ht
  (repeat' split at ht) <;> (try simp only [after_answer, after_next] at ht) <;> (repeat' split at ht) <;> subst ht <;>
    simp [State.goOn_frame _, State.ringEnd_frame _]

theorem execNsDetachComplete_frame (slot : Nat) (s : State) (u : State) : KeepsBase s (after u
    (execNsDetachComplete slot s)) ∧ (after u (execNsDetachComplete slot s)).free = s.free ∧ (after u
    (execNsDetachComplete slot s)).stat = s.stat ∧ (after u (execNsDetachComplete slot s)).evlog = s.evlog ∧ KeepsSpace
    s (after u (execNsDetachComplete slot s)) ∧ KeepsStore s (after u (execNsDetachComplete slot s)) ∧ KeepsChip s
    (after u (execNsDetachComplete slot s)) := by
  generalize ht : after u (execNsDetachComplete slot s) = t
  unfold execNsDetachComplete at ht
  try dsimp only at ht
  (repeat' split at ht) <;> (try simp only [after_answer, after_next] at ht) <;> (repeat' split at ht) <;> subst ht <;>
    simp [State.detachEnd_frame _, State.goOn_frame _]

theorem execMapRegionRemoveComplete_frame (slot : Nat) (s : State) (u : State) : KeepsBase s (after u
    (execMapRegionRemoveComplete slot s)) ∧ (after u (execMapRegionRemoveComplete slot s)).free = s.free ∧ (after u
    (execMapRegionRemoveComplete slot s)).stat = s.stat ∧ (after u (execMapRegionRemoveComplete slot s)).evlog = s.evlog
    ∧ KeepsSpace s (after u (execMapRegionRemoveComplete slot s)) ∧ (after u (execMapRegionRemoveComplete slot s)).place
    = s.place ∧ (after u (execMapRegionRemoveComplete slot s)).media = s.media ∧ KeepsChip s (after u
    (execMapRegionRemoveComplete slot s)) := by
  generalize ht : after u (execMapRegionRemoveComplete slot s) = t
  unfold execMapRegionRemoveComplete at ht
  try dsimp only at ht
  (repeat' split at ht) <;> (try simp only [after_answer, after_next] at ht) <;> (repeat' split at ht) <;> subst ht <;>
    simp [State.goOn_frame _, State.regionEnd_frame _]

theorem execPackWindowExpire_frame (dieA dieB : Nat) (s : State) (u : State) : KeepsBase s (after u
    (execPackWindowExpire dieA dieB s)) ∧ (after u (execPackWindowExpire dieA dieB s)).boot = s.boot ∧ (after u
    (execPackWindowExpire dieA dieB s)).pins.resetLow = s.pins.resetLow ∧ (after u (execPackWindowExpire dieA dieB
    s)).pins.frozen = s.pins.frozen := by
  generalize ht : after u (execPackWindowExpire dieA dieB s) = t
  unfold execPackWindowExpire at ht
  try dsimp only at ht
  (repeat' split at ht) <;> (try simp only [after_answer, after_next] at ht) <;> (repeat' split at ht) <;> subst ht <;>
    simp [State.finishPacked_frame _, State.packFlush_frame _, State.reapDeposed_frame _]

theorem execHmrFetchComplete_frame (mpn : Nat) (a : HmrAnswer) (s : State) (u : State) : KeepsBase s (after u
    (execHmrFetchComplete mpn a s)) ∧ (after u (execHmrFetchComplete mpn a s)).boot.fuses = s.boot.fuses ∧ (after u
    (execHmrFetchComplete mpn a s)).pins.resetLow = s.pins.resetLow ∧ (after u (execHmrFetchComplete mpn a
    s)).pins.frozen = s.pins.frozen := by
  generalize ht : after u (execHmrFetchComplete mpn a s) = t
  unfold execHmrFetchComplete at ht
  try dsimp only at ht
  (repeat' split at ht) <;> (try simp only [after_answer, after_next] at ht) <;> (repeat' split at ht) <;> subst ht <;>
    simp [State.cacheFill_frame _, State.dropPageTag_frame _, State.fetchError_frame _, State.sealFail_frame _,
        State.wakeMap_frame _]

theorem execHmrFetchTimeout_frame (mpn : Nat) (s : State) (u : State) : KeepsBase s (after u
    (execHmrFetchTimeout mpn s)) ∧ KeepsSpace s (after u (execHmrFetchTimeout mpn s)) ∧ (after u (execHmrFetchTimeout
    mpn s)).place = s.place ∧ (after u (execHmrFetchTimeout mpn s)).media = s.media ∧ KeepsHost s (after u
    (execHmrFetchTimeout mpn s)) ∧ KeepsChip s (after u (execHmrFetchTimeout mpn s)) := by
  generalize ht : after u (execHmrFetchTimeout mpn s) = t
  unfold execHmrFetchTimeout at ht
  try dsimp only at ht
  (repeat' split at ht) <;> (try simp only [after_answer, after_next] at ht) <;> (repeat' split at ht) <;> subst ht <;>
    simp [State.fetchError_frame _]

theorem execMapFlashFetchDone_frame (mpn : Nat) (readable : Bool) (s : State) (u : State) : KeepsBase s (after u
    (execMapFlashFetchDone mpn readable s)) ∧ (after u (execMapFlashFetchDone mpn readable s)).boot.fuses = s.boot.fuses
    ∧ (after u (execMapFlashFetchDone mpn readable s)).pins.resetLow = s.pins.resetLow ∧ (after u (execMapFlashFetchDone
    mpn readable s)).pins.frozen = s.pins.frozen := by
  generalize ht : after u (execMapFlashFetchDone mpn readable s) = t
  unfold execMapFlashFetchDone at ht
  try dsimp only at ht
  (repeat' split at ht) <;> (try simp only [after_answer, after_next] at ht) <;> (repeat' split at ht) <;> subst ht <;>
    simp [State.flashFetched_frame _, State.wakeMap_frame _]

theorem State.persistPage_frame (s : State) (mpn : Nat) (t : State) (h : s.persistPage mpn = some t) : KeepsBase s t ∧
    t.free = s.free ∧ t.out = s.out ∧ t.stat = s.stat ∧ t.evlog = s.evlog ∧ KeepsSpace s t ∧ KeepsHost s t ∧ KeepsChip s
    t := by
  unfold State.persistPage at h
  dsimp only at h
  split at h
  · cases h
  · rename_i e
    have := State.programImage_frame _ _ _ _ e
    obtain rfl := Option.some.inj h
    simp_all [State.programImage_frame _, State.setImage_frame _]

theorem execMapPagePersist_frame (mpn : Nat) (s : State) (u : State) : KeepsBase s (after u (execMapPagePersist
    mpn s)) ∧ (after u (execMapPagePersist mpn s)).free = s.free ∧ (after u (execMapPagePersist mpn s)).out = s.out ∧
    (after u (execMapPagePersist mpn s)).stat = s.stat ∧ (after u (execMapPagePersist mpn s)).evlog = s.evlog ∧
    KeepsSpace s (after u (execMapPagePersist mpn s)) ∧ KeepsHost s (after u (execMapPagePersist mpn s)) ∧ KeepsChip s
    (after u (execMapPagePersist mpn s)) := by
  generalize ht : after u (execMapPagePersist mpn s) = t
  unfold execMapPagePersist at ht
  dsimp only at ht
  (repeat' split at ht) <;> simp only [after_next] at ht <;> subst ht <;> first
    | (simp [State.persistPage_frame _]; done)
    | (rename_i e; have := State.persistPage_frame _ _ _ (by assumption); simp_all [State.persistPage_frame _])

theorem execDirectorySnapshot_frame (s : State) (u : State) : KeepsBase s (after u (execDirectorySnapshot s)) ∧
    KeepsNotes s (after u (execDirectorySnapshot s)) ∧ KeepsSpace s (after u (execDirectorySnapshot s)) ∧ (after u
    (execDirectorySnapshot s)).place = s.place ∧ (after u (execDirectorySnapshot s)).media = s.media ∧ KeepsHost s
    (after u (execDirectorySnapshot s)) ∧ KeepsChip s (after u (execDirectorySnapshot s)) := by
  generalize ht : after u (execDirectorySnapshot s) = t
  unfold execDirectorySnapshot at ht
  try dsimp only at ht
  (repeat' split at ht) <;> (try simp only [after_answer, after_next] at ht) <;> (repeat' split at ht) <;> subst ht <;>
    simp

theorem execCoreRebalance_frame (busy : List Nat) (s : State) (u : State) : KeepsBase s (after u
    (execCoreRebalance busy s)) ∧ KeepsNotes s (after u (execCoreRebalance busy s)) ∧ KeepsSpace s (after u
    (execCoreRebalance busy s)) ∧ KeepsStore s (after u (execCoreRebalance busy s)) ∧ (after u (execCoreRebalance busy
    s)).hosts = s.hosts ∧ (after u (execCoreRebalance busy s)).pools = s.pools ∧ KeepsChip s (after u (execCoreRebalance
    busy s)) := by
  generalize ht : after u (execCoreRebalance busy s) = t
  unfold execCoreRebalance at ht
  try dsimp only at ht
  (repeat' split at ht) <;> (try simp only [after_answer, after_next] at ht) <;> (repeat' split at ht) <;> subst ht <;>
    simp [State.rebalance_frame _]

theorem execAizaikHello_frame (hdr : FrameHdr) (vers : List Half) (serial : DWord) (s : State) (u : State) :
    KeepsBase s (after u (execAizaikHello hdr vers serial s)) ∧ (after u (execAizaikHello hdr vers serial s)).boot.fuses
    = s.boot.fuses ∧ (after u (execAizaikHello hdr vers serial s)).pins.resetLow = s.pins.resetLow ∧ (after u
    (execAizaikHello hdr vers serial s)).pins.frozen = s.pins.frozen := by
  generalize ht : after u (execAizaikHello hdr vers serial s) = t
  unfold execAizaikHello at ht
  try dsimp only at ht
  (repeat' split at ht) <;> (try simp only [after_answer, after_next] at ht) <;> (repeat' split at ht) <;> subst ht <;>
    simp (disch := (intros; (try dsimp only); (repeat' split) <;> (try simp [*, State.dropFrame_frame _, State.emit_frame _, State.linkGoesUp_frame _, State.raise_frame _, State.receive_chip _, State.receive_frame _, State.setLink_frame _, State.wakeHerd_frame _]))) [State.dropFrame_frame _, State.emit_frame _, State.linkGoesUp_frame _, State.raise_frame _, State.receive_chip _, State.receive_frame _, State.setLink_frame _, State.wakeHerd_frame _]

theorem execAizaikHelloAck_frame (hdr : FrameHdr) (chosen : Half) (serial : DWord) (s : State) (u : State) :
    KeepsBase s (after u (execAizaikHelloAck hdr chosen serial s)) ∧ (after u (execAizaikHelloAck hdr chosen serial
    s)).boot.fuses = s.boot.fuses ∧ (after u (execAizaikHelloAck hdr chosen serial s)).pins.resetLow = s.pins.resetLow ∧
    (after u (execAizaikHelloAck hdr chosen serial s)).pins.frozen = s.pins.frozen := by
  generalize ht : after u (execAizaikHelloAck hdr chosen serial s) = t
  unfold execAizaikHelloAck at ht
  try dsimp only at ht
  (repeat' split at ht) <;> (try simp only [after_answer, after_next] at ht) <;> (repeat' split at ht) <;> subst ht <;>
    first
      | (simp [State.dropFrame_frame _, State.linkGoesUp_frame _, State.raise_frame _, State.receive_chip _, State.receive_frame _, State.setLink_frame _, State.wakeHerd_frame _]; done)
      | (simp (disch := (intros; (try dsimp only); (repeat' split) <;> (try simp [*, State.dropFrame_frame _, State.linkGoesUp_frame _, State.raise_frame _, State.receive_chip _, State.receive_frame _, State.setLink_frame _, State.wakeHerd_frame _]))) [State.dropFrame_frame _, State.linkGoesUp_frame _, State.raise_frame _, State.receive_chip _, State.receive_frame _, State.setLink_frame _, State.wakeHerd_frame _]; done)

theorem execLinkHelloRetry_frame (peer : Nat) (s : State) (u : State) : KeepsBase s (after u (execLinkHelloRetry
    peer s)) ∧ (after u (execLinkHelloRetry peer s)).free = s.free ∧ (after u (execLinkHelloRetry peer s)).regs = s.regs
    ∧ (after u (execLinkHelloRetry peer s)).stat = s.stat ∧ (after u (execLinkHelloRetry peer s)).evlog = s.evlog ∧
    (after u (execLinkHelloRetry peer s)).nss = s.nss ∧ (after u (execLinkHelloRetry peer s)).deferred = s.deferred ∧
    (after u (execLinkHelloRetry peer s)).power = s.power ∧ KeepsStore s (after u (execLinkHelloRetry peer s)) ∧
    KeepsHost s (after u (execLinkHelloRetry peer s)) ∧ KeepsChip s (after u (execLinkHelloRetry peer s)) := by
  generalize ht : after u (execLinkHelloRetry peer s) = t
  unfold execLinkHelloRetry at ht
  try dsimp only at ht
  (repeat' split at ht) <;> (try simp only [after_answer, after_next] at ht) <;> (repeat' split at ht) <;> subst ht <;>
    simp [State.sendHello_frame _, State.setLink_frame _]

theorem execHeartbeat_frame (hdr : FrameHdr) (vmax : Half) (s : State) (u : State) : KeepsBase s (after u
    (execHeartbeat hdr vmax s)) ∧ (after u (execHeartbeat hdr vmax s)).free = s.free ∧ (after u (execHeartbeat hdr vmax
    s)).evlog = s.evlog ∧ (after u (execHeartbeat hdr vmax s)).nss = s.nss ∧ (after u (execHeartbeat hdr vmax
    s)).deferred = s.deferred ∧ (after u (execHeartbeat hdr vmax s)).power = s.power ∧ KeepsStore s (after u
    (execHeartbeat hdr vmax s)) ∧ KeepsHost s (after u (execHeartbeat hdr vmax s)) ∧ KeepsChip s (after u (execHeartbeat
    hdr vmax s)) := by
  generalize ht : after u (execHeartbeat hdr vmax s) = t
  unfold execHeartbeat at ht
  try dsimp only at ht
  (repeat' split at ht) <;> (try simp only [after_answer, after_next] at ht) <;> (repeat' split at ht) <;> subst ht <;>
    simp [State.followShape_frame _, State.receive_frame _, State.setLink_frame _]

theorem execAck_frame (hdr : FrameHdr) (s : State) (u : State) : KeepsBase s (after u (execAck hdr s)) ∧ (after
    u (execAck hdr s)).free = s.free ∧ (after u (execAck hdr s)).stat = s.stat ∧ (after u (execAck hdr s)).evlog =
    s.evlog ∧ (after u (execAck hdr s)).nss = s.nss ∧ (after u (execAck hdr s)).deferred = s.deferred ∧ (after u
    (execAck hdr s)).power = s.power ∧ KeepsStore s (after u (execAck hdr s)) ∧ KeepsHost s (after u (execAck hdr s)) ∧
    KeepsChip s (after u (execAck hdr s)) := by
  generalize ht : after u (execAck hdr s) = t
  unfold execAck at ht
  try dsimp only at ht
  (repeat' split at ht) <;> (try simp only [after_answer, after_next] at ht) <;> (repeat' split at ht) <;> subst ht <;>
    simp [State.receive_frame _]

theorem execAckTimer_frame (peer : Nat) (s : State) (u : State) : KeepsBase s (after u (execAckTimer peer s)) ∧
    (after u (execAckTimer peer s)).free = s.free ∧ (after u (execAckTimer peer s)).regs = s.regs ∧ (after u
    (execAckTimer peer s)).stat = s.stat ∧ (after u (execAckTimer peer s)).evlog = s.evlog ∧ (after u (execAckTimer peer
    s)).nss = s.nss ∧ (after u (execAckTimer peer s)).deferred = s.deferred ∧ (after u (execAckTimer peer s)).power =
    s.power ∧ KeepsStore s (after u (execAckTimer peer s)) ∧ KeepsHost s (after u (execAckTimer peer s)) ∧ KeepsChip s
    (after u (execAckTimer peer s)) := by
  generalize ht : after u (execAckTimer peer s) = t
  unfold execAckTimer at ht
  try dsimp only at ht
  (repeat' split at ht) <;> (try simp only [after_answer, after_next] at ht) <;> (repeat' split at ht) <;> subst ht <;>
    simp [State.sendAck_frame _]

theorem execRetransmitTimeout_frame (peer : Nat) (s : State) (u : State) : KeepsBase s (after u
    (execRetransmitTimeout peer s)) ∧ (after u (execRetransmitTimeout peer s)).free = s.free ∧ (after u
    (execRetransmitTimeout peer s)).stat = s.stat ∧ (after u (execRetransmitTimeout peer s)).evlog = s.evlog ∧
    KeepsSpace s (after u (execRetransmitTimeout peer s)) ∧ KeepsStore s (after u (execRetransmitTimeout peer s)) ∧
    KeepsHost s (after u (execRetransmitTimeout peer s)) ∧ KeepsChip s (after u (execRetransmitTimeout peer s)) := by
  generalize ht : after u (execRetransmitTimeout peer s) = t
  unfold execRetransmitTimeout at ht
  try dsimp only at ht
  (repeat' split at ht) <;> (try simp only [after_answer, after_next] at ht) <;> (repeat' split at ht) <;> subst ht <;>
    simp [State.resend_frame _]

theorem execHeartbeatTimer_frame (s : State) (u : State) : KeepsBase s (after u (execHeartbeatTimer s)) ∧ (after
    u (execHeartbeatTimer s)).free = s.free ∧ (after u (execHeartbeatTimer s)).regs = s.regs ∧ (after u
    (execHeartbeatTimer s)).stat = s.stat ∧ (after u (execHeartbeatTimer s)).evlog = s.evlog ∧ (after u
    (execHeartbeatTimer s)).nss = s.nss ∧ (after u (execHeartbeatTimer s)).deferred = s.deferred ∧ (after u
    (execHeartbeatTimer s)).power = s.power ∧ KeepsStore s (after u (execHeartbeatTimer s)) ∧ KeepsHost s (after u
    (execHeartbeatTimer s)) ∧ KeepsChip s (after u (execHeartbeatTimer s)) := by
  generalize ht : after u (execHeartbeatTimer s) = t
  unfold execHeartbeatTimer at ht
  try dsimp only at ht
  (repeat' split at ht) <;> (try simp only [after_answer, after_next] at ht) <;> (repeat' split at ht) <;> subst ht <;>
    simp [State.sendUnreliable_frame _]

theorem execPeerDeadTimeout_frame (peer plane : Nat) (s : State) (u : State) : KeepsBase s (after u
    (execPeerDeadTimeout peer plane s)) ∧ (after u (execPeerDeadTimeout peer plane s)).boot.fuses = s.boot.fuses ∧
    (after u (execPeerDeadTimeout peer plane s)).pins.resetLow = s.pins.resetLow ∧ (after u (execPeerDeadTimeout peer
    plane s)).pins.frozen = s.pins.frozen := by
  generalize ht : after u (execPeerDeadTimeout peer plane s) = t
  unfold execPeerDeadTimeout at ht
  try dsimp only at ht
  (repeat' split at ht) <;> (try simp only [after_answer, after_next] at ht) <;> (repeat' split at ht) <;> subst ht <;>
    simp [State.losePlane_frame _, State.wakeHerd_frame _]

theorem execLeaseExpire_frame (s : State) (u : State) : KeepsBase s (after u (execLeaseExpire s)) ∧ (after u
    (execLeaseExpire s)).nss = s.nss ∧ (after u (execLeaseExpire s)).deferred = s.deferred ∧ (after u (execLeaseExpire
    s)).power = s.power ∧ KeepsStore s (after u (execLeaseExpire s)) ∧ (after u (execLeaseExpire s)).cmds = s.cmds ∧
    (after u (execLeaseExpire s)).pools = s.pools ∧ (after u (execLeaseExpire s)).boot = s.boot ∧ (after u
    (execLeaseExpire s)).pins.resetLow = s.pins.resetLow ∧ (after u (execLeaseExpire s)).pins.frozen = s.pins.frozen :=
    by
  generalize ht : after u (execLeaseExpire s) = t
  unfold execLeaseExpire at ht
  try dsimp only at ht
  (repeat' split at ht) <;> (try simp only [after_answer, after_next] at ht) <;> (repeat' split at ht) <;> subst ht <;>
    simp [State.followHerd_frame _, State.raise_frame _]

theorem execMapOffer_frame (hdr : FrameHdr) (s : State) (u : State) : KeepsBase s (after u (execMapOffer hdr s))
    ∧ (after u (execMapOffer hdr s)).free = s.free ∧ (after u (execMapOffer hdr s)).stat = s.stat ∧ (after u
    (execMapOffer hdr s)).evlog = s.evlog ∧ (after u (execMapOffer hdr s)).nss = s.nss ∧ (after u (execMapOffer hdr
    s)).deferred = s.deferred ∧ (after u (execMapOffer hdr s)).power = s.power ∧ KeepsStore s (after u (execMapOffer hdr
    s)) ∧ KeepsHost s (after u (execMapOffer hdr s)) ∧ KeepsChip s (after u (execMapOffer hdr s)) := by
  generalize ht : after u (execMapOffer hdr s) = t
  unfold execMapOffer at ht
  try dsimp only at ht
  (repeat' split at ht) <;> (try simp only [after_answer, after_next] at ht) <;> (repeat' split at ht) <;> subst ht <;>
    simp [State.receive_frame _, State.sendReliable_frame _]

theorem execMapRequest_frame (hdr : FrameHdr) (epoch : Nat) (s : State) (u : State) : KeepsBase s (after u
    (execMapRequest hdr epoch s)) ∧ (after u (execMapRequest hdr epoch s)).free = s.free ∧ (after u (execMapRequest hdr
    epoch s)).stat = s.stat ∧ (after u (execMapRequest hdr epoch s)).evlog = s.evlog ∧ (after u (execMapRequest hdr
    epoch s)).nss = s.nss ∧ (after u (execMapRequest hdr epoch s)).deferred = s.deferred ∧ (after u (execMapRequest hdr
    epoch s)).power = s.power ∧ KeepsStore s (after u (execMapRequest hdr epoch s)) ∧ KeepsHost s (after u
    (execMapRequest hdr epoch s)) ∧ KeepsChip s (after u (execMapRequest hdr epoch s)) := by
  generalize ht : after u (execMapRequest hdr epoch s) = t
  unfold execMapRequest at ht
  try dsimp only at ht
  (repeat' split at ht) <;> (try simp only [after_answer, after_next] at ht) <;> (repeat' split at ht) <;> subst ht <;>
    simp (disch := (intros; (try dsimp only); (repeat' split) <;> (try simp [*, State.receive_frame _, State.sendReliable_frame _]))) [State.receive_frame _, State.sendReliable_frame _]

theorem execFragWrite_frame (hdr : FrameHdr) (op : OpHdr) (symbols : List Symbol) (s : State) (u : State) :
    KeepsBase s (after u (execFragWrite hdr op symbols s)) ∧ (after u (execFragWrite hdr op symbols s)).free = s.free ∧
    (after u (execFragWrite hdr op symbols s)).stat = s.stat ∧ (after u (execFragWrite hdr op symbols s)).evlog =
    s.evlog ∧ (after u (execFragWrite hdr op symbols s)).nss = s.nss ∧ (after u (execFragWrite hdr op symbols
    s)).deferred = s.deferred ∧ (after u (execFragWrite hdr op symbols s)).power = s.power ∧ KeepsStore s (after u
    (execFragWrite hdr op symbols s)) ∧ KeepsHost s (after u (execFragWrite hdr op symbols s)) ∧ KeepsChip s (after u
    (execFragWrite hdr op symbols s)) := by
  generalize ht : after u (execFragWrite hdr op symbols s) = t
  unfold execFragWrite at ht
  try dsimp only at ht
  (repeat' split at ht) <;> (try simp only [after_answer, after_next] at ht) <;> (repeat' split at ht) <;> subst ht <;>
    simp [State.receive_frame _, State.sendReliable_frame _, State.settleIncoming_frame _]

theorem execMapData_frame (hdr : FrameHdr) (epoch offset : Nat) (whole : Option FlockMap) (s : State) (u :
    State) : KeepsBase s (after u (execMapData hdr epoch offset whole s)) ∧ (after u (execMapData hdr epoch offset whole
    s)).boot.fuses = s.boot.fuses ∧ (after u (execMapData hdr epoch offset whole s)).pins.resetLow = s.pins.resetLow ∧
    (after u (execMapData hdr epoch offset whole s)).pins.frozen = s.pins.frozen := by
  generalize ht : after u (execMapData hdr epoch offset whole s) = t
  unfold execMapData at ht
  try dsimp only at ht
  (repeat' split at ht) <;> (try simp only [after_answer, after_next] at ht) <;> (repeat' split at ht) <;> subst ht <;>
    simp [State.offerMap_frame _, State.receive_chip _, State.receive_frame _, State.settleIncoming_frame _,
        State.wakeHerd_frame _]

theorem execFragRead_frame (hdr : FrameHdr) (op : OpHdr) (s : State) (u : State) : KeepsBase s (after u
    (execFragRead hdr op s)) ∧ (after u (execFragRead hdr op s)).free = s.free ∧ (after u (execFragRead hdr op s)).stat
    = s.stat ∧ (after u (execFragRead hdr op s)).evlog = s.evlog ∧ (after u (execFragRead hdr op s)).nss = s.nss ∧
    (after u (execFragRead hdr op s)).deferred = s.deferred ∧ (after u (execFragRead hdr op s)).power = s.power ∧
    KeepsStore s (after u (execFragRead hdr op s)) ∧ KeepsHost s (after u (execFragRead hdr op s)) ∧ KeepsChip s (after
    u (execFragRead hdr op s)) := by
  generalize ht : after u (execFragRead hdr op s) = t
  unfold execFragRead at ht
  try dsimp only at ht
  (repeat' split at ht) <;> (try simp only [after_answer, after_next] at ht) <;> (repeat' split at ht) <;> subst ht <;>
    simp (disch := (intros; (try dsimp only); (repeat' split) <;> (try simp [*, State.answerOp_frame _, State.receive_frame _, State.sendFragment_frame _]))) [State.answerOp_frame _, State.receive_frame _, State.sendFragment_frame _]

theorem execFragData_frame (hdr : FrameHdr) (op : OpHdr) (symbols : List Symbol) (s : State) (u : State) :
    KeepsBase s (after u (execFragData hdr op symbols s)) ∧ (after u (execFragData hdr op symbols s)).boot.fuses =
    s.boot.fuses ∧ (after u (execFragData hdr op symbols s)).pins.resetLow = s.pins.resetLow ∧ (after u (execFragData
    hdr op symbols s)).pins.frozen = s.pins.frozen := by
  generalize ht : after u (execFragData hdr op symbols s) = t
  unfold execFragData at ht
  try dsimp only at ht
  (repeat' split at ht) <;> (try simp only [after_answer, after_next] at ht) <;> (repeat' split at ht) <;> subst ht <;>
    simp [State.receive_frame _, State.wakeHerd_frame _]

theorem execFragDiscard_frame (hdr : FrameHdr) (op : OpHdr) (s : State) (u : State) : KeepsBase s (after u
    (execFragDiscard hdr op s)) ∧ (after u (execFragDiscard hdr op s)).free = s.free ∧ (after u (execFragDiscard hdr op
    s)).stat = s.stat ∧ (after u (execFragDiscard hdr op s)).evlog = s.evlog ∧ (after u (execFragDiscard hdr op s)).nss
    = s.nss ∧ (after u (execFragDiscard hdr op s)).deferred = s.deferred ∧ (after u (execFragDiscard hdr op s)).power =
    s.power ∧ KeepsStore s (after u (execFragDiscard hdr op s)) ∧ KeepsHost s (after u (execFragDiscard hdr op s)) ∧
    KeepsChip s (after u (execFragDiscard hdr op s)) := by
  generalize ht : after u (execFragDiscard hdr op s) = t
  unfold execFragDiscard at ht
  try dsimp only at ht
  (repeat' split at ht) <;> (try simp only [after_answer, after_next] at ht) <;> (repeat' split at ht) <;> subst ht <;>
    simp [State.receive_frame _]

theorem execSweepDone_frame (hdr : FrameHdr) (hkey k m home : Nat) (elig : List Nat) (s : State) (u : State) :
    KeepsBase s (after u (execSweepDone hdr hkey k m home elig s)) ∧ (after u (execSweepDone hdr hkey k m home elig
    s)).free = s.free ∧ (after u (execSweepDone hdr hkey k m home elig s)).stat = s.stat ∧ (after u (execSweepDone hdr
    hkey k m home elig s)).evlog = s.evlog ∧ (after u (execSweepDone hdr hkey k m home elig s)).nss = s.nss ∧ (after u
    (execSweepDone hdr hkey k m home elig s)).deferred = s.deferred ∧ (after u (execSweepDone hdr hkey k m home elig
    s)).power = s.power ∧ KeepsStore s (after u (execSweepDone hdr hkey k m home elig s)) ∧ KeepsHost s (after u
    (execSweepDone hdr hkey k m home elig s)) ∧ KeepsChip s (after u (execSweepDone hdr hkey k m home elig s)) := by
  generalize ht : after u (execSweepDone hdr hkey k m home elig s) = t
  unfold execSweepDone at ht
  try dsimp only at ht
  (repeat' split at ht) <;> (try simp only [after_answer, after_next] at ht) <;> (repeat' split at ht) <;> subst ht <;>
    simp [State.receive_frame _]

theorem execFragDone_frame (hdr : FrameHdr) (op : OpHdr) (s : State) (u : State) : KeepsBase s (after u
    (execFragDone hdr op s)) ∧ (after u (execFragDone hdr op s)).boot.fuses = s.boot.fuses ∧ (after u (execFragDone hdr
    op s)).pins.resetLow = s.pins.resetLow ∧ (after u (execFragDone hdr op s)).pins.frozen = s.pins.frozen := by
  generalize ht : after u (execFragDone hdr op s) = t
  unfold execFragDone at ht
  try dsimp only at ht
  (repeat' split at ht) <;> (try simp only [after_answer, after_next] at ht) <;> (repeat' split at ht) <;> subst ht <;>
    simp (disch := (intros; (try dsimp only); (repeat' split) <;> (try simp [*, State.finishJob_frame _, State.receive_chip _, State.receive_frame _, State.sendFragment_frame _, State.wakeHerd_frame _]))) [State.finishJob_frame _, State.receive_chip _, State.receive_frame _, State.sendFragment_frame _, State.wakeHerd_frame _]

theorem execHerdJobStart_frame (job : Nat) (s : State) (u : State) : KeepsBase s (after u (execHerdJobStart job
    s)) ∧ (after u (execHerdJobStart job s)).nss = s.nss ∧ (after u (execHerdJobStart job s)).power = s.power ∧ (after u
    (execHerdJobStart job s)).media = s.media ∧ (after u (execHerdJobStart job s)).cmds = s.cmds ∧ (after u
    (execHerdJobStart job s)).pools = s.pools ∧ (after u (execHerdJobStart job s)).boot = s.boot ∧ (after u
    (execHerdJobStart job s)).pins.resetLow = s.pins.resetLow ∧ (after u (execHerdJobStart job s)).pins.frozen =
    s.pins.frozen := by
  generalize ht : after u (execHerdJobStart job s) = t
  unfold execHerdJobStart at ht
  try dsimp only at ht
  (repeat' split at ht) <;> (try simp only [after_answer, after_next] at ht) <;> (repeat' split at ht) <;> subst ht <;>
    simp [State.startJob_frame _]

theorem execJobDeferTimeout_frame (job : Nat) (s : State) (u : State) : KeepsBase s (after u
    (execJobDeferTimeout job s)) ∧ (after u (execJobDeferTimeout job s)).boot.fuses = s.boot.fuses ∧ (after u
    (execJobDeferTimeout job s)).pins.resetLow = s.pins.resetLow ∧ (after u (execJobDeferTimeout job s)).pins.frozen =
    s.pins.frozen := by
  generalize ht : after u (execJobDeferTimeout job s) = t
  unfold execJobDeferTimeout at ht
  try dsimp only at ht
  (repeat' split at ht) <;> (try simp only [after_answer, after_next] at ht) <;> (repeat' split at ht) <;> subst ht <;>
    simp [State.followHerd_frame _, State.raiseDeferred_frame _, State.wakeHerd_frame _]

theorem execJobRetryTimer_frame (s : State) (u : State) : KeepsBase s (after u (execJobRetryTimer s)) ∧ (after u
    (execJobRetryTimer s)).boot.fuses = s.boot.fuses ∧ (after u (execJobRetryTimer s)).pins.resetLow = s.pins.resetLow ∧
    (after u (execJobRetryTimer s)).pins.frozen = s.pins.frozen := by
  generalize ht : after u (execJobRetryTimer s) = t
  unfold execJobRetryTimer at ht
  try dsimp only at ht
  (repeat' split at ht) <;> (try simp only [after_answer, after_next] at ht) <;> (repeat' split at ht) <;> subst ht <;>
    simp [State.startJob_frame _, State.wakeHerd_frame _]

theorem execEthertypeWrite_frame (src : Source) (value : Half) (s : State) (u : State) : (after u
    (execEthertypeWrite src value s)).pending = s.pending ∧ (after u (execEthertypeWrite src value s)).posted = s.posted
    ∧ (after u (execEthertypeWrite src value s)).late = s.late ∧ (after u (execEthertypeWrite src value s)).isolated =
    s.isolated ∧ (after u (execEthertypeWrite src value s)).failedCores = s.failedCores ∧ (after u (execEthertypeWrite
    src value s)).mtf = s.mtf ∧ (after u (execEthertypeWrite src value s)).mat = s.mat ∧ (after u (execEthertypeWrite
    src value s)).mules = s.mules ∧ (after u (execEthertypeWrite src value s)).sdram = s.sdram ∧ (after u
    (execEthertypeWrite src value s)).ram = s.ram ∧ (after u (execEthertypeWrite src value s)).boot.fuses = s.boot.fuses
    ∧ (after u (execEthertypeWrite src value s)).pins.resetLow = s.pins.resetLow ∧ (after u (execEthertypeWrite src
    value s)).pins.frozen = s.pins.frozen := by
  generalize ht : after u (execEthertypeWrite src value s) = t
  unfold execEthertypeWrite at ht
  try dsimp only at ht
  (repeat' split at ht) <;> (try simp only [after_answer, after_next] at ht) <;> (repeat' split at ht) <;> subst ht <;>
    simp [State.access_frame _, State.closeLinks_frame _, State.keyed_frame _, State.setFld_frame _,
        State.wakeHerd_frame _]

theorem execHrdMacWrite_frame (src : Source) (plane : Nat) (value : BitVec 48) (s : State) (u : State) : (after
    u (execHrdMacWrite src plane value s)).pending = s.pending ∧ (after u (execHrdMacWrite src plane value s)).posted =
    s.posted ∧ (after u (execHrdMacWrite src plane value s)).late = s.late ∧ (after u (execHrdMacWrite src plane value
    s)).isolated = s.isolated ∧ (after u (execHrdMacWrite src plane value s)).failedCores = s.failedCores ∧ (after u
    (execHrdMacWrite src plane value s)).mtf = s.mtf ∧ (after u (execHrdMacWrite src plane value s)).mat = s.mat ∧
    (after u (execHrdMacWrite src plane value s)).mules = s.mules ∧ (after u (execHrdMacWrite src plane value s)).sdram
    = s.sdram ∧ (after u (execHrdMacWrite src plane value s)).ram = s.ram ∧ (after u (execHrdMacWrite src plane value
    s)).boot.fuses = s.boot.fuses ∧ (after u (execHrdMacWrite src plane value s)).pins.resetLow = s.pins.resetLow ∧
    (after u (execHrdMacWrite src plane value s)).pins.frozen = s.pins.frozen := by
  generalize ht : after u (execHrdMacWrite src plane value s) = t
  unfold execHrdMacWrite at ht
  try dsimp only at ht
  (repeat' split at ht) <;> (try simp only [after_answer, after_next] at ht) <;> (repeat' split at ht) <;> subst ht <;>
    simp [State.access_frame _, State.closePlane_frame _, State.keyed_frame _, State.setFld_frame _,
        State.wakeHerd_frame _]

theorem execHrdPortAnWrite_frame (src : Source) (plane : Nat) (an : Bool) (s : State) (u : State) : KeepsBase s
    (after u (execHrdPortAnWrite src plane an s)) ∧ (after u (execHrdPortAnWrite src plane an s)).boot.fuses =
    s.boot.fuses ∧ (after u (execHrdPortAnWrite src plane an s)).pins.resetLow = s.pins.resetLow ∧ (after u
    (execHrdPortAnWrite src plane an s)).pins.frozen = s.pins.frozen := by
  generalize ht : after u (execHrdPortAnWrite src plane an s) = t
  unfold execHrdPortAnWrite at ht
  try dsimp only at ht
  (repeat' split at ht) <;> (try simp only [after_answer, after_next] at ht) <;> (repeat' split at ht) <;> subst ht <;>
    simp (disch := (intros; (try dsimp only); (repeat' split) <;> (try simp [*, State.access_chip _, State.access_frame _, State.peerLink_frame _, State.setFld_frame _, State.wakeHerd_frame _]))) [State.access_chip _, State.access_frame _, State.peerLink_frame _, State.setFld_frame _, State.wakeHerd_frame _]

theorem execPeerLinkChange_frame (plane : Nat) (up : Bool) (s : State) (u : State) : KeepsBase s (after u
    (execPeerLinkChange plane up s)) ∧ (after u (execPeerLinkChange plane up s)).boot.fuses = s.boot.fuses ∧ (after u
    (execPeerLinkChange plane up s)).pins.resetLow = s.pins.resetLow ∧ (after u (execPeerLinkChange plane up
    s)).pins.frozen = s.pins.frozen := by
  generalize ht : after u (execPeerLinkChange plane up s) = t
  unfold execPeerLinkChange at ht
  try dsimp only at ht
  (repeat' split at ht) <;> (try simp only [after_answer, after_next] at ht) <;> (repeat' split at ht) <;> subst ht <;>
    simp [State.peerLink_frame _, State.wakeHerd_frame _]

theorem execFrameDiscard_frame (plane : Nat) (s : State) (u : State) : KeepsBase s (after u (execFrameDiscard
    plane s)) ∧ (after u (execFrameDiscard plane s)).free = s.free ∧ (after u (execFrameDiscard plane s)).out = s.out ∧
    (after u (execFrameDiscard plane s)).stat = s.stat ∧ (after u (execFrameDiscard plane s)).evlog = s.evlog ∧
    KeepsSpace s (after u (execFrameDiscard plane s)) ∧ KeepsStore s (after u (execFrameDiscard plane s)) ∧ KeepsHost s
    (after u (execFrameDiscard plane s)) ∧ KeepsChip s (after u (execFrameDiscard plane s)) := by
  generalize ht : after u (execFrameDiscard plane s) = t
  unfold execFrameDiscard at ht
  try dsimp only at ht
  (repeat' split at ht) <;> (try simp only [after_answer, after_next] at ht) <;> (repeat' split at ht) <;> subst ht <;>
    simp [State.dropFrame_frame _]

theorem execSweepStripe_frame (ns : Nat) (s : State) (u : State) : KeepsBase s (after u (execSweepStripe ns s))
    ∧ (after u (execSweepStripe ns s)).boot.fuses = s.boot.fuses ∧ (after u (execSweepStripe ns s)).pins.resetLow =
    s.pins.resetLow ∧ (after u (execSweepStripe ns s)).pins.frozen = s.pins.frozen := by
  generalize ht : after u (execSweepStripe ns s) = t
  unfold execSweepStripe at ht
  try dsimp only at ht
  (repeat' split at ht) <;> (try simp only [after_answer, after_next] at ht) <;> (repeat' split at ht) <;> subst ht <;>
    simp [State.advanceSweep_frame _, State.sweepOne_frame _, State.wakeHerd_frame _]

theorem execChnRead_frame (ch queue : Nat) (byCore : Bool) (d : BitVec 256) (s : State) (u : State) : KeepsBase
    s (after u (execChnRead ch queue byCore d s)) ∧ (after u (execChnRead ch queue byCore d s)).regs = s.regs ∧ (after u
    (execChnRead ch queue byCore d s)).evlog = s.evlog ∧ KeepsSpace s (after u (execChnRead ch queue byCore d s)) ∧
    (after u (execChnRead ch queue byCore d s)).map = s.map ∧ (after u (execChnRead ch queue byCore d s)).place =
    s.place ∧ (after u (execChnRead ch queue byCore d s)).cmds = s.cmds ∧ (after u (execChnRead ch queue byCore d
    s)).hosts = s.hosts ∧ KeepsChip s (after u (execChnRead ch queue byCore d s)) := by
  generalize ht : after u (execChnRead ch queue byCore d s) = t
  unfold execChnRead postAs at ht
  try dsimp only at ht
  (repeat' split at ht) <;> (try simp only [after_answer, after_next] at ht) <;> (repeat' split at ht) <;> subst ht <;>
    simp [State.post_frame _]

theorem execChnProgram_frame (ch queue : Nat) (byCore : Bool) (d : BitVec 256) (s : State) (u : State) :
    KeepsBase s (after u (execChnProgram ch queue byCore d s)) ∧ (after u (execChnProgram ch queue byCore d s)).regs =
    s.regs ∧ (after u (execChnProgram ch queue byCore d s)).evlog = s.evlog ∧ KeepsSpace s (after u (execChnProgram ch
    queue byCore d s)) ∧ (after u (execChnProgram ch queue byCore d s)).map = s.map ∧ (after u (execChnProgram ch queue
    byCore d s)).place = s.place ∧ (after u (execChnProgram ch queue byCore d s)).cmds = s.cmds ∧ (after u
    (execChnProgram ch queue byCore d s)).hosts = s.hosts ∧ KeepsChip s (after u (execChnProgram ch queue byCore d s))
    := by
  generalize ht : after u (execChnProgram ch queue byCore d s) = t
  unfold execChnProgram postAs at ht
  try dsimp only at ht
  (repeat' split at ht) <;> (try simp only [after_answer, after_next] at ht) <;> (repeat' split at ht) <;> subst ht <;>
    simp [State.post_frame _]

theorem execChnErase_frame (ch queue : Nat) (byCore : Bool) (d : BitVec 256) (s : State) (u : State) : KeepsBase
    s (after u (execChnErase ch queue byCore d s)) ∧ (after u (execChnErase ch queue byCore d s)).regs = s.regs ∧ (after
    u (execChnErase ch queue byCore d s)).evlog = s.evlog ∧ KeepsSpace s (after u (execChnErase ch queue byCore d s)) ∧
    (after u (execChnErase ch queue byCore d s)).map = s.map ∧ (after u (execChnErase ch queue byCore d s)).place =
    s.place ∧ (after u (execChnErase ch queue byCore d s)).cmds = s.cmds ∧ (after u (execChnErase ch queue byCore d
    s)).hosts = s.hosts ∧ KeepsChip s (after u (execChnErase ch queue byCore d s)) := by
  generalize ht : after u (execChnErase ch queue byCore d s) = t
  unfold execChnErase postAs at ht
  try dsimp only at ht
  (repeat' split at ht) <;> (try simp only [after_answer, after_next] at ht) <;> (repeat' split at ht) <;> subst ht <;>
    simp [State.post_frame _]

theorem execChnReadTrailer_frame (ch queue : Nat) (byCore : Bool) (d : BitVec 256) (s : State) (u : State) :
    KeepsBase s (after u (execChnReadTrailer ch queue byCore d s)) ∧ (after u (execChnReadTrailer ch queue byCore d
    s)).regs = s.regs ∧ (after u (execChnReadTrailer ch queue byCore d s)).evlog = s.evlog ∧ KeepsSpace s (after u
    (execChnReadTrailer ch queue byCore d s)) ∧ (after u (execChnReadTrailer ch queue byCore d s)).map = s.map ∧ (after
    u (execChnReadTrailer ch queue byCore d s)).place = s.place ∧ (after u (execChnReadTrailer ch queue byCore d
    s)).cmds = s.cmds ∧ (after u (execChnReadTrailer ch queue byCore d s)).hosts = s.hosts ∧ KeepsChip s (after u
    (execChnReadTrailer ch queue byCore d s)) := by
  generalize ht : after u (execChnReadTrailer ch queue byCore d s) = t
  unfold execChnReadTrailer postAs at ht
  try dsimp only at ht
  (repeat' split at ht) <;> (try simp only [after_answer, after_next] at ht) <;> (repeat' split at ht) <;> subst ht <;>
    simp [State.post_frame _]

theorem execChnGetFeatures_frame (ch queue : Nat) (byCore : Bool) (d : BitVec 256) (s : State) (u : State) :
    KeepsBase s (after u (execChnGetFeatures ch queue byCore d s)) ∧ (after u (execChnGetFeatures ch queue byCore d
    s)).regs = s.regs ∧ (after u (execChnGetFeatures ch queue byCore d s)).evlog = s.evlog ∧ KeepsSpace s (after u
    (execChnGetFeatures ch queue byCore d s)) ∧ (after u (execChnGetFeatures ch queue byCore d s)).map = s.map ∧ (after
    u (execChnGetFeatures ch queue byCore d s)).place = s.place ∧ (after u (execChnGetFeatures ch queue byCore d
    s)).cmds = s.cmds ∧ (after u (execChnGetFeatures ch queue byCore d s)).hosts = s.hosts ∧ KeepsChip s (after u
    (execChnGetFeatures ch queue byCore d s)) := by
  generalize ht : after u (execChnGetFeatures ch queue byCore d s) = t
  unfold execChnGetFeatures postAs at ht
  try dsimp only at ht
  (repeat' split at ht) <;> (try simp only [after_answer, after_next] at ht) <;> (repeat' split at ht) <;> subst ht <;>
    simp [State.post_frame _]

theorem execChnSetFeatures_frame (ch queue : Nat) (byCore : Bool) (d : BitVec 256) (s : State) (u : State) :
    KeepsBase s (after u (execChnSetFeatures ch queue byCore d s)) ∧ (after u (execChnSetFeatures ch queue byCore d
    s)).regs = s.regs ∧ (after u (execChnSetFeatures ch queue byCore d s)).evlog = s.evlog ∧ KeepsSpace s (after u
    (execChnSetFeatures ch queue byCore d s)) ∧ (after u (execChnSetFeatures ch queue byCore d s)).map = s.map ∧ (after
    u (execChnSetFeatures ch queue byCore d s)).place = s.place ∧ (after u (execChnSetFeatures ch queue byCore d
    s)).cmds = s.cmds ∧ (after u (execChnSetFeatures ch queue byCore d s)).hosts = s.hosts ∧ KeepsChip s (after u
    (execChnSetFeatures ch queue byCore d s)) := by
  generalize ht : after u (execChnSetFeatures ch queue byCore d s) = t
  unfold execChnSetFeatures postAs at ht
  try dsimp only at ht
  (repeat' split at ht) <;> (try simp only [after_answer, after_next] at ht) <;> (repeat' split at ht) <;> subst ht <;>
    simp [State.post_frame _]

theorem execChnReadParameter_frame (ch queue : Nat) (byCore : Bool) (d : BitVec 256) (s : State) (u : State) :
    KeepsBase s (after u (execChnReadParameter ch queue byCore d s)) ∧ (after u (execChnReadParameter ch queue byCore d
    s)).regs = s.regs ∧ (after u (execChnReadParameter ch queue byCore d s)).evlog = s.evlog ∧ KeepsSpace s (after u
    (execChnReadParameter ch queue byCore d s)) ∧ (after u (execChnReadParameter ch queue byCore d s)).map = s.map ∧
    (after u (execChnReadParameter ch queue byCore d s)).place = s.place ∧ (after u (execChnReadParameter ch queue
    byCore d s)).cmds = s.cmds ∧ (after u (execChnReadParameter ch queue byCore d s)).hosts = s.hosts ∧ KeepsChip s
    (after u (execChnReadParameter ch queue byCore d s)) := by
  generalize ht : after u (execChnReadParameter ch queue byCore d s) = t
  unfold execChnReadParameter postAs at ht
  try dsimp only at ht
  (repeat' split at ht) <;> (try simp only [after_answer, after_next] at ht) <;> (repeat' split at ht) <;> subst ht <;>
    simp [State.post_frame _]

theorem execChnResetDie_frame (ch queue : Nat) (byCore : Bool) (d : BitVec 256) (s : State) (u : State) :
    KeepsBase s (after u (execChnResetDie ch queue byCore d s)) ∧ (after u (execChnResetDie ch queue byCore d s)).regs =
    s.regs ∧ (after u (execChnResetDie ch queue byCore d s)).evlog = s.evlog ∧ KeepsSpace s (after u (execChnResetDie ch
    queue byCore d s)) ∧ (after u (execChnResetDie ch queue byCore d s)).map = s.map ∧ (after u (execChnResetDie ch
    queue byCore d s)).place = s.place ∧ (after u (execChnResetDie ch queue byCore d s)).cmds = s.cmds ∧ (after u
    (execChnResetDie ch queue byCore d s)).hosts = s.hosts ∧ KeepsChip s (after u (execChnResetDie ch queue byCore d s))
    := by
  generalize ht : after u (execChnResetDie ch queue byCore d s) = t
  unfold execChnResetDie postAs at ht
  try dsimp only at ht
  (repeat' split at ht) <;> (try simp only [after_answer, after_next] at ht) <;> (repeat' split at ht) <;> subst ht <;>
    simp [State.post_frame _]

theorem execChnMark_frame (ch queue : Nat) (byCore : Bool) (d : BitVec 256) (s : State) (u : State) : KeepsBase
    s (after u (execChnMark ch queue byCore d s)) ∧ (after u (execChnMark ch queue byCore d s)).regs = s.regs ∧ (after u
    (execChnMark ch queue byCore d s)).evlog = s.evlog ∧ KeepsSpace s (after u (execChnMark ch queue byCore d s)) ∧
    (after u (execChnMark ch queue byCore d s)).map = s.map ∧ (after u (execChnMark ch queue byCore d s)).place =
    s.place ∧ (after u (execChnMark ch queue byCore d s)).cmds = s.cmds ∧ (after u (execChnMark ch queue byCore d
    s)).hosts = s.hosts ∧ KeepsChip s (after u (execChnMark ch queue byCore d s)) := by
  generalize ht : after u (execChnMark ch queue byCore d s) = t
  unfold execChnMark postAs at ht
  try dsimp only at ht
  (repeat' split at ht) <;> (try simp only [after_answer, after_next] at ht) <;> (repeat' split at ht) <;> subst ht <;>
    simp [State.post_frame _]

theorem execChnReadId_frame (ch queue : Nat) (byCore : Bool) (d : BitVec 256) (s : State) (u : State) :
    KeepsBase s (after u (execChnReadId ch queue byCore d s)) ∧ (after u (execChnReadId ch queue byCore d s)).regs =
    s.regs ∧ (after u (execChnReadId ch queue byCore d s)).evlog = s.evlog ∧ KeepsSpace s (after u (execChnReadId ch
    queue byCore d s)) ∧ (after u (execChnReadId ch queue byCore d s)).map = s.map ∧ (after u (execChnReadId ch queue
    byCore d s)).place = s.place ∧ (after u (execChnReadId ch queue byCore d s)).cmds = s.cmds ∧ (after u (execChnReadId
    ch queue byCore d s)).hosts = s.hosts ∧ KeepsChip s (after u (execChnReadId ch queue byCore d s)) := by
  generalize ht : after u (execChnReadId ch queue byCore d s) = t
  unfold execChnReadId postAs at ht
  try dsimp only at ht
  (repeat' split at ht) <;> (try simp only [after_answer, after_next] at ht) <;> (repeat' split at ht) <;> subst ht <;>
    simp [State.post_frame _]

theorem execChnTrain_frame (ch queue : Nat) (byCore : Bool) (d : BitVec 256) (s : State) (u : State) : KeepsBase
    s (after u (execChnTrain ch queue byCore d s)) ∧ (after u (execChnTrain ch queue byCore d s)).regs = s.regs ∧ (after
    u (execChnTrain ch queue byCore d s)).evlog = s.evlog ∧ KeepsSpace s (after u (execChnTrain ch queue byCore d s)) ∧
    (after u (execChnTrain ch queue byCore d s)).map = s.map ∧ (after u (execChnTrain ch queue byCore d s)).place =
    s.place ∧ (after u (execChnTrain ch queue byCore d s)).cmds = s.cmds ∧ (after u (execChnTrain ch queue byCore d
    s)).hosts = s.hosts ∧ KeepsChip s (after u (execChnTrain ch queue byCore d s)) := by
  generalize ht : after u (execChnTrain ch queue byCore d s) = t
  unfold execChnTrain postAs at ht
  try dsimp only at ht
  (repeat' split at ht) <;> (try simp only [after_answer, after_next] at ht) <;> (repeat' split at ht) <;> subst ht <;>
    simp [State.post_frame _]

theorem execDieDispatch_frame (ch die : Nat) (s : State) (u : State) : KeepsBase s (after u (execDieDispatch ch
    die s)) ∧ (after u (execDieDispatch ch die s)).deferred = s.deferred ∧ (after u (execDieDispatch ch die s)).herd =
    s.herd ∧ (after u (execDieDispatch ch die s)).map = s.map ∧ (after u (execDieDispatch ch die s)).cmds = s.cmds ∧
    (after u (execDieDispatch ch die s)).boot = s.boot ∧ (after u (execDieDispatch ch die s)).pins.resetLow =
    s.pins.resetLow ∧ (after u (execDieDispatch ch die s)).pins.frozen = s.pins.frozen := by
  generalize ht : after u (execDieDispatch ch die s) = t
  unfold execDieDispatch at ht
  try dsimp only at ht
  (repeat' split at ht) <;> (try simp only [after_answer, after_next] at ht) <;> (repeat' split at ht) <;> subst ht <;>
    simp [State.dispatchDie_frame _, State.mediaChanged_frame _]

theorem execDieOpComplete_frame (ch die : Nat) (result : DieResult) (dieStat : Byte) (elapsed : Nat) (s : State)
    (u : State) : (after u (execDieOpComplete ch die result dieStat elapsed s)).pending = s.pending ∧ (after u
    (execDieOpComplete ch die result dieStat elapsed s)).armed = s.armed ∧ (after u (execDieOpComplete ch die result
    dieStat elapsed s)).posted = s.posted ∧ (after u (execDieOpComplete ch die result dieStat elapsed s)).late = s.late
    ∧ (after u (execDieOpComplete ch die result dieStat elapsed s)).isolated = s.isolated ∧ (after u (execDieOpComplete
    ch die result dieStat elapsed s)).failedCores = s.failedCores ∧ (after u (execDieOpComplete ch die result dieStat
    elapsed s)).mtf = s.mtf ∧ (after u (execDieOpComplete ch die result dieStat elapsed s)).mat = s.mat ∧ (after u
    (execDieOpComplete ch die result dieStat elapsed s)).mules = s.mules ∧ (after u (execDieOpComplete ch die result
    dieStat elapsed s)).deferred = s.deferred ∧ (after u (execDieOpComplete ch die result dieStat elapsed s)).herd =
    s.herd ∧ (after u (execDieOpComplete ch die result dieStat elapsed s)).map = s.map ∧ (after u (execDieOpComplete ch
    die result dieStat elapsed s)).cmds = s.cmds ∧ (after u (execDieOpComplete ch die result dieStat elapsed s)).boot =
    s.boot ∧ (after u (execDieOpComplete ch die result dieStat elapsed s)).pins.resetLow = s.pins.resetLow ∧ (after u
    (execDieOpComplete ch die result dieStat elapsed s)).pins.frozen = s.pins.frozen := by
  generalize ht : after u (execDieOpComplete ch die result dieStat elapsed s) = t
  unfold execDieOpComplete at ht
  try dsimp only at ht
  (repeat' split at ht) <;> (try simp only [after_answer, after_next] at ht) <;> (repeat' split at ht) <;> subst ht <;>
    simp [State.completeOp_frame _, State.mediaChanged_frame _]

theorem execSuspendIssue_frame (ch die : Nat) (ran : Nat) (s : State) (u : State) : KeepsBase s (after u
    (execSuspendIssue ch die ran s)) ∧ (after u (execSuspendIssue ch die ran s)).free = s.free ∧ (after u
    (execSuspendIssue ch die ran s)).out = s.out ∧ (after u (execSuspendIssue ch die ran s)).stat = s.stat ∧ (after u
    (execSuspendIssue ch die ran s)).evlog = s.evlog ∧ KeepsSpace s (after u (execSuspendIssue ch die ran s)) ∧ (after u
    (execSuspendIssue ch die ran s)).map = s.map ∧ (after u (execSuspendIssue ch die ran s)).place = s.place ∧ KeepsHost
    s (after u (execSuspendIssue ch die ran s)) ∧ KeepsChip s (after u (execSuspendIssue ch die ran s)) := by
  generalize ht : after u (execSuspendIssue ch die ran s) = t
  unfold execSuspendIssue at ht
  try dsimp only at ht
  (repeat' split at ht) <;> (try simp only [after_answer, after_next] at ht) <;> (repeat' split at ht) <;> subst ht <;>
    simp [State.count_frame _, State.setDie_frame _]

theorem execDieTimeout_frame (ch die : Nat) (resetReady : Bool) (s : State) (u : State) : KeepsBase s (after u
    (execDieTimeout ch die resetReady s)) ∧ (after u (execDieTimeout ch die resetReady s)).deferred = s.deferred ∧
    (after u (execDieTimeout ch die resetReady s)).herd = s.herd ∧ (after u (execDieTimeout ch die resetReady s)).map =
    s.map ∧ (after u (execDieTimeout ch die resetReady s)).cmds = s.cmds ∧ (after u (execDieTimeout ch die resetReady
    s)).boot = s.boot ∧ (after u (execDieTimeout ch die resetReady s)).pins.resetLow = s.pins.resetLow ∧ (after u
    (execDieTimeout ch die resetReady s)).pins.frozen = s.pins.frozen := by
  generalize ht : after u (execDieTimeout ch die resetReady s) = t
  unfold execDieTimeout at ht
  try dsimp only at ht
  (repeat' split at ht) <;> (try simp only [after_answer, after_next] at ht) <;> (repeat' split at ht) <;> subst ht <;>
    simp [State.count_frame _, State.endFree_frame _, State.failDie_frame _, State.mediaChanged_frame _,
        State.raiseRecord_frame _, State.setDie_frame _]

theorem execDescriptorStarve_frame (ch queue die : Nat) (s : State) (u : State) : KeepsBase s (after u
    (execDescriptorStarve ch queue die s)) ∧ KeepsNotes s (after u (execDescriptorStarve ch queue die s)) ∧ KeepsSpace s
    (after u (execDescriptorStarve ch queue die s)) ∧ (after u (execDescriptorStarve ch queue die s)).map = s.map ∧
    (after u (execDescriptorStarve ch queue die s)).place = s.place ∧ KeepsHost s (after u (execDescriptorStarve ch
    queue die s)) ∧ KeepsChip s (after u (execDescriptorStarve ch queue die s)) := by
  generalize ht : after u (execDescriptorStarve ch queue die s) = t
  unfold execDescriptorStarve at ht
  try dsimp only at ht
  (repeat' split at ht) <;> (try simp only [after_answer, after_next] at ht) <;> (repeat' split at ht) <;> subst ht <;>
    simp [State.setChan_frame _]

theorem execChnCheadWrite_frame (src : Source) (ch : Nat) (value : Word) (s : State) (u : State) : KeepsBase s
    (after u (execChnCheadWrite src ch value s)) ∧ KeepsSpace s (after u (execChnCheadWrite src ch value s)) ∧ (after u
    (execChnCheadWrite src ch value s)).map = s.map ∧ (after u (execChnCheadWrite src ch value s)).place = s.place ∧
    KeepsHost s (after u (execChnCheadWrite src ch value s)) ∧ KeepsChip s (after u (execChnCheadWrite src ch value s))
    := by
  generalize ht : after u (execChnCheadWrite src ch value s) = t
  unfold execChnCheadWrite at ht
  try dsimp only at ht
  (repeat' split at ht) <;> (try simp only [after_answer, after_next] at ht) <;> (repeat' split at ht) <;> subst ht <;>
    simp (disch := (intros; (try dsimp only); (repeat' split) <;> (try simp [*, State.access_frame _, State.setChan_frame _, State.setReg_frame _]))) [State.access_frame _, State.setChan_frame _, State.setReg_frame _]

theorem execChnRetrain_frame (src : Source) (ch : Nat) (trains : List Bool) (s : State) (u : State) : KeepsBase
    s (after u (execChnRetrain src ch trains s)) ∧ (after u (execChnRetrain src ch trains s)).deferred = s.deferred ∧
    (after u (execChnRetrain src ch trains s)).herd = s.herd ∧ (after u (execChnRetrain src ch trains s)).map = s.map ∧
    (after u (execChnRetrain src ch trains s)).cmds = s.cmds ∧ (after u (execChnRetrain src ch trains s)).boot = s.boot
    ∧ (after u (execChnRetrain src ch trains s)).pins.resetLow = s.pins.resetLow ∧ (after u (execChnRetrain src ch
    trains s)).pins.frozen = s.pins.frozen := by
  generalize ht : after u (execChnRetrain src ch trains s) = t
  unfold execChnRetrain at ht
  try dsimp only at ht
  (repeat' split at ht) <;> (try simp only [after_answer, after_next] at ht) <;> (repeat' split at ht) <;> subst ht <;>
    simp [State.access_chip _, State.access_frame _, State.mediaChanged_frame _, State.trainChannel_frame _]

theorem execChnRateTargetWrite_frame (src : Source) (ch : Nat) (value : Word) (trains : List Bool) (s : State)
    (u : State) : (after u (execChnRateTargetWrite src ch value trains s)).pending = s.pending ∧ (after u
    (execChnRateTargetWrite src ch value trains s)).posted = s.posted ∧ (after u (execChnRateTargetWrite src ch value
    trains s)).late = s.late ∧ (after u (execChnRateTargetWrite src ch value trains s)).isolated = s.isolated ∧ (after u
    (execChnRateTargetWrite src ch value trains s)).failedCores = s.failedCores ∧ (after u (execChnRateTargetWrite src
    ch value trains s)).mtf = s.mtf ∧ (after u (execChnRateTargetWrite src ch value trains s)).mat = s.mat ∧ (after u
    (execChnRateTargetWrite src ch value trains s)).mules = s.mules ∧ (after u (execChnRateTargetWrite src ch value
    trains s)).sdram = s.sdram ∧ (after u (execChnRateTargetWrite src ch value trains s)).ram = s.ram ∧ (after u
    (execChnRateTargetWrite src ch value trains s)).deferred = s.deferred ∧ (after u (execChnRateTargetWrite src ch
    value trains s)).herd = s.herd ∧ (after u (execChnRateTargetWrite src ch value trains s)).map = s.map ∧ (after u
    (execChnRateTargetWrite src ch value trains s)).cmds = s.cmds ∧ (after u (execChnRateTargetWrite src ch value trains
    s)).boot = s.boot ∧ (after u (execChnRateTargetWrite src ch value trains s)).pins.resetLow = s.pins.resetLow ∧
    (after u (execChnRateTargetWrite src ch value trains s)).pins.frozen = s.pins.frozen := by
  generalize ht : after u (execChnRateTargetWrite src ch value trains s) = t
  unfold execChnRateTargetWrite at ht
  try dsimp only at ht
  (repeat' split at ht) <;> (try simp only [after_answer, after_next] at ht) <;> (repeat' split at ht) <;> subst ht <;>
    first
      | (simp [State.access_chip _, State.access_frame _, State.keyed_chip _, State.keyed_frame _, State.mediaChanged_frame _, State.setFld_frame _, State.trainChannel_frame _]; done)
      | (simp (disch := (intros; (try dsimp only); (repeat' split) <;> (try simp [*, State.access_chip _, State.access_frame _, State.keyed_chip _, State.keyed_frame _, State.mediaChanged_frame _, State.setFld_frame _, State.trainChannel_frame _]))) [State.access_chip _, State.access_frame _, State.keyed_chip _, State.keyed_frame _, State.mediaChanged_frame _, State.setFld_frame _, State.trainChannel_frame _]; done)
      | (simp (disch := (intros; simp (disch := (intros; (try dsimp only); (repeat' split) <;> (try simp [*, State.access_chip _, State.access_frame _, State.keyed_chip _, State.keyed_frame _, State.mediaChanged_frame _, State.setFld_frame _, State.trainChannel_frame _]))) [State.access_chip _, State.access_frame _, State.keyed_chip _, State.keyed_frame _, State.mediaChanged_frame _, State.setFld_frame _, State.trainChannel_frame _])) [State.access_chip _, State.access_frame _, State.keyed_chip _, State.keyed_frame _, State.mediaChanged_frame _, State.setFld_frame _, State.trainChannel_frame _]; done)

theorem execChannelIslandFault_frame (ch : Nat) (s : State) (u : State) : (after u (execChannelIslandFault ch
    s)).pending = s.pending ∧ (after u (execChannelIslandFault ch s)).armed = s.armed ∧ (after u (execChannelIslandFault
    ch s)).posted = s.posted ∧ (after u (execChannelIslandFault ch s)).late = s.late ∧ (after u (execChannelIslandFault
    ch s)).failedCores = s.failedCores ∧ (after u (execChannelIslandFault ch s)).mtf = s.mtf ∧ (after u
    (execChannelIslandFault ch s)).mat = s.mat ∧ (after u (execChannelIslandFault ch s)).mules = s.mules ∧ (after u
    (execChannelIslandFault ch s)).sdram = s.sdram ∧ (after u (execChannelIslandFault ch s)).ram = s.ram ∧ (after u
    (execChannelIslandFault ch s)).deferred = s.deferred ∧ (after u (execChannelIslandFault ch s)).herd = s.herd ∧
    (after u (execChannelIslandFault ch s)).map = s.map ∧ (after u (execChannelIslandFault ch s)).cmds = s.cmds ∧ (after
    u (execChannelIslandFault ch s)).boot = s.boot ∧ (after u (execChannelIslandFault ch s)).pins.resetLow =
    s.pins.resetLow ∧ (after u (execChannelIslandFault ch s)).pins.frozen = s.pins.frozen := by
  generalize ht : after u (execChannelIslandFault ch s) = t
  unfold execChannelIslandFault at ht
  try dsimp only at ht
  (repeat' split at ht) <;> (try simp only [after_answer, after_next] at ht) <;> (repeat' split at ht) <;> subst ht <;>
    simp [State.failChannel_frame _, State.isolate_frame _, State.mediaChanged_frame _]

theorem execCodewordDecode_frame (unit slot step : Nat) (decodes : Bool) (s : State) (u : State) : KeepsBase s
    (after u (execCodewordDecode unit slot step decodes s)) ∧ KeepsNotes s (after u (execCodewordDecode unit slot step
    decodes s)) ∧ KeepsSpace s (after u (execCodewordDecode unit slot step decodes s)) ∧ (after u (execCodewordDecode
    unit slot step decodes s)).map = s.map ∧ (after u (execCodewordDecode unit slot step decodes s)).place = s.place ∧
    KeepsHost s (after u (execCodewordDecode unit slot step decodes s)) ∧ KeepsChip s (after u (execCodewordDecode unit
    slot step decodes s)) := by
  generalize ht : after u (execCodewordDecode unit slot step decodes s) = t
  unfold execCodewordDecode at ht
  try dsimp only at ht
  (repeat' split at ht) <;> (try simp only [after_answer, after_next] at ht) <;> (repeat' split at ht) <;> subst ht <;>
    simp

theorem execCarrierPresenceChange_frame (c : Nat) (present : Bool) (s : State) (u : State) : KeepsBase s (after
    u (execCarrierPresenceChange c present s)) ∧ (after u (execCarrierPresenceChange c present s)).deferred = s.deferred
    ∧ (after u (execCarrierPresenceChange c present s)).herd = s.herd ∧ (after u (execCarrierPresenceChange c present
    s)).map = s.map ∧ (after u (execCarrierPresenceChange c present s)).cmds = s.cmds ∧ (after u
    (execCarrierPresenceChange c present s)).boot = s.boot ∧ (after u (execCarrierPresenceChange c present
    s)).pins.resetLow = s.pins.resetLow ∧ (after u (execCarrierPresenceChange c present s)).pins.frozen = s.pins.frozen
    := by
  generalize ht : after u (execCarrierPresenceChange c present s) = t
  unfold execCarrierPresenceChange at ht
  try dsimp only at ht
  (repeat' split at ht) <;> (try simp only [after_answer, after_next] at ht) <;> (repeat' split at ht) <;> subst ht <;>
    simp [State.depart_frame _, State.mediaChanged_frame _, State.powerUp_frame _, State.raiseRecord_frame _,
        State.setCarState_frame _, State.setFld_frame _]

theorem execCarrierButtonPress_frame (c : Nat) (s : State) (u : State) : KeepsBase s (after u
    (execCarrierButtonPress c s)) ∧ (after u (execCarrierButtonPress c s)).deferred = s.deferred ∧ (after u
    (execCarrierButtonPress c s)).herd = s.herd ∧ (after u (execCarrierButtonPress c s)).map = s.map ∧ (after u
    (execCarrierButtonPress c s)).cmds = s.cmds ∧ (after u (execCarrierButtonPress c s)).boot = s.boot ∧ (after u
    (execCarrierButtonPress c s)).pins.resetLow = s.pins.resetLow ∧ (after u (execCarrierButtonPress c s)).pins.frozen =
    s.pins.frozen := by
  generalize ht : after u (execCarrierButtonPress c s) = t
  unfold execCarrierButtonPress at ht
  try dsimp only at ht
  (repeat' split at ht) <;> (try simp only [after_answer, after_next] at ht) <;> (repeat' split at ht) <;> subst ht <;>
    simp [State.backOff_frame _, State.cancelRemoval_frame _, State.endLocate_frame _, State.mediaChanged_frame _,
        State.powerUp_frame _, State.raiseRecord_frame _, State.startRemoval_frame _]

theorem execCarrierRemove_frame (src : Source) (c : Nat) (s : State) (u : State) : KeepsBase s (after u
    (execCarrierRemove src c s)) ∧ (after u (execCarrierRemove src c s)).deferred = s.deferred ∧ (after u
    (execCarrierRemove src c s)).herd = s.herd ∧ (after u (execCarrierRemove src c s)).map = s.map ∧ (after u
    (execCarrierRemove src c s)).cmds = s.cmds ∧ (after u (execCarrierRemove src c s)).pools = s.pools ∧ (after u
    (execCarrierRemove src c s)).boot = s.boot ∧ (after u (execCarrierRemove src c s)).pins.resetLow = s.pins.resetLow ∧
    (after u (execCarrierRemove src c s)).pins.frozen = s.pins.frozen := by
  generalize ht : after u (execCarrierRemove src c s) = t
  unfold execCarrierRemove State.carCommand at ht
  try dsimp only at ht
  (repeat' split at ht) <;> (try simp only [after_answer, after_next] at ht) <;> (repeat' split at ht) <;> subst ht <;>
    simp (disch := (intros; (try dsimp only); (repeat' split) <;> (try simp [*, State.access_chip _, State.access_frame _, State.endLocate_frame _, State.mediaChanged_frame _, State.startRemoval_frame _]))) [State.access_chip _, State.access_frame _, State.endLocate_frame _, State.mediaChanged_frame _, State.startRemoval_frame _]

theorem execCarrierCancel_frame (src : Source) (c : Nat) (s : State) (u : State) : KeepsBase s (after u
    (execCarrierCancel src c s)) ∧ (after u (execCarrierCancel src c s)).deferred = s.deferred ∧ (after u
    (execCarrierCancel src c s)).herd = s.herd ∧ (after u (execCarrierCancel src c s)).map = s.map ∧ (after u
    (execCarrierCancel src c s)).cmds = s.cmds ∧ (after u (execCarrierCancel src c s)).boot = s.boot ∧ (after u
    (execCarrierCancel src c s)).pins.resetLow = s.pins.resetLow ∧ (after u (execCarrierCancel src c s)).pins.frozen =
    s.pins.frozen := by
  generalize ht : after u (execCarrierCancel src c s) = t
  unfold execCarrierCancel State.carCommand at ht
  try dsimp only at ht
  (repeat' split at ht) <;> (try simp only [after_answer, after_next] at ht) <;> (repeat' split at ht) <;> subst ht <;>
    simp (disch := (intros; (try dsimp only); (repeat' split) <;> (try simp [*, State.access_chip _, State.access_frame _, State.backOff_frame _, State.cancelRemoval_frame _, State.endLocate_frame _, State.mediaChanged_frame _]))) [State.access_chip _, State.access_frame _, State.backOff_frame _, State.cancelRemoval_frame _, State.endLocate_frame _, State.mediaChanged_frame _]

theorem execCarrierInsert_frame (src : Source) (c : Nat) (s : State) (u : State) : KeepsBase s (after u
    (execCarrierInsert src c s)) ∧ (after u (execCarrierInsert src c s)).deferred = s.deferred ∧ (after u
    (execCarrierInsert src c s)).herd = s.herd ∧ (after u (execCarrierInsert src c s)).map = s.map ∧ (after u
    (execCarrierInsert src c s)).cmds = s.cmds ∧ (after u (execCarrierInsert src c s)).pools = s.pools ∧ (after u
    (execCarrierInsert src c s)).boot = s.boot ∧ (after u (execCarrierInsert src c s)).pins.resetLow = s.pins.resetLow ∧
    (after u (execCarrierInsert src c s)).pins.frozen = s.pins.frozen := by
  generalize ht : after u (execCarrierInsert src c s) = t
  unfold execCarrierInsert State.carCommand at ht
  try dsimp only at ht
  (repeat' split at ht) <;> (try simp only [after_answer, after_next] at ht) <;> (repeat' split at ht) <;> subst ht <;>
    simp (disch := (intros; (try dsimp only); (repeat' split) <;> (try simp [*, State.access_chip _, State.access_frame _, State.endLocate_frame _, State.mediaChanged_frame _, State.powerUp_frame _]))) [State.access_chip _, State.access_frame _, State.endLocate_frame _, State.mediaChanged_frame _, State.powerUp_frame _]

theorem execCarrierLocate_frame (src : Source) (c : Nat) (s : State) (u : State) : KeepsBase s (after u
    (execCarrierLocate src c s)) ∧ (after u (execCarrierLocate src c s)).deferred = s.deferred ∧ (after u
    (execCarrierLocate src c s)).herd = s.herd ∧ (after u (execCarrierLocate src c s)).map = s.map ∧ (after u
    (execCarrierLocate src c s)).cmds = s.cmds ∧ (after u (execCarrierLocate src c s)).pools = s.pools ∧ (after u
    (execCarrierLocate src c s)).boot = s.boot ∧ (after u (execCarrierLocate src c s)).pins.resetLow = s.pins.resetLow ∧
    (after u (execCarrierLocate src c s)).pins.frozen = s.pins.frozen := by
  generalize ht : after u (execCarrierLocate src c s) = t
  unfold execCarrierLocate State.carCommand at ht
  try dsimp only at ht
  (repeat' split at ht) <;> (try simp only [after_answer, after_next] at ht) <;> (repeat' split at ht) <;> subst ht <;>
    simp (disch := (intros; (try dsimp only); (repeat' split) <;> (try simp [*, State.access_chip _, State.access_frame _, State.endLocate_frame _, State.mediaChanged_frame _, State.setCarrier_frame _, State.setFld_frame _]))) [State.access_chip _, State.access_frame _, State.endLocate_frame _, State.mediaChanged_frame _, State.setCarrier_frame _, State.setFld_frame _]

theorem execCarrierPowerDelay_frame (c : Nat) (s : State) (u : State) : KeepsBase s (after u
    (execCarrierPowerDelay c s)) ∧ (after u (execCarrierPowerDelay c s)).free = s.free ∧ (after u (execCarrierPowerDelay
    c s)).out = s.out ∧ (after u (execCarrierPowerDelay c s)).stat = s.stat ∧ (after u (execCarrierPowerDelay c
    s)).evlog = s.evlog ∧ KeepsSpace s (after u (execCarrierPowerDelay c s)) ∧ KeepsStore s (after u
    (execCarrierPowerDelay c s)) ∧ KeepsHost s (after u (execCarrierPowerDelay c s)) ∧ KeepsChip s (after u
    (execCarrierPowerDelay c s)) := by
  generalize ht : after u (execCarrierPowerDelay c s) = t
  unfold execCarrierPowerDelay at ht
  try dsimp only at ht
  (repeat' split at ht) <;> (try simp only [after_answer, after_next] at ht) <;> (repeat' split at ht) <;> subst ht <;>
    simp [State.setCarState_frame _]

theorem execCarrierDiscoveryDone_frame (c : Nat) (dies : List DieParams) (record : CarrierRecord) (dieHash :
    Word) (s : State) (u : State) : KeepsBase s (after u (execCarrierDiscoveryDone c dies record dieHash s)) ∧ (after u
    (execCarrierDiscoveryDone c dies record dieHash s)).deferred = s.deferred ∧ (after u (execCarrierDiscoveryDone c
    dies record dieHash s)).herd = s.herd ∧ (after u (execCarrierDiscoveryDone c dies record dieHash s)).map = s.map ∧
    (after u (execCarrierDiscoveryDone c dies record dieHash s)).cmds = s.cmds ∧ (after u (execCarrierDiscoveryDone c
    dies record dieHash s)).boot = s.boot ∧ (after u (execCarrierDiscoveryDone c dies record dieHash s)).pins.resetLow =
    s.pins.resetLow ∧ (after u (execCarrierDiscoveryDone c dies record dieHash s)).pins.frozen = s.pins.frozen := by
  generalize ht : after u (execCarrierDiscoveryDone c dies record dieHash s) = t
  unfold execCarrierDiscoveryDone at ht
  try dsimp only at ht
  (repeat' split at ht) <;> (try simp only [after_answer, after_next] at ht) <;> (repeat' split at ht) <;> subst ht <;>
    simp [State.beginReconcile_frame _, State.mediaChanged_frame _, State.setCarState_frame _, State.setCarrier_frame _,
        State.setFld_frame _, State.takeChannel_frame _]

theorem execCarrierReconcileDone_frame (c : Nat) (currentBands : List Nat) (s : State) (u : State) : KeepsBase s
    (after u (execCarrierReconcileDone c currentBands s)) ∧ (after u (execCarrierReconcileDone c currentBands
    s)).deferred = s.deferred ∧ (after u (execCarrierReconcileDone c currentBands s)).herd = s.herd ∧ (after u
    (execCarrierReconcileDone c currentBands s)).map = s.map ∧ (after u (execCarrierReconcileDone c currentBands
    s)).cmds = s.cmds ∧ (after u (execCarrierReconcileDone c currentBands s)).pools = s.pools ∧ (after u
    (execCarrierReconcileDone c currentBands s)).boot = s.boot ∧ (after u (execCarrierReconcileDone c currentBands
    s)).pins.resetLow = s.pins.resetLow ∧ (after u (execCarrierReconcileDone c currentBands s)).pins.frozen =
    s.pins.frozen := by
  generalize ht : after u (execCarrierReconcileDone c currentBands s) = t
  unfold execCarrierReconcileDone at ht
  try dsimp only at ht
  (repeat' split at ht) <;> (try simp only [after_answer, after_next] at ht) <;> (repeat' split at ht) <;> subst ht <;>
    simp [State.advanceEpoch_frame _, State.clearFailedOn_frame _, State.intoService_frame _, State.mediaChanged_frame
        _, State.raiseRecord_frame _, State.setCarrier_frame _, State.setFld_frame _]

theorem execEvacuationCopy_frame (c : Nat) (s : State) (u : State) : KeepsBase s (after u (execEvacuationCopy c
    s)) ∧ (after u (execEvacuationCopy c s)).deferred = s.deferred ∧ (after u (execEvacuationCopy c s)).power = s.power
    ∧ (after u (execEvacuationCopy c s)).herd = s.herd ∧ (after u (execEvacuationCopy c s)).cmds = s.cmds ∧ (after u
    (execEvacuationCopy c s)).pools = s.pools ∧ (after u (execEvacuationCopy c s)).boot = s.boot ∧ (after u
    (execEvacuationCopy c s)).pins.resetLow = s.pins.resetLow ∧ (after u (execEvacuationCopy c s)).pins.frozen =
    s.pins.frozen := by
  generalize ht : after u (execEvacuationCopy c s) = t
  unfold execEvacuationCopy at ht
  try dsimp only at ht
  (repeat' split at ht) <;> (try simp only [after_answer, after_next] at ht) <;> (repeat' split at ht) <;> subst ht <;>
    simp [State.evacuate_frame _]

theorem execEvacuationDone_frame (c : Nat) (s : State) (u : State) : KeepsBase s (after u (execEvacuationDone c
    s)) ∧ (after u (execEvacuationDone c s)).deferred = s.deferred ∧ (after u (execEvacuationDone c s)).herd = s.herd ∧
    (after u (execEvacuationDone c s)).map = s.map ∧ (after u (execEvacuationDone c s)).media = s.media ∧ (after u
    (execEvacuationDone c s)).cmds = s.cmds ∧ (after u (execEvacuationDone c s)).pools = s.pools ∧ (after u
    (execEvacuationDone c s)).boot = s.boot ∧ (after u (execEvacuationDone c s)).pins.resetLow = s.pins.resetLow ∧
    (after u (execEvacuationDone c s)).pins.frozen = s.pins.frozen := by
  generalize ht : after u (execEvacuationDone c s) = t
  unfold execEvacuationDone at ht
  try dsimp only at ht
  (repeat' split at ht) <;> (try simp only [after_answer, after_next] at ht) <;> (repeat' split at ht) <;> subst ht <;>
    simp [State.mediaChanged_frame _, State.setCarState_frame _]

theorem execCarrierQuiesceDone_frame (c : Nat) (s : State) (u : State) : KeepsBase s (after u
    (execCarrierQuiesceDone c s)) ∧ (after u (execCarrierQuiesceDone c s)).deferred = s.deferred ∧ (after u
    (execCarrierQuiesceDone c s)).herd = s.herd ∧ (after u (execCarrierQuiesceDone c s)).map = s.map ∧ (after u
    (execCarrierQuiesceDone c s)).cmds = s.cmds ∧ (after u (execCarrierQuiesceDone c s)).boot = s.boot ∧ (after u
    (execCarrierQuiesceDone c s)).pins.resetLow = s.pins.resetLow ∧ (after u (execCarrierQuiesceDone c s)).pins.frozen =
    s.pins.frozen := by
  generalize ht : after u (execCarrierQuiesceDone c s) = t
  unfold execCarrierQuiesceDone at ht
  try dsimp only at ht
  (repeat' split at ht) <;> (try simp only [after_answer, after_next] at ht) <;> (repeat' split at ht) <;> subst ht <;>
    simp [State.advanceEpoch_frame _, State.leaveService_frame _, State.mediaChanged_frame _, State.raiseRecord_frame _,
        State.setCarState_frame _, State.switchOff_frame _, State.writeRecord_frame _]

theorem execRefuseBlinkExpire_frame (c : Nat) (s : State) (u : State) : KeepsBase s (after u
    (execRefuseBlinkExpire c s)) ∧ (after u (execRefuseBlinkExpire c s)).free = s.free ∧ (after u (execRefuseBlinkExpire
    c s)).out = s.out ∧ (after u (execRefuseBlinkExpire c s)).stat = s.stat ∧ (after u (execRefuseBlinkExpire c
    s)).evlog = s.evlog ∧ KeepsSpace s (after u (execRefuseBlinkExpire c s)) ∧ KeepsStore s (after u
    (execRefuseBlinkExpire c s)) ∧ KeepsHost s (after u (execRefuseBlinkExpire c s)) ∧ KeepsChip s (after u
    (execRefuseBlinkExpire c s)) := by
  generalize ht : after u (execRefuseBlinkExpire c s) = t
  unfold execRefuseBlinkExpire at ht
  try dsimp only at ht
  (repeat' split at ht) <;> (try simp only [after_answer, after_next] at ht) <;> (repeat' split at ht) <;> subst ht <;>
    simp [State.setCarState_frame _]

theorem execDepartureRecordExpire_frame (c : Nat) (s : State) (u : State) : KeepsBase s (after u
    (execDepartureRecordExpire c s)) ∧ (after u (execDepartureRecordExpire c s)).free = s.free ∧ (after u
    (execDepartureRecordExpire c s)).out = s.out ∧ (after u (execDepartureRecordExpire c s)).stat = s.stat ∧ (after u
    (execDepartureRecordExpire c s)).evlog = s.evlog ∧ KeepsSpace s (after u (execDepartureRecordExpire c s)) ∧ (after u
    (execDepartureRecordExpire c s)).map = s.map ∧ (after u (execDepartureRecordExpire c s)).place = s.place ∧ KeepsHost
    s (after u (execDepartureRecordExpire c s)) ∧ KeepsChip s (after u (execDepartureRecordExpire c s)) := by
  generalize ht : after u (execDepartureRecordExpire c s) = t
  unfold execDepartureRecordExpire at ht
  try dsimp only at ht
  (repeat' split at ht) <;> (try simp only [after_answer, after_next] at ht) <;> (repeat' split at ht) <;> subst ht <;>
    simp [State.setCarrier_frame _, State.setReg_frame _]

theorem execPowerFail_frame (s : State) (u : State) : KeepsBase s (after u (execPowerFail s)) ∧ (after u
    (execPowerFail s)).nss = s.nss ∧ (after u (execPowerFail s)).deferred = s.deferred ∧ (after u (execPowerFail
    s)).herd = s.herd ∧ (after u (execPowerFail s)).map = s.map ∧ (after u (execPowerFail s)).place = s.place ∧ (after u
    (execPowerFail s)).cmds = s.cmds ∧ (after u (execPowerFail s)).boot.fuses = s.boot.fuses ∧ (after u (execPowerFail
    s)).pins.resetLow = s.pins.resetLow ∧ (after u (execPowerFail s)).pins.frozen = s.pins.frozen := by
  generalize ht : after u (execPowerFail s) = t
  unfold execPowerFail at ht
  try dsimp only at ht
  (repeat' split at ht) <;> (try simp only [after_answer, after_next] at ht) <;> (repeat' split at ht) <;> subst ht <;>
    simp [State.enterHoldup_chip _, State.enterHoldup_frame _]

theorem execBankSample_frame (code : BitVec 10) (s : State) (u : State) : KeepsBase s (after u (execBankSample
    code s)) ∧ (after u (execBankSample code s)).nss = s.nss ∧ (after u (execBankSample code s)).deferred = s.deferred ∧
    (after u (execBankSample code s)).herd = s.herd ∧ (after u (execBankSample code s)).map = s.map ∧ (after u
    (execBankSample code s)).place = s.place ∧ (after u (execBankSample code s)).cmds = s.cmds ∧ (after u
    (execBankSample code s)).boot.fuses = s.boot.fuses ∧ (after u (execBankSample code s)).pins.resetLow =
    s.pins.resetLow ∧ (after u (execBankSample code s)).pins.frozen = s.pins.frozen := by
  generalize ht : after u (execBankSample code s) = t
  unfold execBankSample at ht
  try dsimp only at ht
  (repeat' split at ht) <;> (try simp only [after_answer, after_next] at ht) <;> (repeat' split at ht) <;> subst ht <;>
    simp [State.enterHoldup_chip _, State.enterHoldup_frame _, State.takeSample_frame _]

theorem execEnergyRecompute_frame (s : State) (u : State) : KeepsBase s (after u (execEnergyRecompute s)) ∧
    KeepsSpace s (after u (execEnergyRecompute s)) ∧ KeepsStore s (after u (execEnergyRecompute s)) ∧ (after u
    (execEnergyRecompute s)).cmds = s.cmds ∧ (after u (execEnergyRecompute s)).pools = s.pools ∧ (after u
    (execEnergyRecompute s)).boot = s.boot ∧ (after u (execEnergyRecompute s)).pins.resetLow = s.pins.resetLow ∧ (after
    u (execEnergyRecompute s)).pins.frozen = s.pins.frozen := by
  generalize ht : after u (execEnergyRecompute s) = t
  unfold execEnergyRecompute at ht
  try dsimp only at ht
  (repeat' split at ht) <;> (try simp only [after_answer, after_next] at ht) <;> (repeat' split at ht) <;> subst ht <;>
    simp [State.recompute_frame _]

theorem execHorizonWrite_frame (s : State) (u : State) : KeepsBase s (after u (execHorizonWrite s)) ∧ KeepsNotes
    s (after u (execHorizonWrite s)) ∧ (after u (execHorizonWrite s)).nss = s.nss ∧ (after u (execHorizonWrite
    s)).deferred = s.deferred ∧ (after u (execHorizonWrite s)).herd = s.herd ∧ KeepsStore s (after u (execHorizonWrite
    s)) ∧ KeepsHost s (after u (execHorizonWrite s)) ∧ KeepsChip s (after u (execHorizonWrite s)) := by
  generalize ht : after u (execHorizonWrite s) = t
  unfold execHorizonWrite at ht
  try dsimp only at ht
  (repeat' split at ht) <;> (try simp only [after_answer, after_next] at ht) <;> (repeat' split at ht) <;> subst ht <;>
    simp [State.writeHorizon_frame _]

theorem execFlushWritebackDone_frame (s : State) (u : State) : KeepsBase s (after u (execFlushWritebackDone s))
    ∧ KeepsNotes s (after u (execFlushWritebackDone s)) ∧ (after u (execFlushWritebackDone s)).nss = s.nss ∧ (after u
    (execFlushWritebackDone s)).deferred = s.deferred ∧ (after u (execFlushWritebackDone s)).herd = s.herd ∧ (after u
    (execFlushWritebackDone s)).place = s.place ∧ (after u (execFlushWritebackDone s)).media = s.media ∧ KeepsHost s
    (after u (execFlushWritebackDone s)) ∧ KeepsChip s (after u (execFlushWritebackDone s)) := by
  generalize ht : after u (execFlushWritebackDone s) = t
  unfold execFlushWritebackDone at ht
  try dsimp only at ht
  (repeat' split at ht) <;> (try simp only [after_answer, after_next] at ht) <;> (repeat' split at ht) <;> subst ht <;>
    simp [State.fixSet_frame _]

theorem execFlushStripeDone_frame (ok : Bool) (s : State) (u : State) : KeepsBase s (after u
    (execFlushStripeDone ok s)) ∧ KeepsNotes s (after u (execFlushStripeDone ok s)) ∧ (after u (execFlushStripeDone ok
    s)).nss = s.nss ∧ (after u (execFlushStripeDone ok s)).deferred = s.deferred ∧ (after u (execFlushStripeDone ok
    s)).herd = s.herd ∧ (after u (execFlushStripeDone ok s)).map = s.map ∧ (after u (execFlushStripeDone ok s)).media =
    s.media ∧ KeepsHost s (after u (execFlushStripeDone ok s)) ∧ KeepsChip s (after u (execFlushStripeDone ok s)) := by
  generalize ht : after u (execFlushStripeDone ok s) = t
  unfold execFlushStripeDone at ht
  try dsimp only at ht
  (repeat' split at ht) <;> (try simp only [after_answer, after_next] at ht) <;> (repeat' split at ht) <;> subst ht <;>
    simp

theorem execFlushComplete_frame (us : Nat) (s : State) (u : State) : KeepsBase s (after u (execFlushComplete us
    s)) ∧ KeepsNotes s (after u (execFlushComplete us s)) ∧ (after u (execFlushComplete us s)).nss = s.nss ∧ (after u
    (execFlushComplete us s)).deferred = s.deferred ∧ (after u (execFlushComplete us s)).herd = s.herd ∧ KeepsStore s
    (after u (execFlushComplete us s)) ∧ KeepsHost s (after u (execFlushComplete us s)) ∧ (after u (execFlushComplete us
    s)).boot = s.boot ∧ (after u (execFlushComplete us s)).pins.resetLow = s.pins.resetLow ∧ (after u (execFlushComplete
    us s)).pins.frozen = s.pins.frozen := by
  generalize ht : after u (execFlushComplete us s) = t
  unfold execFlushComplete at ht
  try dsimp only at ht
  (repeat' split at ht) <;> (try simp only [after_answer, after_next] at ht) <;> (repeat' split at ht) <;> subst ht <;>
    simp [State.endFlush_frame _]

theorem execBpmAllocRequest_frame (src : Source) (value : Word) (s : State) (u : State) : KeepsBase s (after u
    (execBpmAllocRequest src value s)) ∧ KeepsSpace s (after u (execBpmAllocRequest src value s)) ∧ KeepsStore s (after
    u (execBpmAllocRequest src value s)) ∧ (after u (execBpmAllocRequest src value s)).cmds = s.cmds ∧ (after u
    (execBpmAllocRequest src value s)).hosts = s.hosts ∧ KeepsChip s (after u (execBpmAllocRequest src value s)) := by
  generalize ht : after u (execBpmAllocRequest src value s) = t
  unfold execBpmAllocRequest at ht
  try dsimp only at ht
  (repeat' split at ht) <;> (try simp only [after_answer, after_next] at ht) <;> (repeat' split at ht) <;> subst ht <;>
    simp [State.access_frame _, State.allocate_frame _, State.raise_frame _, State.setAllocResp_frame _,
        State.setReg_frame _]

theorem execBpmRelease_frame (src : Source) (value : DWord) (s : State) (u : State) : KeepsBase s (after u
    (execBpmRelease src value s)) ∧ KeepsSpace s (after u (execBpmRelease src value s)) ∧ KeepsStore s (after u
    (execBpmRelease src value s)) ∧ (after u (execBpmRelease src value s)).cmds = s.cmds ∧ (after u (execBpmRelease src
    value s)).hosts = s.hosts ∧ KeepsChip s (after u (execBpmRelease src value s)) := by
  generalize ht : after u (execBpmRelease src value s) = t
  unfold execBpmRelease at ht
  try dsimp only at ht
  (repeat' split at ht) <;> (try simp only [after_answer, after_next] at ht) <;> (repeat' split at ht) <;> subst ht <;>
    simp (disch := (intros; (try dsimp only); (repeat' split) <;> (try simp [*, State.access_frame _, State.freeBuf_frame _, State.raiseRecord_frame _]))) [State.access_frame _, State.freeBuf_frame _, State.raiseRecord_frame _]

theorem execAllocGrant_frame (pool : Nat) (s : State) (u : State) : KeepsBase s (after u (execAllocGrant pool
    s)) ∧ (after u (execAllocGrant pool s)).free = s.free ∧ (after u (execAllocGrant pool s)).regs = s.regs ∧ (after u
    (execAllocGrant pool s)).evlog = s.evlog ∧ KeepsSpace s (after u (execAllocGrant pool s)) ∧ KeepsStore s (after u
    (execAllocGrant pool s)) ∧ (after u (execAllocGrant pool s)).cmds = s.cmds ∧ (after u (execAllocGrant pool s)).hosts
    = s.hosts ∧ KeepsChip s (after u (execAllocGrant pool s)) := by
  generalize ht : after u (execAllocGrant pool s) = t
  unfold execAllocGrant at ht
  try dsimp only at ht
  (repeat' split at ht) <;> (try simp only [after_answer, after_next] at ht) <;> (repeat' split at ht) <;> subst ht <;>
    simp [State.grantBuf_frame _]

theorem execMatLookup_frame (src : Source) (addr : Nat) (s : State) (u : State) : (after u (execMatLookup src
    addr s)).pending = s.pending ∧ (after u (execMatLookup src addr s)).armed = s.armed ∧ (after u (execMatLookup src
    addr s)).posted = s.posted ∧ (after u (execMatLookup src addr s)).late = s.late ∧ (after u (execMatLookup src addr
    s)).isolated = s.isolated ∧ (after u (execMatLookup src addr s)).failedCores = s.failedCores ∧ (after u
    (execMatLookup src addr s)).mtf = s.mtf ∧ (after u (execMatLookup src addr s)).mules = s.mules ∧ (after u
    (execMatLookup src addr s)).sdram = s.sdram ∧ (after u (execMatLookup src addr s)).ram = s.ram ∧ KeepsSpace s (after
    u (execMatLookup src addr s)) ∧ KeepsStore s (after u (execMatLookup src addr s)) ∧ KeepsHost s (after u
    (execMatLookup src addr s)) ∧ KeepsChip s (after u (execMatLookup src addr s)) := by
  generalize ht : after u (execMatLookup src addr s) = t
  unfold execMatLookup at ht
  try dsimp only at ht
  (repeat' split at ht) <;> (try simp only [after_answer, after_next] at ht) <;> (repeat' split at ht) <;> subst ht <;>
    simp (disch := (intros; (try dsimp only); (repeat' split) <;> (try simp [*, State.matCmd_frame _, State.setMatResp_frame _]))) [State.matCmd_frame _, State.setMatResp_frame _]

theorem execMatRead_frame (src : Source) (addr : Nat) (s : State) (u : State) : (after u (execMatRead src addr
    s)).pending = s.pending ∧ (after u (execMatRead src addr s)).armed = s.armed ∧ (after u (execMatRead src addr
    s)).posted = s.posted ∧ (after u (execMatRead src addr s)).late = s.late ∧ (after u (execMatRead src addr
    s)).isolated = s.isolated ∧ (after u (execMatRead src addr s)).failedCores = s.failedCores ∧ (after u (execMatRead
    src addr s)).mtf = s.mtf ∧ (after u (execMatRead src addr s)).mules = s.mules ∧ (after u (execMatRead src addr
    s)).sdram = s.sdram ∧ (after u (execMatRead src addr s)).ram = s.ram ∧ KeepsSpace s (after u (execMatRead src addr
    s)) ∧ KeepsStore s (after u (execMatRead src addr s)) ∧ KeepsHost s (after u (execMatRead src addr s)) ∧ KeepsChip s
    (after u (execMatRead src addr s)) := by
  generalize ht : after u (execMatRead src addr s) = t
  unfold execMatRead at ht
  try dsimp only at ht
  (repeat' split at ht) <;> (try simp only [after_answer, after_next] at ht) <;> (repeat' split at ht) <;> subst ht <;>
    simp [State.loadMat_frame _, State.matAt_frame _, State.matCmd_frame _, State.setMatResp_frame _]

theorem execMatWrite_frame (src : Source) (addr : Nat) (s : State) (u : State) : (after u (execMatWrite src addr
    s)).pending = s.pending ∧ (after u (execMatWrite src addr s)).armed = s.armed ∧ (after u (execMatWrite src addr
    s)).posted = s.posted ∧ (after u (execMatWrite src addr s)).late = s.late ∧ (after u (execMatWrite src addr
    s)).isolated = s.isolated ∧ (after u (execMatWrite src addr s)).failedCores = s.failedCores ∧ (after u (execMatWrite
    src addr s)).mtf = s.mtf ∧ (after u (execMatWrite src addr s)).mules = s.mules ∧ (after u (execMatWrite src addr
    s)).sdram = s.sdram ∧ (after u (execMatWrite src addr s)).ram = s.ram ∧ KeepsSpace s (after u (execMatWrite src addr
    s)) ∧ KeepsStore s (after u (execMatWrite src addr s)) ∧ KeepsHost s (after u (execMatWrite src addr s)) ∧ KeepsChip
    s (after u (execMatWrite src addr s)) := by
  generalize ht : after u (execMatWrite src addr s) = t
  unfold execMatWrite at ht
  try dsimp only at ht
  (repeat' split at ht) <;> (try simp only [after_answer, after_next] at ht) <;> (repeat' split at ht) <;> subst ht <;>
    simp [State.matCmd_frame _, State.setMatResp_frame _, State.setMat_frame _]

theorem execMatInsert_frame (src : Source) (addr : Nat) (s : State) (u : State) : (after u (execMatInsert src
    addr s)).pending = s.pending ∧ (after u (execMatInsert src addr s)).armed = s.armed ∧ (after u (execMatInsert src
    addr s)).posted = s.posted ∧ (after u (execMatInsert src addr s)).late = s.late ∧ (after u (execMatInsert src addr
    s)).isolated = s.isolated ∧ (after u (execMatInsert src addr s)).failedCores = s.failedCores ∧ (after u
    (execMatInsert src addr s)).mtf = s.mtf ∧ (after u (execMatInsert src addr s)).mules = s.mules ∧ (after u
    (execMatInsert src addr s)).sdram = s.sdram ∧ (after u (execMatInsert src addr s)).ram = s.ram ∧ KeepsSpace s (after
    u (execMatInsert src addr s)) ∧ KeepsStore s (after u (execMatInsert src addr s)) ∧ KeepsHost s (after u
    (execMatInsert src addr s)) ∧ KeepsChip s (after u (execMatInsert src addr s)) := by
  generalize ht : after u (execMatInsert src addr s) = t
  unfold execMatInsert at ht
  try dsimp only at ht
  (repeat' split at ht) <;> (try simp only [after_answer, after_next] at ht) <;> (repeat' split at ht) <;> subst ht <;>
    simp [State.matCmd_frame _, State.matRefuse_frame _, State.queueSlide_frame _]

theorem execMatDelete_frame (src : Source) (addr : Nat) (s : State) (u : State) : (after u (execMatDelete src
    addr s)).pending = s.pending ∧ (after u (execMatDelete src addr s)).armed = s.armed ∧ (after u (execMatDelete src
    addr s)).posted = s.posted ∧ (after u (execMatDelete src addr s)).late = s.late ∧ (after u (execMatDelete src addr
    s)).isolated = s.isolated ∧ (after u (execMatDelete src addr s)).failedCores = s.failedCores ∧ (after u
    (execMatDelete src addr s)).mtf = s.mtf ∧ (after u (execMatDelete src addr s)).mules = s.mules ∧ (after u
    (execMatDelete src addr s)).sdram = s.sdram ∧ (after u (execMatDelete src addr s)).ram = s.ram ∧ KeepsSpace s (after
    u (execMatDelete src addr s)) ∧ KeepsStore s (after u (execMatDelete src addr s)) ∧ KeepsHost s (after u
    (execMatDelete src addr s)) ∧ KeepsChip s (after u (execMatDelete src addr s)) := by
  generalize ht : after u (execMatDelete src addr s) = t
  unfold execMatDelete at ht
  try dsimp only at ht
  (repeat' split at ht) <;> (try simp only [after_answer, after_next] at ht) <;> (repeat' split at ht) <;> subst ht <;>
    simp [State.matCmd_frame _, State.queueSlide_frame _]

theorem execMatInvalidate_frame (src : Source) (addr : Nat) (s : State) (u : State) : (after u
    (execMatInvalidate src addr s)).pending = s.pending ∧ (after u (execMatInvalidate src addr s)).armed = s.armed ∧
    (after u (execMatInvalidate src addr s)).posted = s.posted ∧ (after u (execMatInvalidate src addr s)).late = s.late
    ∧ (after u (execMatInvalidate src addr s)).isolated = s.isolated ∧ (after u (execMatInvalidate src addr
    s)).failedCores = s.failedCores ∧ (after u (execMatInvalidate src addr s)).mtf = s.mtf ∧ (after u (execMatInvalidate
    src addr s)).mules = s.mules ∧ (after u (execMatInvalidate src addr s)).sdram = s.sdram ∧ (after u
    (execMatInvalidate src addr s)).ram = s.ram ∧ KeepsSpace s (after u (execMatInvalidate src addr s)) ∧ KeepsStore s
    (after u (execMatInvalidate src addr s)) ∧ KeepsHost s (after u (execMatInvalidate src addr s)) ∧ KeepsChip s (after
    u (execMatInvalidate src addr s)) := by
  generalize ht : after u (execMatInvalidate src addr s) = t
  unfold execMatInvalidate at ht
  try dsimp only at ht
  (repeat' split at ht) <;> (try simp only [after_answer, after_next] at ht) <;> (repeat' split at ht) <;> subst ht <;>
    simp [State.matCmd_frame _, State.setMatResp_frame _, State.setMat_frame _]

theorem execMatchSlideDone_frame (partition : Nat) (s : State) (u : State) : (after u (execMatchSlideDone
    partition s)).pending = s.pending ∧ (after u (execMatchSlideDone partition s)).armed = s.armed ∧ (after u
    (execMatchSlideDone partition s)).posted = s.posted ∧ (after u (execMatchSlideDone partition s)).late = s.late ∧
    (after u (execMatchSlideDone partition s)).isolated = s.isolated ∧ (after u (execMatchSlideDone partition
    s)).failedCores = s.failedCores ∧ (after u (execMatchSlideDone partition s)).mtf = s.mtf ∧ (after u
    (execMatchSlideDone partition s)).mules = s.mules ∧ (after u (execMatchSlideDone partition s)).sdram = s.sdram ∧
    (after u (execMatchSlideDone partition s)).ram = s.ram ∧ (after u (execMatchSlideDone partition s)).free = s.free ∧
    (after u (execMatchSlideDone partition s)).regs = s.regs ∧ (after u (execMatchSlideDone partition s)).evlog =
    s.evlog ∧ KeepsSpace s (after u (execMatchSlideDone partition s)) ∧ KeepsStore s (after u (execMatchSlideDone
    partition s)) ∧ KeepsHost s (after u (execMatchSlideDone partition s)) ∧ KeepsChip s (after u (execMatchSlideDone
    partition s)) := by
  generalize ht : after u (execMatchSlideDone partition s) = t
  unfold execMatchSlideDone at ht
  try dsimp only at ht
  (repeat' split at ht) <;> (try simp only [after_answer, after_next] at ht) <;> (repeat' split at ht) <;> subst ht <;>
    simp [State.matRefuse_frame _, State.setMatResp_frame _, State.setMat_frame _]

theorem execMatchScan_frame (bad : List Nat) (late : Bool) (s : State) (u : State) : (after u (execMatchScan bad
    late s)).pending = s.pending ∧ (after u (execMatchScan bad late s)).armed = s.armed ∧ (after u (execMatchScan bad
    late s)).posted = s.posted ∧ (after u (execMatchScan bad late s)).late = s.late ∧ (after u (execMatchScan bad late
    s)).isolated = s.isolated ∧ (after u (execMatchScan bad late s)).failedCores = s.failedCores ∧ (after u
    (execMatchScan bad late s)).mtf = s.mtf ∧ (after u (execMatchScan bad late s)).mules = s.mules ∧ (after u
    (execMatchScan bad late s)).sdram = s.sdram ∧ (after u (execMatchScan bad late s)).ram = s.ram ∧ KeepsSpace s (after
    u (execMatchScan bad late s)) ∧ KeepsStore s (after u (execMatchScan bad late s)) ∧ KeepsHost s (after u
    (execMatchScan bad late s)) ∧ KeepsChip s (after u (execMatchScan bad late s)) := by
  generalize ht : after u (execMatchScan bad late s) = t
  unfold execMatchScan at ht
  try dsimp only at ht
  (repeat' split at ht) <;> (try simp only [after_answer, after_next] at ht) <;> (repeat' split at ht) <;> subst ht <;>
    simp [State.raise_frame _, State.repairMat_frame _]

theorem execMuleRingEnable_frame (src : Source) (ring : Nat) (s : State) (u : State) : (after u
    (execMuleRingEnable src ring s)).pending = s.pending ∧ (after u (execMuleRingEnable src ring s)).armed = s.armed ∧
    (after u (execMuleRingEnable src ring s)).posted = s.posted ∧ (after u (execMuleRingEnable src ring s)).late =
    s.late ∧ (after u (execMuleRingEnable src ring s)).isolated = s.isolated ∧ (after u (execMuleRingEnable src ring
    s)).failedCores = s.failedCores ∧ (after u (execMuleRingEnable src ring s)).mtf = s.mtf ∧ (after u
    (execMuleRingEnable src ring s)).mat = s.mat ∧ (after u (execMuleRingEnable src ring s)).sdram = s.sdram ∧ (after u
    (execMuleRingEnable src ring s)).ram = s.ram ∧ KeepsSpace s (after u (execMuleRingEnable src ring s)) ∧ KeepsStore s
    (after u (execMuleRingEnable src ring s)) ∧ KeepsHost s (after u (execMuleRingEnable src ring s)) ∧ KeepsChip s
    (after u (execMuleRingEnable src ring s)) := by
  generalize ht : after u (execMuleRingEnable src ring s) = t
  unfold execMuleRingEnable State.ringWrite at ht
  try dsimp only at ht
  (repeat' split at ht) <;> (try simp only [after_answer, after_next] at ht) <;> (repeat' split at ht) <;> subst ht <;>
    simp [State.access_frame _, State.setFld_frame _, State.setMule_frame _]

theorem execMuleRingDisable_frame (src : Source) (ring : Nat) (s : State) (u : State) : (after u
    (execMuleRingDisable src ring s)).pending = s.pending ∧ (after u (execMuleRingDisable src ring s)).armed = s.armed ∧
    (after u (execMuleRingDisable src ring s)).posted = s.posted ∧ (after u (execMuleRingDisable src ring s)).late =
    s.late ∧ (after u (execMuleRingDisable src ring s)).isolated = s.isolated ∧ (after u (execMuleRingDisable src ring
    s)).failedCores = s.failedCores ∧ (after u (execMuleRingDisable src ring s)).mtf = s.mtf ∧ (after u
    (execMuleRingDisable src ring s)).mat = s.mat ∧ (after u (execMuleRingDisable src ring s)).sdram = s.sdram ∧ (after
    u (execMuleRingDisable src ring s)).ram = s.ram ∧ KeepsSpace s (after u (execMuleRingDisable src ring s)) ∧
    KeepsStore s (after u (execMuleRingDisable src ring s)) ∧ (after u (execMuleRingDisable src ring s)).cmds = s.cmds ∧
    (after u (execMuleRingDisable src ring s)).hosts = s.hosts ∧ KeepsChip s (after u (execMuleRingDisable src ring s))
    := by
  generalize ht : after u (execMuleRingDisable src ring s) = t
  unfold execMuleRingDisable State.ringWrite at ht
  try dsimp only at ht
  (repeat' split at ht) <;> (try simp only [after_answer, after_next] at ht) <;> (repeat' split at ht) <;> subst ht <;>
    simp [State.access_frame _, State.setFld_frame _, State.setMule_frame _, State.sweepReleases_frame _]

theorem execMuleRingResume_frame (src : Source) (ring : Nat) (s : State) (u : State) : KeepsBase s (after u
    (execMuleRingResume src ring s)) ∧ KeepsSpace s (after u (execMuleRingResume src ring s)) ∧ KeepsStore s (after u
    (execMuleRingResume src ring s)) ∧ KeepsHost s (after u (execMuleRingResume src ring s)) ∧ KeepsChip s (after u
    (execMuleRingResume src ring s)) := by
  generalize ht : after u (execMuleRingResume src ring s) = t
  unfold execMuleRingResume State.ringWrite at ht
  try dsimp only at ht
  (repeat' split at ht) <;> (try simp only [after_answer, after_next] at ht) <;> (repeat' split at ht) <;> subst ht <;>
    simp [State.access_frame _, State.setFld_frame _]

theorem execMuleRingKick_frame (src : Source) (ring : Nat) (s : State) (u : State) : (after u (execMuleRingKick
    src ring s)).pending = s.pending ∧ (after u (execMuleRingKick src ring s)).armed = s.armed ∧ (after u
    (execMuleRingKick src ring s)).posted = s.posted ∧ (after u (execMuleRingKick src ring s)).late = s.late ∧ (after u
    (execMuleRingKick src ring s)).isolated = s.isolated ∧ (after u (execMuleRingKick src ring s)).failedCores =
    s.failedCores ∧ (after u (execMuleRingKick src ring s)).mtf = s.mtf ∧ (after u (execMuleRingKick src ring s)).mat =
    s.mat ∧ (after u (execMuleRingKick src ring s)).sdram = s.sdram ∧ (after u (execMuleRingKick src ring s)).ram =
    s.ram ∧ KeepsSpace s (after u (execMuleRingKick src ring s)) ∧ KeepsStore s (after u (execMuleRingKick src ring s))
    ∧ KeepsHost s (after u (execMuleRingKick src ring s)) ∧ KeepsChip s (after u (execMuleRingKick src ring s)) := by
  generalize ht : after u (execMuleRingKick src ring s) = t
  unfold execMuleRingKick State.ringWrite at ht
  try dsimp only at ht
  (repeat' split at ht) <;> (try simp only [after_answer, after_next] at ht) <;> (repeat' split at ht) <;> subst ht <;>
    simp [State.access_frame _, State.setMule_frame _]

theorem execMuleDescriptor_frame (ring : Nat) (fetchOk : Bool) (s : State) (u : State) : (after u
    (execMuleDescriptor ring fetchOk s)).pending = s.pending ∧ (after u (execMuleDescriptor ring fetchOk s)).armed =
    s.armed ∧ (after u (execMuleDescriptor ring fetchOk s)).posted = s.posted ∧ (after u (execMuleDescriptor ring
    fetchOk s)).late = s.late ∧ (after u (execMuleDescriptor ring fetchOk s)).isolated = s.isolated ∧ (after u
    (execMuleDescriptor ring fetchOk s)).failedCores = s.failedCores ∧ (after u (execMuleDescriptor ring fetchOk s)).mtf
    = s.mtf ∧ (after u (execMuleDescriptor ring fetchOk s)).mat = s.mat ∧ (after u (execMuleDescriptor ring fetchOk
    s)).ram = s.ram ∧ KeepsSpace s (after u (execMuleDescriptor ring fetchOk s)) ∧ KeepsStore s (after u
    (execMuleDescriptor ring fetchOk s)) ∧ (after u (execMuleDescriptor ring fetchOk s)).cmds = s.cmds ∧ (after u
    (execMuleDescriptor ring fetchOk s)).pools = s.pools ∧ KeepsChip s (after u (execMuleDescriptor ring fetchOk s)) :=
    by
  generalize ht : after u (execMuleDescriptor ring fetchOk s) = t
  unfold execMuleDescriptor at ht
  try dsimp only at ht
  (repeat' split at ht) <;> (try simp only [after_answer, after_next] at ht) <;> (repeat' split at ht) <;> subst ht <;>
    simp [State.setFld_frame _, State.startMule_frame _]

theorem execMuleDescriptorDone_frame (ring : Nat) (data : List Byte) (dataAnswer : HostAnswer) (writeBackOk :
    Bool) (s : State) (u : State) : (after u (execMuleDescriptorDone ring data dataAnswer writeBackOk s)).pending =
    s.pending ∧ (after u (execMuleDescriptorDone ring data dataAnswer writeBackOk s)).armed = s.armed ∧ (after u
    (execMuleDescriptorDone ring data dataAnswer writeBackOk s)).posted = s.posted ∧ (after u (execMuleDescriptorDone
    ring data dataAnswer writeBackOk s)).late = s.late ∧ (after u (execMuleDescriptorDone ring data dataAnswer
    writeBackOk s)).isolated = s.isolated ∧ (after u (execMuleDescriptorDone ring data dataAnswer writeBackOk
    s)).failedCores = s.failedCores ∧ (after u (execMuleDescriptorDone ring data dataAnswer writeBackOk s)).mtf = s.mtf
    ∧ (after u (execMuleDescriptorDone ring data dataAnswer writeBackOk s)).mat = s.mat ∧ KeepsSpace s (after u
    (execMuleDescriptorDone ring data dataAnswer writeBackOk s)) ∧ KeepsStore s (after u (execMuleDescriptorDone ring
    data dataAnswer writeBackOk s)) ∧ (after u (execMuleDescriptorDone ring data dataAnswer writeBackOk s)).cmds =
    s.cmds ∧ KeepsChip s (after u (execMuleDescriptorDone ring data dataAnswer writeBackOk s)) := by
  generalize ht : after u (execMuleDescriptorDone ring data dataAnswer writeBackOk s) = t
  unfold execMuleDescriptorDone at ht
  try dsimp only at ht
  (repeat' split at ht) <;> (try simp only [after_answer, after_next] at ht) <;> (repeat' split at ht) <;> subst ht <;>
    simp [State.dropMuleTags_frame _, State.endMule_frame _, State.haltRing_frame _, State.muleTimeout_frame _,
        State.runDesc_frame _]

theorem execMulePaceResume_frame (ring : Nat) (s : State) (u : State) : KeepsBase s (after u (execMulePaceResume
    ring s)) ∧ (after u (execMulePaceResume ring s)).free = s.free ∧ (after u (execMulePaceResume ring s)).out = s.out ∧
    (after u (execMulePaceResume ring s)).stat = s.stat ∧ (after u (execMulePaceResume ring s)).evlog = s.evlog ∧
    KeepsSpace s (after u (execMulePaceResume ring s)) ∧ KeepsStore s (after u (execMulePaceResume ring s)) ∧ KeepsHost
    s (after u (execMulePaceResume ring s)) ∧ KeepsChip s (after u (execMulePaceResume ring s)) := by
  generalize ht : after u (execMulePaceResume ring s) = t
  unfold execMulePaceResume at ht
  try dsimp only at ht
  (repeat' split at ht) <;> (try simp only [after_answer, after_next] at ht) <;> (repeat' split at ht) <;> subst ht <;>
    simp [State.setFld_frame _]

theorem execK7Start_frame (src : Source) (channel : Nat) (data : List Byte) (dataAnswer : HostAnswer) (s :
    State) (u : State) : (after u (execK7Start src channel data dataAnswer s)).pending = s.pending ∧ (after u
    (execK7Start src channel data dataAnswer s)).armed = s.armed ∧ (after u (execK7Start src channel data dataAnswer
    s)).posted = s.posted ∧ (after u (execK7Start src channel data dataAnswer s)).late = s.late ∧ (after u (execK7Start
    src channel data dataAnswer s)).isolated = s.isolated ∧ (after u (execK7Start src channel data dataAnswer
    s)).failedCores = s.failedCores ∧ (after u (execK7Start src channel data dataAnswer s)).mtf = s.mtf ∧ (after u
    (execK7Start src channel data dataAnswer s)).mat = s.mat ∧ (after u (execK7Start src channel data dataAnswer
    s)).mules = s.mules ∧ KeepsSpace s (after u (execK7Start src channel data dataAnswer s)) ∧ KeepsStore s (after u
    (execK7Start src channel data dataAnswer s)) ∧ (after u (execK7Start src channel data dataAnswer s)).cmds = s.cmds ∧
    (after u (execK7Start src channel data dataAnswer s)).pools = s.pools ∧ KeepsChip s (after u (execK7Start src
    channel data dataAnswer s)) := by
  generalize ht : after u (execK7Start src channel data dataAnswer s) = t
  unfold execK7Start at ht
  try dsimp only at ht
  (repeat' split at ht) <;> (try simp only [after_answer, after_next] at ht) <;> (repeat' split at ht) <;> subst ht <;>
    simp [State.access_frame _, State.k7Move_frame _, State.raise_frame _]

theorem execBusMasterClear_frame (f : Fn) (s : State) (u : State) : (after u (execBusMasterClear f s)).pending =
    s.pending ∧ (after u (execBusMasterClear f s)).armed = s.armed ∧ (after u (execBusMasterClear f s)).posted =
    s.posted ∧ (after u (execBusMasterClear f s)).late = s.late ∧ (after u (execBusMasterClear f s)).isolated =
    s.isolated ∧ (after u (execBusMasterClear f s)).failedCores = s.failedCores ∧ (after u (execBusMasterClear f s)).mtf
    = s.mtf ∧ (after u (execBusMasterClear f s)).mat = s.mat ∧ (after u (execBusMasterClear f s)).media = s.media ∧
    (after u (execBusMasterClear f s)).boot = s.boot ∧ (after u (execBusMasterClear f s)).pins.resetLow =
    s.pins.resetLow ∧ (after u (execBusMasterClear f s)).pins.frozen = s.pins.frozen := by
  generalize ht : after u (execBusMasterClear f s) = t
  unfold execBusMasterClear configRequest at ht
  try dsimp only at ht
  (repeat' split at ht) <;> (try simp only [after_answer, after_next] at ht) <;> (repeat' split at ht) <;> subst ht <;>
    simp [State.emit_frame _, State.raiseHst_frame _, State.setFn_frame _, State.stopMaster_chip _,
        State.stopMaster_frame _]

theorem execBusMasterSet_frame (f : Fn) (s : State) (u : State) : KeepsBase s (after u (execBusMasterSet f s)) ∧
    (after u (execBusMasterSet f s)).free = s.free ∧ (after u (execBusMasterSet f s)).stat = s.stat ∧ (after u
    (execBusMasterSet f s)).evlog = s.evlog ∧ KeepsSpace s (after u (execBusMasterSet f s)) ∧ KeepsStore s (after u
    (execBusMasterSet f s)) ∧ KeepsChip s (after u (execBusMasterSet f s)) := by
  generalize ht : after u (execBusMasterSet f s) = t
  unfold execBusMasterSet configRequest at ht
  try dsimp only at ht
  (repeat' split at ht) <;> (try simp only [after_answer, after_next] at ht) <;> (repeat' split at ht) <;> subst ht <;>
    simp [State.emit_frame _, State.resumeMaster_frame _, State.setFn_frame _]

theorem execD3hotEntry_frame (f : Fn) (s : State) (u : State) : (after u (execD3hotEntry f s)).pending =
    s.pending ∧ (after u (execD3hotEntry f s)).armed = s.armed ∧ (after u (execD3hotEntry f s)).posted = s.posted ∧
    (after u (execD3hotEntry f s)).late = s.late ∧ (after u (execD3hotEntry f s)).isolated = s.isolated ∧ (after u
    (execD3hotEntry f s)).failedCores = s.failedCores ∧ (after u (execD3hotEntry f s)).mtf = s.mtf ∧ (after u
    (execD3hotEntry f s)).mat = s.mat ∧ (after u (execD3hotEntry f s)).media = s.media ∧ (after u (execD3hotEntry f
    s)).boot = s.boot ∧ (after u (execD3hotEntry f s)).pins.resetLow = s.pins.resetLow ∧ (after u (execD3hotEntry f
    s)).pins.frozen = s.pins.frozen := by
  generalize ht : after u (execD3hotEntry f s) = t
  unfold execD3hotEntry configRequest at ht
  try dsimp only at ht
  (repeat' split at ht) <;> (try simp only [after_answer, after_next] at ht) <;> (repeat' split at ht) <;> subst ht <;>
    simp [State.emit_frame _, State.raiseHst_frame _, State.setFn_frame _, State.stopMaster_chip _,
        State.stopMaster_frame _]

theorem execD0Return_frame (f : Fn) (s : State) (u : State) : KeepsBase s (after u (execD0Return f s)) ∧ (after
    u (execD0Return f s)).free = s.free ∧ (after u (execD0Return f s)).stat = s.stat ∧ (after u (execD0Return f
    s)).evlog = s.evlog ∧ KeepsSpace s (after u (execD0Return f s)) ∧ KeepsStore s (after u (execD0Return f s)) ∧
    KeepsChip s (after u (execD0Return f s)) := by
  generalize ht : after u (execD0Return f s) = t
  unfold execD0Return configRequest at ht
  try dsimp only at ht
  (repeat' split at ht) <;> (try simp only [after_answer, after_next] at ht) <;> (repeat' split at ht) <;> subst ht <;>
    simp [State.emit_frame _, State.resumeMaster_frame _, State.setFn_frame _]

theorem execFlr_frame (f : Fn) (s : State) (u : State) : (after u (execFlr f s)).pending = s.pending ∧ (after u
    (execFlr f s)).posted = s.posted ∧ (after u (execFlr f s)).late = s.late ∧ (after u (execFlr f s)).isolated =
    s.isolated ∧ (after u (execFlr f s)).failedCores = s.failedCores ∧ (after u (execFlr f s)).mtf = s.mtf ∧ (after u
    (execFlr f s)).mat = s.mat ∧ (after u (execFlr f s)).media = s.media ∧ (after u (execFlr f s)).boot = s.boot ∧
    (after u (execFlr f s)).pins.resetLow = s.pins.resetLow ∧ (after u (execFlr f s)).pins.frozen = s.pins.frozen := by
  generalize ht : after u (execFlr f s) = t
  unfold execFlr configRequest at ht
  try dsimp only at ht
  (repeat' split at ht) <;> (try simp only [after_answer, after_next] at ht) <;> (repeat' split at ht) <;> subst ht <;>
    simp [State.emit_frame _, State.raiseHst_frame _, State.resetFn_chip _, State.resetFn_frame _, State.resetFns_chip
        _, State.resetFns_frame _]

theorem execFunctionDisable_frame (f : Fn) (s : State) (u : State) : (after u (execFunctionDisable f s)).pending
    = s.pending ∧ (after u (execFunctionDisable f s)).armed = s.armed ∧ (after u (execFunctionDisable f s)).posted =
    s.posted ∧ (after u (execFunctionDisable f s)).late = s.late ∧ (after u (execFunctionDisable f s)).isolated =
    s.isolated ∧ (after u (execFunctionDisable f s)).failedCores = s.failedCores ∧ (after u (execFunctionDisable f
    s)).mtf = s.mtf ∧ (after u (execFunctionDisable f s)).mat = s.mat ∧ (after u (execFunctionDisable f s)).media =
    s.media ∧ (after u (execFunctionDisable f s)).boot = s.boot ∧ (after u (execFunctionDisable f s)).pins.resetLow =
    s.pins.resetLow ∧ (after u (execFunctionDisable f s)).pins.frozen = s.pins.frozen := by
  generalize ht : after u (execFunctionDisable f s) = t
  unfold execFunctionDisable at ht
  try dsimp only at ht
  (repeat' split at ht) <;> (try simp only [after_answer, after_next] at ht) <;> (repeat' split at ht) <;> subst ht <;>
    simp [State.abandonReads_frame _, State.abortMules_frame _, State.discardFn_frame _, State.dropRegions_frame _,
        State.reapDeposed_frame _, State.setFld_frame _, State.setFn_frame _, State.setReg_frame _]

theorem execConfigWrite_frame (f : Fn) (field : CfgField) (value : Word) (s : State) (u : State) : KeepsBase s
    (after u (execConfigWrite f field value s)) ∧ (after u (execConfigWrite f field value s)).free = s.free ∧ (after u
    (execConfigWrite f field value s)).regs = s.regs ∧ (after u (execConfigWrite f field value s)).stat = s.stat ∧
    (after u (execConfigWrite f field value s)).evlog = s.evlog ∧ KeepsSpace s (after u (execConfigWrite f field value
    s)) ∧ KeepsStore s (after u (execConfigWrite f field value s)) ∧ (after u (execConfigWrite f field value s)).cmds =
    s.cmds ∧ (after u (execConfigWrite f field value s)).pools = s.pools ∧ KeepsChip s (after u (execConfigWrite f field
    value s)) := by
  generalize ht : after u (execConfigWrite f field value s) = t
  unfold execConfigWrite configRequest at ht
  try dsimp only at ht
  (repeat' split at ht) <;> (try simp only [after_answer, after_next] at ht) <;> (repeat' split at ht) <;> subst ht <;>
    simp [State.configField_frame _, State.emit_frame _]

theorem execVfEnableClear_frame (p : Port) (s : State) (u : State) : (after u (execVfEnableClear p s)).pending =
    s.pending ∧ (after u (execVfEnableClear p s)).posted = s.posted ∧ (after u (execVfEnableClear p s)).late = s.late ∧
    (after u (execVfEnableClear p s)).isolated = s.isolated ∧ (after u (execVfEnableClear p s)).failedCores =
    s.failedCores ∧ (after u (execVfEnableClear p s)).mtf = s.mtf ∧ (after u (execVfEnableClear p s)).mat = s.mat ∧
    (after u (execVfEnableClear p s)).media = s.media ∧ (after u (execVfEnableClear p s)).boot = s.boot ∧ (after u
    (execVfEnableClear p s)).pins.resetLow = s.pins.resetLow ∧ (after u (execVfEnableClear p s)).pins.frozen =
    s.pins.frozen := by
  generalize ht : after u (execVfEnableClear p s) = t
  unfold execVfEnableClear configRequest at ht
  try dsimp only at ht
  (repeat' split at ht) <;> (try simp only [after_answer, after_next] at ht) <;> (repeat' split at ht) <;> subst ht <;>
    simp [State.emit_frame _, State.removeVfs_chip _, State.removeVfs_frame _]

theorem execVfEnableSet_frame (p : Port) (s : State) (u : State) : KeepsBase s (after u (execVfEnableSet p s)) ∧
    (after u (execVfEnableSet p s)).free = s.free ∧ (after u (execVfEnableSet p s)).regs = s.regs ∧ (after u
    (execVfEnableSet p s)).stat = s.stat ∧ (after u (execVfEnableSet p s)).evlog = s.evlog ∧ KeepsSpace s (after u
    (execVfEnableSet p s)) ∧ KeepsStore s (after u (execVfEnableSet p s)) ∧ (after u (execVfEnableSet p s)).cmds =
    s.cmds ∧ (after u (execVfEnableSet p s)).pools = s.pools ∧ KeepsChip s (after u (execVfEnableSet p s)) := by
  generalize ht : after u (execVfEnableSet p s) = t
  unfold execVfEnableSet configRequest at ht
  try dsimp only at ht
  (repeat' split at ht) <;> (try simp only [after_answer, after_next] at ht) <;> (repeat' split at ht) <;> subst ht <;>
    simp [State.emit_frame _, State.setPort_frame _]

theorem execPerstAssert_frame (p : Port) (s : State) (u : State) : (after u (execPerstAssert p s)).pending =
    s.pending ∧ (after u (execPerstAssert p s)).posted = s.posted ∧ (after u (execPerstAssert p s)).late = s.late ∧
    (after u (execPerstAssert p s)).isolated = s.isolated ∧ (after u (execPerstAssert p s)).failedCores = s.failedCores
    ∧ (after u (execPerstAssert p s)).mtf = s.mtf ∧ (after u (execPerstAssert p s)).mat = s.mat ∧ (after u
    (execPerstAssert p s)).media = s.media ∧ (after u (execPerstAssert p s)).boot = s.boot ∧ (after u (execPerstAssert p
    s)).pins.resetLow = s.pins.resetLow ∧ (after u (execPerstAssert p s)).pins.frozen = s.pins.frozen := by
  generalize ht : after u (execPerstAssert p s) = t
  unfold execPerstAssert at ht
  try dsimp only at ht
  (repeat' split at ht) <;> (try simp only [after_answer, after_next] at ht) <;> (repeat' split at ht) <;> subst ht <;>
    simp [State.raiseHst_frame _, State.resetPort_chip _, State.resetPort_frame _, State.setPort_frame _]

theorem execPerstDeassert_frame (p : Port) (s : State) (u : State) : KeepsBase s (after u (execPerstDeassert p
    s)) ∧ KeepsNotes s (after u (execPerstDeassert p s)) ∧ KeepsSpace s (after u (execPerstDeassert p s)) ∧ KeepsStore s
    (after u (execPerstDeassert p s)) ∧ (after u (execPerstDeassert p s)).cmds = s.cmds ∧ (after u (execPerstDeassert p
    s)).pools = s.pools ∧ KeepsChip s (after u (execPerstDeassert p s)) := by
  generalize ht : after u (execPerstDeassert p s) = t
  unfold execPerstDeassert at ht
  try dsimp only at ht
  (repeat' split at ht) <;> (try simp only [after_answer, after_next] at ht) <;> (repeat' split at ht) <;> subst ht <;>
    simp [State.setPort_frame _]

theorem execHotReset_frame (p : Port) (s : State) (u : State) : (after u (execHotReset p s)).pending = s.pending
    ∧ (after u (execHotReset p s)).posted = s.posted ∧ (after u (execHotReset p s)).late = s.late ∧ (after u
    (execHotReset p s)).isolated = s.isolated ∧ (after u (execHotReset p s)).failedCores = s.failedCores ∧ (after u
    (execHotReset p s)).mtf = s.mtf ∧ (after u (execHotReset p s)).mat = s.mat ∧ (after u (execHotReset p s)).media =
    s.media ∧ (after u (execHotReset p s)).boot = s.boot ∧ (after u (execHotReset p s)).pins.resetLow = s.pins.resetLow
    ∧ (after u (execHotReset p s)).pins.frozen = s.pins.frozen := by
  generalize ht : after u (execHotReset p s) = t
  unfold execHotReset at ht
  try dsimp only at ht
  (repeat' split at ht) <;> (try simp only [after_answer, after_next] at ht) <;> (repeat' split at ht) <;> subst ht <;>
    simp [State.raiseHst_frame _, State.resetPort_chip _, State.resetPort_frame _]

theorem execLinkDown_frame (p : Port) (s : State) (u : State) : (after u (execLinkDown p s)).pending = s.pending
    ∧ (after u (execLinkDown p s)).posted = s.posted ∧ (after u (execLinkDown p s)).late = s.late ∧ (after u
    (execLinkDown p s)).isolated = s.isolated ∧ (after u (execLinkDown p s)).failedCores = s.failedCores ∧ (after u
    (execLinkDown p s)).mtf = s.mtf ∧ (after u (execLinkDown p s)).mat = s.mat ∧ (after u (execLinkDown p s)).media =
    s.media ∧ (after u (execLinkDown p s)).boot = s.boot ∧ (after u (execLinkDown p s)).pins.resetLow = s.pins.resetLow
    ∧ (after u (execLinkDown p s)).pins.frozen = s.pins.frozen := by
  generalize ht : after u (execLinkDown p s) = t
  unfold execLinkDown at ht
  try dsimp only at ht
  (repeat' split at ht) <;> (try simp only [after_answer, after_next] at ht) <;> (repeat' split at ht) <;> subst ht <;>
    simp [State.raiseHst_frame _, State.recordFault_frame _, State.resetPort_chip _, State.resetPort_frame _]

theorem execLinkUp_frame (p : Port) (rate width : Nat) (flit : Bool) (s : State) (u : State) : KeepsBase s
    (after u (execLinkUp p rate width flit s)) ∧ KeepsSpace s (after u (execLinkUp p rate width flit s)) ∧ KeepsStore s
    (after u (execLinkUp p rate width flit s)) ∧ (after u (execLinkUp p rate width flit s)).cmds = s.cmds ∧ (after u
    (execLinkUp p rate width flit s)).pools = s.pools ∧ (after u (execLinkUp p rate width flit s)).boot = s.boot ∧
    (after u (execLinkUp p rate width flit s)).pins.resetLow = s.pins.resetLow ∧ (after u (execLinkUp p rate width flit
    s)).pins.frozen = s.pins.frozen := by
  generalize ht : after u (execLinkUp p rate width flit s) = t
  unfold execLinkUp at ht
  try dsimp only at ht
  (repeat' split at ht) <;> (try simp only [after_answer, after_next] at ht) <;> (repeat' split at ht) <;> subst ht <;>
    simp [State.portUp_frame _]

theorem execHstMaxrateWrite_frame (src : Source) (p : Port) (rate : BitVec 4) (s : State) (u : State) : (after u
    (execHstMaxrateWrite src p rate s)).pending = s.pending ∧ (after u (execHstMaxrateWrite src p rate s)).posted =
    s.posted ∧ (after u (execHstMaxrateWrite src p rate s)).late = s.late ∧ (after u (execHstMaxrateWrite src p rate
    s)).isolated = s.isolated ∧ (after u (execHstMaxrateWrite src p rate s)).failedCores = s.failedCores ∧ (after u
    (execHstMaxrateWrite src p rate s)).mtf = s.mtf ∧ (after u (execHstMaxrateWrite src p rate s)).mat = s.mat ∧ (after
    u (execHstMaxrateWrite src p rate s)).media = s.media ∧ (after u (execHstMaxrateWrite src p rate s)).boot = s.boot ∧
    (after u (execHstMaxrateWrite src p rate s)).pins.resetLow = s.pins.resetLow ∧ (after u (execHstMaxrateWrite src p
    rate s)).pins.frozen = s.pins.frozen := by
  generalize ht : after u (execHstMaxrateWrite src p rate s) = t
  unfold execHstMaxrateWrite at ht
  try dsimp only at ht
  (repeat' split at ht) <;> (try simp only [after_answer, after_next] at ht) <;> (repeat' split at ht) <;> subst ht <;>
    first
      | (simp [State.access_chip _, State.access_frame _, State.keyed_chip _, State.keyed_frame _, State.raiseHst_frame _, State.resetPort_chip _, State.resetPort_frame _, State.setFld_frame _]; done)
      | (simp (disch := (intros; (try dsimp only); (repeat' split) <;> (try simp [*, State.access_chip _, State.access_frame _, State.keyed_chip _, State.keyed_frame _, State.raiseHst_frame _, State.resetPort_chip _, State.resetPort_frame _, State.setFld_frame _]))) [State.access_chip _, State.access_frame _, State.keyed_chip _, State.keyed_frame _, State.raiseHst_frame _, State.resetPort_chip _, State.resetPort_frame _, State.setFld_frame _]; done)
      | (simp (disch := (intros; simp (disch := (intros; (try dsimp only); (repeat' split) <;> (try simp [*, State.access_chip _, State.access_frame _, State.keyed_chip _, State.keyed_frame _, State.raiseHst_frame _, State.resetPort_chip _, State.resetPort_frame _, State.setFld_frame _]))) [State.access_chip _, State.access_frame _, State.keyed_chip _, State.keyed_frame _, State.raiseHst_frame _, State.resetPort_chip _, State.resetPort_frame _, State.setFld_frame _])) [State.access_chip _, State.access_frame _, State.keyed_chip _, State.keyed_frame _, State.raiseHst_frame _, State.resetPort_chip _, State.resetPort_frame _, State.setFld_frame _]; done)

theorem execHostReadCompletion_frame (p : Port) (tag : Nat) (status : CplStatus) (s : State) (u : State) :
    (after u (execHostReadCompletion p tag status s)).pending = s.pending ∧ (after u (execHostReadCompletion p tag
    status s)).armed = s.armed ∧ (after u (execHostReadCompletion p tag status s)).posted = s.posted ∧ (after u
    (execHostReadCompletion p tag status s)).late = s.late ∧ (after u (execHostReadCompletion p tag status s)).isolated
    = s.isolated ∧ (after u (execHostReadCompletion p tag status s)).failedCores = s.failedCores ∧ (after u
    (execHostReadCompletion p tag status s)).mtf = s.mtf ∧ (after u (execHostReadCompletion p tag status s)).mat = s.mat
    ∧ KeepsSpace s (after u (execHostReadCompletion p tag status s)) ∧ (after u (execHostReadCompletion p tag status
    s)).place = s.place ∧ (after u (execHostReadCompletion p tag status s)).media = s.media ∧ KeepsChip s (after u
    (execHostReadCompletion p tag status s)) := by
  generalize ht : after u (execHostReadCompletion p tag status s) = t
  unfold execHostReadCompletion at ht
  try dsimp only at ht
  (repeat' split at ht) <;> (try simp only [after_answer, after_next] at ht) <;> (repeat' split at ht) <;> subst ht <;>
    simp [State.count_frame _, State.dropTag_frame _, State.k7Finish_frame _, State.logAer_frame _,
        State.ownerFails_frame _, State.raiseHst_frame _, State.takeBytes_frame _]

theorem execCompletionTimeout_frame (p : Port) (tag : Nat) (s : State) (u : State) : (after u
    (execCompletionTimeout p tag s)).pending = s.pending ∧ (after u (execCompletionTimeout p tag s)).armed = s.armed ∧
    (after u (execCompletionTimeout p tag s)).posted = s.posted ∧ (after u (execCompletionTimeout p tag s)).late =
    s.late ∧ (after u (execCompletionTimeout p tag s)).isolated = s.isolated ∧ (after u (execCompletionTimeout p tag
    s)).failedCores = s.failedCores ∧ (after u (execCompletionTimeout p tag s)).mtf = s.mtf ∧ (after u
    (execCompletionTimeout p tag s)).mat = s.mat ∧ KeepsSpace s (after u (execCompletionTimeout p tag s)) ∧ (after u
    (execCompletionTimeout p tag s)).place = s.place ∧ (after u (execCompletionTimeout p tag s)).media = s.media ∧
    KeepsChip s (after u (execCompletionTimeout p tag s)) := by
  generalize ht : after u (execCompletionTimeout p tag s) = t
  unfold execCompletionTimeout at ht
  try dsimp only at ht
  (repeat' split at ht) <;> (try simp only [after_answer, after_next] at ht) <;> (repeat' split at ht) <;> subst ht <;>
    simp [State.countTimeout_frame _, State.ownerFails_frame _, State.setPort_frame _]

theorem execTagQuarantineEnd_frame (p : Port) (tag : Nat) (s : State) (u : State) : KeepsBase s (after u
    (execTagQuarantineEnd p tag s)) ∧ KeepsNotes s (after u (execTagQuarantineEnd p tag s)) ∧ KeepsSpace s (after u
    (execTagQuarantineEnd p tag s)) ∧ KeepsStore s (after u (execTagQuarantineEnd p tag s)) ∧ (after u
    (execTagQuarantineEnd p tag s)).cmds = s.cmds ∧ (after u (execTagQuarantineEnd p tag s)).pools = s.pools ∧ KeepsChip
    s (after u (execTagQuarantineEnd p tag s)) := by
  generalize ht : after u (execTagQuarantineEnd p tag s) = t
  unfold execTagQuarantineEnd at ht
  try dsimp only at ht
  (repeat' split at ht) <;> (try simp only [after_answer, after_next] at ht) <;> (repeat' split at ht) <;> subst ht <;>
    simp [State.dropTag_frame _]

theorem execRefreshTick_frame (ch : Nat) (s : State) (u : State) : KeepsBase s (after u (execRefreshTick ch s))
    ∧ (after u (execRefreshTick ch s)).free = s.free ∧ (after u (execRefreshTick ch s)).regs = s.regs ∧ (after u
    (execRefreshTick ch s)).stat = s.stat ∧ (after u (execRefreshTick ch s)).evlog = s.evlog ∧ KeepsSpace s (after u
    (execRefreshTick ch s)) ∧ KeepsStore s (after u (execRefreshTick ch s)) ∧ KeepsHost s (after u (execRefreshTick ch
    s)) ∧ KeepsChip s (after u (execRefreshTick ch s)) := by
  generalize ht : after u (execRefreshTick ch s) = t
  unfold execRefreshTick at ht
  try dsimp only at ht
  (repeat' split at ht) <;> (try simp only [after_answer, after_next] at ht) <;> (repeat' split at ht) <;> subst ht <;>
    simp [State.emit_frame _]

theorem execMr4Poll_frame (ch : Nat) (hot : Bool) (s : State) (u : State) : (after u (execMr4Poll ch hot
    s)).pending = s.pending ∧ (after u (execMr4Poll ch hot s)).armed = s.armed ∧ (after u (execMr4Poll ch hot s)).posted
    = s.posted ∧ (after u (execMr4Poll ch hot s)).late = s.late ∧ (after u (execMr4Poll ch hot s)).isolated = s.isolated
    ∧ (after u (execMr4Poll ch hot s)).failedCores = s.failedCores ∧ (after u (execMr4Poll ch hot s)).mtf = s.mtf ∧
    (after u (execMr4Poll ch hot s)).mat = s.mat ∧ (after u (execMr4Poll ch hot s)).mules = s.mules ∧ (after u
    (execMr4Poll ch hot s)).ram = s.ram ∧ (after u (execMr4Poll ch hot s)).free = s.free ∧ (after u (execMr4Poll ch hot
    s)).evlog = s.evlog ∧ KeepsSpace s (after u (execMr4Poll ch hot s)) ∧ KeepsStore s (after u (execMr4Poll ch hot s))
    ∧ KeepsHost s (after u (execMr4Poll ch hot s)) ∧ KeepsChip s (after u (execMr4Poll ch hot s)) := by
  generalize ht : after u (execMr4Poll ch hot s) = t
  unfold execMr4Poll at ht
  try dsimp only at ht
  (repeat' split at ht) <;> (try simp only [after_answer, after_next] at ht) <;> (repeat' split at ht) <;> subst ht <;>
    simp [State.followHot_frame _, State.setSdram_frame _]

theorem execRowIdleClose_frame (ch bank : Nat) (s : State) (u : State) : (after u (execRowIdleClose ch bank
    s)).pending = s.pending ∧ (after u (execRowIdleClose ch bank s)).armed = s.armed ∧ (after u (execRowIdleClose ch
    bank s)).posted = s.posted ∧ (after u (execRowIdleClose ch bank s)).late = s.late ∧ (after u (execRowIdleClose ch
    bank s)).isolated = s.isolated ∧ (after u (execRowIdleClose ch bank s)).failedCores = s.failedCores ∧ (after u
    (execRowIdleClose ch bank s)).mtf = s.mtf ∧ (after u (execRowIdleClose ch bank s)).mat = s.mat ∧ (after u
    (execRowIdleClose ch bank s)).mules = s.mules ∧ (after u (execRowIdleClose ch bank s)).ram = s.ram ∧ KeepsNotes s
    (after u (execRowIdleClose ch bank s)) ∧ KeepsSpace s (after u (execRowIdleClose ch bank s)) ∧ KeepsStore s (after u
    (execRowIdleClose ch bank s)) ∧ KeepsHost s (after u (execRowIdleClose ch bank s)) ∧ KeepsChip s (after u
    (execRowIdleClose ch bank s)) := by
  generalize ht : after u (execRowIdleClose ch bank s) = t
  unfold execRowIdleClose at ht
  try dsimp only at ht
  (repeat' split at ht) <;> (try simp only [after_answer, after_next] at ht) <;> (repeat' split at ht) <;> subst ht <;>
    simp [State.setSdram_frame _]

theorem execPatrolScrub_frame (ch : Nat) (result : ScrubResult) (s : State) (u : State) : (after u
    (execPatrolScrub ch result s)).pending = s.pending ∧ (after u (execPatrolScrub ch result s)).armed = s.armed ∧
    (after u (execPatrolScrub ch result s)).posted = s.posted ∧ (after u (execPatrolScrub ch result s)).late = s.late ∧
    (after u (execPatrolScrub ch result s)).failedCores = s.failedCores ∧ (after u (execPatrolScrub ch result s)).mtf =
    s.mtf ∧ (after u (execPatrolScrub ch result s)).mat = s.mat ∧ (after u (execPatrolScrub ch result s)).mules =
    s.mules ∧ (after u (execPatrolScrub ch result s)).nss = s.nss ∧ (after u (execPatrolScrub ch result s)).deferred =
    s.deferred ∧ (after u (execPatrolScrub ch result s)).herd = s.herd ∧ (after u (execPatrolScrub ch result s)).place =
    s.place ∧ (after u (execPatrolScrub ch result s)).cmds = s.cmds ∧ (after u (execPatrolScrub ch result s)).boot.fuses
    = s.boot.fuses ∧ (after u (execPatrolScrub ch result s)).pins.resetLow = s.pins.resetLow ∧ (after u (execPatrolScrub
    ch result s)).pins.frozen = s.pins.frozen := by
  generalize ht : after u (execPatrolScrub ch result s) = t
  unfold execPatrolScrub at ht
  try dsimp only at ht
  (repeat' split at ht) <;> (try simp only [after_answer, after_next] at ht) <;> (repeat' split at ht) <;> subst ht <;>
    simp [State.corrected_frame _, State.setSdram_frame _, State.uncorrectable_chip _, State.uncorrectable_frame _]

theorem execSdramChannelFailure_frame (ch : Nat) (s : State) (u : State) : (after u (execSdramChannelFailure ch
    s)).pending = s.pending ∧ (after u (execSdramChannelFailure ch s)).armed = s.armed ∧ (after u
    (execSdramChannelFailure ch s)).posted = s.posted ∧ (after u (execSdramChannelFailure ch s)).late = s.late ∧ (after
    u (execSdramChannelFailure ch s)).failedCores = s.failedCores ∧ (after u (execSdramChannelFailure ch s)).mtf = s.mtf
    ∧ (after u (execSdramChannelFailure ch s)).mat = s.mat ∧ (after u (execSdramChannelFailure ch s)).mules = s.mules ∧
    (after u (execSdramChannelFailure ch s)).sdram = s.sdram ∧ (after u (execSdramChannelFailure ch s)).nss = s.nss ∧
    (after u (execSdramChannelFailure ch s)).deferred = s.deferred ∧ (after u (execSdramChannelFailure ch s)).herd =
    s.herd ∧ (after u (execSdramChannelFailure ch s)).place = s.place ∧ (after u (execSdramChannelFailure ch s)).cmds =
    s.cmds ∧ (after u (execSdramChannelFailure ch s)).boot.fuses = s.boot.fuses ∧ (after u (execSdramChannelFailure ch
    s)).pins.resetLow = s.pins.resetLow ∧ (after u (execSdramChannelFailure ch s)).pins.frozen = s.pins.frozen := by
  generalize ht : after u (execSdramChannelFailure ch s) = t
  unfold execSdramChannelFailure at ht
  try dsimp only at ht
  (repeat' split at ht) <;> (try simp only [after_answer, after_next] at ht) <;> (repeat' split at ht) <;> subst ht <;>
    simp [State.failSdram_chip _, State.failSdram_frame _]

theorem execSdramLossCleanup_frame (s : State) (u : State) : KeepsBase s (after u (execSdramLossCleanup s)) ∧
    KeepsNotes s (after u (execSdramLossCleanup s)) ∧ KeepsSpace s (after u (execSdramLossCleanup s)) ∧ (after u
    (execSdramLossCleanup s)).place = s.place ∧ (after u (execSdramLossCleanup s)).media = s.media ∧ KeepsHost s (after
    u (execSdramLossCleanup s)) ∧ KeepsChip s (after u (execSdramLossCleanup s)) := by
  generalize ht : after u (execSdramLossCleanup s) = t
  unfold execSdramLossCleanup at ht
  try dsimp only at ht
  (repeat' split at ht) <;> (try simp only [after_answer, after_next] at ht) <;> (repeat' split at ht) <;> subst ht <;>
    simp

theorem execWriteLevelTrack_frame (ch device rank : Nat) (delay : BitVec 12) (s : State) (u : State) : KeepsBase
    s (after u (execWriteLevelTrack ch device rank delay s)) ∧ (after u (execWriteLevelTrack ch device rank delay
    s)).free = s.free ∧ (after u (execWriteLevelTrack ch device rank delay s)).evlog = s.evlog ∧ KeepsSpace s (after u
    (execWriteLevelTrack ch device rank delay s)) ∧ KeepsStore s (after u (execWriteLevelTrack ch device rank delay s))
    ∧ KeepsHost s (after u (execWriteLevelTrack ch device rank delay s)) ∧ KeepsChip s (after u (execWriteLevelTrack ch
    device rank delay s)) := by
  generalize ht : after u (execWriteLevelTrack ch device rank delay s) = t
  unfold execWriteLevelTrack at ht
  try dsimp only at ht
  (repeat' split at ht) <;> (try simp only [after_answer, after_next] at ht) <;> (repeat' split at ht) <;> subst ht <;>
    simp [State.raise_frame _, State.setFld_frame _]

theorem execSdcModeWrite_frame (src : Source) (ch : Nat) (mode : BitVec 2) (s : State) (u : State) : (after u
    (execSdcModeWrite src ch mode s)).pending = s.pending ∧ (after u (execSdcModeWrite src ch mode s)).posted = s.posted
    ∧ (after u (execSdcModeWrite src ch mode s)).late = s.late ∧ (after u (execSdcModeWrite src ch mode s)).isolated =
    s.isolated ∧ (after u (execSdcModeWrite src ch mode s)).failedCores = s.failedCores ∧ (after u (execSdcModeWrite src
    ch mode s)).mtf = s.mtf ∧ (after u (execSdcModeWrite src ch mode s)).mat = s.mat ∧ (after u (execSdcModeWrite src ch
    mode s)).mules = s.mules ∧ (after u (execSdcModeWrite src ch mode s)).sdram = s.sdram ∧ KeepsSpace s (after u
    (execSdcModeWrite src ch mode s)) ∧ KeepsStore s (after u (execSdcModeWrite src ch mode s)) ∧ KeepsHost s (after u
    (execSdcModeWrite src ch mode s)) ∧ KeepsChip s (after u (execSdcModeWrite src ch mode s)) := by
  generalize ht : after u (execSdcModeWrite src ch mode s) = t
  unfold execSdcModeWrite at ht
  try dsimp only at ht
  (repeat' split at ht) <;> (try simp only [after_answer, after_next] at ht) <;> (repeat' split at ht) <;> subst ht <;>
    simp [State.access_frame _, State.initSdram_frame _, State.keyed_frame _, State.raise_frame _, State.setFld_frame _]

theorem execTcmdMrw_frame (src : Source) (ch : Nat) (_sub : BitVec 2) (_rank : Bool) (operand : Half) (s :
    State) (u : State) : KeepsBase s (after u (execTcmdMrw src ch _sub _rank operand s)) ∧ KeepsSpace s (after u
    (execTcmdMrw src ch _sub _rank operand s)) ∧ KeepsStore s (after u (execTcmdMrw src ch _sub _rank operand s)) ∧
    KeepsHost s (after u (execTcmdMrw src ch _sub _rank operand s)) ∧ KeepsChip s (after u (execTcmdMrw src ch _sub
    _rank operand s)) := by
  generalize ht : after u (execTcmdMrw src ch _sub _rank operand s) = t
  unfold execTcmdMrw at ht
  try dsimp only at ht
  (repeat' split at ht) <;> (try simp only [after_answer, after_next] at ht) <;> (repeat' split at ht) <;> subst ht <;>
    simp [State.trainCmd_frame _]

theorem execTcmdMrr_frame (src : Source) (ch : Nat) (_sub : BitVec 2) (_rank : Bool) (operand : Half) (data :
    Byte) (s : State) (u : State) : KeepsBase s (after u (execTcmdMrr src ch _sub _rank operand data s)) ∧ KeepsSpace s
    (after u (execTcmdMrr src ch _sub _rank operand data s)) ∧ KeepsStore s (after u (execTcmdMrr src ch _sub _rank
    operand data s)) ∧ KeepsHost s (after u (execTcmdMrr src ch _sub _rank operand data s)) ∧ KeepsChip s (after u
    (execTcmdMrr src ch _sub _rank operand data s)) := by
  generalize ht : after u (execTcmdMrr src ch _sub _rank operand data s) = t
  unfold execTcmdMrr at ht
  try dsimp only at ht
  (repeat' split at ht) <;> (try simp only [after_answer, after_next] at ht) <;> (repeat' split at ht) <;> subst ht <;>
    simp [State.setFld_frame _, State.trainCmd_frame _]

theorem execTcmdMpc_frame (src : Source) (ch : Nat) (_sub : BitVec 2) (_rank : Bool) (operand : Half) (s :
    State) (u : State) : KeepsBase s (after u (execTcmdMpc src ch _sub _rank operand s)) ∧ KeepsSpace s (after u
    (execTcmdMpc src ch _sub _rank operand s)) ∧ KeepsStore s (after u (execTcmdMpc src ch _sub _rank operand s)) ∧
    KeepsHost s (after u (execTcmdMpc src ch _sub _rank operand s)) ∧ KeepsChip s (after u (execTcmdMpc src ch _sub
    _rank operand s)) := by
  generalize ht : after u (execTcmdMpc src ch _sub _rank operand s) = t
  unfold execTcmdMpc at ht
  try dsimp only at ht
  (repeat' split at ht) <;> (try simp only [after_answer, after_next] at ht) <;> (repeat' split at ht) <;> subst ht <;>
    simp [State.trainCmd_frame _]

theorem execTcmdPatternWrite_frame (src : Source) (ch : Nat) (_sub : BitVec 2) (_rank : Bool) (operand : Half)
    (s : State) (u : State) : KeepsBase s (after u (execTcmdPatternWrite src ch _sub _rank operand s)) ∧ KeepsSpace s
    (after u (execTcmdPatternWrite src ch _sub _rank operand s)) ∧ KeepsStore s (after u (execTcmdPatternWrite src ch
    _sub _rank operand s)) ∧ KeepsHost s (after u (execTcmdPatternWrite src ch _sub _rank operand s)) ∧ KeepsChip s
    (after u (execTcmdPatternWrite src ch _sub _rank operand s)) := by
  generalize ht : after u (execTcmdPatternWrite src ch _sub _rank operand s) = t
  unfold execTcmdPatternWrite at ht
  try dsimp only at ht
  (repeat' split at ht) <;> (try simp only [after_answer, after_next] at ht) <;> (repeat' split at ht) <;> subst ht <;>
    simp [State.trainCmd_frame _]

theorem execTcmdPatternCompare_frame (src : Source) (ch : Nat) (sub : BitVec 2) (_rank : Bool) (operand : Half)
    (fails : BitVec 80) (s : State) (u : State) : KeepsBase s (after u (execTcmdPatternCompare src ch sub _rank operand
    fails s)) ∧ KeepsSpace s (after u (execTcmdPatternCompare src ch sub _rank operand fails s)) ∧ KeepsStore s (after u
    (execTcmdPatternCompare src ch sub _rank operand fails s)) ∧ KeepsHost s (after u (execTcmdPatternCompare src ch sub
    _rank operand fails s)) ∧ KeepsChip s (after u (execTcmdPatternCompare src ch sub _rank operand fails s)) := by
  generalize ht : after u (execTcmdPatternCompare src ch sub _rank operand fails s) = t
  unfold execTcmdPatternCompare at ht
  try dsimp only at ht
  (repeat' split at ht) <;> (try simp only [after_answer, after_next] at ht) <;> (repeat' split at ht) <;> subst ht <;>
    simp [State.setFld_frame _, State.trainCmd_frame _]

theorem execChipResetAssert_frame (s : State) (u : State) : (after u (execChipResetAssert s)).pending =
    s.pending ∧ (after u (execChipResetAssert s)).out = s.out ∧ (after u (execChipResetAssert s)).deferred = s.deferred
    ∧ (after u (execChipResetAssert s)).boot.fuses = s.boot.fuses := by
  generalize ht : after u (execChipResetAssert s) = t
  unfold execChipResetAssert at ht
  try dsimp only at ht
  (repeat' split at ht) <;> (try simp only [after_answer, after_next] at ht) <;> (repeat' split at ht) <;> subst ht <;>
    simp [State.chipReset_chip _, State.chipReset_frame _, State.cutCastle_chip _, State.cutCastle_frame _]

theorem execChipResetRelease_frame (straps : BitVec 7) (sysclk refA refB : Bool) (s : State) (u : State) :
    (after u (execChipResetRelease straps sysclk refA refB s)).pending = s.pending ∧ (after u (execChipResetRelease
    straps sysclk refA refB s)).armed = s.armed ∧ (after u (execChipResetRelease straps sysclk refA refB s)).posted =
    s.posted ∧ (after u (execChipResetRelease straps sysclk refA refB s)).late = s.late ∧ (after u (execChipResetRelease
    straps sysclk refA refB s)).isolated = s.isolated ∧ (after u (execChipResetRelease straps sysclk refA refB
    s)).failedCores = s.failedCores ∧ (after u (execChipResetRelease straps sysclk refA refB s)).mtf = s.mtf ∧ (after u
    (execChipResetRelease straps sysclk refA refB s)).mat = s.mat ∧ (after u (execChipResetRelease straps sysclk refA
    refB s)).mules = s.mules ∧ (after u (execChipResetRelease straps sysclk refA refB s)).ram = s.ram ∧ (after u
    (execChipResetRelease straps sysclk refA refB s)).nss = s.nss ∧ (after u (execChipResetRelease straps sysclk refA
    refB s)).deferred = s.deferred ∧ (after u (execChipResetRelease straps sysclk refA refB s)).herd = s.herd ∧
    KeepsStore s (after u (execChipResetRelease straps sysclk refA refB s)) ∧ (after u (execChipResetRelease straps
    sysclk refA refB s)).cmds = s.cmds ∧ (after u (execChipResetRelease straps sysclk refA refB s)).pools = s.pools ∧
    (after u (execChipResetRelease straps sysclk refA refB s)).boot = s.boot ∧ (after u (execChipResetRelease straps
    sysclk refA refB s)).pins.frozen = s.pins.frozen := by
  generalize ht : after u (execChipResetRelease straps sysclk refA refB s) = t
  unfold execChipResetRelease at ht
  try dsimp only at ht
  (repeat' split at ht) <;> (try simp only [after_answer, after_next] at ht) <;> (repeat' split at ht) <;> subst ht <;>
    simp [State.raise_frame _, State.reason_frame _, State.seedSdram_frame _, State.senseFuses_frame _,
        State.setPort_frame _, State.setReg_frame _]

theorem execStrapFaceEnd_frame (s : State) (u : State) : KeepsBase s (after u (execStrapFaceEnd s)) ∧ KeepsSpace
    s (after u (execStrapFaceEnd s)) ∧ KeepsStore s (after u (execStrapFaceEnd s)) ∧ (after u (execStrapFaceEnd s)).cmds
    = s.cmds ∧ (after u (execStrapFaceEnd s)).pools = s.pools ∧ (after u (execStrapFaceEnd s)).boot = s.boot ∧ (after u
    (execStrapFaceEnd s)).pins.resetLow = s.pins.resetLow := by
  generalize ht : after u (execStrapFaceEnd s) = t
  unfold execStrapFaceEnd at ht
  try dsimp only at ht
  (repeat' split at ht) <;> (try simp only [after_answer, after_next] at ht) <;> (repeat' split at ht) <;> subst ht <;>
    simp [State.freeze_chip _, State.freeze_frame _]

theorem execBootImageCheck_frame (norPresent : Bool) (slotA slotB : Option NorSlot) (s : State) (u : State) :
    KeepsBase s (after u (execBootImageCheck norPresent slotA slotB s)) ∧ (after u (execBootImageCheck norPresent slotA
    slotB s)).free = s.free ∧ (after u (execBootImageCheck norPresent slotA slotB s)).evlog = s.evlog ∧ KeepsSpace s
    (after u (execBootImageCheck norPresent slotA slotB s)) ∧ KeepsStore s (after u (execBootImageCheck norPresent slotA
    slotB s)) ∧ (after u (execBootImageCheck norPresent slotA slotB s)).cmds = s.cmds ∧ (after u (execBootImageCheck
    norPresent slotA slotB s)).pools = s.pools ∧ (after u (execBootImageCheck norPresent slotA slotB s)).pins = s.pins ∧
    (after u (execBootImageCheck norPresent slotA slotB s)).boot.fuses = s.boot.fuses := by
  generalize ht : after u (execBootImageCheck norPresent slotA slotB s) = t
  unfold execBootImageCheck at ht
  try dsimp only at ht
  (repeat' split at ht) <;> (try simp only [after_answer, after_next] at ht) <;> (repeat' split at ht) <;> subst ht <;>
    simp [State.bootStops_frame _, State.tryslots_frame _]

theorem execFuseProgram_frame (src : Source) (bit : Nat) (blows : Bool) (s : State) (u : State) : (after u
    (execFuseProgram src bit blows s)).pending = s.pending ∧ (after u (execFuseProgram src bit blows s)).posted =
    s.posted ∧ (after u (execFuseProgram src bit blows s)).late = s.late ∧ (after u (execFuseProgram src bit blows
    s)).isolated = s.isolated ∧ (after u (execFuseProgram src bit blows s)).failedCores = s.failedCores ∧ (after u
    (execFuseProgram src bit blows s)).mtf = s.mtf ∧ (after u (execFuseProgram src bit blows s)).mat = s.mat ∧ (after u
    (execFuseProgram src bit blows s)).mules = s.mules ∧ (after u (execFuseProgram src bit blows s)).sdram = s.sdram ∧
    (after u (execFuseProgram src bit blows s)).ram = s.ram ∧ KeepsSpace s (after u (execFuseProgram src bit blows s)) ∧
    KeepsStore s (after u (execFuseProgram src bit blows s)) ∧ (after u (execFuseProgram src bit blows s)).cmds = s.cmds
    ∧ (after u (execFuseProgram src bit blows s)).pools = s.pools ∧ (after u (execFuseProgram src bit blows s)).pins =
    s.pins := by
  generalize ht : after u (execFuseProgram src bit blows s) = t
  unfold execFuseProgram at ht
  try dsimp only at ht
  (repeat' split at ht) <;> (try simp only [after_answer, after_next] at ht) <;> (repeat' split at ht) <;> subst ht <;>
    simp [State.access_frame _, State.blowFuse_frame _, State.writeGeneric_frame _]

theorem execLoaderRun_frame (board : Option Board) (entropyFails parkUs : Nat) (s : State) (u : State) : (after
    u (execLoaderRun board entropyFails parkUs s)).pending = s.pending ∧ (after u (execLoaderRun board entropyFails
    parkUs s)).armed = s.armed ∧ (after u (execLoaderRun board entropyFails parkUs s)).posted = s.posted ∧ (after u
    (execLoaderRun board entropyFails parkUs s)).late = s.late ∧ (after u (execLoaderRun board entropyFails parkUs
    s)).isolated = s.isolated ∧ (after u (execLoaderRun board entropyFails parkUs s)).failedCores = s.failedCores ∧
    (after u (execLoaderRun board entropyFails parkUs s)).mtf = s.mtf ∧ (after u (execLoaderRun board entropyFails
    parkUs s)).mules = s.mules ∧ (after u (execLoaderRun board entropyFails parkUs s)).sdram = s.sdram ∧ (after u
    (execLoaderRun board entropyFails parkUs s)).ram = s.ram ∧ KeepsSpace s (after u (execLoaderRun board entropyFails
    parkUs s)) ∧ (after u (execLoaderRun board entropyFails parkUs s)).place = s.place ∧ (after u (execLoaderRun board
    entropyFails parkUs s)).media = s.media ∧ (after u (execLoaderRun board entropyFails parkUs s)).cmds = s.cmds ∧
    (after u (execLoaderRun board entropyFails parkUs s)).pools = s.pools ∧ (after u (execLoaderRun board entropyFails
    parkUs s)).pins = s.pins := by
  generalize ht : after u (execLoaderRun board entropyFails parkUs s) = t
  unfold execLoaderRun at ht
  try dsimp only at ht
  (repeat' split at ht) <;> (try simp only [after_answer, after_next] at ht) <;> (repeat' split at ht) <;> subst ht <;>
    simp [State.bootCode_frame _, State.emit_frame _, State.endRetry_frame _, State.fuseRequests_frame _,
        State.raise_frame _, State.setBoot_frame _, State.setFld_frame _, State.setReg_frame _,
        State.writeGuardSet_frame _]

theorem execGrdLockWrite_frame (src : Source) (value : Word) (s : State) (u : State) : KeepsBase s (after u
    (execGrdLockWrite src value s)) ∧ KeepsSpace s (after u (execGrdLockWrite src value s)) ∧ KeepsStore s (after u
    (execGrdLockWrite src value s)) ∧ KeepsHost s (after u (execGrdLockWrite src value s)) ∧ KeepsChip s (after u
    (execGrdLockWrite src value s)) := by
  generalize ht : after u (execGrdLockWrite src value s) = t
  unfold execGrdLockWrite at ht
  try dsimp only at ht
  (repeat' split at ht) <;> (try simp only [after_answer, after_next] at ht) <;> (repeat' split at ht) <;> subst ht <;>
    simp [State.access_frame _, State.raise_frame _, State.setFld_frame _]

theorem execBootCastle_frame (norWriteOk : Bool) (s : State) (u : State) : KeepsBase s (after u (execBootCastle
    norWriteOk s)) ∧ KeepsSpace s (after u (execBootCastle norWriteOk s)) ∧ KeepsStore s (after u (execBootCastle
    norWriteOk s)) ∧ (after u (execBootCastle norWriteOk s)).pools = s.pools ∧ (after u (execBootCastle norWriteOk
    s)).boot.fuses = s.boot.fuses ∧ (after u (execBootCastle norWriteOk s)).pins.resetLow = s.pins.resetLow ∧ (after u
    (execBootCastle norWriteOk s)).pins.frozen = s.pins.frozen := by
  generalize ht : after u (execBootCastle norWriteOk s) = t
  unfold execBootCastle at ht
  try dsimp only at ht
  (repeat' split at ht) <;> (try simp only [after_answer, after_next] at ht) <;> (repeat' split at ht) <;> subst ht <;>
    simp [State.leaveBoot_frame _, State.raise_frame _, State.record_frame _, State.setBoot_frame _,
        State.spoilNor_frame _, State.takeStamps_frame _, State.writeNor_frame _]

theorem execRecoveryStep_frame (s : State) (u : State) : KeepsBase s (after u (execRecoveryStep s)) ∧ (after u
    (execRecoveryStep s)).pools = s.pools ∧ (after u (execRecoveryStep s)).boot.fuses = s.boot.fuses ∧ (after u
    (execRecoveryStep s)).pins.resetLow = s.pins.resetLow ∧ (after u (execRecoveryStep s)).pins.frozen = s.pins.frozen
    := by
  generalize ht : after u (execRecoveryStep s) = t
  unfold execRecoveryStep at ht
  try dsimp only at ht
  (repeat' split at ht) <;> (try simp only [after_answer, after_next] at ht) <;> (repeat' split at ht) <;> subst ht <;>
    simp [State.recover_chip _, State.recover_frame _]

theorem execCoreWatchdog_frame (c : CoreId) (s : State) (u : State) : (after u (execCoreWatchdog c s)).pending =
    s.pending ∧ (after u (execCoreWatchdog c s)).armed = s.armed ∧ (after u (execCoreWatchdog c s)).posted = s.posted ∧
    (after u (execCoreWatchdog c s)).late = s.late ∧ (after u (execCoreWatchdog c s)).isolated = s.isolated ∧ (after u
    (execCoreWatchdog c s)).mtf = s.mtf ∧ (after u (execCoreWatchdog c s)).mat = s.mat ∧ (after u (execCoreWatchdog c
    s)).mules = s.mules ∧ (after u (execCoreWatchdog c s)).sdram = s.sdram ∧ (after u (execCoreWatchdog c s)).ram =
    s.ram ∧ (after u (execCoreWatchdog c s)).nss = s.nss ∧ (after u (execCoreWatchdog c s)).deferred = s.deferred ∧
    (after u (execCoreWatchdog c s)).herd = s.herd ∧ (after u (execCoreWatchdog c s)).map = s.map ∧ (after u
    (execCoreWatchdog c s)).place = s.place ∧ (after u (execCoreWatchdog c s)).boot.fuses = s.boot.fuses ∧ (after u
    (execCoreWatchdog c s)).pins.resetLow = s.pins.resetLow ∧ (after u (execCoreWatchdog c s)).pins.frozen =
    s.pins.frozen := by
  generalize ht : after u (execCoreWatchdog c s) = t
  unfold execCoreWatchdog at ht
  try dsimp only at ht
  (repeat' split at ht) <;> (try simp only [after_answer, after_next] at ht) <;> (repeat' split at ht) <;> subst ht <;>
    simp [State.failCore_chip _, State.failCore_frame _]

theorem execCoreFault_frame (c : CoreId) (cause : CoreCause) (s : State) (u : State) : (after u (execCoreFault c
    cause s)).pending = s.pending ∧ (after u (execCoreFault c cause s)).armed = s.armed ∧ (after u (execCoreFault c
    cause s)).posted = s.posted ∧ (after u (execCoreFault c cause s)).late = s.late ∧ (after u (execCoreFault c cause
    s)).isolated = s.isolated ∧ (after u (execCoreFault c cause s)).mtf = s.mtf ∧ (after u (execCoreFault c cause
    s)).mat = s.mat ∧ (after u (execCoreFault c cause s)).mules = s.mules ∧ (after u (execCoreFault c cause s)).sdram =
    s.sdram ∧ (after u (execCoreFault c cause s)).ram = s.ram ∧ (after u (execCoreFault c cause s)).nss = s.nss ∧ (after
    u (execCoreFault c cause s)).deferred = s.deferred ∧ (after u (execCoreFault c cause s)).herd = s.herd ∧ (after u
    (execCoreFault c cause s)).map = s.map ∧ (after u (execCoreFault c cause s)).place = s.place ∧ (after u
    (execCoreFault c cause s)).boot.fuses = s.boot.fuses ∧ (after u (execCoreFault c cause s)).pins.resetLow =
    s.pins.resetLow ∧ (after u (execCoreFault c cause s)).pins.frozen = s.pins.frozen := by
  generalize ht : after u (execCoreFault c cause s) = t
  unfold execCoreFault at ht
  try dsimp only at ht
  (repeat' split at ht) <;> (try simp only [after_answer, after_next] at ht) <;> (repeat' split at ht) <;> subst ht <;>
    simp [State.failCore_chip _, State.failCore_frame _]

theorem execEngineIslandFault_frame (kind : EngineKind) (idx : Nat) (s : State) (u : State) : (after u
    (execEngineIslandFault kind idx s)).pending = s.pending ∧ (after u (execEngineIslandFault kind idx s)).armed =
    s.armed ∧ (after u (execEngineIslandFault kind idx s)).posted = s.posted ∧ (after u (execEngineIslandFault kind idx
    s)).late = s.late ∧ (after u (execEngineIslandFault kind idx s)).failedCores = s.failedCores ∧ (after u
    (execEngineIslandFault kind idx s)).mtf = s.mtf ∧ (after u (execEngineIslandFault kind idx s)).mat = s.mat ∧ (after
    u (execEngineIslandFault kind idx s)).mules = s.mules ∧ (after u (execEngineIslandFault kind idx s)).sdram = s.sdram
    ∧ (after u (execEngineIslandFault kind idx s)).ram = s.ram ∧ (after u (execEngineIslandFault kind idx s)).nss =
    s.nss ∧ (after u (execEngineIslandFault kind idx s)).deferred = s.deferred ∧ (after u (execEngineIslandFault kind
    idx s)).herd = s.herd ∧ (after u (execEngineIslandFault kind idx s)).map = s.map ∧ (after u (execEngineIslandFault
    kind idx s)).place = s.place ∧ (after u (execEngineIslandFault kind idx s)).cmds = s.cmds ∧ (after u
    (execEngineIslandFault kind idx s)).boot.fuses = s.boot.fuses ∧ (after u (execEngineIslandFault kind idx
    s)).pins.resetLow = s.pins.resetLow ∧ (after u (execEngineIslandFault kind idx s)).pins.frozen = s.pins.frozen := by
  generalize ht : after u (execEngineIslandFault kind idx s) = t
  unfold execEngineIslandFault at ht
  try dsimp only at ht
  (repeat' split at ht) <;> (try simp only [after_answer, after_next] at ht) <;> (repeat' split at ht) <;> subst ht <;>
    simp [State.haltNow_chip _, State.haltNow_frame _, State.isolate_frame _, State.reason_frame _,
        State.recordFault_frame _]

theorem execHalt_frame (cause island : Nat) (s : State) (u : State) : KeepsBase s (after u (execHalt cause
    island s)) ∧ (after u (execHalt cause island s)).nss = s.nss ∧ (after u (execHalt cause island s)).deferred =
    s.deferred ∧ (after u (execHalt cause island s)).herd = s.herd ∧ (after u (execHalt cause island s)).map = s.map ∧
    (after u (execHalt cause island s)).place = s.place ∧ (after u (execHalt cause island s)).cmds = s.cmds ∧ (after u
    (execHalt cause island s)).boot.fuses = s.boot.fuses ∧ (after u (execHalt cause island s)).pins.resetLow =
    s.pins.resetLow ∧ (after u (execHalt cause island s)).pins.frozen = s.pins.frozen := by
  generalize ht : after u (execHalt cause island s) = t
  unfold execHalt at ht
  try dsimp only at ht
  (repeat' split at ht) <;> (try simp only [after_answer, after_next] at ht) <;> (repeat' split at ht) <;> subst ht <;>
    simp [State.haltNow_chip _, State.haltNow_frame _]

theorem execCoreSupplyLoss_frame (s : State) (u : State) : (after u (execCoreSupplyLoss s)).pending = s.pending
    ∧ (after u (execCoreSupplyLoss s)).out = s.out ∧ (after u (execCoreSupplyLoss s)).deferred = s.deferred ∧ (after u
    (execCoreSupplyLoss s)).boot.fuses = s.boot.fuses := by
  generalize ht : after u (execCoreSupplyLoss s) = t
  unfold execCoreSupplyLoss at ht
  try dsimp only at ht
  (repeat' split at ht) <;> (try simp only [after_answer, after_next] at ht) <;> (repeat' split at ht) <;> subst ht <;>
    simp [State.chipReset_chip _, State.chipReset_frame _, State.cutCastle_chip _, State.cutCastle_frame _]

theorem execHourTick_frame (s : State) (u : State) : KeepsBase s (after u (execHourTick s)) ∧ (after u
    (execHourTick s)).free = s.free ∧ (after u (execHourTick s)).out = s.out ∧ (after u (execHourTick s)).stat = s.stat
    ∧ (after u (execHourTick s)).evlog = s.evlog ∧ KeepsSpace s (after u (execHourTick s)) ∧ KeepsStore s (after u
    (execHourTick s)) ∧ KeepsHost s (after u (execHourTick s)) ∧ KeepsChip s (after u (execHourTick s)) := by
  generalize ht : after u (execHourTick s) = t
  unfold execHourTick at ht
  try dsimp only at ht
  (repeat' split at ht) <;> (try simp only [after_answer, after_next] at ht) <;> (repeat' split at ht) <;> subst ht <;>
    simp [State.count_frame _]

theorem execClearStats_frame (src : Source) (s : State) (u : State) : (after u (execClearStats src s)).pending =
    s.pending ∧ (after u (execClearStats src s)).posted = s.posted ∧ (after u (execClearStats src s)).late = s.late ∧
    (after u (execClearStats src s)).isolated = s.isolated ∧ (after u (execClearStats src s)).failedCores =
    s.failedCores ∧ (after u (execClearStats src s)).mtf = s.mtf ∧ (after u (execClearStats src s)).mat = s.mat ∧ (after
    u (execClearStats src s)).mules = s.mules ∧ (after u (execClearStats src s)).sdram = s.sdram ∧ (after u
    (execClearStats src s)).ram = s.ram ∧ KeepsSpace s (after u (execClearStats src s)) ∧ KeepsStore s (after u
    (execClearStats src s)) ∧ KeepsHost s (after u (execClearStats src s)) ∧ KeepsChip s (after u (execClearStats src
    s)) := by
  generalize ht : after u (execClearStats src s) = t
  unfold execClearStats at ht
  try dsimp only at ht
  (repeat' split at ht) <;> (try simp only [after_answer, after_next] at ht) <;> (repeat' split at ht) <;> subst ht <;>
    simp [State.access_frame _, State.keyed_frame _, State.raise_frame _]

theorem execThermalSample_frame (temp : Half) (cooled tripped : Bool) (s : State) (u : State) : KeepsBase s
    (after u (execThermalSample temp cooled tripped s)) ∧ (after u (execThermalSample temp cooled tripped s)).nss =
    s.nss ∧ (after u (execThermalSample temp cooled tripped s)).deferred = s.deferred ∧ (after u (execThermalSample temp
    cooled tripped s)).herd = s.herd ∧ (after u (execThermalSample temp cooled tripped s)).map = s.map ∧ (after u
    (execThermalSample temp cooled tripped s)).place = s.place ∧ (after u (execThermalSample temp cooled tripped
    s)).cmds = s.cmds ∧ (after u (execThermalSample temp cooled tripped s)).boot.fuses = s.boot.fuses ∧ (after u
    (execThermalSample temp cooled tripped s)).pins.resetLow = s.pins.resetLow ∧ (after u (execThermalSample temp cooled
    tripped s)).pins.frozen = s.pins.frozen := by
  generalize ht : after u (execThermalSample temp cooled tripped s) = t
  unfold execThermalSample at ht
  try dsimp only at ht
  (repeat' split at ht) <;> (try simp only [after_answer, after_next] at ht) <;> (repeat' split at ht) <;> subst ht <;>
    simp [State.haltNow_chip _, State.haltNow_frame _, State.reason_frame _, State.setFld_frame _]

theorem execThermtrip_frame (s : State) (u : State) : KeepsBase s (after u (execThermtrip s)) ∧ KeepsNotes s
    (after u (execThermtrip s)) ∧ KeepsSpace s (after u (execThermtrip s)) ∧ KeepsStore s (after u (execThermtrip s)) ∧
    KeepsHost s (after u (execThermtrip s)) ∧ (after u (execThermtrip s)).boot = s.boot ∧ (after u (execThermtrip
    s)).pins.resetLow = s.pins.resetLow ∧ (after u (execThermtrip s)).pins.frozen = s.pins.frozen := by
  generalize ht : after u (execThermtrip s) = t
  unfold execThermtrip at ht
  try dsimp only at ht
  (repeat' split at ht) <;> (try simp only [after_answer, after_next] at ht) <;> (repeat' split at ht) <;> subst ht <;>
    simp

theorem execFreezeN_frame (s : State) (u : State) : KeepsBase s (after u (execFreezeN s)) ∧ KeepsSpace s (after
    u (execFreezeN s)) ∧ KeepsStore s (after u (execFreezeN s)) ∧ (after u (execFreezeN s)).cmds = s.cmds ∧ (after u
    (execFreezeN s)).pools = s.pools ∧ (after u (execFreezeN s)).boot = s.boot ∧ (after u (execFreezeN s)).pins.resetLow
    = s.pins.resetLow := by
  generalize ht : after u (execFreezeN s) = t
  unfold execFreezeN at ht
  try dsimp only at ht
  (repeat' split at ht) <;> (try simp only [after_answer, after_next] at ht) <;> (repeat' split at ht) <;> subst ht <;>
    simp [State.freeze_chip _, State.freeze_frame _]

theorem execFreezeRequest_frame (src : Source) (s : State) (u : State) : (after u (execFreezeRequest src
    s)).pending = s.pending ∧ (after u (execFreezeRequest src s)).posted = s.posted ∧ (after u (execFreezeRequest src
    s)).late = s.late ∧ (after u (execFreezeRequest src s)).isolated = s.isolated ∧ (after u (execFreezeRequest src
    s)).failedCores = s.failedCores ∧ (after u (execFreezeRequest src s)).mtf = s.mtf ∧ (after u (execFreezeRequest src
    s)).mat = s.mat ∧ (after u (execFreezeRequest src s)).mules = s.mules ∧ (after u (execFreezeRequest src s)).sdram =
    s.sdram ∧ (after u (execFreezeRequest src s)).ram = s.ram ∧ KeepsSpace s (after u (execFreezeRequest src s)) ∧
    KeepsStore s (after u (execFreezeRequest src s)) ∧ (after u (execFreezeRequest src s)).cmds = s.cmds ∧ (after u
    (execFreezeRequest src s)).pools = s.pools ∧ (after u (execFreezeRequest src s)).boot = s.boot ∧ (after u
    (execFreezeRequest src s)).pins.resetLow = s.pins.resetLow := by
  generalize ht : after u (execFreezeRequest src s) = t
  unfold execFreezeRequest at ht
  try dsimp only at ht
  (repeat' split at ht) <;> (try simp only [after_answer, after_next] at ht) <;> (repeat' split at ht) <;> subst ht <;>
    first
      | (simp [State.access_chip _, State.access_frame _, State.freeze_chip _, State.freeze_frame _, State.keyed_chip _, State.keyed_frame _]; done)
      | (simp (disch := (intros; (try dsimp only); (repeat' split) <;> (try simp [*, State.access_chip _, State.access_frame _, State.freeze_chip _, State.freeze_frame _, State.keyed_chip _, State.keyed_frame _]))) [State.access_chip _, State.access_frame _, State.freeze_chip _, State.freeze_frame _, State.keyed_chip _, State.keyed_frame _]; done)
      | (simp (disch := (intros; simp (disch := (intros; (try dsimp only); (repeat' split) <;> (try simp [*, State.access_chip _, State.access_frame _, State.freeze_chip _, State.freeze_frame _, State.keyed_chip _, State.keyed_frame _]))) [State.access_chip _, State.access_frame _, State.freeze_chip _, State.freeze_frame _, State.keyed_chip _, State.keyed_frame _])) [State.access_chip _, State.access_frame _, State.freeze_chip _, State.freeze_frame _, State.keyed_chip _, State.keyed_frame _]; done)

theorem execTapOperation_frame (op : TapOp) (s : State) (u : State) : KeepsBase s (after u (execTapOperation op
    s)) ∧ (after u (execTapOperation op s)).free = s.free ∧ (after u (execTapOperation op s)).regs = s.regs ∧ (after u
    (execTapOperation op s)).stat = s.stat ∧ (after u (execTapOperation op s)).evlog = s.evlog ∧ KeepsSpace s (after u
    (execTapOperation op s)) ∧ KeepsStore s (after u (execTapOperation op s)) ∧ KeepsHost s (after u (execTapOperation
    op s)) ∧ KeepsChip s (after u (execTapOperation op s)) := by
  generalize ht : after u (execTapOperation op s) = t
  unfold execTapOperation at ht
  try dsimp only at ht
  (repeat' split at ht) <;> (try simp only [after_answer, after_next] at ht) <;> (repeat' split at ht) <;> subst ht <;>
    simp [State.emit_frame _]

end Sys2Proof.Machine
end

