-- ==== Sys2Proof/Laws/FramesViews.lean ====
section
/-! SUPPORT. What the functions of register writes and the Management Task File, with their commands leave unchanged: one lemma for each, which lists the parts of the
state that it keeps. -/

namespace Sys2Proof.Machine

open Sys2Proof

set_option linter.all false

/-! ## Machine/Views -/

theorem State.followRow_frame (s : State) (old : State) (row : RegRow) (i : Nat) : KeepsBase s (State.followRow
    s old row i) ∧ (State.followRow s old row i).boot.fuses = s.boot.fuses ∧ (State.followRow s old row i).pins.resetLow
    = s.pins.resetLow ∧ (State.followRow s old row i).pins.frozen = s.pins.frozen := by
  unfold State.followRow
  dsimp only
  (repeat' split) <;> simp [State.distrust_frame _, State.followCapacity_frame _, State.followHotForce_frame _,
      State.followPeerPorts_frame _, State.followPool_frame _, State.losePlane_frame _, State.reviewFences_frame _,
      State.settleAreas_frame _, State.wakeHerd_frame _]

theorem State.freeBytes_frame (s : State) (n : Nat) : KeepsBase s (State.freeBytes s n).2 ∧ (State.freeBytes s
    n).2.out = s.out ∧ (State.freeBytes s n).2.regs = s.regs ∧ (State.freeBytes s n).2.stat = s.stat ∧ (State.freeBytes
    s n).2.evlog = s.evlog ∧ KeepsSpace s (State.freeBytes s n).2 ∧ KeepsStore s (State.freeBytes s n).2 ∧ KeepsHost s
    (State.freeBytes s n).2 ∧ KeepsChip s (State.freeBytes s n).2 := by
  simp [State.freeBytes]

theorem State.writeTcmd_frame (s : State) (src : Source) (ch : Nat) (v : DWord) : KeepsBase s (State.writeTcmd s
    src ch v) ∧ KeepsSpace s (State.writeTcmd s src ch v) ∧ KeepsStore s (State.writeTcmd s src ch v) ∧ KeepsHost s
    (State.writeTcmd s src ch v) ∧ KeepsChip s (State.writeTcmd s src ch v) := by
  unfold State.writeTcmd
  (repeat' split) <;> simp [State.takeFree_frame _, execTcmdMpc_frame _, execTcmdMrr_frame _, execTcmdMrw_frame _,
      execTcmdPatternCompare_frame _, execTcmdPatternWrite_frame _]

theorem State.writeMatCmd_frame (s : State) (src : Source) (v : DWord) : (State.writeMatCmd s src v).pending =
    s.pending ∧ (State.writeMatCmd s src v).armed = s.armed ∧ (State.writeMatCmd s src v).posted = s.posted ∧
    (State.writeMatCmd s src v).late = s.late ∧ (State.writeMatCmd s src v).isolated = s.isolated ∧ (State.writeMatCmd s
    src v).failedCores = s.failedCores ∧ (State.writeMatCmd s src v).mtf = s.mtf ∧ (State.writeMatCmd s src v).mules =
    s.mules ∧ (State.writeMatCmd s src v).sdram = s.sdram ∧ (State.writeMatCmd s src v).ram = s.ram ∧ KeepsSpace s
    (State.writeMatCmd s src v) ∧ KeepsStore s (State.writeMatCmd s src v) ∧ KeepsHost s (State.writeMatCmd s src v) ∧
    KeepsChip s (State.writeMatCmd s src v) := by
  unfold State.writeMatCmd
  (repeat' split) <;> simp [State.matRefuse_frame _, execMatDelete_frame _, execMatInsert_frame _,
      execMatInvalidate_frame _, execMatLookup_frame _, execMatRead_frame _, execMatWrite_frame _]

theorem State.writeRing_frame (s : State) (src : Source) (r : Nat) (v : DWord) : (State.writeRing s src r
    v).pending = s.pending ∧ (State.writeRing s src r v).armed = s.armed ∧ (State.writeRing s src r v).posted = s.posted
    ∧ (State.writeRing s src r v).late = s.late ∧ (State.writeRing s src r v).isolated = s.isolated ∧ (State.writeRing s
    src r v).failedCores = s.failedCores ∧ (State.writeRing s src r v).mtf = s.mtf ∧ (State.writeRing s src r v).mat =
    s.mat ∧ (State.writeRing s src r v).sdram = s.sdram ∧ (State.writeRing s src r v).ram = s.ram ∧ KeepsSpace s
    (State.writeRing s src r v) ∧ KeepsStore s (State.writeRing s src r v) ∧ (State.writeRing s src r v).cmds = s.cmds ∧
    (State.writeRing s src r v).hosts = s.hosts ∧ KeepsChip s (State.writeRing s src r v) := by
  unfold State.writeRing
  (repeat' split) <;> simp [execMuleRingDisable_frame _, execMuleRingEnable_frame _, execMuleRingKick_frame _,
      execMuleRingResume_frame _]

theorem State.writeCarCmd_frame (s : State) (src : Source) (c : Nat) (v : DWord) : KeepsBase s
    (State.writeCarCmd s src c v) ∧ (State.writeCarCmd s src c v).deferred = s.deferred ∧ (State.writeCarCmd s src c
    v).herd = s.herd ∧ (State.writeCarCmd s src c v).map = s.map ∧ (State.writeCarCmd s src c v).cmds = s.cmds ∧
    (State.writeCarCmd s src c v).boot = s.boot ∧ (State.writeCarCmd s src c v).pins.resetLow = s.pins.resetLow ∧
    (State.writeCarCmd s src c v).pins.frozen = s.pins.frozen := by
  unfold State.writeCarCmd
  (repeat' split) <;> simp [execCarrierCancel_frame _, execCarrierInsert_frame _, execCarrierLocate_frame _,
      execCarrierRemove_frame _]

theorem State.ownWrite_frame (s : State) (src : Source) (row : RegRow) (i : Nat) (wm : DWord) (v : DWord) :
    (s.ownWrite src row i wm v).pending = s.pending ∧ (s.ownWrite src row i wm v).posted = s.posted ∧ (s.ownWrite src
    row i wm v).late = s.late ∧ (s.ownWrite src row i wm v).isolated = s.isolated ∧ (s.ownWrite src row i wm
    v).failedCores = s.failedCores ∧ (s.ownWrite src row i wm v).mtf = s.mtf ∧ (s.ownWrite src row i wm v).pins.resetLow
    = s.pins.resetLow := by
  unfold State.ownWrite
  dsimp only
  (repeat' split) <;> simp [State.freeBytes_frame _, State.keyed_frame _, State.takeFree_frame _, State.writeAck_frame
      _, State.writeCarCmd_frame _, State.writeKeyAt_frame _, State.writeMatCmd_frame _, State.writeRing_frame _,
      State.writeTcmd_frame _, execBpmAllocRequest_frame _, execBpmRelease_frame _, execChnCheadWrite_frame _,
      execChnRateTargetWrite_frame _, execChnRetrain_frame _, execClearStats_frame _, execEthertypeWrite_frame _,
      execFreezeRequest_frame _, execFunctionDisable_frame _, execFunctionEnable_frame _, execFuseProgram_frame _,
      execGrdLockWrite_frame _, execHrdMacWrite_frame _, execHrdPortAnWrite_frame _, execHstMaxrateWrite_frame _,
      execK7Start_frame _, execMchScratchWrite_frame _, execSdcModeWrite_frame _]

theorem State.writeReg_frame (s : State) (src : Source) (a : Nat) (size : Nat) (v : DWord) : (s.writeReg src a
    size v).pending = s.pending ∧ (s.writeReg src a size v).posted = s.posted ∧ (s.writeReg src a size v).late = s.late
    ∧ (s.writeReg src a size v).isolated = s.isolated ∧ (s.writeReg src a size v).failedCores = s.failedCores ∧
    (s.writeReg src a size v).mtf = s.mtf ∧ (s.writeReg src a size v).pins.resetLow = s.pins.resetLow := by
  unfold State.writeReg
  dsimp only
  (repeat' split) <;> simp [State.followGen_frame _, State.followRow_frame _, State.ownWrite_frame _,
      State.writeGeneric_frame _]

/-! ## Machine/Mtf -/

theorem State.setResult_frame (s : State) (i : Nat) (v : Nat) : KeepsBase s (State.setResult s i v) ∧
    (State.setResult s i v).free = s.free ∧ (State.setResult s i v).out = s.out ∧ (State.setResult s i v).stat = s.stat
    ∧ (State.setResult s i v).evlog = s.evlog ∧ KeepsSpace s (State.setResult s i v) ∧ KeepsStore s (State.setResult s i
    v) ∧ KeepsHost s (State.setResult s i v) ∧ KeepsChip s (State.setResult s i v) := by
  simp [State.setResult, State.setReg_frame _]

theorem State.setResult64_frame (s : State) (i : Nat) (v : Nat) : KeepsBase s (State.setResult64 s i v) ∧
    (State.setResult64 s i v).free = s.free ∧ (State.setResult64 s i v).out = s.out ∧ (State.setResult64 s i v).stat =
    s.stat ∧ (State.setResult64 s i v).evlog = s.evlog ∧ KeepsSpace s (State.setResult64 s i v) ∧ KeepsStore s
    (State.setResult64 s i v) ∧ KeepsHost s (State.setResult64 s i v) ∧ KeepsChip s (State.setResult64 s i v) := by
  simp [State.setResult64, State.setResult_frame _]

theorem State.setTaskData_frame (s : State) (l : List Byte) : KeepsBase s (State.setTaskData s l) ∧
    (State.setTaskData s l).free = s.free ∧ (State.setTaskData s l).out = s.out ∧ (State.setTaskData s l).stat = s.stat
    ∧ (State.setTaskData s l).evlog = s.evlog ∧ KeepsSpace s (State.setTaskData s l) ∧ KeepsStore s (State.setTaskData s
    l) ∧ KeepsHost s (State.setTaskData s l) ∧ KeepsChip s (State.setTaskData s l) := by
  simp [State.setTaskData, State.setReg_frame _]

theorem State.taskDone_frame (s : State) (status : Nat) : (State.taskDone s status).pending = s.pending ∧
    (State.taskDone s status).armed = s.armed ∧ (State.taskDone s status).posted = s.posted ∧ (State.taskDone s
    status).late = s.late ∧ (State.taskDone s status).isolated = s.isolated ∧ (State.taskDone s status).failedCores =
    s.failedCores ∧ (State.taskDone s status).mat = s.mat ∧ (State.taskDone s status).mules = s.mules ∧ (State.taskDone
    s status).sdram = s.sdram ∧ (State.taskDone s status).ram = s.ram ∧ (State.taskDone s status).free = s.free ∧
    (State.taskDone s status).out = s.out ∧ (State.taskDone s status).stat = s.stat ∧ (State.taskDone s status).evlog =
    s.evlog ∧ KeepsSpace s (State.taskDone s status) ∧ KeepsStore s (State.taskDone s status) ∧ KeepsHost s
    (State.taskDone s status) ∧ KeepsChip s (State.taskDone s status) := by
  simp [State.taskDone, State.setFld_frame _]

theorem State.badArg_frame (s : State) (i : Nat) : (State.badArg s i).pending = s.pending ∧ (State.badArg s
    i).armed = s.armed ∧ (State.badArg s i).posted = s.posted ∧ (State.badArg s i).late = s.late ∧ (State.badArg s
    i).isolated = s.isolated ∧ (State.badArg s i).failedCores = s.failedCores ∧ (State.badArg s i).mat = s.mat ∧
    (State.badArg s i).mules = s.mules ∧ (State.badArg s i).sdram = s.sdram ∧ (State.badArg s i).ram = s.ram ∧
    (State.badArg s i).free = s.free ∧ (State.badArg s i).out = s.out ∧ (State.badArg s i).stat = s.stat ∧ (State.badArg
    s i).evlog = s.evlog ∧ KeepsSpace s (State.badArg s i) ∧ KeepsStore s (State.badArg s i) ∧ KeepsHost s (State.badArg
    s i) ∧ KeepsChip s (State.badArg s i) := by
  simp [State.badArg, State.setResult_frame _, State.taskDone_frame _]

theorem State.accessFailed_frame (s : State) (cause : Nat) : (State.accessFailed s cause).pending = s.pending ∧
    (State.accessFailed s cause).armed = s.armed ∧ (State.accessFailed s cause).posted = s.posted ∧ (State.accessFailed
    s cause).late = s.late ∧ (State.accessFailed s cause).isolated = s.isolated ∧ (State.accessFailed s
    cause).failedCores = s.failedCores ∧ (State.accessFailed s cause).mat = s.mat ∧ (State.accessFailed s cause).mules =
    s.mules ∧ (State.accessFailed s cause).sdram = s.sdram ∧ (State.accessFailed s cause).ram = s.ram ∧
    (State.accessFailed s cause).free = s.free ∧ (State.accessFailed s cause).out = s.out ∧ (State.accessFailed s
    cause).stat = s.stat ∧ (State.accessFailed s cause).evlog = s.evlog ∧ KeepsSpace s (State.accessFailed s cause) ∧
    KeepsStore s (State.accessFailed s cause) ∧ KeepsHost s (State.accessFailed s cause) ∧ KeepsChip s
    (State.accessFailed s cause) := by
  simp [State.accessFailed, State.setResult_frame _, State.taskDone_frame _]

theorem State.ccpDone_frame (s : State) (x : Status) : (State.ccpDone s x).pending = s.pending ∧ (State.ccpDone
    s x).armed = s.armed ∧ (State.ccpDone s x).posted = s.posted ∧ (State.ccpDone s x).late = s.late ∧ (State.ccpDone s
    x).isolated = s.isolated ∧ (State.ccpDone s x).failedCores = s.failedCores ∧ (State.ccpDone s x).mat = s.mat ∧
    (State.ccpDone s x).mules = s.mules ∧ (State.ccpDone s x).sdram = s.sdram ∧ (State.ccpDone s x).ram = s.ram ∧
    (State.ccpDone s x).free = s.free ∧ (State.ccpDone s x).out = s.out ∧ (State.ccpDone s x).stat = s.stat ∧
    (State.ccpDone s x).evlog = s.evlog ∧ KeepsSpace s (State.ccpDone s x) ∧ KeepsStore s (State.ccpDone s x) ∧
    KeepsHost s (State.ccpDone s x) ∧ KeepsChip s (State.ccpDone s x) := by
  unfold State.ccpDone
  (repeat' split) <;> simp [State.setResult64_frame _, State.setResult_frame _, State.taskDone_frame _]

theorem State.taskGo_frame (s : State) (endpoint : Nat) (w : Word) : (State.taskGo s endpoint w).pending =
    s.pending ∧ (State.taskGo s endpoint w).armed = s.armed ∧ (State.taskGo s endpoint w).posted = s.posted ∧
    (State.taskGo s endpoint w).late = s.late ∧ (State.taskGo s endpoint w).isolated = s.isolated ∧ (State.taskGo s
    endpoint w).failedCores = s.failedCores ∧ (State.taskGo s endpoint w).mat = s.mat ∧ (State.taskGo s endpoint
    w).mules = s.mules ∧ (State.taskGo s endpoint w).sdram = s.sdram ∧ (State.taskGo s endpoint w).ram = s.ram ∧
    (State.taskGo s endpoint w).free = s.free ∧ (State.taskGo s endpoint w).out = s.out ∧ (State.taskGo s endpoint
    w).stat = s.stat ∧ (State.taskGo s endpoint w).evlog = s.evlog ∧ KeepsSpace s (State.taskGo s endpoint w) ∧
    KeepsStore s (State.taskGo s endpoint w) ∧ KeepsHost s (State.taskGo s endpoint w) ∧ KeepsChip s (State.taskGo s
    endpoint w) := by
  unfold State.taskGo
  dsimp only
  (repeat' split) <;> simp [State.setFld_frame _, State.taskDone_frame _]

theorem State.taskAck_frame (s : State) : (State.taskAck s).pending = s.pending ∧ (State.taskAck s).armed =
    s.armed ∧ (State.taskAck s).posted = s.posted ∧ (State.taskAck s).late = s.late ∧ (State.taskAck s).isolated =
    s.isolated ∧ (State.taskAck s).failedCores = s.failedCores ∧ (State.taskAck s).mat = s.mat ∧ (State.taskAck s).mules
    = s.mules ∧ (State.taskAck s).sdram = s.sdram ∧ (State.taskAck s).ram = s.ram ∧ (State.taskAck s).free = s.free ∧
    (State.taskAck s).out = s.out ∧ (State.taskAck s).stat = s.stat ∧ (State.taskAck s).evlog = s.evlog ∧ KeepsSpace s
    (State.taskAck s) ∧ KeepsStore s (State.taskAck s) ∧ KeepsHost s (State.taskAck s) ∧ KeepsChip s (State.taskAck s)
    := by
  simp [State.taskAck, State.setFld_frame _]

theorem State.taskWord_frame (s : State) (endpoint : Nat) (o : Nat) (w : Word) : (State.taskWord s endpoint o
    w).pending = s.pending ∧ (State.taskWord s endpoint o w).armed = s.armed ∧ (State.taskWord s endpoint o w).posted =
    s.posted ∧ (State.taskWord s endpoint o w).late = s.late ∧ (State.taskWord s endpoint o w).isolated = s.isolated ∧
    (State.taskWord s endpoint o w).failedCores = s.failedCores ∧ (State.taskWord s endpoint o w).mat = s.mat ∧
    (State.taskWord s endpoint o w).mules = s.mules ∧ (State.taskWord s endpoint o w).sdram = s.sdram ∧ (State.taskWord
    s endpoint o w).ram = s.ram ∧ (State.taskWord s endpoint o w).free = s.free ∧ (State.taskWord s endpoint o w).out =
    s.out ∧ (State.taskWord s endpoint o w).stat = s.stat ∧ (State.taskWord s endpoint o w).evlog = s.evlog ∧ KeepsSpace
    s (State.taskWord s endpoint o w) ∧ KeepsStore s (State.taskWord s endpoint o w) ∧ KeepsHost s (State.taskWord s
    endpoint o w) ∧ KeepsChip s (State.taskWord s endpoint o w) := by
  unfold State.taskWord
  (repeat' split) <;> simp [State.setFld_frame _, State.setReg_frame _, State.taskAck_frame _, State.taskGo_frame _]

theorem State.taskReject_frame (s : State) (endpoint : Nat) (o : Nat) : KeepsBase s (State.taskReject s endpoint
    o) ∧ KeepsSpace s (State.taskReject s endpoint o) ∧ KeepsStore s (State.taskReject s endpoint o) ∧ KeepsHost s
    (State.taskReject s endpoint o) ∧ KeepsChip s (State.taskReject s endpoint o) := by
  simp [State.taskReject, State.count_frame _, State.emit_frame _, State.record_frame _]

theorem State.taskWrite_frame (s : State) (endpoint : Nat) (o : Nat) (l : List Word) : (State.taskWrite s
    endpoint o l).pending = s.pending ∧ (State.taskWrite s endpoint o l).armed = s.armed ∧ (State.taskWrite s endpoint o
    l).posted = s.posted ∧ (State.taskWrite s endpoint o l).late = s.late ∧ (State.taskWrite s endpoint o l).isolated =
    s.isolated ∧ (State.taskWrite s endpoint o l).failedCores = s.failedCores ∧ (State.taskWrite s endpoint o l).mat =
    s.mat ∧ (State.taskWrite s endpoint o l).mules = s.mules ∧ (State.taskWrite s endpoint o l).sdram = s.sdram ∧
    (State.taskWrite s endpoint o l).ram = s.ram ∧ KeepsSpace s (State.taskWrite s endpoint o l) ∧ KeepsStore s
    (State.taskWrite s endpoint o l) ∧ KeepsHost s (State.taskWrite s endpoint o l) ∧ KeepsChip s (State.taskWrite s
    endpoint o l) := by
  unfold State.taskWrite
  dsimp only
  (repeat' split) <;> simp [State.emit_frame _, State.taskReject_frame _, State.taskWord_frame _]

theorem State.taskRead_frame (s : State) (endpoint : Nat) (o : Nat) (n : Nat) : KeepsBase s (State.taskRead s
    endpoint o n) ∧ (State.taskRead s endpoint o n).free = s.free ∧ (State.taskRead s endpoint o n).regs = s.regs ∧
    (State.taskRead s endpoint o n).stat = s.stat ∧ (State.taskRead s endpoint o n).evlog = s.evlog ∧ KeepsSpace s
    (State.taskRead s endpoint o n) ∧ KeepsStore s (State.taskRead s endpoint o n) ∧ KeepsHost s (State.taskRead s
    endpoint o n) ∧ KeepsChip s (State.taskRead s endpoint o n) := by
  unfold State.taskRead
  dsimp only
  (repeat' split) <;> simp [State.emit_frame _]

theorem State.taskAccess_frame (s : State) (x : Crossing) (write : Bool) (f : State → State) : ((∀ x, (f
    x).pending = x.pending) → (State.taskAccess s x write f).pending = s.pending) ∧ ((∀ x, (f x).armed = x.armed) →
    (State.taskAccess s x write f).armed = s.armed) ∧ ((∀ x, (f x).posted = x.posted) → (State.taskAccess s x write
    f).posted = s.posted) ∧ ((∀ x, (f x).late = x.late) → (State.taskAccess s x write f).late = s.late) ∧ ((∀ x, (f
    x).isolated = x.isolated) → (State.taskAccess s x write f).isolated = s.isolated) ∧ ((∀ x, (f x).failedCores =
    x.failedCores) → (State.taskAccess s x write f).failedCores = s.failedCores) ∧ ((∀ x, (f x).mat = x.mat) →
    (State.taskAccess s x write f).mat = s.mat) ∧ ((∀ x, (f x).mules = x.mules) → (State.taskAccess s x write f).mules =
    s.mules) ∧ ((∀ x, (f x).sdram = x.sdram) → (State.taskAccess s x write f).sdram = s.sdram) ∧ ((∀ x, (f x).ram =
    x.ram) → (State.taskAccess s x write f).ram = s.ram) ∧ ThruSpace f s (State.taskAccess s x write f) ∧ ThruStore f s
    (State.taskAccess s x write f) ∧ ThruHost f s (State.taskAccess s x write f) ∧ ThruChip f s (State.taskAccess s x
    write f) := by
  unfold State.taskAccess
  dsimp only
  (repeat' split) <;> simp +contextual [State.accessFailed_frame _, State.badArg_frame _, State.errorResponse_frame _,
      State.setResult64_frame _, State.taskDone_frame _]

theorem State.takeAddress_frame (s : State) (a : BitVec 7) : (State.takeAddress s a).pending = s.pending ∧
    (State.takeAddress s a).armed = s.armed ∧ (State.takeAddress s a).posted = s.posted ∧ (State.takeAddress s a).late =
    s.late ∧ (State.takeAddress s a).isolated = s.isolated ∧ (State.takeAddress s a).failedCores = s.failedCores ∧
    (State.takeAddress s a).mat = s.mat ∧ (State.takeAddress s a).mules = s.mules ∧ (State.takeAddress s a).sdram =
    s.sdram ∧ (State.takeAddress s a).ram = s.ram ∧ KeepsNotes s (State.takeAddress s a) ∧ KeepsSpace s
    (State.takeAddress s a) ∧ KeepsStore s (State.takeAddress s a) ∧ KeepsHost s (State.takeAddress s a) ∧ KeepsChip s
    (State.takeAddress s a) := by
  unfold State.takeAddress
  (repeat' split) <;> simp

theorem execRegisterWrite_frame (src : Source) (addr size : Nat) (value : DWord) (x : Crossing) (s : State) (u :
    State) : (after u (execRegisterWrite src addr size value x s)).pending = s.pending ∧ (after u (execRegisterWrite src
    addr size value x s)).late = s.late ∧ (after u (execRegisterWrite src addr size value x s)).isolated = s.isolated ∧
    (after u (execRegisterWrite src addr size value x s)).failedCores = s.failedCores ∧ (after u (execRegisterWrite src
    addr size value x s)).mtf = s.mtf ∧ (after u (execRegisterWrite src addr size value x s)).pins.resetLow =
    s.pins.resetLow := by
  generalize ht : after u (execRegisterWrite src addr size value x s) = t
  unfold execRegisterWrite at ht
  try dsimp only at ht
  (repeat' split at ht) <;> (try simp only [after_answer, after_next] at ht) <;> (repeat' split at ht) <;> subst ht <;>
    first
      | (simp [State.access_chip _, State.access_frame _, State.emit_frame _, State.writeReg_frame _]; done)
      | (simp (disch := (intros; (try dsimp only); (repeat' split) <;> (try simp [*, State.access_chip _, State.access_frame _, State.emit_frame _, State.writeReg_frame _]))) [State.access_chip _, State.access_frame _, State.emit_frame _, State.writeReg_frame _]; done)

theorem execStalledWriteApply_frame (p : Port) (island : Nat) (s : State) (u : State) : (after u
    (execStalledWriteApply p island s)).pending = s.pending ∧ (after u (execStalledWriteApply p island s)).isolated =
    s.isolated ∧ (after u (execStalledWriteApply p island s)).failedCores = s.failedCores ∧ (after u
    (execStalledWriteApply p island s)).mtf = s.mtf ∧ (after u (execStalledWriteApply p island s)).pins.resetLow =
    s.pins.resetLow := by
  generalize ht : after u (execStalledWriteApply p island s) = t
  unfold execStalledWriteApply at ht
  try dsimp only at ht
  (repeat' split at ht) <;> (try simp only [after_answer, after_next] at ht) <;> (repeat' split at ht) <;> subst ht <;>
    simp [State.writeReg_frame _]

theorem execMtfMessage_frame (endpoint : Nat) (op : MtfOp) (s : State) (u : State) : (after u (execMtfMessage
    endpoint op s)).pending = s.pending ∧ (after u (execMtfMessage endpoint op s)).armed = s.armed ∧ (after u
    (execMtfMessage endpoint op s)).posted = s.posted ∧ (after u (execMtfMessage endpoint op s)).late = s.late ∧ (after
    u (execMtfMessage endpoint op s)).isolated = s.isolated ∧ (after u (execMtfMessage endpoint op s)).failedCores =
    s.failedCores ∧ (after u (execMtfMessage endpoint op s)).mat = s.mat ∧ (after u (execMtfMessage endpoint op
    s)).mules = s.mules ∧ (after u (execMtfMessage endpoint op s)).sdram = s.sdram ∧ (after u (execMtfMessage endpoint
    op s)).ram = s.ram ∧ KeepsSpace s (after u (execMtfMessage endpoint op s)) ∧ KeepsStore s (after u (execMtfMessage
    endpoint op s)) ∧ KeepsHost s (after u (execMtfMessage endpoint op s)) ∧ KeepsChip s (after u (execMtfMessage
    endpoint op s)) := by
  generalize ht : after u (execMtfMessage endpoint op s) = t
  unfold execMtfMessage at ht
  try dsimp only at ht
  (repeat' split at ht) <;> (try simp only [after_answer, after_next] at ht) <;> (repeat' split at ht) <;> subst ht <;>
    simp [State.taskRead_frame _, State.taskWrite_frame _]

theorem execMtfTaskAck_frame (endpoint : Nat) (s : State) (u : State) : (after u (execMtfTaskAck endpoint
    s)).pending = s.pending ∧ (after u (execMtfTaskAck endpoint s)).armed = s.armed ∧ (after u (execMtfTaskAck endpoint
    s)).posted = s.posted ∧ (after u (execMtfTaskAck endpoint s)).late = s.late ∧ (after u (execMtfTaskAck endpoint
    s)).isolated = s.isolated ∧ (after u (execMtfTaskAck endpoint s)).failedCores = s.failedCores ∧ (after u
    (execMtfTaskAck endpoint s)).mat = s.mat ∧ (after u (execMtfTaskAck endpoint s)).mules = s.mules ∧ (after u
    (execMtfTaskAck endpoint s)).sdram = s.sdram ∧ (after u (execMtfTaskAck endpoint s)).ram = s.ram ∧ KeepsSpace s
    (after u (execMtfTaskAck endpoint s)) ∧ KeepsStore s (after u (execMtfTaskAck endpoint s)) ∧ KeepsHost s (after u
    (execMtfTaskAck endpoint s)) ∧ KeepsChip s (after u (execMtfTaskAck endpoint s)) := by
  generalize ht : after u (execMtfTaskAck endpoint s) = t
  unfold execMtfTaskAck at ht
  try dsimp only at ht
  (repeat' split at ht) <;> (try simp only [after_answer, after_next] at ht) <;> (repeat' split at ht) <;> subst ht <;>
    simp [State.taskWrite_frame _]

theorem execMtfResultExpire_frame (s : State) (u : State) : (after u (execMtfResultExpire s)).pending =
    s.pending ∧ (after u (execMtfResultExpire s)).armed = s.armed ∧ (after u (execMtfResultExpire s)).posted = s.posted
    ∧ (after u (execMtfResultExpire s)).late = s.late ∧ (after u (execMtfResultExpire s)).isolated = s.isolated ∧ (after
    u (execMtfResultExpire s)).failedCores = s.failedCores ∧ (after u (execMtfResultExpire s)).mat = s.mat ∧ (after u
    (execMtfResultExpire s)).mules = s.mules ∧ (after u (execMtfResultExpire s)).sdram = s.sdram ∧ (after u
    (execMtfResultExpire s)).ram = s.ram ∧ KeepsNotes s (after u (execMtfResultExpire s)) ∧ KeepsSpace s (after u
    (execMtfResultExpire s)) ∧ KeepsStore s (after u (execMtfResultExpire s)) ∧ KeepsHost s (after u
    (execMtfResultExpire s)) ∧ KeepsChip s (after u (execMtfResultExpire s)) := by
  generalize ht : after u (execMtfResultExpire s) = t
  unfold execMtfResultExpire at ht
  try dsimp only at ht
  (repeat' split at ht) <;> (try simp only [after_answer, after_next] at ht) <;> (repeat' split at ht) <;> subst ht <;>
    simp

theorem execMtfHello_frame (s : State) (u : State) : (after u (execMtfHello s)).pending = s.pending ∧ (after u
    (execMtfHello s)).armed = s.armed ∧ (after u (execMtfHello s)).posted = s.posted ∧ (after u (execMtfHello s)).late =
    s.late ∧ (after u (execMtfHello s)).isolated = s.isolated ∧ (after u (execMtfHello s)).failedCores = s.failedCores ∧
    (after u (execMtfHello s)).mat = s.mat ∧ (after u (execMtfHello s)).mules = s.mules ∧ (after u (execMtfHello
    s)).sdram = s.sdram ∧ (after u (execMtfHello s)).ram = s.ram ∧ (after u (execMtfHello s)).free = s.free ∧ (after u
    (execMtfHello s)).out = s.out ∧ (after u (execMtfHello s)).stat = s.stat ∧ (after u (execMtfHello s)).evlog =
    s.evlog ∧ KeepsSpace s (after u (execMtfHello s)) ∧ KeepsStore s (after u (execMtfHello s)) ∧ KeepsHost s (after u
    (execMtfHello s)) ∧ KeepsChip s (after u (execMtfHello s)) := by
  generalize ht : after u (execMtfHello s) = t
  unfold execMtfHello State.task at ht
  try dsimp only at ht
  (repeat' split at ht) <;> (try simp only [after_answer, after_next] at ht) <;> (repeat' split at ht) <;> subst ht <;>
    simp [State.setResult_frame _, State.taskDone_frame _]

theorem execMtfIdentify_frame (s : State) (u : State) : (after u (execMtfIdentify s)).pending = s.pending ∧
    (after u (execMtfIdentify s)).armed = s.armed ∧ (after u (execMtfIdentify s)).posted = s.posted ∧ (after u
    (execMtfIdentify s)).late = s.late ∧ (after u (execMtfIdentify s)).isolated = s.isolated ∧ (after u (execMtfIdentify
    s)).failedCores = s.failedCores ∧ (after u (execMtfIdentify s)).mat = s.mat ∧ (after u (execMtfIdentify s)).mules =
    s.mules ∧ (after u (execMtfIdentify s)).sdram = s.sdram ∧ (after u (execMtfIdentify s)).ram = s.ram ∧ (after u
    (execMtfIdentify s)).free = s.free ∧ (after u (execMtfIdentify s)).out = s.out ∧ (after u (execMtfIdentify s)).stat
    = s.stat ∧ (after u (execMtfIdentify s)).evlog = s.evlog ∧ KeepsSpace s (after u (execMtfIdentify s)) ∧ KeepsStore s
    (after u (execMtfIdentify s)) ∧ KeepsHost s (after u (execMtfIdentify s)) ∧ KeepsChip s (after u (execMtfIdentify
    s)) := by
  generalize ht : after u (execMtfIdentify s) = t
  unfold execMtfIdentify State.task at ht
  try dsimp only at ht
  (repeat' split at ht) <;> (try simp only [after_answer, after_next] at ht) <;> (repeat' split at ht) <;> subst ht <;>
    simp [State.setResult_frame _, State.setTaskData_frame _, State.taskDone_frame _]

theorem execMtfModeGet_frame (s : State) (u : State) : (after u (execMtfModeGet s)).pending = s.pending ∧ (after
    u (execMtfModeGet s)).armed = s.armed ∧ (after u (execMtfModeGet s)).posted = s.posted ∧ (after u (execMtfModeGet
    s)).late = s.late ∧ (after u (execMtfModeGet s)).isolated = s.isolated ∧ (after u (execMtfModeGet s)).failedCores =
    s.failedCores ∧ (after u (execMtfModeGet s)).mat = s.mat ∧ (after u (execMtfModeGet s)).mules = s.mules ∧ (after u
    (execMtfModeGet s)).sdram = s.sdram ∧ (after u (execMtfModeGet s)).ram = s.ram ∧ (after u (execMtfModeGet s)).free =
    s.free ∧ (after u (execMtfModeGet s)).out = s.out ∧ (after u (execMtfModeGet s)).stat = s.stat ∧ (after u
    (execMtfModeGet s)).evlog = s.evlog ∧ KeepsSpace s (after u (execMtfModeGet s)) ∧ KeepsStore s (after u
    (execMtfModeGet s)) ∧ KeepsHost s (after u (execMtfModeGet s)) ∧ KeepsChip s (after u (execMtfModeGet s)) := by
  generalize ht : after u (execMtfModeGet s) = t
  unfold execMtfModeGet State.task at ht
  try dsimp only at ht
  (repeat' split at ht) <;> (try simp only [after_answer, after_next] at ht) <;> (repeat' split at ht) <;> subst ht <;>
    simp [State.setResult_frame _, State.taskDone_frame _]

theorem execMtfRegRead_frame (x : Crossing) (s : State) (u : State) : (after u (execMtfRegRead x s)).pending =
    s.pending ∧ (after u (execMtfRegRead x s)).armed = s.armed ∧ (after u (execMtfRegRead x s)).posted = s.posted ∧
    (after u (execMtfRegRead x s)).late = s.late ∧ (after u (execMtfRegRead x s)).isolated = s.isolated ∧ (after u
    (execMtfRegRead x s)).failedCores = s.failedCores ∧ (after u (execMtfRegRead x s)).mat = s.mat ∧ (after u
    (execMtfRegRead x s)).mules = s.mules ∧ (after u (execMtfRegRead x s)).sdram = s.sdram ∧ (after u (execMtfRegRead x
    s)).ram = s.ram ∧ KeepsSpace s (after u (execMtfRegRead x s)) ∧ KeepsStore s (after u (execMtfRegRead x s)) ∧
    KeepsHost s (after u (execMtfRegRead x s)) ∧ KeepsChip s (after u (execMtfRegRead x s)) := by
  generalize ht : after u (execMtfRegRead x s) = t
  unfold execMtfRegRead State.task at ht
  try dsimp only at ht
  (repeat' split at ht) <;> (try simp only [after_answer, after_next] at ht) <;> (repeat' split at ht) <;> subst ht <;>
    simp [State.setResult64_frame _, State.setResult_frame _, State.taskAccess_frame _, State.taskDone_frame _]

theorem execMtfRegWrite_frame (x : Crossing) (s : State) (u : State) : (after u (execMtfRegWrite x s)).pending =
    s.pending ∧ (after u (execMtfRegWrite x s)).posted = s.posted ∧ (after u (execMtfRegWrite x s)).late = s.late ∧
    (after u (execMtfRegWrite x s)).isolated = s.isolated ∧ (after u (execMtfRegWrite x s)).failedCores = s.failedCores
    ∧ (after u (execMtfRegWrite x s)).pins.resetLow = s.pins.resetLow := by
  generalize ht : after u (execMtfRegWrite x s) = t
  unfold execMtfRegWrite State.task State.taskAccess at ht
  dsimp only at ht
  simp only [after_answer] at ht
  (repeat' split at ht) <;> subst ht <;> simp [State.accessFailed_frame _, State.badArg_frame _,
      State.errorResponse_frame _, State.setResult64_frame _, State.setResult_frame _, State.taskDone_frame _,
      State.writeReg_frame _]

theorem execMtfLogGet_frame (s : State) (u : State) : (after u (execMtfLogGet s)).pending = s.pending ∧ (after u
    (execMtfLogGet s)).armed = s.armed ∧ (after u (execMtfLogGet s)).posted = s.posted ∧ (after u (execMtfLogGet
    s)).late = s.late ∧ (after u (execMtfLogGet s)).isolated = s.isolated ∧ (after u (execMtfLogGet s)).failedCores =
    s.failedCores ∧ (after u (execMtfLogGet s)).mat = s.mat ∧ (after u (execMtfLogGet s)).mules = s.mules ∧ (after u
    (execMtfLogGet s)).sdram = s.sdram ∧ (after u (execMtfLogGet s)).ram = s.ram ∧ (after u (execMtfLogGet s)).out =
    s.out ∧ (after u (execMtfLogGet s)).stat = s.stat ∧ (after u (execMtfLogGet s)).evlog = s.evlog ∧ KeepsSpace s
    (after u (execMtfLogGet s)) ∧ KeepsStore s (after u (execMtfLogGet s)) ∧ KeepsHost s (after u (execMtfLogGet s)) ∧
    KeepsChip s (after u (execMtfLogGet s)) := by
  generalize ht : after u (execMtfLogGet s) = t
  unfold execMtfLogGet State.task at ht
  try dsimp only at ht
  (repeat' split at ht) <;> (try simp only [after_answer, after_next] at ht) <;> (repeat' split at ht) <;> subst ht <;>
    simp [State.afterLog_frame _, State.badArg_frame _, State.ccpDone_frame _, State.setResult_frame _,
        State.setTaskData_frame _, State.taskDone_frame _]

theorem State.orFault_frame (s : State) (o : Option Status) (t : State) : (t.pending = s.pending → (s.orFault o
    t).pending = s.pending) ∧ (t.armed = s.armed → (s.orFault o t).armed = s.armed) ∧ (t.posted = s.posted → (s.orFault
    o t).posted = s.posted) ∧ (t.late = s.late → (s.orFault o t).late = s.late) ∧ (t.isolated = s.isolated → (s.orFault
    o t).isolated = s.isolated) ∧ (t.failedCores = s.failedCores → (s.orFault o t).failedCores = s.failedCores) ∧ (t.mat
    = s.mat → (s.orFault o t).mat = s.mat) ∧ (t.mules = s.mules → (s.orFault o t).mules = s.mules) ∧ (t.sdram = s.sdram
    → (s.orFault o t).sdram = s.sdram) ∧ (t.ram = s.ram → (s.orFault o t).ram = s.ram) ∧ (t.free = s.free → (s.orFault o
    t).free = s.free) ∧ (t.out = s.out → (s.orFault o t).out = s.out) ∧ (t.stat = s.stat → (s.orFault o t).stat =
    s.stat) ∧ (t.evlog = s.evlog → (s.orFault o t).evlog = s.evlog) ∧ (t.nss = s.nss → (s.orFault o t).nss = s.nss) ∧
    (t.deferred = s.deferred → (s.orFault o t).deferred = s.deferred) ∧ (t.power = s.power → (s.orFault o t).power =
    s.power) ∧ (t.herd = s.herd → (s.orFault o t).herd = s.herd) ∧ (t.map = s.map → (s.orFault o t).map = s.map) ∧
    (t.place = s.place → (s.orFault o t).place = s.place) ∧ (t.media = s.media → (s.orFault o t).media = s.media) ∧
    (t.cmds = s.cmds → (s.orFault o t).cmds = s.cmds) ∧ (t.hosts = s.hosts → (s.orFault o t).hosts = s.hosts) ∧ (t.pools
    = s.pools → (s.orFault o t).pools = s.pools) ∧ (t.boot = s.boot → (s.orFault o t).boot = s.boot) ∧ (t.pins = s.pins
    → (s.orFault o t).pins = s.pins) ∧ (t.boot.fuses = s.boot.fuses → (s.orFault o t).boot.fuses = s.boot.fuses) := by
  cases o <;> simp [State.orFault, State.ccpDone_frame _]

theorem execMtfFeatureGet_frame (s : State) (u : State) : (after u (execMtfFeatureGet s)).pending = s.pending ∧
    (after u (execMtfFeatureGet s)).armed = s.armed ∧ (after u (execMtfFeatureGet s)).posted = s.posted ∧ (after u
    (execMtfFeatureGet s)).late = s.late ∧ (after u (execMtfFeatureGet s)).isolated = s.isolated ∧ (after u
    (execMtfFeatureGet s)).failedCores = s.failedCores ∧ (after u (execMtfFeatureGet s)).mat = s.mat ∧ (after u
    (execMtfFeatureGet s)).mules = s.mules ∧ (after u (execMtfFeatureGet s)).sdram = s.sdram ∧ (after u
    (execMtfFeatureGet s)).ram = s.ram ∧ (after u (execMtfFeatureGet s)).free = s.free ∧ (after u (execMtfFeatureGet
    s)).out = s.out ∧ (after u (execMtfFeatureGet s)).stat = s.stat ∧ (after u (execMtfFeatureGet s)).evlog = s.evlog ∧
    KeepsSpace s (after u (execMtfFeatureGet s)) ∧ KeepsStore s (after u (execMtfFeatureGet s)) ∧ KeepsHost s (after u
    (execMtfFeatureGet s)) ∧ KeepsChip s (after u (execMtfFeatureGet s)) := by
  generalize ht : after u (execMtfFeatureGet s) = t
  unfold execMtfFeatureGet State.task State.featureTask at ht
  simp only [after_answer] at ht
  (repeat' split at ht) <;> subst ht <;> simp [State.orFault_frame _, State.setResult64_frame _, State.setResult_frame
      _, State.taskDone_frame _]

theorem execMtfFeatureSet_frame (s : State) (u : State) : (after u (execMtfFeatureSet s)).pending = s.pending ∧
    (after u (execMtfFeatureSet s)).armed = s.armed ∧ (after u (execMtfFeatureSet s)).posted = s.posted ∧ (after u
    (execMtfFeatureSet s)).late = s.late ∧ (after u (execMtfFeatureSet s)).isolated = s.isolated ∧ (after u
    (execMtfFeatureSet s)).failedCores = s.failedCores ∧ (after u (execMtfFeatureSet s)).mat = s.mat ∧ (after u
    (execMtfFeatureSet s)).mules = s.mules ∧ (after u (execMtfFeatureSet s)).sdram = s.sdram ∧ (after u
    (execMtfFeatureSet s)).ram = s.ram ∧ (after u (execMtfFeatureSet s)).free = s.free ∧ (after u (execMtfFeatureSet
    s)).stat = s.stat ∧ (after u (execMtfFeatureSet s)).evlog = s.evlog ∧ (after u (execMtfFeatureSet s)).nss = s.nss ∧
    (after u (execMtfFeatureSet s)).deferred = s.deferred ∧ (after u (execMtfFeatureSet s)).power = s.power ∧ KeepsStore
    s (after u (execMtfFeatureSet s)) ∧ (after u (execMtfFeatureSet s)).cmds = s.cmds ∧ (after u (execMtfFeatureSet
    s)).pools = s.pools ∧ KeepsChip s (after u (execMtfFeatureSet s)) := by
  generalize ht : after u (execMtfFeatureSet s) = t
  unfold execMtfFeatureSet State.task State.featureTask at ht
  simp only [after_answer] at ht
  (repeat' split at ht) <;> subst ht <;> simp [State.featureSet_frame _, State.orFault_frame _, State.setResult_frame _,
      State.taskDone_frame _]

theorem execMtfSysnsRead_frame (s : State) (u : State) : (after u (execMtfSysnsRead s)).pending = s.pending ∧
    (after u (execMtfSysnsRead s)).armed = s.armed ∧ (after u (execMtfSysnsRead s)).posted = s.posted ∧ (after u
    (execMtfSysnsRead s)).late = s.late ∧ (after u (execMtfSysnsRead s)).isolated = s.isolated ∧ (after u
    (execMtfSysnsRead s)).failedCores = s.failedCores ∧ (after u (execMtfSysnsRead s)).mat = s.mat ∧ (after u
    (execMtfSysnsRead s)).mules = s.mules ∧ (after u (execMtfSysnsRead s)).sdram = s.sdram ∧ (after u (execMtfSysnsRead
    s)).ram = s.ram ∧ (after u (execMtfSysnsRead s)).free = s.free ∧ (after u (execMtfSysnsRead s)).out = s.out ∧ (after
    u (execMtfSysnsRead s)).stat = s.stat ∧ (after u (execMtfSysnsRead s)).evlog = s.evlog ∧ KeepsSpace s (after u
    (execMtfSysnsRead s)) ∧ KeepsStore s (after u (execMtfSysnsRead s)) ∧ KeepsHost s (after u (execMtfSysnsRead s)) ∧
    KeepsChip s (after u (execMtfSysnsRead s)) := by
  generalize ht : after u (execMtfSysnsRead s) = t
  unfold execMtfSysnsRead State.task State.sysTask at ht
  dsimp only at ht
  simp only [after_answer] at ht
  (repeat' split at ht) <;> subst ht <;> simp [State.badArg_frame _, State.ccpDone_frame _, State.setResult_frame _,
      State.setTaskData_frame _, State.taskDone_frame _]

theorem execMtfSysnsWrite_frame (s : State) (u : State) : (after u (execMtfSysnsWrite s)).pending = s.pending ∧
    (after u (execMtfSysnsWrite s)).armed = s.armed ∧ (after u (execMtfSysnsWrite s)).posted = s.posted ∧ (after u
    (execMtfSysnsWrite s)).late = s.late ∧ (after u (execMtfSysnsWrite s)).isolated = s.isolated ∧ (after u
    (execMtfSysnsWrite s)).failedCores = s.failedCores ∧ (after u (execMtfSysnsWrite s)).mat = s.mat ∧ (after u
    (execMtfSysnsWrite s)).mules = s.mules ∧ (after u (execMtfSysnsWrite s)).sdram = s.sdram ∧ (after u
    (execMtfSysnsWrite s)).ram = s.ram ∧ (after u (execMtfSysnsWrite s)).free = s.free ∧ (after u (execMtfSysnsWrite
    s)).out = s.out ∧ (after u (execMtfSysnsWrite s)).stat = s.stat ∧ (after u (execMtfSysnsWrite s)).evlog = s.evlog ∧
    (after u (execMtfSysnsWrite s)).deferred = s.deferred ∧ (after u (execMtfSysnsWrite s)).power = s.power ∧ (after u
    (execMtfSysnsWrite s)).herd = s.herd ∧ KeepsStore s (after u (execMtfSysnsWrite s)) ∧ KeepsHost s (after u
    (execMtfSysnsWrite s)) ∧ KeepsChip s (after u (execMtfSysnsWrite s)) := by
  generalize ht : after u (execMtfSysnsWrite s) = t
  unfold execMtfSysnsWrite State.task State.sysTask at ht
  dsimp only at ht
  simp only [after_answer] at ht
  (repeat' split at ht) <;> subst ht <;> simp [State.badArg_frame _, State.ccpDone_frame _, State.setResult_frame _,
      State.sysWrite_frame _, State.taskDone_frame _]

theorem execMtfFwStage_frame (piece : FwPiece) (s : State) (u : State) : (after u (execMtfFwStage piece
    s)).pending = s.pending ∧ (after u (execMtfFwStage piece s)).armed = s.armed ∧ (after u (execMtfFwStage piece
    s)).posted = s.posted ∧ (after u (execMtfFwStage piece s)).late = s.late ∧ (after u (execMtfFwStage piece
    s)).isolated = s.isolated ∧ (after u (execMtfFwStage piece s)).failedCores = s.failedCores ∧ (after u
    (execMtfFwStage piece s)).mat = s.mat ∧ (after u (execMtfFwStage piece s)).mules = s.mules ∧ (after u
    (execMtfFwStage piece s)).sdram = s.sdram ∧ (after u (execMtfFwStage piece s)).ram = s.ram ∧ (after u
    (execMtfFwStage piece s)).free = s.free ∧ (after u (execMtfFwStage piece s)).evlog = s.evlog ∧ KeepsSpace s (after u
    (execMtfFwStage piece s)) ∧ KeepsStore s (after u (execMtfFwStage piece s)) ∧ KeepsHost s (after u (execMtfFwStage
    piece s)) ∧ (after u (execMtfFwStage piece s)).pins = s.pins ∧ (after u (execMtfFwStage piece s)).boot.fuses =
    s.boot.fuses := by
  generalize ht : after u (execMtfFwStage piece s) = t
  unfold execMtfFwStage State.task at ht
  simp only [after_answer] at ht
  (repeat' split at ht) <;> subst ht <;> simp [State.badArg_frame _, State.ccpDone_frame _, State.fwStage_chip _,
      State.fwStage_frame _, State.orFault_frame _, State.setResult_frame _, State.taskDone_frame _]

theorem execMtfFwCastle_frame (s : State) (u : State) : (after u (execMtfFwCastle s)).pending = s.pending ∧
    (after u (execMtfFwCastle s)).armed = s.armed ∧ (after u (execMtfFwCastle s)).posted = s.posted ∧ (after u
    (execMtfFwCastle s)).late = s.late ∧ (after u (execMtfFwCastle s)).isolated = s.isolated ∧ (after u (execMtfFwCastle
    s)).failedCores = s.failedCores ∧ (after u (execMtfFwCastle s)).mat = s.mat ∧ (after u (execMtfFwCastle s)).mules =
    s.mules ∧ (after u (execMtfFwCastle s)).sdram = s.sdram ∧ (after u (execMtfFwCastle s)).ram = s.ram ∧ KeepsSpace s
    (after u (execMtfFwCastle s)) ∧ KeepsStore s (after u (execMtfFwCastle s)) ∧ (after u (execMtfFwCastle s)).cmds =
    s.cmds ∧ (after u (execMtfFwCastle s)).pools = s.pools ∧ (after u (execMtfFwCastle s)).boot.fuses = s.boot.fuses ∧
    (after u (execMtfFwCastle s)).pins.resetLow = s.pins.resetLow ∧ (after u (execMtfFwCastle s)).pins.frozen =
    s.pins.frozen := by
  generalize ht : after u (execMtfFwCastle s) = t
  unfold execMtfFwCastle State.task at ht
  try dsimp only at ht
  (repeat' split at ht) <;> (try simp only [after_answer, after_next] at ht) <;> (repeat' split at ht) <;> subst ht <;>
    simp [State.ccpDone_frame _, State.fwCastle_chip _, State.fwCastle_frame _, State.setResult_frame _,
        State.taskDone_frame _]

theorem execI3cBroadcast_frame (s : State) (u : State) : (after u (execI3cBroadcast s)).pending = s.pending ∧
    (after u (execI3cBroadcast s)).armed = s.armed ∧ (after u (execI3cBroadcast s)).posted = s.posted ∧ (after u
    (execI3cBroadcast s)).late = s.late ∧ (after u (execI3cBroadcast s)).isolated = s.isolated ∧ (after u
    (execI3cBroadcast s)).failedCores = s.failedCores ∧ (after u (execI3cBroadcast s)).mat = s.mat ∧ (after u
    (execI3cBroadcast s)).mules = s.mules ∧ (after u (execI3cBroadcast s)).sdram = s.sdram ∧ (after u (execI3cBroadcast
    s)).ram = s.ram ∧ KeepsNotes s (after u (execI3cBroadcast s)) ∧ KeepsSpace s (after u (execI3cBroadcast s)) ∧
    KeepsStore s (after u (execI3cBroadcast s)) ∧ KeepsHost s (after u (execI3cBroadcast s)) ∧ KeepsChip s (after u
    (execI3cBroadcast s)) := by
  generalize ht : after u (execI3cBroadcast s) = t
  unfold execI3cBroadcast at ht
  try dsimp only at ht
  (repeat' split at ht) <;> (try simp only [after_answer, after_next] at ht) <;> (repeat' split at ht) <;> subst ht <;>
    simp

theorem execSetdasa_frame (address : BitVec 7) (s : State) (u : State) : (after u (execSetdasa address
    s)).pending = s.pending ∧ (after u (execSetdasa address s)).armed = s.armed ∧ (after u (execSetdasa address
    s)).posted = s.posted ∧ (after u (execSetdasa address s)).late = s.late ∧ (after u (execSetdasa address s)).isolated
    = s.isolated ∧ (after u (execSetdasa address s)).failedCores = s.failedCores ∧ (after u (execSetdasa address s)).mat
    = s.mat ∧ (after u (execSetdasa address s)).mules = s.mules ∧ (after u (execSetdasa address s)).sdram = s.sdram ∧
    (after u (execSetdasa address s)).ram = s.ram ∧ KeepsNotes s (after u (execSetdasa address s)) ∧ KeepsSpace s (after
    u (execSetdasa address s)) ∧ KeepsStore s (after u (execSetdasa address s)) ∧ KeepsHost s (after u (execSetdasa
    address s)) ∧ KeepsChip s (after u (execSetdasa address s)) := by
  generalize ht : after u (execSetdasa address s) = t
  unfold execSetdasa at ht
  try dsimp only at ht
  (repeat' split at ht) <;> (try simp only [after_answer, after_next] at ht) <;> (repeat' split at ht) <;> subst ht <;>
    simp [State.takeAddress_frame _]

theorem execEntdaa_frame (address : BitVec 7) (s : State) (u : State) : (after u (execEntdaa address s)).pending
    = s.pending ∧ (after u (execEntdaa address s)).armed = s.armed ∧ (after u (execEntdaa address s)).posted = s.posted
    ∧ (after u (execEntdaa address s)).late = s.late ∧ (after u (execEntdaa address s)).isolated = s.isolated ∧ (after u
    (execEntdaa address s)).failedCores = s.failedCores ∧ (after u (execEntdaa address s)).mat = s.mat ∧ (after u
    (execEntdaa address s)).mules = s.mules ∧ (after u (execEntdaa address s)).sdram = s.sdram ∧ (after u (execEntdaa
    address s)).ram = s.ram ∧ KeepsNotes s (after u (execEntdaa address s)) ∧ KeepsSpace s (after u (execEntdaa address
    s)) ∧ KeepsStore s (after u (execEntdaa address s)) ∧ KeepsHost s (after u (execEntdaa address s)) ∧ KeepsChip s
    (after u (execEntdaa address s)) := by
  generalize ht : after u (execEntdaa address s) = t
  unfold execEntdaa at ht
  try dsimp only at ht
  (repeat' split at ht) <;> (try simp only [after_answer, after_next] at ht) <;> (repeat' split at ht) <;> subst ht <;>
    simp [State.takeAddress_frame _]

end Sys2Proof.Machine
end

