-- ==== Sys2Proof/Laws/Ops.lean ====
section
/-! SUPPORT. What the named operations over tables, registers and memory do, said once: reads after writes, and the
canonical form of fabric memory. -/

namespace Sys2Proof.Laws

open Sys2Proof Sys2Proof.Machine

/-! ## Sparse tables -/

@[simp] theorem look_nil {α : Type} (k : Nat) : SMap.look ([] : SMap α) k = none := rfl

/-- Reading a table after a write. -/
theorem look_put {α : Type} (m : SMap α) (k j : Nat) (v : α) :
    (m.put k v).look j = if j = k then some v else m.look j := by
  induction m with
  | nil => simp [SMap.put, SMap.look, eq_comm]
  | cons e m ih =>
    obtain ⟨k', v'⟩ := e
    simp only [SMap.put]
    split
    · simp only [SMap.look]
      by_cases h : j = k
      · simp [h]
      · simp [h, Ne.symm h]
    · split
      · subst_vars
        simp only [SMap.look]
        by_cases h : j = k' <;> simp [h, eq_comm]
      · simp only [SMap.look, ih]
        by_cases h : j = k
        · subst h
          simp_all [eq_comm]
        · simp [h]

@[simp] theorem look_put_self {α : Type} (m : SMap α) (k : Nat) (v : α) : (m.put k v).look k = some v := by
  simp [look_put]

/-- Reading a table after a removal. -/
theorem look_del {α : Type} (m : SMap α) (k j : Nat) :
    (m.del k).look j = if j = k then none else m.look j := by
  induction m with
  | nil => simp [SMap.del, SMap.look]
  | cons e m ih =>
    obtain ⟨k', v'⟩ := e
    simp only [SMap.del, List.filter_cons] at ih ⊢
    by_cases h : k' = k
    · subst h
      simp only [ne_eq, not_true_eq_false, decide_false, Bool.false_eq_true, ↓reduceIte, SMap.look, ih]
      by_cases h2 : j = k' <;> simp [h2, eq_comm]
    · simp only [ne_eq, h, not_false_eq_true, decide_true, ↓reduceIte, SMap.look, ih]
      by_cases h2 : j = k
      · subst h2
        simp [h]
      · simp [h2]

@[simp] theorem look_del_self {α : Type} (m : SMap α) (k : Nat) : (m.del k).look k = none := by
  simp [look_del]

/-! ## Registers -/

/-- Reading a register after a write of a register. -/
theorem reg_setReg (s : State) (a b : Nat) (v : DWord) :
    (s.setReg a v).reg b = if b = a then v else s.reg b := by
  simp only [State.setReg, State.reg, regsSet]
  split
  · rw [look_del]
    by_cases h : b = a
    · subst h; simp [*]
    · simp [h]
  · rw [look_put]
    by_cases h : b = a <;> simp [h]

@[simp] theorem reg_setReg_self (s : State) (a : Nat) (v : DWord) : (s.setReg a v).reg a = v := by
  simp [reg_setReg]

/-- The bits of a mask. -/
theorem getLsbD_bitsMask (hi lo i : Nat) (h : lo ≤ hi) :
    (bitsMask hi lo).getLsbD i = (decide (i < 64) && decide (lo ≤ i) && decide (i ≤ hi)) := by
  have e : 2 ^ (hi + 1) - 1 - (2 ^ lo - 1) = (2 ^ (hi + 1 - lo) - 1) * 2 ^ lo := by
    have h1 : 2 ^ (hi + 1) = 2 ^ (hi + 1 - lo) * 2 ^ lo := by
      rw [← Nat.pow_add]; congr 1; omega
    have h2 : 0 < 2 ^ lo := by positivity
    rw [h1, Nat.sub_mul]; omega
  simp only [bitsMask, BitVec.getLsbD_ofNat, e, Nat.mul_comm _ (2 ^ lo), Nat.testBit_two_pow_mul,
    Nat.testBit_two_pow_sub_one]
  by_cases h1 : lo ≤ i
  · have h2 : (i - lo < hi + 1 - lo) = (i ≤ hi) := propext (by omega)
    simp [h1, h2]
  · simp [h1]

/-- The value of a field, bit by bit. -/
theorem Fld.testBit_get (f : Fld) (v : DWord) (i : Nat) :
    (f.get v).testBit i = (decide (i < f.hi - f.lo + 1) && v.getLsbD (f.lo + i)) := by
  simp [Fld.get, Nat.testBit_mod_two_pow, BitVec.getLsbD]

/-- A field after a write of that field. -/
theorem Fld.get_set (f : Fld) (v : DWord) (n : Nat) (h : f.lo ≤ f.hi) (h2 : f.hi < 64) :
    f.get (f.set v n) = n % 2 ^ (f.hi - f.lo + 1) := by
  apply Nat.eq_of_testBit_eq
  intro i
  rw [Fld.testBit_get]
  simp only [Fld.set, BitVec.getLsbD_or, BitVec.getLsbD_and, BitVec.getLsbD_not, getLsbD_bitsMask _ _ _ h,
    BitVec.getLsbD_shiftLeft, BitVec.getLsbD_ofNat, Nat.testBit_mod_two_pow]
  by_cases h3 : i < f.hi - f.lo + 1
  · have h4 : f.lo + i < 64 := by omega
    have h5 : f.lo + i ≤ f.hi := by omega
    have h6 : i < 64 := by omega
    simp [h3, h4, h5, h6]
  · simp [h3]

/-- A field after a write of a field that shares no bit with it. -/
theorem Fld.get_set_of_disjoint (f g : Fld) (v : DWord) (n : Nat) (h : g.lo ≤ g.hi) (hf : f.lo ≤ f.hi)
    (d : f.hi < g.lo ∨ g.hi < f.lo) : f.get (g.set v n) = f.get v := by
  apply Nat.eq_of_testBit_eq
  intro i
  rw [Fld.testBit_get, Fld.testBit_get]
  by_cases h3 : i < f.hi - f.lo + 1
  · simp only [Fld.set, BitVec.getLsbD_or, BitVec.getLsbD_and, BitVec.getLsbD_not, getLsbD_bitsMask _ _ _ h,
      BitVec.getLsbD_shiftLeft, BitVec.getLsbD_ofNat, Nat.testBit_mod_two_pow]
    by_cases h4 : f.lo + i < 64
    · rcases d with d | d
      · have h5 : ¬ g.lo ≤ f.lo + i := by omega
        have h6 : f.lo + i < g.lo := by omega
        simp [h3, h4, h5, h6]
      · have h5 : ¬ f.lo + i ≤ g.hi := by omega
        have h6 : ¬ f.lo + i - g.lo < g.hi - g.lo + 1 := by omega
        simp [h3, h4, h5, h6]
    · have : v.getLsbD (f.lo + i) = false := BitVec.getLsbD_of_ge _ _ (by omega)
      simp [h4, this]
  · simp [h3]

/-- A register field after a write of that field. -/
theorem fld_setFld_self (s : State) (a : Nat) (f : Fld) (n : Nat) (h : f.lo ≤ f.hi) (h2 : f.hi < 64) :
    (s.setFld a f n).fld a f = n % 2 ^ (f.hi - f.lo + 1) := by
  simp [State.fld, State.setFld, Fld.get_set f _ n h h2]

/-- Another register after a write of a field. -/
theorem reg_setFld_of_ne (s : State) (a b : Nat) (f : Fld) (n : Nat) (h : b ≠ a) :
    (s.setFld a f n).reg b = s.reg b := by
  simp [State.setFld, reg_setReg, h]

/-- A register field after a write of a field of the same register that shares no bit with it. -/
theorem fld_setFld_of_disjoint (s : State) (a : Nat) (f g : Fld) (n : Nat) (h : g.lo ≤ g.hi) (hf : f.lo ≤ f.hi)
    (d : f.hi < g.lo ∨ g.hi < f.lo) : (s.setFld a g n).fld a f = s.fld a f := by
  simp [State.fld, State.setFld, Fld.get_set_of_disjoint f g _ n h hf d]

/-! ## Fabric memory -/

/-- An address below the listed ones reads as 0. -/
theorem readByte_below (m : List Host.Cell) (lo x : Nat) (h : ramWfFrom lo m = true) (hx : x < lo) :
    readByte m x = 0 := by
  induction m generalizing lo with
  | nil => rfl
  | cons c m ih =>
    obtain ⟨k, v⟩ := c
    simp only [ramWfFrom, Bool.and_eq_true, decide_eq_true_eq] at h
    have hk : k ≠ x := by omega
    simp only [readByte, hk, if_false]
    exact ih (k + 1) h.2 (by omega)

/-- The canonical form from a lower address on. -/
theorem ramWfFrom_mono (m : List Host.Cell) (lo lo' : Nat) (h : ramWfFrom lo m = true) (hl : lo' ≤ lo) :
    ramWfFrom lo' m = true := by
  cases m with
  | nil => rfl
  | cons c m =>
    simp only [ramWfFrom, Bool.and_eq_true, decide_eq_true_eq] at h ⊢
    exact ⟨⟨by omega, h.1.2⟩, h.2⟩

theorem writeByte_wfFrom (m : List Host.Cell) (lo a : Nat) (b : Byte) (h : ramWfFrom lo m = true) (ha : lo ≤ a) :
    ramWfFrom lo (writeByte m a b) = true := by
  induction m generalizing lo with
  | nil =>
    simp only [writeByte]
    split
    · rfl
    · rename_i hb
      have hb' : ¬ b = 0#8 := hb
      simp [ramWfFrom, ha, hb']
  | cons c m ih =>
    obtain ⟨k, v⟩ := c
    simp only [ramWfFrom, Bool.and_eq_true, decide_eq_true_eq] at h
    simp only [writeByte]
    split
    · split
      · simp only [ramWfFrom, Bool.and_eq_true, decide_eq_true_eq]; exact ⟨⟨h.1.1, h.1.2⟩, h.2⟩
      · simp only [ramWfFrom, Bool.and_eq_true, decide_eq_true_eq]
        exact ⟨⟨ha, by assumption⟩, ⟨by omega, h.1.2⟩, h.2⟩
    · split
      · split
        · exact ramWfFrom_mono m _ lo h.2 (by omega)
        · simp only [ramWfFrom, Bool.and_eq_true, decide_eq_true_eq]
          exact ⟨⟨ha, by assumption⟩, by simp_all⟩
      · simp only [ramWfFrom, Bool.and_eq_true, decide_eq_true_eq]
        exact ⟨⟨h.1.1, h.1.2⟩, ih (k + 1) h.2 (by omega)⟩

/-- A write of a byte keeps the canonical form. -/
theorem writeByte_wf (m : List Host.Cell) (a : Nat) (b : Byte) (h : Memory.wf m = true) :
    Memory.wf (writeByte m a b) = true :=
  writeByte_wfFrom m 0 a b h (Nat.zero_le a)

/-- A write of bytes keeps the canonical form. -/
theorem writeBytes_wf (l : List Byte) (m : List Host.Cell) (a : Nat) (h : Memory.wf m = true) :
    Memory.wf (writeBytes m a l) = true := by
  induction l generalizing m a with
  | nil => exact h
  | cons b l ih => exact ih _ _ (writeByte_wf m a b h)

/-- Keeping only some of the listed bytes keeps the canonical form. -/
theorem filter_wfFrom (p : Host.Cell → Bool) (m : List Host.Cell) (lo : Nat) (h : ramWfFrom lo m = true) :
    ramWfFrom lo (m.filter p) = true := by
  induction m generalizing lo with
  | nil => rfl
  | cons c m ih =>
    simp only [ramWfFrom, Bool.and_eq_true, decide_eq_true_eq] at h
    simp only [List.filter_cons]
    split
    · simp only [ramWfFrom, Bool.and_eq_true, decide_eq_true_eq]
      exact ⟨h.1, ih _ h.2⟩
    · exact ramWfFrom_mono _ _ lo (ih _ h.2) (by omega)

theorem filter_wf (p : Host.Cell → Bool) (m : List Host.Cell) (h : Memory.wf m = true) :
    Memory.wf (m.filter p) = true :=
  filter_wfFrom p m 0 h

theorem readByte_writeByte_from (m : List Host.Cell) (lo a x : Nat) (b : Byte) (h : ramWfFrom lo m = true) :
    readByte (writeByte m a b) x = if x = a then b else readByte m x := by
  induction m generalizing lo with
  | nil =>
    simp only [writeByte]
    split
    · simp_all [readByte]
    · by_cases hx : x = a
      · simp [readByte, hx]
      · simp [readByte, hx, Ne.symm hx]
  | cons c m ih =>
    obtain ⟨k, v⟩ := c
    simp only [ramWfFrom, Bool.and_eq_true, decide_eq_true_eq] at h
    simp only [writeByte]
    by_cases h1 : a < k
    · have h3 : a ≠ k := by omega
      by_cases hb : b = 0
      · by_cases hx : x = a
        · subst hx
          have : readByte m x = 0 := readByte_below m (k + 1) x h.2 (by omega)
          simp [h1, hb, readByte, Ne.symm h3, this]
        · simp [h1, hb, hx]
      · have hb' : ¬ b = 0#8 := hb
        by_cases hx : x = a
        · simp [h1, hb', hx, readByte]
        · simp [h1, hb', hx, readByte, Ne.symm hx]
    · by_cases h2 : a = k
      · subst h2
        by_cases hb : b = 0
        · by_cases hx : x = a
          · subst hx
            simp [hb, readByte_below m (x + 1) x h.2 (by omega)]
          · simp [hb, hx, readByte, Ne.symm hx]
        · have hb' : ¬ b = 0#8 := hb
          by_cases hx : x = a
          · simp [hb', hx, readByte]
          · simp [hb', hx, readByte, Ne.symm hx]
      · simp only [h1, h2, if_false, readByte, ih (k + 1) h.2]
        by_cases hk : k = x
        · have : x ≠ a := by omega
          simp [hk, this]
        · simp [hk]

/-- Reading a byte after a write of a byte. -/
theorem readByte_writeByte (m : List Host.Cell) (a x : Nat) (b : Byte) (h : Memory.wf m = true) :
    readByte (writeByte m a b) x = if x = a then b else readByte m x :=
  readByte_writeByte_from m 0 a x b h

/-- A byte outside the written ones reads as before. -/
theorem readByte_writeBytes_of_ne (l : List Byte) (m : List Host.Cell) (a x : Nat) (h : Memory.wf m = true)
    (hx : x < a ∨ a + l.length ≤ x) : readByte (writeBytes m a l) x = readByte m x := by
  induction l generalizing m a with
  | nil => rfl
  | cons b l ih =>
    simp only [List.length_cons] at hx
    have hn : x ≠ a := by omega
    rw [writeBytes, ih _ _ (writeByte_wf m a b h) (by omega), readByte_writeByte m a x b h]
    simp [hn]

/-- Bytes written are read back. -/
theorem readBytes_writeBytes (l : List Byte) (m : List Host.Cell) (a : Nat) (h : Memory.wf m = true) :
    readBytes (writeBytes m a l) a l.length = l := by
  induction l generalizing m a with
  | nil => rfl
  | cons b l ih =>
    simp only [List.length_cons, readBytes, writeBytes]
    rw [ih _ _ (writeByte_wf m a b h), readByte_writeBytes_of_ne l _ _ _ (writeByte_wf m a b h) (by omega),
      readByte_writeByte m a a b h]
    simp

end Sys2Proof.Laws
end

