-- ==== Sys2Proof/Laws/State.lean ====
section
/-! SUPPORT. What the plain updates of the state write, one lemma per field and update; the lemmas on what each leaves are in
the frame files. -/

namespace Sys2Proof.Machine

open Sys2Proof

@[simp] theorem State.withPending_pending (s : State) (q : List Instr) : (s.withPending q).pending = q := rfl
@[simp] theorem State.withPending_free (s : State) (q : List Instr) : (s.withPending q).free = s.free := rfl
@[simp] theorem State.withPending_out (s : State) (q : List Instr) : (s.withPending q).out = s.out := rfl
@[simp] theorem State.withPending_regs (s : State) (q : List Instr) : (s.withPending q).regs = s.regs := rfl
@[simp] theorem State.withPending_stat (s : State) (q : List Instr) : (s.withPending q).stat = s.stat := rfl
@[simp] theorem State.withPending_armed (s : State) (q : List Instr) : (s.withPending q).armed = s.armed := rfl
@[simp] theorem State.withPending_posted (s : State) (q : List Instr) : (s.withPending q).posted = s.posted := rfl
@[simp] theorem State.withPending_late (s : State) (q : List Instr) : (s.withPending q).late = s.late := rfl
@[simp] theorem State.withPending_isolated (s : State) (q : List Instr) : (s.withPending q).isolated = s.isolated := rfl
@[simp] theorem State.withPending_failedCores (s : State) (q : List Instr) : (s.withPending q).failedCores = s.failedCores := rfl
@[simp] theorem State.withPending_cmds (s : State) (q : List Instr) : (s.withPending q).cmds = s.cmds := rfl
@[simp] theorem State.withPending_hosts (s : State) (q : List Instr) : (s.withPending q).hosts = s.hosts := rfl
@[simp] theorem State.withPending_mtf (s : State) (q : List Instr) : (s.withPending q).mtf = s.mtf := rfl
@[simp] theorem State.withPending_deferred (s : State) (q : List Instr) : (s.withPending q).deferred = s.deferred := rfl
@[simp] theorem State.withPending_nss (s : State) (q : List Instr) : (s.withPending q).nss = s.nss := rfl
@[simp] theorem State.withPending_map (s : State) (q : List Instr) : (s.withPending q).map = s.map := rfl
@[simp] theorem State.withPending_place (s : State) (q : List Instr) : (s.withPending q).place = s.place := rfl
@[simp] theorem State.withPending_media (s : State) (q : List Instr) : (s.withPending q).media = s.media := rfl
@[simp] theorem State.withPending_herd (s : State) (q : List Instr) : (s.withPending q).herd = s.herd := rfl
@[simp] theorem State.withPending_power (s : State) (q : List Instr) : (s.withPending q).power = s.power := rfl
@[simp] theorem State.withPending_pools (s : State) (q : List Instr) : (s.withPending q).pools = s.pools := rfl
@[simp] theorem State.withPending_mat (s : State) (q : List Instr) : (s.withPending q).mat = s.mat := rfl
@[simp] theorem State.withPending_mules (s : State) (q : List Instr) : (s.withPending q).mules = s.mules := rfl
@[simp] theorem State.withPending_sdram (s : State) (q : List Instr) : (s.withPending q).sdram = s.sdram := rfl
@[simp] theorem State.withPending_boot (s : State) (q : List Instr) : (s.withPending q).boot = s.boot := rfl
@[simp] theorem State.withPending_pins (s : State) (q : List Instr) : (s.withPending q).pins = s.pins := rfl
@[simp] theorem State.withPending_ram (s : State) (q : List Instr) : (s.withPending q).ram = s.ram := rfl
@[simp] theorem State.withPending_evlog (s : State) (q : List Instr) : (s.withPending q).evlog = s.evlog := rfl

@[simp] theorem State.setReg_regs (s : State) (a : Nat) (v : DWord) : (s.setReg a v).regs = regsSet s.regs a v := rfl
@[simp] theorem State.setStat_stat (s : State) (a : Nat) (r : StatReg) : (s.setStat a r).stat = s.stat.put a r := rfl
@[simp] theorem State.emit_out (s : State) (o : Out) : (s.emit o).out = s.out ++ [o] := rfl
@[simp] theorem State.setSq_cmds_sqs (s : State) (k : Nat) (r : SubRing) :
    (s.setSq k r).cmds.sqs = s.cmds.sqs.put k r := rfl
@[simp] theorem State.setSq_cmds_cqs (s : State) (k : Nat) (r : SubRing) : (s.setSq k r).cmds.cqs = s.cmds.cqs := rfl
@[simp] theorem State.setSq_cmds_inflight (s : State) (k : Nat) (r : SubRing) :
    (s.setSq k r).cmds.inflight = s.cmds.inflight := rfl
@[simp] theorem State.setSq_cmds_locks (s : State) (k : Nat) (r : SubRing) : (s.setSq k r).cmds.locks = s.cmds.locks := rfl
@[simp] theorem State.setSq_cmds_admission (s : State) (k : Nat) (r : SubRing) :
    (s.setSq k r).cmds.admission = s.cmds.admission := rfl
@[simp] theorem State.setCq_cmds_cqs (s : State) (k : Nat) (r : CplRing) :
    (s.setCq k r).cmds.cqs = s.cmds.cqs.put k r := rfl
@[simp] theorem State.setCq_cmds_sqs (s : State) (k : Nat) (r : CplRing) : (s.setCq k r).cmds.sqs = s.cmds.sqs := rfl
@[simp] theorem State.setCq_cmds_inflight (s : State) (k : Nat) (r : CplRing) :
    (s.setCq k r).cmds.inflight = s.cmds.inflight := rfl
@[simp] theorem State.setCq_cmds_locks (s : State) (k : Nat) (r : CplRing) : (s.setCq k r).cmds.locks = s.cmds.locks := rfl
@[simp] theorem State.setCq_cmds_admission (s : State) (k : Nat) (r : CplRing) :
    (s.setCq k r).cmds.admission = s.cmds.admission := rfl
@[simp] theorem State.setCmd_cmds_inflight (s : State) (k : Nat) (r : Cmd) :
    (s.setCmd k r).cmds.inflight = s.cmds.inflight.put k r := rfl
@[simp] theorem State.setCmd_cmds_sqs (s : State) (k : Nat) (r : Cmd) : (s.setCmd k r).cmds.sqs = s.cmds.sqs := rfl
@[simp] theorem State.setCmd_cmds_cqs (s : State) (k : Nat) (r : Cmd) : (s.setCmd k r).cmds.cqs = s.cmds.cqs := rfl
@[simp] theorem State.setCmd_cmds_locks (s : State) (k : Nat) (r : Cmd) : (s.setCmd k r).cmds.locks = s.cmds.locks := rfl
@[simp] theorem State.setCmd_cmds_admission (s : State) (k : Nat) (r : Cmd) :
    (s.setCmd k r).cmds.admission = s.cmds.admission := rfl
@[simp] theorem State.setDie_media_dies (s : State) (dk : Nat) (d : Die) :
    (s.setDie dk d).media.dies = s.media.dies.put dk d := rfl
@[simp] theorem State.setDie_media_pages (s : State) (dk : Nat) (d : Die) :
    (s.setDie dk d).media.pages = s.media.pages := rfl
@[simp] theorem State.setDie_media_blocks (s : State) (dk : Nat) (d : Die) :
    (s.setDie dk d).media.blocks = s.media.blocks := rfl
@[simp] theorem State.setDie_media_chans (s : State) (dk : Nat) (d : Die) :
    (s.setDie dk d).media.chans = s.media.chans := rfl
@[simp] theorem State.setDie_media_carriers (s : State) (dk : Nat) (d : Die) :
    (s.setDie dk d).media.carriers = s.media.carriers := rfl
@[simp] theorem State.setChan_media_chans (s : State) (ch : Nat) (c : Chan) :
    (s.setChan ch c).media.chans = s.media.chans.put ch c := rfl
@[simp] theorem State.setChan_media_pages (s : State) (ch : Nat) (c : Chan) :
    (s.setChan ch c).media.pages = s.media.pages := rfl
@[simp] theorem State.setChan_media_blocks (s : State) (ch : Nat) (c : Chan) :
    (s.setChan ch c).media.blocks = s.media.blocks := rfl
@[simp] theorem State.setChan_media_dies (s : State) (ch : Nat) (c : Chan) :
    (s.setChan ch c).media.dies = s.media.dies := rfl
@[simp] theorem State.setChan_media_carriers (s : State) (ch : Nat) (c : Chan) :
    (s.setChan ch c).media.carriers = s.media.carriers := rfl
@[simp] theorem State.setCarrier_media_carriers (s : State) (c : Nat) (x : Carrier) :
    (s.setCarrier c x).media.carriers = s.media.carriers.put c x := rfl
@[simp] theorem State.setCarrier_media_pages (s : State) (c : Nat) (x : Carrier) :
    (s.setCarrier c x).media.pages = s.media.pages := rfl
@[simp] theorem State.setCarrier_media_blocks (s : State) (c : Nat) (x : Carrier) :
    (s.setCarrier c x).media.blocks = s.media.blocks := rfl
@[simp] theorem State.setCarrier_media_dies (s : State) (c : Nat) (x : Carrier) :
    (s.setCarrier c x).media.dies = s.media.dies := rfl
@[simp] theorem State.setCarrier_media_chans (s : State) (c : Nat) (x : Carrier) :
    (s.setCarrier c x).media.chans = s.media.chans := rfl
@[simp] theorem State.setLink_herd_links (s : State) (peer : Nat) (l : Link) :
    (s.setLink peer l).herd.links = s.herd.links.put peer l := rfl
@[simp] theorem State.setFn_hosts_fns (s : State) (k : Nat) (x : FnState) :
    (s.setFn k x).hosts.fns = s.hosts.fns.put k x := rfl
@[simp] theorem State.setFn_hosts_ports (s : State) (k : Nat) (x : FnState) :
    (s.setFn k x).hosts.ports = s.hosts.ports := rfl
@[simp] theorem State.setPort_hosts_ports (s : State) (p : Port) (x : PortState) :
    (s.setPort p x).hosts.ports = s.hosts.ports.put p.num x := rfl
@[simp] theorem State.setPort_hosts_fns (s : State) (p : Port) (x : PortState) :
    (s.setPort p x).hosts.fns = s.hosts.fns := rfl

end Sys2Proof.Machine
end

