-- ==== Sys2Proof/WellFormed.lean ====
section
/-! DEFINITION. The ranges of the commands' operands: numbers of functions, windows, channels, dies, planes, cores and the
like lie within what the N9 has (R23, R25, R40, R76, R251, R318, R424, R447). A command out of range is no command. -/

namespace Sys2Proof

/-- A function number: 0 the physical function, 1 to 511 its VFs (R447). -/
def Fn.ok (f : Fn) : Bool := decide (f.idx < 512)

/-- A core of a group: 16 command, 4 media, 4 housekeeping cores and the boot core (R25). -/
def CoreId.ok (c : CoreId) : Bool :=
  match c.group with
  | .command => decide (c.idx < 16)
  | .media | .housekeeping => decide (c.idx < 4)
  | .boot => decide (c.idx = 0)

/-- A source of register accesses. -/
def Source.ok : Source → Bool
  | .core c => c.ok
  | _ => true

/-- A frame arrives on one of the planes. -/
def FrameHdr.ok (h : FrameHdr) : Bool := decide (h.plane < 4)

/-- Whether a command's operands are in range. -/
def Instr.wf (i : Instr) : Bool :=
  match i with
  | .sqDoorbellWrite f _ size _ => f.ok && decide (1 ≤ size ∧ size ≤ 8)
  | .cqDoorbellWrite f _ size _ => f.ok && decide (1 ≤ size ∧ size ≤ 8)
  | .blockKeyWrite src window _ => src.ok && decide (1 ≤ window ∧ window ≤ 26)
  | .statAckWrite src _ _ => src.ok
  | .registerWrite src _ size _ _ => src.ok && decide (1 ≤ size ∧ size ≤ 8)
  | .registerAccessTimeout src _ _ => src.ok
  | .stalledWriteApply _ _ => true
  | .packetFetch _ _ => true
  | .read slot _ => decide (slot < 65536)
  | .write slot _ => decide (slot < 65536)
  | .trim slot _ => decide (slot < 65536)
  | .writeZeroes slot _ => decide (slot < 65536)
  | .compare slot _ => decide (slot < 65536)
  | .orderBarrier slot _ => decide (slot < 65536)
  | .gatherRead slot _ => decide (slot < 65536)
  | .hello slot _ => decide (slot < 65536)
  | .ringCreate slot _ => decide (slot < 65536)
  | .ringDelete slot _ => decide (slot < 65536)
  | .ringDeleteComplete slot => decide (slot < 65536)
  | .nsCreate slot _ => decide (slot < 65536)
  | .nsDelete slot _ => decide (slot < 65536)
  | .nsAttach slot _ => decide (slot < 65536)
  | .nsDetachComplete slot => decide (slot < 65536)
  | .nsResize slot _ => decide (slot < 65536)
  | .mapRegionAdd slot _ => decide (slot < 65536)
  | .mapRegionRemove slot _ => decide (slot < 65536)
  | .mapRegionRemoveComplete slot => decide (slot < 65536)
  | .logGet slot _ => decide (slot < 65536)
  | .featureSet slot _ => decide (slot < 65536)
  | .featureGet slot _ => decide (slot < 65536)
  | .fwStage slot _ => decide (slot < 65536)
  | .fwCastle slot _ => decide (slot < 65536)
  | .herdJoin slot _ => decide (slot < 65536)
  | .herdLeave slot _ => decide (slot < 65536)
  | .herdReshape slot _ => decide (slot < 65536)
  | .keyLoad slot _ => decide (slot < 65536)
  | .heldRecordPost f cq => f.ok && decide (cq < 65536)
  | .cqAggTimer f cq => f.ok && decide (cq < 65536)
  | .functionEnable f => f.ok
  | .functionDisable f => f.ok
  | .mtfMessage _ _ => true
  | .mtfHello => true
  | .mtfIdentify => true
  | .mtfModeGet => true
  | .mtfRegRead _ => true
  | .mtfRegWrite _ => true
  | .mtfLogGet => true
  | .mtfFeatureGet => true
  | .mtfFeatureSet => true
  | .mtfSysnsRead => true
  | .mtfSysnsWrite => true
  | .mtfFwStage _ => true
  | .mtfFwCastle => true
  | .mtfTaskAck _ => true
  | .mtfResultExpire => true
  | .i3cBroadcast => true
  | .commandAdmit => true
  | .lockWaitEnd slot => decide (slot < 65536)
  | .barrierWaitEnd slot => decide (slot < 65536)
  | .oaWaitEnd slot => decide (slot < 65536)
  | .pipReserveGrant cls => decide (cls < 64)
  | .allocGrant pool => decide (pool < 4)
  | .deferredHourlyLog => true
  | .hmrFetchComplete mpn _ => decide (mpn < 2 ^ 27)
  | .hmrFetchTimeout mpn => decide (mpn < 2 ^ 27)
  | .mapFlashFetchDone mpn _ => decide (mpn < 2 ^ 27)
  | .mapPagePlace mpn _ => decide (mpn < 2 ^ 27)
  | .mapPageDrop mpn => decide (mpn < 2 ^ 27)
  | .mapPagePersist mpn => decide (mpn < 2 ^ 27)
  | .directorySnapshot => true
  | .evictionWritebackDone island index => decide (island < 4) && decide (index < 8)
  | .streamDetectorIdle detector => decide (detector < 8)
  | .dirtyLineRebuild mpn line => decide (mpn < 2 ^ 27) && decide (line < 64)
  | .sysnsMerge _ _ => true
  | .mchScratchWrite src _ => src.ok
  | .packWindowExpire dieA dieB => decide (dieA < 2048) && decide (dieB < 2048)
  | .stagingEntryGrant slot => decide (slot < 65536)
  | .gatherAgeExpire stream => decide (stream < 256)
  | .gatherInstall _ => true
  | .rebuildStripe _ _ => true
  | .coreRebalance _ => true
  | .reclaimVictim => true
  | .copyStripeInstall _ _ => true
  | .scoreAgeTick => true
  | .bandEraseStart _ => true
  | .wearPersist => true
  | .spaceGrant slot => decide (slot < 65536)
  | .chnRead ch queue _ _ => decide (ch < 128) && decide (queue < 4)
  | .chnProgram ch queue _ _ => decide (ch < 128) && decide (queue < 4)
  | .chnErase ch queue _ _ => decide (ch < 128) && decide (queue < 4)
  | .chnReadTrailer ch queue _ _ => decide (ch < 128) && decide (queue < 4)
  | .chnGetFeatures ch queue _ _ => decide (ch < 128) && decide (queue < 4)
  | .chnSetFeatures ch queue _ _ => decide (ch < 128) && decide (queue < 4)
  | .chnReadParameter ch queue _ _ => decide (ch < 128) && decide (queue < 4)
  | .chnResetDie ch queue _ _ => decide (ch < 128) && decide (queue < 4)
  | .chnMark ch queue _ _ => decide (ch < 128) && decide (queue < 4)
  | .chnReadId ch queue _ _ => decide (ch < 128) && decide (queue < 4)
  | .chnTrain ch queue _ _ => decide (ch < 128) && decide (queue < 4)
  | .dieDispatch ch die => decide (ch < 128) && decide (die < 16)
  | .dieOpComplete ch die _ _ _ => decide (ch < 128) && decide (die < 16)
  | .suspendIssue ch die _ => decide (ch < 128) && decide (die < 16)
  | .dieTimeout ch die _ => decide (ch < 128) && decide (die < 16)
  | .descriptorStarve ch queue die => decide (ch < 128) && decide (queue < 4) && decide (die < 16)
  | .chnCheadWrite src ch _ => src.ok && decide (ch < 128)
  | .chnRetrain src ch _ => src.ok && decide (ch < 128)
  | .chnRateTargetWrite src ch _ _ => src.ok && decide (ch < 128)
  | .carrierPresenceChange c _ => decide (c < 8)
  | .carrierButtonPress c => decide (c < 8)
  | .carrierRemove src c => src.ok && decide (c < 8)
  | .carrierCancel src c => src.ok && decide (c < 8)
  | .carrierInsert src c => src.ok && decide (c < 8)
  | .carrierLocate src c => src.ok && decide (c < 8)
  | .carrierPowerDelay c => decide (c < 8)
  | .carrierDiscoveryDone c _ _ _ => decide (c < 8)
  | .carrierReconcileDone c _ => decide (c < 8)
  | .evacuationDone c => decide (c < 8)
  | .carrierQuiesceDone c => decide (c < 8)
  | .refuseBlinkExpire c => decide (c < 8)
  | .departureRecordExpire c => decide (c < 8)
  | .codewordDecode _ slot step _ => decide (slot < 4) && decide (step ≤ 12)
  | .aizaikHello hdr _ _ => hdr.ok
  | .aizaikHelloAck hdr _ _ => hdr.ok
  | .heartbeat hdr _ => hdr.ok
  | .ack hdr => hdr.ok
  | .mapOffer hdr => hdr.ok
  | .mapRequest hdr _ => hdr.ok
  | .mapData hdr _ _ _ => hdr.ok
  | .fragWrite hdr _ _ => hdr.ok
  | .fragDone hdr _ => hdr.ok
  | .fragRead hdr _ => hdr.ok
  | .fragData hdr _ _ => hdr.ok
  | .fragDiscard hdr _ => hdr.ok
  | .sweepDone hdr _ _ _ _ _ => hdr.ok
  | .linkHelloRetry _ => true
  | .ackTimer _ => true
  | .retransmitTimeout _ => true
  | .heartbeatTimer => true
  | .peerDeadTimeout _ plane => decide (plane < 4)
  | .leaseExpire => true
  | .herdJobStart _ => true
  | .jobDeferTimeout _ => true
  | .jobRetryTimer => true
  | .sweepStripe _ => true
  | .misslogExpire _ => true
  | .ethertypeWrite src _ => src.ok
  | .hrdMacWrite src plane _ => src.ok && decide (plane < 4)
  | .hrdPortAnWrite src plane _ => src.ok && decide (plane < 4)
  | .peerLinkChange plane _ => decide (plane < 4)
  | .powerFail => true
  | .bankSample _ => true
  | .energyRecompute => true
  | .horizonWrite => true
  | .chargeGrant slot => decide (slot < 65536)
  | .flushWritebackDone => true
  | .flushStripeDone _ => true
  | .flushComplete _ => true
  | .recoveryStep => true
  | .bpmAllocRequest src _ => src.ok
  | .bpmRelease src _ => src.ok
  | .matchScan _ _ => true
  | .matchSlideDone partition => decide (partition < 4)
  | .matLookup src _ => src.ok
  | .matRead src _ => src.ok
  | .matWrite src _ => src.ok
  | .matInsert src _ => src.ok
  | .matDelete src _ => src.ok
  | .matInvalidate src _ => src.ok
  | .muleRingEnable src ring => src.ok && decide (ring < 256)
  | .muleRingDisable src ring => src.ok && decide (ring < 256)
  | .muleRingResume src ring => src.ok && decide (ring < 256)
  | .muleRingKick src ring => src.ok && decide (ring < 256)
  | .muleDescriptor ring _ => decide (ring < 256)
  | .muleDescriptorDone ring _ _ _ => decide (ring < 256)
  | .mulePaceResume ring => decide (ring < 256)
  | .k7Start src channel _ _ => src.ok && decide (channel < 16)
  | .refreshTick ch => decide (ch < 12)
  | .mr4Poll ch _ => decide (ch < 12)
  | .rowIdleClose ch bank => decide (ch < 12) && decide (bank < 128)
  | .patrolScrub ch _ => decide (ch < 12)
  | .sdramChannelFailure ch => decide (ch < 12)
  | .sdramLossCleanup => true
  | .writeLevelTrack ch _ _ _ => decide (ch < 12)
  | .sdcModeWrite src ch _ => src.ok && decide (ch < 12)
  | .tcmdMrw src ch _ _ _ => src.ok && decide (ch < 12)
  | .tcmdMrr src ch _ _ _ _ => src.ok && decide (ch < 12)
  | .tcmdMpc src ch _ _ _ => src.ok && decide (ch < 12)
  | .tcmdPatternWrite src ch _ _ _ => src.ok && decide (ch < 12)
  | .tcmdPatternCompare src ch _ _ _ _ => src.ok && decide (ch < 12)
  | .configWrite f _ _ => f.ok
  | .busMasterClear f => f.ok
  | .busMasterSet f => f.ok
  | .d3hotEntry f => f.ok
  | .d0Return f => f.ok
  | .flr f => f.ok
  | .vfEnableClear _ => true
  | .vfEnableSet _ => true
  | .perstAssert _ => true
  | .perstDeassert _ => true
  | .hotReset _ => true
  | .linkDown _ => true
  | .linkUp _ _ _ _ => true
  | .hstMaxrateWrite src _ _ => src.ok
  | .hostReadCompletion _ tag _ => decide (tag < 8192)
  | .completionTimeout _ tag => decide (tag < 8192)
  | .tagQuarantineEnd _ tag => decide (tag < 8192)
  | .chipResetAssert => true
  | .chipResetRelease _ _ _ _ => true
  | .strapFaceEnd => true
  | .bootImageCheck _ _ _ => true
  | .loaderRun _ _ _ => true
  | .bootCastle _ => true
  | .fuseProgram src bit _ => src.ok && decide (bit < 4096)
  | .grdLockWrite src _ => src.ok
  | .coreHandover => true
  | .handoverImportDone _ => true
  | .handoverTimeout => true
  | .coreWatchdog c => c.ok
  | .coreFault c _ => c.ok
  | .engineIslandFault _ _ => true
  | .halt _ _ => true
  | .hourTick => true
  | .clearStats src => src.ok
  | .thermalSample _ _ _ => true
  | .thermtrip => true
  | .freezeN => true
  | .freezeRequest src => src.ok
  | .channelIslandFault ch => decide (ch < 128)
  | .frameDiscard plane => decide (plane < 4)
  | .bar0ReadError _ _ size => decide (1 ≤ size ∧ size ≤ 8)
  | .evacuationCopy c => decide (c < 8)
  | .coreSupplyLoss => true
  | .tapOperation _ => true
  | .setdasa _ => true
  | .entdaa _ => true

end Sys2Proof
end

