-- ==== Sys2Proof/Tests/Slice0.lean ====
section
/-! SUPPORT. Tests: ill-formed commands, single steps on small states, and for each statement states and operands that meet
its hypotheses together. -/

namespace Sys2Proof.Tests

set_option Elab.async false

open Sys2Proof Sys2Proof.Machine

/-- A port that is up. -/
def port : PortState := { PortState.reset with perstLow := false, refClock := true, inReset := false }

/-- A function set up by its host. -/
def fn : FnState := { FnState.reset with memorySpace := true, busMaster := true }

/-- An N9 with no fuse blown that runs in a mode, both ports up, both physical functions set up, a fence that allows all. -/
def run (m : Nat) : State :=
  { State.reset with
    regs := regsSet [] Reg.MOD_STATE (BitVec.ofNat 64 m)
    hosts := { State.reset.hosts with fns := [(0, fn), (512, fn)], ports := [(0, port), (1, port)] }
    boot := { State.reset.boot with fuses := 0 }
    mat := { State.reset.mat with entries := [(0, { key := 0, mask := 0, result := 0xC0000000 })] }
    pins := { State.reset.pins with resetLow := false, face := .slot } }

/-- Physical functions and a VF. -/
def fA : Fn := { port := .a, idx := 0 }

/-! ## Doorbells, fetch, records (witnesses) -/

/-- A submission ring of four slots. -/
def sq : SubRing :=
  { base := 0x1000, log2 := 2, head := 0, tail := 0, fetched := 0, rung := 0, cq := 1, weight := 1, cls := 0, home := 0,
    faulted := false, stopped := false, bells := [] }

/-- A completion ring of four entries. -/
def cq : CplRing :=
  { base := 0x2000, log2 := 2, head := 0, tail := 0, phase := true, vector := 0, aggCount := 0, aggTime := 0, ien := false,
    split := false, faulted := false, held := [], unsignalled := 0 }

/-- A state with rings. -/
def withRings (s : State) (sqs : SMap SubRing) (cqs : SMap CplRing) : State :=
  { s with cmds := { s.cmds with sqs := sqs, cqs := cqs } }

/-- A state with a command in flight in slot 0, in admission order and with locks. -/
def withCmd (s : State) (c : Cmd) : State := { s with cmds := { s.cmds with inflight := [(0, c)] } }

theorem witness_doorbell_taken_sq : (withRings (run 1) [(1, sq)] []).up = true ∧
    (withRings (run 1) [(1, sq)] []).fnAnswers fA = true ∧ doorbellSlot fA 8 = some (false, 1, 0) ∧
    (withRings (run 1) [(1, sq)] []).cmds.sqs.look (ringKey fA.key 1) = some sq ∧ sq.faulted = false ∧ sq.stopped = false ∧
    doorbellValue 4 3 < sq.size := by decide +kernel

theorem witness_doorbell_taken_cq : (withRings (run 1) [] [(1, { cq with tail := 2 })]).up = true ∧
    (withRings (run 1) [] [(1, { cq with tail := 2 })]).fnAnswers fA = true ∧ doorbellSlot fA 0x10008 = some (true, 1, 0) ∧
    (withRings (run 1) [] [(1, { cq with tail := 2 })]).cmds.cqs.look (ringKey fA.key 1) = some { cq with tail := 2 } ∧
    doorbellValue 8 2 < cq.size ∧ (doorbellValue 8 2 + cq.size - 0) % cq.size ≤ (2 + cq.size - 0) % cq.size := by decide +kernel

theorem witness_doorbell_refused_tail : doorbellSlot fA 8 = some (false, 1, 0) ∧ sq.size ≤ doorbellValue 4 4 := by decide +kernel

theorem witness_doorbell_refused_head : doorbellSlot fA 0x10008 = some (true, 1, 0) ∧ cq.size ≤ doorbellValue 8 4 ∧
    (2 + cq.size - 0) % cq.size < (doorbellValue 8 3 + cq.size - 0) % cq.size := by decide +kernel

theorem witness_doorbell_dropped : doorbellSlot fA 9 = some (false, 1, 1) ∧ doorbellSizeOk 1 4 = false ∧
    doorbellSizeOk 0 2 = false ∧ doorbellSlot fA 16 = some (false, 2, 0) ∧
    (withRings (run 1) [(1, sq)] []).cmds.sqs.look (ringKey fA.key 2) = none ∧ doorbellSlot fA 0x10010 = some (true, 2, 0) ∧
    (withRings (run 1) [] [(1, cq)]).cmds.cqs.look (ringKey fA.key 2) = none := by decide +kernel

/-- A ring with one packet rung. -/
def rung : SubRing := { sq with tail := 1, rung := 1 }

/-- A READ of one block. -/
def readPk : BitVec 512 := 0x01

theorem witness_packet_fetched : (withRings (run 1) [(1, rung)] []).serving = true ∧
    ((withRings (run 1) [(1, rung)] []).portOf .a).inReset = false ∧
    (withRings (run 1) [(1, rung)] []).nextRing .a = some (1, rung) ∧
    (withRings (run 1) [(1, rung)] []).cmds.sqs.look 1 = some rung ∧ 0 < rung.weight ∧
    opKnown (pkOpcode readPk) = true := by decide +kernel

/-- A command in flight. -/
def cmd (p : BitVec 512) : Cmd := fetchedCmd fA 1 0 0 [] p

/-- A held record. -/
def heldCq : CplRing := { cq with held := [{ slot := 0, record := 0 }] }

theorem witness_record_posted : (withCmd (withRings (run 1) [(1, sq)] [(1, heldCq)]) (cmd readPk)).up = true ∧
    (withCmd (withRings (run 1) [(1, sq)] [(1, heldCq)]) (cmd readPk)).cmds.cqs.look (ringKey fA.key 1) = some heldCq ∧
    heldCq.held = { slot := 0, record := 0 } :: [] ∧ heldCq.full = false ∧ heldCq.faulted = false ∧
    (withCmd (withRings (run 1) [(1, sq)] [(1, heldCq)]) (cmd readPk)).mayWriteHost fA.key = true ∧
    (withCmd (withRings (run 1) [(1, sq)] [(1, heldCq)]) (cmd readPk)).cmds.inflight.look 0 = some (cmd readPk) ∧
    (cmd readPk).fn = fA := by decide +kernel

/-- A completion ring with unsignalled records. -/
def aggCq : CplRing := { cq with ien := true, aggTime := 1, unsignalled := 1 }

theorem witness_agg_timer : (withRings (run 1) [] [(1, aggCq)]).up = true ∧
    (withRings (run 1) [] [(1, aggCq)]).cmds.cqs.look (ringKey fA.key 1) = some aggCq ∧ aggCq.ien = true ∧
    aggCq.aggTime ≠ 0 ∧ aggCq.unsignalled ≠ 0 ∧ (withRings (run 1) [] [(1, aggCq)]).mayMessage fA.key aggCq.vector = false ∧
    ((((run 1).setVec 0 0 { addr := 0, data := 0, masked := false, pend := false }).setFn 0
      { fn with msixEnable := true }).mayMessage fA.key aggCq.vector = true) := by
  decide +kernel

/-! ## Register accesses (witnesses) -/

/-- The physical function of Port A as a source. -/
def pfA : Source := .pf .a

/-- A state in which Port A's physical function has armed a block. -/
def armedFor (s : State) (w : Nat) : State := { s with armed := [(pfA, w)] }

theorem witness_keys : (run 1).up = true ∧ (run 1).judge pfA (1 * 0x100000 + 8) 4 true = .served ∧
    keyOf 1 ≠ some 0 ∧ keyOf 1 = some 0x5A31 ∧ (run 1).judge pfA (26 * 0x100000 + 8) 4 true = .served ∧
    keyOf 26 = some 0x5C69 ∧ keyOf 26 ≠ some 0x5A31 := by decide +kernel

/-- The status register of window 2 with event 5 stamped 1. -/
def withStat : State := (run 1).setStat 0x200010 { seq := 1, stamps := [(5, 1)] }

theorem witness_ack : withStat.up = true ∧ isStatReg (resolve pfA 0x200010) = true ∧
    withStat.judge pfA 0x200010 8 true = .served ∧ (withStat.statOf (resolve pfA 0x200010)).ackAhead 1 = false ∧
    (withStat.statOf (resolve pfA 0x200010)).ackAhead 2 = true ∧ resolve pfA 0x200010 < 0x1_0000_0000 := by decide +kernel

/-- A write that waits toward an island. -/
def waiting : PostedWrite := { src := pfA, island := 202, addr := 0x200014, size := 4, value := 0 }

theorem witness_write_reaches : (run 1).up = true ∧ (run 1).sourceReaches pfA 0x200014 = true ∧
    (run 1).judge pfA 0x200014 4 true = .served ∧ (run 1).mustWait pfA 0x200014 .answered = false ∧
    crosses pfA 0x200014 = true ∧ (run 1).mustWait pfA 0x200014 .stalled = true ∧ crosses pfA 0x100014 = false ∧
    (run 1).judge pfA 0x100014 4 true = .served ∧ (run 1).sourceReaches pfA 0x100014 = true := by decide +kernel

theorem witness_stalled_write : ({ run 1 with late := [waiting] } : State).up = true ∧
    ({ run 1 with late := [waiting] } : State).isIsolated 202 = false ∧ waiting.src = .pf .a ∧ waiting.island = 202 ∧
    ({ run 1 with isolated := [202] } : State).isIsolated 202 = true := by decide +kernel

/-- A register of one keyed and one plain field, of a name that no rule singles out. -/
def keyedRow : RegRow := ⟨"MOD_WDOG", 0x1A00118, 32, 1, 0x0, [⟨15, 0, .rwk, 0xC8⟩, ⟨31, 16, .rw, 0⟩]⟩

theorem witness_fields : (run 1).heldByEnable keyedRow keyedRow.base = false ∧ (run 1).debugLevel ≠ 2 ∧ ownStep keyedRow = 0 ∧
    keyedRow.maskOf .rwk &&& 0xFFFFFFFF ≠ 0 ∧ (run 1).isArmed pfA (windowOf keyedRow.base) = false ∧
    (armedFor (run 1) 26).isArmed pfA (windowOf keyedRow.base) = true ∧ (armedFor (run 1) 26).guardLocked = false ∧
    (armedFor (run 1) 26).heldByEnable keyedRow keyedRow.base = false ∧ (armedFor (run 1) 26).debugLevel ≠ 2 := by decide +kernel

theorem witness_fields_rules (s : State) : (∀ (t : State) (m old : DWord), t.afterWrite keyedRow keyedRow.base m old = t) ∧
    (∀ (m w : DWord), s.writeRule keyedRow keyedRow.base m w = (0, none)) := ⟨fun _ _ _ => rfl, fun _ _ => rfl⟩

theorem witness_access_errors : (run 1).up = true ∧ (run 1).fnAnswers fA = true ∧
    (run 1).judge pfA 0x200010 2 false = .error 3 ∧
    islandOf (resolve (.pf .a) 0x200014) .a = waiting.island := by decide +kernel

/-! ## Functions and ports (witnesses) -/

/-- A state in which the administrative rings are set up. -/
def setUp : State :=
  ((((run 1).setFld (Reg.CCP_ASIZE 0) Reg.CCP_ASIZE_.ASQ_LOG2 1).setFld (Reg.CCP_ASIZE 0) Reg.CCP_ASIZE_.ACQ_LOG2 12).setReg
    (Reg.CCP_ASQ 0) 0x10000).setReg (Reg.CCP_ACQ 0) 0x20000

theorem witness_enabled_boot : (run 0).up = true ∧ (run 0).fnAnswers fA = true ∧
    (run 0).fld (Reg.CCP_FCTRL fA.key) Reg.CCP_FCTRL_.ENABLE = 0 ∧ (run 0).mode = modeBoot := by decide +kernel

theorem witness_enabled : setUp.up = true ∧ setUp.fnAnswers fA = true ∧
    setUp.fld (Reg.CCP_FCTRL fA.key) Reg.CCP_FCTRL_.ENABLE = 0 ∧ setUp.mode ≠ modeBoot ∧
    (run 1).fld (Reg.CCP_FCTRL fA.key) Reg.CCP_FCTRL_.ENABLE = 0 ∧ (run 1).mode ≠ modeBoot ∧
    ((run 1).setFld (Reg.CCP_FCTRL fA.key) Reg.CCP_FCTRL_.ENABLE 1).setupOk fA.key = false := by decide +kernel

theorem witness_enabled_setup :
    (setUp.setFld (Reg.CCP_FCTRL fA.key) Reg.CCP_FCTRL_.ENABLE 1).setupOk fA.key = true := by decide +kernel

/-- A state with Port A as it is given. -/
def withPort (x : PortState) : State := (run 1).setPort .a x

/-- A VF of Port A. -/
def vA : Fn := { port := .a, idx := 511 }

/-- A port with all its VFs. -/
def vfPort : PortState := { port with vfEnable := true, vfMse := true, numVFs := 511 }

theorem witness_config : (run 1).up = true ∧ ((run 1).portOf .a).inReset = false ∧ ((run 1).portOf .a).retry = false ∧
    ((run 1).portOf .a).vfEnable = false ∧ (511 : Word).toNat ≤ 511 ∧ (run 1).fnExists fA = true ∧
    (withPort { port with retry := true }).fnExists fA = true ∧ ((withPort { port with retry := true }).portOf .a).retry = true ∧
    (withPort vfPort).fnExists vA = true := by decide +kernel

theorem witness_bus_master : ((run 1).fnOf fA.key).busMaster = true ∧ ((run 1).fnOf fA.key).d3hot = false ∧
    (((run 1).setFn 0 { fn with busMaster := false }).fnOf fA.key).busMaster = false ∧
    ((run 1).setFn 0 { fn with busMaster := false }).up = true ∧
    (((run 1).setFn 0 { fn with d3hot := true }).fnOf fA.key).d3hot = true ∧
    ((run 1).setFn 0 { fn with d3hot := true }).fnExists fA = true := by decide +kernel

theorem witness_flr : (withPort vfPort).up = true ∧ (withPort vfPort).fnExists vA = true ∧
    ((withPort vfPort).portOf vA.port).inReset = false ∧ ((withPort vfPort).portOf vA.port).retry = false ∧ vA.idx ≠ 0 ∧
    vA.idx < 512 ∧ ((withPort vfPort).portOf .a).vfEnable = true ∧ ((run 1).portOf .a).vfEnable = false := by decide +kernel

theorem witness_port_reset : (run 1).up = true ∧ ((run 1).portOf .a).perstLow = false ∧ ((run 1).portOf .a).inReset = false := by
  decide +kernel

theorem witness_link_up : (withPort { port with inReset := true }).up = true ∧
    ((withPort { port with inReset := true }).portOf .a).inReset = true ∧
    ((withPort { port with inReset := true }).portOf .a).perstLow = false ∧
    ((withPort { port with inReset := true }).portOf .a).refClock = true ∧
    (withPort { port with inReset := true }).linkFits .a 1 16 = true := by decide +kernel

theorem witness_maxrate : (armedFor (run 1) 1).up = true ∧ (armedFor (run 1) 1).judge pfA (Reg.HST_LINK 0) 4 true = .served ∧
    (armedFor (run 1) 1).isArmed pfA 1 = true ∧ (armedFor (run 1) 1).fld (Reg.HST_LINK 0) Reg.HST_LINK_.MAXRATE ≠ 1 ∧
    (run 1).judge pfA (Reg.HST_LINK 0) 4 true = .served ∧ (run 1).isArmed pfA 1 = false := by decide +kernel

/-- A port with one tag. -/
def tagged (o : TagOwner) (q : Bool) : PortState := { port with tags := [{ tag := 0, owner := o, quarantined := q }] }

theorem witness_tags : (withPort (tagged (.packet fA 1) true)).up = true ∧
    ((withPort (tagged (.packet fA 1) true)).portOf .a).inReset = false ∧
    ((withPort (tagged (.packet fA 1) true)).portOf .a).tags.find? (fun t => decide (t.tag = 0)) =
      some { tag := 0, owner := .packet fA 1, quarantined := true } ∧
    ((withPort (tagged (.packet fA 1) false)).portOf .a).tags.find? (fun t => decide (t.tag = 0)) =
      some { tag := 0, owner := .packet fA 1, quarantined := false } ∧
    ((withPort (tagged (.muleData 0) false)).portOf .a).tags.find? (fun t => decide (t.tag = 0) && !t.quarantined) =
      some { tag := 0, owner := .muleData 0, quarantined := false } ∧
    ((withPort (tagged (.packet fA 1) true)).portOf .a).tags.find? (fun t => decide (t.tag = 0) && t.quarantined) =
      some { tag := 0, owner := .packet fA 1, quarantined := true } := by decide +kernel

/-! ## Commands (witnesses) -/

/-- A packet by its fields. -/
def pkt (op nsid slba nlb dptr dlen cspec : Nat) : BitVec 512 :=
  BitVec.ofNat 512 (op + nsid * 2 ^ 32 + slba * 2 ^ 128 + nlb * 2 ^ 192 + dptr * 2 ^ 256 + dlen * 2 ^ 320 + cspec * 2 ^ 448)

/-- Host memory that answers, with nothing in it. -/
def host : HostSide :=
  { listAnswer := .ok, list := [], dataAnswer := .ok, blocks := [], join := none, map := none, piece := none, key := none,
    faults := [] }

/-- A local namespace of 64 blocks. -/
def ns : Namespace :=
  { kind := .localNs, layout := 1, size := 64, extents := [0], nstag := 1, hostTallies := false, encrypted := false,
    attached := [fA], fence := 0, shrinkTo := 0, keyLoaded := none, keyCheck := none, stream := 0, hkey := 0, herd := 0,
    holding := false, slcPages := 0, sysData := [], sysLogs := [], deposed := none }

/-- A stored block of a system namespace. -/
def sysBlk : SysBlock := { data := [1], tally := 0, dieA := 0, dieB := 256 }

/-- A system namespace with its block 3 stored. -/
def sysNs : Namespace :=
  { ns with kind := .systemNs, size := 16, slcPages := 1, sysData := [(3, sysBlk)], extents := [] }

/-- The parameters of a die of 1,000 blocks. -/
def diePar : DieParams :=
  { present := true, crcOk := true, profiles := 1, pageBytes := 16384, spareBytes := 2176, planes := 4, pages := 100,
    slcPages := 100, blocks := 1000, bitsPerCell := 3, suspendOk := true, maxRate := 3, endurance := 1000,
    slcEndurance := 1000, minProgRun := 1, minEraseRun := 1, uniqueId := 0 }

/-- A die that does nothing. -/
def die : Die :=
  { params := diePar, cur := none, susp := none, flagActive := 0, flagOther := 1, flagNext := 0, fseq := 0, window := 0, sinceTurn := 0,
    stageBlocks := [], stageAt := 0, flushBlocks := [] }

/-- Two carriers in service with a die each: die keys 0 and 256. -/
def withDies (s : State) : State :=
  let s := (s.setFld (Reg.CAR_STATE 0) Reg.CAR_STATE_.STATE 5).setFld (Reg.CAR_STATE 1) Reg.CAR_STATE_.STATE 5
  let s := (s.setReg (Reg.CHN_DIEMAP 0) 0x100000001).setReg (Reg.CHN_DIEMAP 16) 0x100000001
  let s := (s.setFld Reg.MAP_GEOM Reg.MAP_GEOM_.BLOCK_BITS 10).setFld Reg.MAP_GEOM Reg.MAP_GEOM_.PAGE_BITS 7
  (s.setDie 0 die).setDie 256 die

/-- An N9 in SERVE whose physical function A speaks CCP 3.1 on ring 0 and ring 1, with a local and a system namespace and
dies, and a command in flight in slot 0. -/
def live (c : Cmd) : State :=
  let s := withDies ((run 1).setFld (Reg.CCP_FSTAT 0) Reg.CCP_FSTAT_.VERSION 0x0301)
  withCmd (withRings { s with nss := [(1, ns), (0xFF00, sysNs)] } [(0, { sq with cq := 0 }), (1, sq)] [(0, cq), (1, cq)]) c

/-- An administrative command in flight. -/
def adm (p : BitVec 512) : Cmd := { cmd p with ring := 0 }

theorem witness_command_ends : (live (cmd readPk)).cmds.inflight.look 0 = some (cmd readPk) ∧
    (live (cmd readPk)).cmds.sqs.look (ringKey fA.key 1) = some sq ∧
    (live (cmd readPk)).cmds.cqs.look (ringKey fA.key sq.cq) = some cq ∧ cq.full = false ∧ cq.faulted = false ∧ cq.held = [] ∧
    (live (cmd readPk)).mayWriteHost fA.key = true ∧ (stOk 0).cls < 256 ∧ (live (cmd readPk)).version fA.key ≠ 0x0204 ∧
    CplRing.full { cq with tail := 3 } = true := by decide +kernel

/-- I/O packets: READ, COMPARE, GATHER_READ, WRITE and WRITE_ZEROES of block 3 of the system namespace. -/
def sysRead : BitVec 512 := pkt 0x01 0xFF00 3 1 0 4096 0
def sysCompare : BitVec 512 := pkt 0x05 0xFF00 3 1 0 4096 0
def sysGather : BitVec 512 := pkt 0x10 0xFF00 3 1 0 4096 4
def sysWritePk : BitVec 512 := pkt 0x02 0xFF00 3 1 0 4096 0
def sysZeroes : BitVec 512 := pkt 0x04 0xFF00 3 1 0 0 0
def trimPk : BitVec 512 := pkt 0x03 1 4 8 0 0 0
def barrierPk : BitVec 512 := pkt 0x08 1 0 0 0 0 0

theorem witness_ready_read : Ob.Ready opRead 0 host (live (cmd sysRead)) (cmd sysRead) := by
  unfold Ob.Ready; decide +kernel

theorem witness_ready_compare : Ob.Ready opCompare 0 host (live (cmd sysCompare)) (cmd sysCompare) := by
  unfold Ob.Ready; decide +kernel

theorem witness_ready_gather : Ob.Ready opGatherRead 0 host (live (cmd sysGather)) (cmd sysGather) := by
  unfold Ob.Ready; decide +kernel

theorem witness_reads : (live (cmd sysRead)).nss.look (pkNsid sysRead) = some sysNs ∧ sysNs.kind = .systemNs ∧
    sysNs.hostTallies = false ∧ sysNs.encrypted = false ∧ (live (cmd sysRead)).herd.homed.look (pkNsid sysRead) = none ∧
    pkNlb sysRead = 1 ∧ pkSlba sysRead < sysNs.size ∧ sysNs.sysBlock (pkSlba sysRead) = some sysBlk ∧
    (live (cmd sysRead)).dieServes sysBlk.dieA = true ∧ pkAtc sysRead = false ∧ host.faults = [] ∧
    (hostBlock { host with blocks := [{ data := [1], tally := 0 }] } 0).data = sysBlk.data ∧
    (hostBlock { host with blocks := [{ data := [2], tally := 0 }] } 0).data ≠ sysBlk.data ∧
    pkNsid sysCompare = pkNsid sysRead ∧ pkNsid sysGather = pkNsid sysRead ∧ pkSlba sysCompare = pkSlba sysRead ∧
    pkSlba sysGather = pkSlba sysRead := by decide +kernel

theorem witness_ready_write : Ob.Ready opWrite 0 host (live (cmd sysWritePk)) (cmd sysWritePk) := by
  unfold Ob.Ready; decide +kernel

theorem witness_ready_zeroes : Ob.Ready opWriteZeroes 0 host (live (cmd sysZeroes)) (cmd sysZeroes) := by
  unfold Ob.Ready; decide +kernel

theorem witness_writes : pkSlba sysWritePk + pkNlb sysWritePk ≤ sysNs.size ∧ pkNsid sysWritePk = 0xFF00 ∧
    pkSlba sysZeroes + pkNlb sysZeroes ≤ sysNs.size ∧ pkNsid sysZeroes = 0xFF00 ∧ host.dataAnswer = .ok := by
  decide +kernel

theorem sysDies_two (s : State) (h : (s.servingDies.filter fun dk => s.dieTakes dk) = [0, 256]) :
    s.sysDies = some (0, 256) := by
  unfold State.sysDies
  rw [h]
  by_cases hc : s.servingCarriers.length ≤ 1 <;> simp [hc, dieCarrier]

theorem witness_writes_dies : (Ob.started 0 host (live (cmd sysWritePk)) (cmd sysWritePk)).sysDies = some (0, 256) ∧
    (Ob.started 0 host (live (cmd sysZeroes)) (cmd sysZeroes)).sysDies = some (0, 256) :=
  ⟨sysDies_two _ (by decide +kernel), sysDies_two _ (by decide +kernel)⟩

theorem witness_ready_barrier : Ob.Ready opBarrier 0 host (live (cmd barrierPk)) (cmd barrierPk) := by
  unfold Ob.Ready; decide +kernel

/-- A live state whose flush-set limits leave room. -/
def roomy (c : Cmd) : State :=
  ((live c).setFld Reg.PWR_FLUSHLIM Reg.PWR_FLUSHLIM_.MAP 1000).setFld Reg.PWR_FLUSHLIM Reg.PWR_FLUSHLIM_.GATHER 1000

theorem witness_ready_trim : Ob.Ready opTrim 0 host (roomy (cmd trimPk)) (cmd trimPk) := by
  unfold Ob.Ready; decide +kernel

theorem witness_trim : ns.kind = .localNs ∧ (roomy (cmd trimPk)).nss.look (pkNsid trimPk) = some ns ∧
    (Ob.started 0 host (roomy (cmd trimPk)) (cmd trimPk)).jobsFull (pkNsid trimPk) (pkSlba trimPk) (pkNlb trimPk) = false ∧
    (cmd trimPk).moved = 0 ∧ 0 < pkNlb trimPk ∧ pkSlba trimPk + pkNlb trimPk ≤ ns.size ∧
    pkSlba trimPk + pkNlb trimPk ≤ pageEnd (pkSlba trimPk) ∧ pkSlba trimPk % 4 = 0 ∧ pkNlb trimPk % 4 = 0 ∧
    (unitsOf (pkSlba trimPk) (pkNlb trimPk)).all
      (fun x => !(Ob.started 0 host (roomy (cmd trimPk)) (cmd trimPk)).map.away (ns.mpn x)) = true ∧
    (Ob.started 0 host (roomy (cmd trimPk)) (cmd trimPk)).chargesFit
      ((Ob.started 0 host (roomy (cmd trimPk)) (cmd trimPk)).cleanPages ns (unitsOf (pkSlba trimPk) (pkNlb trimPk))) 0 = true ∧
    (Ob.started 0 host (roomy (cmd trimPk)) (cmd trimPk)).place.index.length ≤ indexMax := by decide +kernel

/-- Administrative packets. -/
def helloPk : BitVec 512 := pkt 0x40 0 0 0 0 0 0x0301

def helloOld : BitVec 512 := pkt 0x40 0 0 0 0 0 0x0100

def featureSetPk : BitVec 512 := pkt 0x4B 0 1000 0 0 0 4

def featureGetPk : BitVec 512 := pkt 0x4C 0 0 0 0 0 4

def logGetPk : BitVec 512 := pkt 0x4A 0 0 0 0 64 1

/-- A live state in which function A has its administrative rings alone. -/
def liveAdm (c : Cmd) : State := withCmd (withRings (live c) [(0, { sq with cq := 0 })] [(0, cq)]) c

theorem witness_ready_hello : Ob.Ready opHello 0 host (liveAdm (adm helloPk)) (adm helloPk) ∧
    ccpVersions.find? (fun v => (helloList helloPk).contains v) = some 0x0301 := by
  unfold Ob.Ready; decide +kernel

theorem witness_ready_hello_old : Ob.Ready opHello 0 host (liveAdm (adm helloOld)) (adm helloOld) ∧
    ccpVersions.find? (fun v => (helloList helloOld).contains v) = none := by
  unfold Ob.Ready; decide +kernel

theorem witness_ready_feature_set : Ob.Ready opFeatureSet 0 host (liveAdm (adm featureSetPk)) (adm featureSetPk) := by
  unfold Ob.Ready; decide +kernel

theorem witness_ready_feature_get : Ob.Ready opFeatureGet 0 host (liveAdm (adm featureGetPk)) (adm featureGetPk) := by
  unfold Ob.Ready; decide +kernel

theorem witness_ready_log_get : Ob.Ready opLogGet 0 host (liveAdm (adm logGetPk)) (adm logGetPk) ∧
    0 < pkDlen logGetPk ∧ pkSpec logGetPk 0 8 ≠ 7 := by
  unfold Ob.Ready; decide +kernel

/-- Packets that create and delete rings. -/
def sqCreatePk : BitVec 512 := pkt 0x41 0 0 4 0x3000 0 0x10000

def cqCreatePk : BitVec 512 := pkt 0x41 0 0 4 0x3000 0 (2 ^ 63)

def cqDeletePk : BitVec 512 := pkt 0x42 0 0 0 0 0 (2 ^ 63 + 1)

def sqDeletePk : BitVec 512 := pkt 0x42 0 0 0 0 0 1

theorem witness_ready_ring_create : Ob.Ready opRingCreate 0 host (liveAdm (adm sqCreatePk)) (adm sqCreatePk) ∧
    pkSpec sqCreatePk 63 1 = 0 ∧
    Ob.Ready opRingCreate 0 host (liveAdm (adm cqCreatePk)) (adm cqCreatePk) ∧ pkSpec cqCreatePk 63 1 = 1 := by
  unfold Ob.Ready; decide +kernel

theorem freeRing_first {α : Type} (m : SMap α) (top : Nat) (h : m.look (ringKey 0 1) = none) :
    freeRing m 0 (top + 1) = some 1 := by
  simp [freeRing, List.range_succ_eq_map, h]

theorem witness_ring_create :
    freeRing (Ob.started 0 host (liveAdm (adm sqCreatePk)) (adm sqCreatePk)).cmds.sqs fA.key 8191 = some 1 ∧
    freeRing (Ob.started 0 host (liveAdm (adm cqCreatePk)) (adm cqCreatePk)).cmds.cqs fA.key 8191 = some 1 :=
  ⟨freeRing_first _ _ (by decide +kernel), freeRing_first _ _ (by decide +kernel)⟩

theorem witness_ring_create_max :
    (Ob.started 0 host (liveAdm (adm sqCreatePk)) (adm sqCreatePk)).maxSq fA.key = 8191 ∧
    (Ob.started 0 host (liveAdm (adm cqCreatePk)) (adm cqCreatePk)).maxCq fA.key = 8191 ∧
    (Ob.started 0 host (liveAdm (adm sqCreatePk)) (adm sqCreatePk)).cmds.sqs.length < ringMax ∧
    (Ob.started 0 host (liveAdm (adm cqCreatePk)) (adm cqCreatePk)).cmds.cqs.length < ringMax := by decide +kernel

/-- A VF whose feature 0x0001 leaves it no submission ring, and its administrative command. -/
def vf1 : Fn := { port := .a, idx := 1 }

def vfCmd (p : BitVec 512) : Cmd := { adm p with fn := vf1 }

def vfLive (c : Cmd) : State :=
  let s := ((live c).setPort .a vfPort).setFn 1 { fn with maxSq := 0, maxCq := 0 }
  withCmd (withRings (s.setFld (Reg.CCP_FSTAT 1) Reg.CCP_FSTAT_.VERSION 0x0301)
    [(0x10000, { sq with cq := 0 })] [(0x10000, cq)]) c

theorem witness_ready_ring_quota : Ob.Ready opRingCreate 0 host (vfLive (vfCmd sqCreatePk)) (vfCmd sqCreatePk) ∧
    freeRing (Ob.started 0 host (vfLive (vfCmd sqCreatePk)) (vfCmd sqCreatePk)).cmds.sqs vf1.key
      ((Ob.started 0 host (vfLive (vfCmd sqCreatePk)) (vfCmd sqCreatePk)).maxSq vf1.key) = none := by
  unfold Ob.Ready; decide +kernel

/-- A live state with one completion ring that no submission ring names. -/
def spareCq (c : Cmd) : State := withRings (live c) [(0, { sq with cq := 0 })] [(0, cq), (1, cq)]

theorem witness_ready_ring_delete : Ob.Ready opRingDelete 0 host (spareCq (adm cqDeletePk)) (adm cqDeletePk) ∧
    pkSpec cqDeletePk 63 1 = 1 ∧ Ob.Ready opRingDelete 0 host (live (adm sqDeletePk)) (adm sqDeletePk) ∧
    pkSpec sqDeletePk 63 1 = 0 ∧ pkSpec sqDeletePk 16 1 = 0 ∧
    (Ob.started 0 host (live (adm sqDeletePk)) (adm sqDeletePk)).cmds.sqs.look (ringKey fA.key (pkSpec sqDeletePk 0 16)) =
      some sq ∧
    (Ob.started 0 host (live (adm sqDeletePk)) (adm sqDeletePk)).ringSlots fA (pkSpec sqDeletePk 0 16) = [] := by
  unfold Ob.Ready; decide +kernel

theorem witness_ring_delete_ends : (live { adm sqDeletePk with stage := .waitRingEnd }).up = true ∧
    (live { adm sqDeletePk with stage := .waitRingEnd }).ringSlots fA (pkSpec sqDeletePk 0 16) = [] := by decide +kernel

/-- Packets for namespaces. -/
def nsCreatePk : BitVec 512 := pkt 0x43 0 64 0 0 0 1

def nsDeletePk : BitVec 512 := pkt 0x44 2 0 0 0 0 0

def nsAttachPk : BitVec 512 := pkt 0x45 1 0 0 0 0 0x10000

def nsDetachPk : BitVec 512 := pkt 0x45 1 0 0 0 0 0x20000

def nsSamePk : BitVec 512 := pkt 0x46 1 64 0 0 0 0

def nsGrowPk : BitVec 512 := pkt 0x46 1 (2 ^ 40) 0 0 0 0

theorem witness_ready_ns_create : Ob.Ready opNsCreate 0 host (live (adm nsCreatePk)) (adm nsCreatePk) ∧
    pkSpec nsCreatePk 4 1 = 0 ∧ pkSpec nsCreatePk 0 2 ≠ 3 := by
  unfold Ob.Ready; decide +kernel

theorem nsid_second (s : State) (n : Nat) (h1 : (s.nss.look 1).isSome = true) (h2 : s.nss.look 2 = none) :
    ((List.range (n + 2)).map fun i => 1 + i).find? (fun n => (s.nss.look n).isNone) = some 2 := by
  cases h : s.nss.look 1 with
  | none => simp [h] at h1
  | some x => simp [List.range_succ_eq_map, h, h2]

theorem freeNsid_second (s : State) (h1 : (s.nss.look 1).isSome = true) (h2 : s.nss.look 2 = none) :
    s.freeNsid false = some 2 := by
  have e := nsid_second s 4094 h1 h2
  unfold State.freeNsid
  simp only [Bool.false_eq_true, if_false]
  exact e

theorem extents_second (n : Nat) : ((List.range (n + 2)).filter fun x => !([0].contains x)).take 1 = [1] := by
  simp [List.range_succ_eq_map]

theorem freeExtents_second (s : State) (h : (s.nss.flatMap fun e => e.2.extents) = [0]) : s.freeExtents 1 = some [1] := by
  unfold State.freeExtents
  rw [h]
  have e := extents_second (extentCount - 2)
  have k : extentCount - 2 + 2 = extentCount := rfl
  rw [k] at e
  simp only [e]
  rfl

theorem witness_ns_create :
    (Ob.started 0 host (live (adm nsCreatePk)) (adm nsCreatePk)).freeNsid false = some 2 ∧
    (Ob.started 0 host (live (adm nsCreatePk)) (adm nsCreatePk)).freeExtents (extentsFor (pkSlba nsCreatePk / 4)) =
      some [1] :=
  ⟨freeNsid_second _ (by decide +kernel) (by decide +kernel), by
    have e : extentsFor (pkSlba nsCreatePk / 4) = 1 := by decide +kernel
    rw [e]; exact freeExtents_second _ (by decide +kernel)⟩

theorem witness_ns_create_fits : State.commitFits (Ob.started 0 host (live (adm nsCreatePk)) (adm nsCreatePk))
    (Ob.started 0 host (live (adm nsCreatePk)) (adm nsCreatePk)).capacity
    ((Ob.started 0 host (live (adm nsCreatePk)) (adm nsCreatePk)).committed +
      commitOf ((Ob.started 0 host (live (adm nsCreatePk)) (adm nsCreatePk)).localLayout (newNamespace nsCreatePk))
        (pkSlba nsCreatePk / 4)) = true := by decide +kernel

theorem witness_grow_refused : State.commitFits (Ob.started 0 host (live (adm nsGrowPk)) (adm nsGrowPk))
    (Ob.started 0 host (live (adm nsGrowPk)) (adm nsGrowPk)).capacity
    ((Ob.started 0 host (live (adm nsGrowPk)) (adm nsGrowPk)).committed - commitOf 1 (ns.size / 4) +
      commitOf 1 (pkSlba nsGrowPk / 4)) = false := by decide +kernel

theorem witness_ns_grow_fits (h : (Ob.started 0 host (live (adm nsGrowPk)) (adm nsGrowPk)).localLayout ns = 1) :
    (Ob.started 0 host (live (adm nsGrowPk)) (adm nsGrowPk)).growFits ns (pkSlba nsGrowPk) = false := by
  unfold State.growFits
  simp only [h, witness_grow_refused, Bool.false_and]

theorem witness_ns_layout : (Ob.started 0 host (live (adm nsGrowPk)) (adm nsGrowPk)).localLayout ns = 1 := by decide +kernel

/-- A live state with a namespace that is attached nowhere. -/
def withNs2 (c : Cmd) : State := { live c with nss := [(1, ns), (2, { ns with attached := [], extents := [1] }), (0xFF00, sysNs)] }

theorem witness_ready_ns_delete : Ob.Ready opNsDelete 0 host (withNs2 (adm nsDeletePk)) (adm nsDeletePk) := by
  unfold Ob.Ready; decide +kernel

theorem witness_ready_ns_attach : Ob.Ready opNsAttach 0 host (live (adm nsAttachPk)) (adm nsAttachPk) ∧
    pkSpec nsAttachPk 17 1 = 0 ∧ ns.attached.contains (attachTarget nsAttachPk) = false := by
  unfold Ob.Ready; decide +kernel

theorem witness_detach_ends : (live { adm nsDetachPk with stage := .waitDetach }).up = true ∧
    (live { adm nsDetachPk with stage := .waitDetach }).fnBusy (attachTarget nsDetachPk) (pkNsid nsDetachPk) = false := by
  decide +kernel

theorem witness_ready_ns_resize : Ob.Ready opNsResize 0 host (roomy (adm nsSamePk)) (adm nsSamePk) ∧
    ns.size = pkSlba nsSamePk ∧ (Ob.started 0 host (roomy (adm nsSamePk)) (adm nsSamePk)).chargesFit 0 0 = true ∧
    ns.extents.length = extentsFor (ns.size / 4) := by
  unfold Ob.Ready; decide +kernel

theorem witness_ready_ns_grow : Ob.Ready opNsResize 0 host (live (adm nsGrowPk)) (adm nsGrowPk) ∧
    ns.size < pkSlba nsGrowPk := by
  unfold Ob.Ready; decide +kernel

/-- Packets for regions. -/
def regionAddPk : BitVec 512 := pkt 0x48 0 0 1 0x200000 0 0x0100

def regionRemovePk : BitVec 512 := pkt 0x49 0 0 0 0 0 0

/-- A Host Map Region of Port A. -/
def region : Region :=
  { port := .a, base := 0x200000, chunks := 1, format := 0x0100, fails := 0, distrusted := false, removing := false,
    badSlots := [] }

/-- A live state with a region under identifier 0. -/
def withRegion (c : Cmd) : State := { live c with map := { (live c).map with regions := [(0, region)] } }

theorem witness_ready_region_remove : Ob.Ready opRegionRemove 0 host (withRegion (adm regionRemovePk)) (adm regionRemovePk) ∧
    (Ob.started 0 host (withRegion (adm regionRemovePk)) (adm regionRemovePk)).map.regions.look
      (pkSpec regionRemovePk 0 16) = some region ∧ region.port = fA.port ∧
    ((Ob.started 0 host (withRegion (adm regionRemovePk)) (adm regionRemovePk)).portOf fA.port).tags = [] ∧
    (withRegion { adm regionRemovePk with stage := .waitRegion }).up = true ∧
    (withRegion { adm regionRemovePk with stage := .waitRegion }).regionReads fA.port = false := by
  unfold Ob.Ready; decide +kernel

theorem witness_ready_region_add : Ob.Ready opRegionAdd 0 host (live (adm regionAddPk)) (adm regionAddPk) ∧
    (Ob.started 0 host (live (adm regionAddPk)) (adm regionAddPk)).map.regionRefusal fA.port (pkDptr regionAddPk)
      (pkNlb regionAddPk) = none ∧
    Ob.Ready opRegionAdd 0 host (withRegion (adm regionAddPk)) (adm regionAddPk) ∧
    (Ob.started 0 host (withRegion (adm regionAddPk)) (adm regionAddPk)).map.regionRefusal fA.port (pkDptr regionAddPk)
      (pkNlb regionAddPk) = some 32 := by
  unfold Ob.Ready; decide +kernel

/-- Packets for keys, firmware and the herd. -/
def keyLoadPk : BitVec 512 := pkt 0x60 1 0 0 0 4096 0

def fwStagePk : BitVec 512 := pkt 0x50 0 0 0 0 4096 1

def fwCastlePk : BitVec 512 := pkt 0x51 0 0 0 0 0 1

def herdLeavePk : BitVec 512 := pkt 0x59 0 0 0 0 0 0

/-- A wrapped key block. -/
def keyBlk : KeyBlock := { format := 0, nsid := 1, slot := 0, reservedZero := true, body := 0 }

/-- A firmware piece. -/
def piece : FwPiece := { blockCrcOk := [true], image := none }

theorem witness_ready_fw : Ob.Ready opFwStage 0 { host with piece := some piece } (live (adm fwStagePk)) (adm fwStagePk) ∧
    Ob.Ready opFwCastle 0 host (live (adm fwCastlePk)) (adm fwCastlePk) := by
  unfold Ob.Ready; decide +kernel

theorem witness_ready_key : Ob.Ready opKeyLoad 0 { host with key := some keyBlk } (live (adm keyLoadPk)) (adm keyLoadPk) := by
  unfold Ob.Ready; decide +kernel

theorem witness_key_fault :
    ((Ob.started 0 { host with key := some keyBlk } (live (adm keyLoadPk)) (adm keyLoadPk)).keyFault keyLoadPk ns keyBlk).isSome =
      true := by decide +kernel

theorem witness_ready_herd_leave : Ob.Ready opHerdLeave 0 host (live (adm herdLeavePk)) (adm herdLeavePk) := by
  unfold Ob.Ready; decide +kernel

/-! ## Waits (witnesses) -/

/-- A live state with a command that comes next in admission order. -/
def admitting (c : Cmd) (held : List Lock) : State :=
  { live c with cmds := { (live c).cmds with admission := [0], locks := held } }

/-- The locks of another command on the block that `sysWritePk` writes. -/
def otherLock : List Lock := (run 1).lockList 5 (cmd sysWritePk)

theorem witness_admit : (admitting (cmd sysWritePk) []).serving = true ∧
    (admitting (cmd sysWritePk) []).cmds.admission = 0 :: [] ∧
    (admitting (cmd sysWritePk) []).cmds.inflight.look 0 = some (cmd sysWritePk) ∧
    ((admitting (cmd sysWritePk) []).lockList 0 (cmd sysWritePk)).length = 1 ∧
    (admitting (cmd sysWritePk) otherLock).cmds.locks.length +
      ((admitting (cmd sysWritePk) otherLock).lockList 0 (cmd sysWritePk)).length ≤ lockEntries ∧
    lockBlocked (otherLock ++ (admitting (cmd sysWritePk) otherLock).lockList 0 (cmd sysWritePk)) 0 = true := by
  decide +kernel

theorem witness_admit_full : ((admitting (cmd sysWritePk) []).lockList 0 (cmd sysWritePk)).length = 1 →
    lockEntries < (List.replicate lockEntries ({ key := 0, mask := 0, slot := 9 } : Lock)).length +
      ((admitting (cmd sysWritePk) []).lockList 0 (cmd sysWritePk)).length := by
  intro h; simp [h]

/-- A live state with a second command in slot 1. -/
def withSecond (c d : Cmd) : State := { live c with cmds := { (live c).cmds with inflight := [(0, c), (1, d)] } }

/-- Commands that wait. -/
def staged (p : BitVec 512) (x : Stage) : Cmd := { cmd p with stage := x, number := 5 }

/-- A barrier that waits behind the packets of ring 1 up to number 3. -/
def noted : Cmd := { staged barrierPk .waitOrder with notes := [(1, 3)] }

/-- An I/O packet with the OA flag. -/
def oaPk : BitVec 512 := sysRead ||| 0x400

theorem witness_waits : (live (staged sysWritePk .waitLock)).serving = true ∧
    lockBlocked (live (staged sysWritePk .waitLock)).cmds.locks 0 = false ∧
    lockBlocked (admitting (staged sysWritePk .waitLock) (otherLock ++ (run 1).lockList 0 (cmd sysWritePk))).cmds.locks 0 = true ∧
    (live (staged sysWritePk .waitSpace)).cmds.inflight.look 0 = some (staged sysWritePk .waitSpace) ∧
    pkOpcode (staged barrierPk .waitOrder).packet = opBarrier ∧
    (live (staged barrierPk .waitOrder)).orderWaits 0 (staged barrierPk .waitOrder) = false ∧
    (live (staged barrierPk .waitOrder)).classWaits 0 = false ∧
    (live (staged barrierPk .waitOrder)).pipsFree 0 ((run 1).demand barrierPk) = true ∧
    (withSecond noted { cmd readPk with number := 1 }).orderWaits 0 noted = true ∧
    (withSecond noted { cmd readPk with number := 1 }).cmds.inflight.look 0 = some noted ∧
    (live (cmd barrierPk)).nss.look (pkNsid barrierPk) = some ns ∧ pkSlba barrierPk + pkNlb barrierPk ≤ ns.size := by
  decide +kernel

theorem witness_waits_oa : pkOa oaPk = true ∧ (live (staged oaPk .waitOrder)).orderWaits 0 (staged oaPk .waitOrder) = false ∧
    (live (staged oaPk .waitOrder)).pipsFree 0 ((live (cmd oaPk)).demand oaPk) = true := by decide +kernel

/-- A state in which a command waits for its pips. -/
def pipWaiting (s : State) : State := { s with pools := { s.pools with pipWaits := [(0, 0)] } }

theorem witness_pips : (pipWaiting (live (cmd sysRead))).pools.pipWaits.find? (fun e => decide (e.1 = 0)) = some (0, 0) ∧
    (pipWaiting (live (cmd sysRead))).pipsFree 0 ((live (cmd sysRead)).demand sysRead) = true ∧
    (pipWaiting (withSecond (cmd sysRead) { cmd readPk with cmdPip := true, sramPips := 10 ^ 9 })).pipsFree 0
      ((live (cmd sysRead)).demand sysRead) = false := by decide +kernel

/-! ## The map (witnesses) -/

/-- A directory entry in a place. -/
def dirAt (l : Loc) : DirEntry :=
  { gen := 1, index := 0, loc := l, dirty := false, busy := false, img := true, port := .a, blk := 0, unit := 0, since := 0 }

/-- A state with one map page, a region of Port A and a fetch. -/
def withPage (d : DirEntry) (f : List MapFetch) : State :=
  let s := withPort (tagged (.mapPage 5) false)
  { s with map := { s.map with dir := [(5, d)], regions := [(0, region)], fetches := f } }

/-- A fetch of page 5. -/
def fetch5 (h : Bool) : MapFetch := { mpn := 5, fromHost := h, forStore := false }

/-- A page with another seal than the directory expects, and one with the seal's generation. -/
def badPage : HmrPage := { lines := [], sealBits := 0, chunk := 0 }

/-- A map line of zeros with its CRC. -/
def zeroLine : BitVec 512 := BitVec.ofNat 512 (0x5A0B0531 * 2 ^ 480)

def goodPage : HmrPage :=
  { lines := List.replicate 64 zeroLine, sealBits := 1 <<< 96, chunk := 0 }

theorem witness_page_refused : (withPage (dirAt .host) [fetch5 true]).up = true ∧
    (((withPage (dirAt .host) [fetch5 true]).portOf .a).tags ++ ((withPage (dirAt .host) [fetch5 true]).portOf .b).tags).any
      (fun t => decide (t.owner = .mapPage 5) && !t.quarantined) = true ∧
    ((withPage (dirAt .host) [fetch5 true]).dropPageTag 5).map.fetchOf 5 = some (fetch5 true) ∧
    (((withPage (dirAt .host) [fetch5 true]).dropPageTag 5).map.dirOf 5).loc = .host ∧
    ((withPage (dirAt .host) [fetch5 true]).dropPageTag 5).pageCheck 5 (dirAt .host) badPage = some 1 ∧
    ((withPage (dirAt .host) [fetch5 true]).setFld Reg.MAP_HMRCTRL Reg.MAP_HMRCTRL_.FETCH_LIMIT 1).fld Reg.MAP_HMRCTRL
      Reg.MAP_HMRCTRL_.FETCH_LIMIT ≠ 0 := by decide +kernel

theorem witness_page_fetched : (withPage (dirAt .flash) [fetch5 false]).map.fetchOf 5 = some (fetch5 false) ∧
    (fetch5 false).fromHost = false := by decide +kernel

theorem crcByte_bits (p c : Word) (b : Byte) : crcByte p c b =
    crcBit p (crcBit p (crcBit p (crcBit p (crcBit p (crcBit p (crcBit p (crcBit p (c ^^^ b.setWidth 32)))))))) := rfl

theorem zeroLine_crc : crc32c (List.replicate 60 0) = 1510671665#32 := by
  simp [crc32c, crcOf, List.replicate, crcByte_bits, crcBit]

theorem goodPage_lines : goodPage.lines.all lineCrcOk = true := by
  have h : bytesOf zeroLine 60 = List.replicate 60 0 := by decide +kernel
  have h2 : (1510671665#32 : Word) = (zeroLine >>> 480).setWidth 32 := by decide +kernel
  have k : lineCrcOk zeroLine = true := by unfold lineCrcOk; rw [h, zeroLine_crc, h2]; simp
  simp [goodPage, k]

/-- The seal's digest is Config's: where it accepts the page, the page passes its checks. -/
theorem witness_page_ok (h : Config.pageSealOk 0 5 (dirAt .host).gen Port.a.num 0 goodPage = true) :
    ((withPage (dirAt .host) [fetch5 true]).dropPageTag 5).pageCheck 5 (dirAt .host) goodPage = none := by
  have e1 : ((goodPage.sealBits >>> 96).setWidth 32 ≠ (dirAt .host).gen) = False := by decide +kernel
  have e2 : ((withPage (dirAt .host) [fetch5 true]).dropPageTag 5).map.sealKey = 0 := by decide +kernel
  have e3 : slotPlace (((withPage (dirAt .host) [fetch5 true]).dropPageTag 5).map.regionsOf .a) 0 = some (0, 0) := by
    decide +kernel
  have e4 : ((withPage (dirAt .host) [fetch5 true]).dropPageTag 5).map.regions.look 0 = some region := by decide +kernel
  have e5 : goodPage.lines.length = 64 := by decide +kernel
  unfold State.pageCheck
  simp only [e1, if_false, e2]
  have e8 : (dirAt .host).index = 0 := rfl
  have e9 : (dirAt .host).port = .a := rfl
  simp [e8, e9, h, e3, e4, e5, goodPage_lines, region]

theorem witness_place : ((withPage (dirAt .sdram) []).setFld Reg.MAP_HMRCTRL Reg.MAP_HMRCTRL_.HOLD_ENABLE 1).fld
      Reg.MAP_HMRCTRL Reg.MAP_HMRCTRL_.HOLD_ENABLE = 1 ∧
    (withPage (dirAt .sdram) []).map.dirOf 5 = dirAt .sdram ∧ (dirAt .sdram).img = true ∧ (dirAt .sdram).dirty = false ∧
    (dirAt .sdram).busy = false ∧ (dirAt .sdram).gen ≠ 0xFFFF_FFFF ∧
    ((withPage { dirAt .sdram with dirty := true } []).map.dirOf 5).dirty = true := by decide +kernel

theorem freeSlot_first (m : MapState) (p : Port) (t : Nat)
    (ht : min portSlotMax (((m.regionsOf p).map fun e => e.2.chunks * chunkSlots).sum) = t + 1)
    (hu : ((m.dir.filter fun e => decide (e.2.loc = .host ∧ e.2.port = p)).map fun e => e.2.index) = [])
    (hp : slotPlace (m.regionsOf p) 0 = some (0, 0)) (hr : m.regions.look 0 = some region) : m.freeSlot p = some 0 := by
  unfold MapState.freeSlot
  simp only [ht, hu, List.range_succ_eq_map, List.find?_cons, hp, hr]
  rfl

theorem witness_place_slot : ((withPage (dirAt .sdram) []).setFld Reg.MAP_HMRCTRL Reg.MAP_HMRCTRL_.HOLD_ENABLE 1).map.freeSlot
    .a = some 0 :=
  freeSlot_first _ _ (min portSlotMax (1 * chunkSlots) - 1) (by decide +kernel) (by decide +kernel) (by decide +kernel)
    (by decide +kernel)

/-- A cache line of page 5, line 0, dirty in sector 0. -/
def line5 : CacheLine :=
  { island := 0, set := lineSet (lineAddr 5 0), way := 0, tag := lineTag (lineAddr 5 0), valid := 1, dirty := 1 }

/-- A state with a cache line, an eviction, a detector and a full journal. -/
def withCache : State :=
  { run 1 with map := { (run 1).map with
    cache := [line5], evict := [line5], detectors := [{ next := 1, run := 2, used := 0 }], journal := 1048576 } }

/-- A housekeeping core, and a state in BOOT in which it has armed the map cache's block. -/
def house : CoreId := { group := .housekeeping, idx := 0 }

def coreArmed : State := { run 0 with armed := [(.core house, 5)] }

theorem witness_cache : withCache.up = true ∧ 1048576 ≤ withCache.map.journal ∧
    (withCache.map.evict.filter fun x => decide (x.island = 0))[0]? = some line5 ∧
    withCache.map.detectors[0]? = some { next := 1, run := 2, used := 0 } ∧
    withCache.map.cache.any (fun x => decide (x.set = lineSet (lineAddr 5 0) ∧ x.tag = lineTag (lineAddr 5 0)) &&
      x.dirty.getLsbD (0 % 8)) = true ∧
    coreArmed.judge (.core house) Reg.MCH_SCRATCH 4 true = .served ∧ coreArmed.isArmed (.core house) 5 = true ∧
    coreArmed.mode = modeBoot ∧ (armedFor (run 1) 5).mode ≠ modeBoot ∧
    (armedFor (run 1) 5).judge pfA Reg.MCH_SCRATCH 4 true = .served ∧ (armedFor (run 1) 5).isArmed pfA 5 = true := by
  decide +kernel

/-! ## Staging, stripes, reclaim and wear (witnesses) -/

/-- A gather stripe with one empty slot. -/
def gather (s : Bool) : Gather :=
  { stream := 0, layout := 1, slots := [{ nsid := 1, unit := 0, join := 1, cws := [none, none, none, none] }], shut := s,
    placed := [7], charge := 0 }

/-- A band of a state, with one member. -/
def band (x : BandSt) : Band :=
  { layout := 1, members := [{ ch := 0, die := 0, block := 5 }], stream := 0, st := x, next := 1, relaxed := false,
    failed := [0], valid := 0, minutes := 3, score := 0, openWseq := 0 }

/-- A copied unit. -/
def item : CopyItem := { nsid := 1, unit := 0, src := 77, dst := 88 }

/-- A copy stripe. -/
def copy : CopyStripe := { band := 0, rebuild := false, items := [item] }

/-- A state with a gather stripe, bands, a copy stripe, a queued block, and a map entry that the copy was read from. -/
def placed (g : Bool) (x : BandSt) : State :=
  { run 1 with
    nss := [(1, ns)]
    map := { (run 1).map with entries := [(ns.mpn 0 * pageEntries, mkEntry false false false true 77)] }
    place := { (run 1).place with
      gathers := [(0, gather g)], bands := [(0, band x)], copies := [(0, copy)], erasesSincePersist := 65536
      retireQueue := [blockKey (dieKey 0 0) 5] } }

theorem witness_staging : (placed false .free).serving = true ∧ (placed false .free).packHead (pairKey (0, 1)) = [] ∧
    (placed false .free).openGather 0 = some (0, gather false) ∧
    (placed false .free).fld Reg.STG_CTRL Reg.STG_CTRL_.AGE_LIMIT ≠ 0 ∧
    (placed true .free).place.gathers.look 0 = some (gather true) ∧ (gather true).shut = true ∧ (gather true).placed ≠ [] := by
  decide +kernel

theorem witness_copies : (placed true .free).place.copies.look 0 = some copy ∧ (placed true .free).nss.look 1 = some ns ∧
    meV ((placed true .free).entryOf ns 0) = true ∧ meAddr ((placed true .free).entryOf ns 0) = item.src ∧
    (∀ x ∈ copy.items, ∀ n, (run 1).nss.look x.nsid = some n →
      ¬(meV ((run 1).entryOf n x.unit) = true ∧ meAddr ((run 1).entryOf n x.unit) = x.src)) := by
  refine ⟨by decide +kernel, by decide +kernel, by decide +kernel, by decide +kernel, ?_⟩
  intro x hx n hn
  have : (run 1).nss = [] := rfl
  rw [this] at hn; cases hn

theorem witness_reclaim : (placed true .free).up = true ∧ (placed true .closed).place.bands.look 0 = some (band .closed) ∧
    (band .closed).valid = 0 ∧ (band .closed).st ≠ .free ∧ 0 < (band .closed).next ∧ (band .closed).failed ≠ [] ∧
    (placed true .closed).retireVictim = some 0 ∧
    (State.place { placed true .closed with place := { (placed true .closed).place with
      reclaimOn := (placed true .closed).reclaimWanted } }).bands.find? (fun e => decide (e.2.st = .reclaiming) &&
        !((placed true .closed).liveIn e.2).isEmpty) = none ∧
    State.victimBand { placed true .closed with place := { (placed true .closed).place with
      reclaimOn := (placed true .closed).reclaimWanted } } = some 0 := by decide +kernel

theorem witness_wear : (placed true .free).place.bands.look 0 = some (band .free) ∧
    (band .free).members = [{ ch := 0, die := 0, block := 5 }] ∧
    blockKey (dieKey 0 0) 5 ∈ (placed true .free).place.retireQueue ∧
    65536 ≤ (placed true .free).place.erasesSincePersist ∧
    (placed true .closed).place.bands.look 0 = some (band .closed) ∧
    (live (cmd readPk)).nss.look 0xFF00 = some sysNs ∧ sysNs.kind = .systemNs ∧
    (run 1).fld Reg.PLC_CORECTRL Reg.PLC_CORECTRL_.INTERVAL ≠ 0 := by decide +kernel

/-- A system namespace with an emptied log pair. -/
def loggedNs : Namespace := { sysNs with sysLogs := [{ segment := some 0, age := 1, pages := 1, entries := [] }] }

theorem witness_merge : loggedNs.sysLogs[0]? = some { segment := some 0, age := 1, pages := 1, entries := [] } ∧
    SMap.look ({ placed true .free with place := { (placed true .free).place with
      bands := [(0, { band .free with members := [] })] } } : State).place.bands 0 = some { band .free with members := [] } := by
  decide +kernel

/-- An open deferred error, and a miss log. -/
def openErr : DefEntry :=
  { st := .pending, cause := 1, nsid := 1, herd := 0, merged := 0, slba := 0, nlb := 1, raisedSeq := 1, closedSeq := 0,
    epoch := 0, redone := [] }

theorem witness_deferred : ({ run 1 with deferred := [(0, openErr)] } : State).up = true ∧ openErr.isOpen = true ∧
    SMap.look [(3, ({ stripes := [], discards := [], incomplete := false } : MissLog))] 3 =
      some { stripes := [], discards := [], incomplete := false } := by decide +kernel

/-! ## Channels and dies (witnesses) -/

/-- A live state in which channel 0 works: carrier 0 powered, a queue, and a record in its ring. -/
def chanRun (q : List Desc) : State :=
  let s := (withDies (run 1)).setFld (Reg.CAR_STATE 0) Reg.CAR_STATE_.POWER 1
  (s.setReg (Reg.CHN_DIEMAP 0) 0x1_0001_0000_0001).setChan 0 { queue := q, posted := 4, cring := [5 <<< 96], seq := 5 }

/-- A descriptor of an operation on block 3 and plane 0 of die 0. -/
def descOf (op n : Nat) : Desc :=
  { bits := BitVec.ofNat 256 (op + 3 * 2 ^ 32 + 2 ^ 56), queue := 0, byCore := false, order := n, starved := false }

/-- An operation in progress. -/
def opOf (op : Nat) : DieOp := { desc := descOf op 0, suspends := 0, served := 0 }

/-- A state with an operation in progress on die 0. -/
def working (op : Nat) (q : List Desc) : State := (chanRun q).setDie 0 { die with cur := some (opOf op) }

theorem witness_posts : (chanRun []).running = true ∧
    (List.range' 1 11).all (fun op => decide ((chanRun []).postCode 0 (Ob.posted (chanRun []) 0 0 false
      (BitVec.ofNat 256 (op + 3 * 2 ^ 32 + 2 ^ 56))) = none ∧ descBits (BitVec.ofNat 256 (op + 3 * 2 ^ 32 + 2 ^ 56)) 0 8 = op)) = true ∧
    (Ob.postRows 0 0 false 0).map (fun e => e.1) = List.range' 1 11 := by decide +kernel

theorem witness_post_codes : (withDies (run 1)).descGone 0 0 = true ∧ (chanRun []).descGone 0 0 = false ∧
    (withDies (run 1)).postCode 0 (descOf 1 0) = some 6 ∧
    256 ≤ ((chanRun (List.replicate 256 (descOf 1 0))).chanOf 0).queue.length ∧
    (chanRun (List.replicate 256 (descOf 1 0))).postCode 0 (descOf 1 0) = some 11 := by decide +kernel

theorem witness_die_starts : ((chanRun [descOf 8 0]).dieOf (dieKey 0 0)).cur = none ∧
    ((chanRun [descOf 8 0]).dieOf (dieKey 0 0)).susp = none ∧ (chanRun [descOf 8 0]).pickDesc 0 0 = some (descOf 8 0) ∧
    (descOf 8 0).die = 0 ∧ (descOf 8 0).op = 8 ∧ ((working 3 []).dieOf (dieKey 0 0)).cur = some (opOf 3) ∧
    (descOf 2 0).op = 2 ∧ ((chanRun []).blockOf (dieKey 0 (descOf 2 0).die) (descOf 2 0).block).st = .unknown ∧
    (chanRun []).guardCode (dieKey 0 (descOf 2 0).die) (descOf 2 0) = some 3 ∧
    (State.blockOf { chanRun [] with media := { (chanRun []).media with blocks := [(3, { st := .retired, next := 0 })] } }
      (dieKey 0 (descOf 3 0).die) (descOf 3 0).block).st = .retired := by decide +kernel

theorem witness_guard : State.guardCode { chanRun [] with media := { (chanRun []).media with
    blocks := [(3, { st := .erased, next := 0 })] } } 0 (descOf 2 0) = none := by decide +kernel

theorem witness_die_ends : (working 3 [descOf 1 4]).running = true ∧ (working 8 []).pools.bufs = [] ∧
    (opOf 8).desc.op = 8 ∧ (opOf 8).desc.byCore = false ∧
    State.maySuspend ((working 3 [descOf 1 4]).setFld (Reg.CHN_CTRL 0) Reg.CHN_CTRL_.ENABLE 1) 0 0 1000000 (opOf 3) = true ∧
    ((working 2 []).dieOf (dieKey 0 0)).susp = none ∧ (opOf 2).desc.op ≠ 3 ∧
    (working 2 []).fld Reg.CHN_TIMING Reg.CHN_TIMING_.STARVE ≠ 0 ∧
    ((working 2 [descOf 1 4]).chanOf 0).queue.find? (fun x => decide (x.queue = 0 ∧ x.die = 0)) = some (descOf 1 4) ∧
    (working 2 []).judge pfA (Reg.CHN_CHEAD 0) 4 true = .served ∧
    ((working 2 []).chanOf 0).cring.findIdx? (fun r => decide (recordSeq r = 5)) = some 0 ∧
    ((working 2 []).chanOf 0).cring.findIdx? (fun r => decide (recordSeq r = 6)) = none := by decide +kernel

/-- A page-plane with one codeword, in the medium. -/
def word : Codeword := { data := [1], tally := 0, header := 0, step := some 0 }

def paged (step : Nat) : State :=
  { run 1 with media := { (run 1).media with
      pages := [(7, { slots := [word], trailer := 0 })], ladder := if step = 0 then [] else [(28, step)] } }

theorem witness_channels : (chanRun []).judge pfA (Reg.CHN_CTRL 0) 4 true = .served ∧
    ({ chanRun [] with armed := [(pfA, 9)] } : State).judge pfA (Reg.CHN_RATE 0) 4 true = .served ∧
    ({ chanRun [] with armed := [(pfA, 9)] } : State).isArmed pfA 9 = true ∧
    (chanRun []).fld (Reg.CHN_RATE 0) Reg.CHN_RATE_.TARGET ≠ (0x0010_0000 : Word).toNat / 2 ^ 20 % 16 ∧
    (chanRun []).usableDies 0 ≠ [] ∧ (chanRun []).isIsolated 0 = false ∧
    (paged 0).media.pages.look 7 = some { slots := [word], trailer := 0 } ∧ [word][0]? = some word ∧
    (paged 0).maxStep ≠ 0 ∧ SMap.look (paged (paged 0).maxStep).media.ladder (7 * 4 + 0) = some (paged 0).maxStep := by
  decide +kernel

/-! ## Carriers (witnesses) -/

/-- A state with carrier 2 in a state of its slot. -/
def carAt (m n : Nat) : State := (run m).setCarState 2 n

theorem witness_slot : (List.range 9).all (fun n => decide ((carAt 1 n).slotInput 2 = true ∧ (carAt 1 n).carState 2 = n ∧
      (carAt 1 n).carEvent 2 = true)) = true ∧
    (carAt 1 0).fld Reg.CAR_CTRL Reg.CAR_CTRL_.AUTO_ON = 1 ∧
    (State.setFld (carAt 1 0) Reg.CAR_CTRL Reg.CAR_CTRL_.AUTO_ON 0).fld Reg.CAR_CTRL Reg.CAR_CTRL_.AUTO_ON = 0 ∧
    (State.setFld (carAt 1 0) Reg.CAR_CTRL Reg.CAR_CTRL_.AUTO_ON 0).carState 2 = 0 := by decide +kernel

theorem witness_car_commands : (List.range 9).all (fun n => decide ((carAt 1 n).judge pfA (Reg.CAR_CMD 2) 4 true = .served ∧
      ((carAt 1 n).endLocate 2).carState 2 = n)) = true ∧ (carAt 1 5).running = true ∧ (carAt 1 5).mode ≠ modeHoldup ∧
    (carAt 4 5).mode = modeHoldup ∧ (carAt 4 5).running = true ∧ (carAt 4 5).judge pfA (Reg.CAR_CMD 2) 4 true = .served := by
  decide +kernel

/-- The live dies with the map's geometry: a removal leaves enough when nothing is committed. -/
def evacuable : State := withDies (run 1)

theorem witness_removal : evacuable.committed < evacuable.capacityWithout 0 ∧ evacuable.carState 0 = 5 ∧
    (List.range 8).all (fun x => decide (evacuable.carState x ≠ 6)) = true ∧
    (run 1).capacityWithout 2 ≤ (run 1).committed := by decide +kernel

/-- A carrier whose departure is kept. -/
def depart : Departure := { epoch := 1, carrierId := 2, dieHash := 3, blocks := [] }

/-- A state with the carrier's own fields set. -/
def carWith (n : Nat) (x : Carrier) : State := (carAt 1 n).setCarrier 2 x

def carrier : Carrier :=
  { record := none, dieHash := 0, departure := none, locate := false, delta := false, minimal := false, atStop := none }

theorem witness_car_steps : (carAt 0 3).mode = modeBoot ∧ (carAt 0 3).carEvent 2 = true ∧
    ((carWith 4 carrier).carrier 2).delta = false ∧ ((carWith 4 { carrier with delta := true }).carrier 2).delta = true ∧
    (carWith 6 carrier).carState 2 = 6 ∧ (carWith 7 carrier).carState 2 = 7 ∧
    (State.fld ((carWith 5 carrier).setFld (Reg.CAR_STATE 2) Reg.CAR_STATE_.REFUSE 1) (Reg.CAR_STATE 2) Reg.CAR_STATE_.REFUSE) ≠ 0 ∧
    ((carWith 1 { carrier with departure := some depart }).carrier 2).departure.isSome = true ∧
    (carWith 1 carrier).fld (Reg.CAR_STATE 2) Reg.CAR_STATE_.POWER ≠ 1 := by decide +kernel

theorem witness_evacuation : (carWith 6 carrier).evacLeft 2 = 0 ∧ (carWith 7 carrier).carrierIdle 2 = true ∧
    (State.carrierIdle ((carWith 7 carrier).setChan 32 { queue := [descOf 1 0], posted := 1, cring := [], seq := 0 }) 2) = false := by
  decide +kernel

theorem witness_evacuation_left : State.evacLeft ((live (cmd readPk)).setCarState 0 6) 0 ≠ 0 := by decide +kernel

theorem witness_discovery : ((List.range 16).foldl (fun s i =>
    s.takeChannel (16 * 2 + i) ((([] : List DieParams).drop (16 * i)).take 16)) (carAt 1 3)).mode ≠ modeBoot := by decide +kernel

/-! ## The herd (witnesses) -/

/-- A map of a flock with one member, this N9, and no herd. -/
def soloMap (epoch : Nat) : FlockMap :=
  { magic := 0xF10C4A3B, format := 1, flock := 9, epoch := epoch, length := 3517, reservedZero := true,
    members := [{ id := 3, state := 1, herd := 0, serial := 77, macs := [] }], herds := [], homes := [], signature := 0 }

/-- A map that its first field makes invalid. -/
def badMap : FlockMap := { soloMap 5 with magic := 0 }

/-- The signature is judged by Config: where it holds, the map is valid. -/
theorem soloMap_valid (e : Nat) (h : Config.signatureOk (Config.flockMapDigest (soloMap e)) 0 0 = true) :
    mapFault (soloMap e) 9 0 = none := by
  have k : Config.signatureOk (Config.flockMapDigest (soloMap e)) (soloMap e).signature 0 = true := h
  unfold mapFault
  simp only [k]
  simp [soloMap, mapLength, mapHomeAt, rising, firstBad, memberOk, List.findIdx?_cons]

/-- The descriptor of a join to that flock. -/
def joining : JoinDescriptor :=
  { format := 1, flock := 9, self := 3, reservedZero := true, holdBlocks := 0, keys := 0, map := soloMap 5 }

def herdJoinPk : BitVec 512 := pkt 0x58 0 0 0 0 5597 0

def herdReshapePk : BitVec 512 := pkt 0x5A 0 0 0 0 3517 0

/-- A live state with this N9's serial number, and one that is in the flock. -/
def serial77 (c : Cmd) : State := (live c).setReg Reg.FUS_SERIAL 77

def inFlock (c : Cmd) (m : FlockMap) : State :=
  let s := ((live c).setFld Reg.HRD_IDENT Reg.HRD_IDENT_.FLOCK 9).setFld Reg.HRD_IDENT Reg.HRD_IDENT_.JOINED 1
  { (s.setFld Reg.HRD_IDENT Reg.HRD_IDENT_.SELF 3).setReg Reg.HRD_EPOCH 4 with herd := { s.herd with map := some m, keys := some 0 } }

theorem witness_ready_join : Ob.Ready opHerdJoin 0 { host with join := some joining } (serial77 (adm herdJoinPk)) (adm herdJoinPk) ∧
    (Ob.started 0 { host with join := some joining } (serial77 (adm herdJoinPk)) (adm herdJoinPk)).joined = false ∧
    joining.self < 8192 ∧ joining.holdBlocks % 20 = 0 ∧
    (Ob.started 0 { host with join := some joining } (serial77 (adm herdJoinPk)) (adm herdJoinPk)).reg Reg.FUS_SERIAL = 77 := by
  unfold Ob.Ready; decide +kernel

theorem witness_join (s : State) (h : s.reg Reg.FUS_SERIAL = 77) :
    (∃ e, joining.map.member joining.self = some e ∧ e.state = 1 ∧ e.serial = s.reg Reg.FUS_SERIAL) ∧
    (∃ v, (s.takeIdentity joining).holdingNs joining = some v) :=
  ⟨⟨_, rfl, rfl, h.symm⟩, ⟨_, rfl⟩⟩

theorem witness_ready_reshape : Ob.Ready opHerdReshape 0 { host with map := some (soloMap 5) }
      (inFlock (adm herdReshapePk) (soloMap 4)) (adm herdReshapePk) ∧
    (Ob.started 0 { host with map := some (soloMap 5) } (inFlock (adm herdReshapePk) (soloMap 4)) (adm herdReshapePk)).joined = true ∧
    (Ob.started 0 { host with map := some (soloMap 5) } (inFlock (adm herdReshapePk) (soloMap 4)) (adm herdReshapePk)).flockId = 9 ∧
    (Ob.started 0 { host with map := some (soloMap 5) } (inFlock (adm herdReshapePk) (soloMap 4)) (adm herdReshapePk)).herd.keys = some 0 ∧
    (Ob.started 0 { host with map := some (soloMap 5) } (inFlock (adm herdReshapePk) (soloMap 4)) (adm herdReshapePk)).epoch = 4 := by
  unfold Ob.Ready; decide +kernel

/-- A key for an encrypted namespace. -/
def goodKey : KeyBlock := { format := 1, nsid := 1, slot := 0, reservedZero := true, body := 0 }

def goodKeyPk : BitVec 512 := pkt 0x60 1 0 0 0 1168 0

def encryptedNs : Namespace := { ns with encrypted := true }

def keyed (c : Cmd) : State :=
  { ((live c).setFld Reg.XTS_SLOTS Reg.XTS_SLOTS_.ENABLED 15) with nss := [(1, encryptedNs), (0xFF00, sysNs)] }

theorem witness_ready_key_ok : Ob.Ready opKeyLoad 0 { host with key := some goodKey } (keyed (adm goodKeyPk)) (adm goodKeyPk) := by
  unfold Ob.Ready; decide +kernel

/-- The unwrapping is judged by Config: where it holds, the key passes its checks. -/
theorem witness_key_ok (s : State) (hs : (s.fld Reg.XTS_SLOTS Reg.XTS_SLOTS_.ENABLED).testBit 0 = true)
    (h : Config.keyUnwraps ((fuseSecret s.boot.fuses * 65536 + 1) * 4 + 0) 0 = true) :
    s.keyFault goodKeyPk encryptedNs goodKey = none ∧ encryptedNs.keyLoaded ≠ some (Config.unwrappedKey goodKey.body) := by
  have e1 : pkSpec goodKeyPk 0 8 = 0 := by decide +kernel
  have e2 : pkNsid goodKeyPk = 1 := by decide +kernel
  have e3 : pkDlen goodKeyPk = 1168 := by decide +kernel
  refine ⟨?_, by simp [encryptedNs, ns]⟩
  unfold State.keyFault
  simp only [e1, e2, e3, hs, goodKey, encryptedNs, ns, h]
  simp

theorem witness_key_slots :
    ((Ob.started 0 { host with key := some goodKey } (keyed (adm goodKeyPk)) (adm goodKeyPk)).fld Reg.XTS_SLOTS
      Reg.XTS_SLOTS_.ENABLED).testBit 0 = true := by decide +kernel

/-- A map of a herd of two members, 10 (this N9) and 20. -/
def pairMap : FlockMap :=
  { soloMap 4 with
    members := [{ id := 10, state := 1, herd := 7, serial := 77, macs := [] }, { id := 20, state := 1, herd := 7, serial := 88, macs := [] }]
    herds := [{ herd := 7, k := 1, m := 1, layout := 0, members := [10, 20] }] }

/-- A link that is UP, one that has sent its HELLO. -/
def link (x : LinkSt) : Link :=
  { Link.closed with
    st := x, version := 0x0103, owedAcks := 1, usable := [0], unacked := [{ seq := 1, body := .mapOffer }] }

/-- An N9 of that herd, with a link to member 20. -/
def herdRun (m self : Nat) (l : Link) : State :=
  let s := ((run m).setFld Reg.HRD_IDENT Reg.HRD_IDENT_.FLOCK 9).setFld Reg.HRD_IDENT Reg.HRD_IDENT_.JOINED 1
  let s := (s.setFld Reg.HRD_IDENT Reg.HRD_IDENT_.SELF self).setFld Reg.HRD_IDENT Reg.HRD_IDENT_.HERD 7
  let s := s.setReg Reg.HRD_EPOCH 4
  { s with herd := { s.herd with map := some pairMap, keys := some 0, links := [(if self = 10 then 20 else 10, l)] } }

theorem pairMap_ins : pairMap.insOf [10, 20] = [10, 20] := by
  unfold FlockMap.insOf
  have h : ([10, 20].filter fun i => pairMap.memberIn i) = [10, 20] := by decide +kernel
  rw [h]
  simp [List.mergeSort, List.MergeSort.Internal.splitInTwo]

theorem pair_peers (s : State) (self : Nat) (h1 : s.herd.map = some pairMap) (h2 : s.herdId = 7) (h3 : s.selfId = self) :
    s.peers = [10, 20].filter fun i => decide (i ≠ self) := by
  unfold State.peers
  have e : pairMap.herd 7 = some { herd := 7, k := 1, m := 1, layout := 0, members := [10, 20] } := by decide +kernel
  rw [h1, h2]
  simp only [e, pairMap_ins, h3]

/-- A frame from a member. -/
def frame (src dst type len : Nat) : FrameHdr :=
  { plane := 0, etherType := ((run 1).etherType : Nat), vid := (run 1).portVid 0, dstMac := (run 1).portMac 0, fcsOk := true,
    crcOk := true, macControl := false, version := 0x0103, type := (type : Nat), retx := false, ackv := false, flock := 9,
    src := src, dst := dst, len := len, seq := 0, ackSeq := 0, epoch := 3 }

/-- The checks of a frame that do not look at the herd's list of members. -/
def headerOk (s : State) (h : FrameHdr) : Bool :=
  h.fcsOk && h.crcOk && !h.macControl && decide (h.vid = s.portVid h.plane ∧ h.etherType.toNat = s.etherType) &&
    decide (h.dstMac = s.portMac h.plane) && s.joined && decide (h.flock = s.flockId ∧ h.dst = s.selfId)

theorem frameOk_pair (s : State) (self : Nat) (h : FrameHdr) (h1 : s.herd.map = some pairMap) (h2 : s.herdId = 7)
    (h3 : s.selfId = self) (hp : ([10, 20].filter fun i => decide (i ≠ self)).contains h.src = true)
    (hf : headerOk s h = true) : s.frameOk h h.len = true := by
  unfold State.frameOk
  rw [pair_peers s self h1 h2 h3, hp]
  unfold headerOk at hf
  rw [hf]
  simp

theorem header_up : headerOk (herdRun 1 10 (link .up)) (frame 20 10 0 0) = true := by decide +kernel

theorem witness_frame_ok (type len : Nat) : (herdRun 1 10 (link .up)).frameOk (frame 20 10 type len) len = true :=
  frameOk_pair _ 10 (frame 20 10 type len) (by decide +kernel) (by decide +kernel) (by decide +kernel)
    (rfl : ([10, 20].filter fun i => decide (i ≠ 10)).contains 20 = true) header_up

/-- The operation of a fragment frame without blocks. -/
def opHdr : OpHdr :=
  { hkey := 1, index := 0, k := 1, nblk := 0, first := 0, status := 0, zero := 0, hstripe := 0, stampEpoch := 0, stampSeq := 0 }

theorem witness_frames : (herdRun 1 10 (link .up)).up = true ∧ (herdRun 1 10 (link .up)).mode ≠ modeBoot ∧
    (herdRun 0 10 (link .up)).mode = modeBoot ∧ (herdRun 0 10 (link .up)).up = true ∧
    (run 1).frameOk (frame 20 10 0x10 0) 0 = false ∧ fragLen opHdr = 32 ∧
    (Ob.frameRows (frame 20 10 0x10 0) 0 0 opHdr [] 0 0 0 []).all (fun e => FrameIs (frame 20 10 e.1 e.2.1) e.1) = true ∧
    (Ob.wakingRows (frame 20 10 0x21 32) opHdr []).all (fun e => FrameIs (frame 20 10 e.1 e.2.1) e.1) = true := by decide +kernel

/-- What every frame tells, where it brings no majority and no acknowledgement. -/
def quiet (h : FrameHdr) (s : State) : State :=
  let t := if s.portSends h.plane ∧ !(s.linkOf h.src).usable.contains h.plane then
      s.setLink h.src { s.linkOf h.src with usable := h.plane :: (s.linkOf h.src).usable }
    else s
  t.setLink h.src { t.linkOf h.src with epoch := h.epoch, fresh := (t.linkOf h.src).fresh || decide (h.epoch = t.epoch) }

theorem got_quiet (h : FrameHdr) (s : State) (hm : (quiet h s).majority = false) (ha : h.ackv = false) :
    Ob.got h s = quiet h s := by
  unfold Ob.got State.heard State.freshen
  simp only [ha, Bool.false_eq_true, false_and, if_false]
  change (if (quiet h s).majority = true then _ else quiet h s) = _
  rw [hm]
  rfl

theorem quiet_majority (h : FrameHdr) (s : State) (self : Nat) (h1 : (quiet h s).herd.map = some pairMap)
    (h2 : (quiet h s).herdId = 7) (h3 : (quiet h s).selfId = self)
    (hf : (([10, 20].filter fun i => decide (i ≠ self)).filter fun p => ((quiet h s).linkOf p).fresh).length = 0)
    (hl : ([10, 20].filter fun i => decide (i ≠ self)).length = 1) : (quiet h s).majority = false := by
  unfold State.majority
  rw [pair_peers _ self h1 h2 h3]
  simp only [hl, hf]
  rfl

theorem quiet_up : (quiet (frame 20 10 0 0) (herdRun 1 10 (link .up))).majority = false :=
  quiet_majority _ _ 10 (by decide +kernel) (by decide +kernel) (by decide +kernel) (by decide +kernel) rfl

theorem witness_got (type len : Nat) : Ob.got (frame 20 10 type len) (herdRun 1 10 (link .up)) =
    quiet (frame 20 10 type len) (herdRun 1 10 (link .up)) :=
  got_quiet _ _ quiet_up rfl

theorem witness_got_hello : Ob.got (frame 10 20 0x01 16) (herdRun 1 20 (link .closed)) =
      quiet (frame 10 20 0x01 16) (herdRun 1 20 (link .closed)) ∧
    Ob.got (frame 20 10 0x02 16) (herdRun 1 10 (link .helloSent)) =
      quiet (frame 20 10 0x02 16) (herdRun 1 10 (link .helloSent)) ∧
    Ob.got (frame 20 10 0x10 0) (herdRun 1 10 (link .closed)) = quiet (frame 20 10 0x10 0) (herdRun 1 10 (link .closed)) :=
  ⟨got_quiet _ _ (quiet_majority _ _ 20 (by decide +kernel) (by decide +kernel) (by decide +kernel) (by decide +kernel) rfl) rfl,
   got_quiet _ _ (quiet_majority _ _ 10 (by decide +kernel) (by decide +kernel) (by decide +kernel) (by decide +kernel) rfl) rfl,
   got_quiet _ _ (quiet_majority _ _ 10 (by decide +kernel) (by decide +kernel) (by decide +kernel) (by decide +kernel) rfl) rfl⟩

theorem witness_in_order : Ob.inOrder (frame 20 10 0x10 0) (quiet (frame 20 10 0x10 0) (herdRun 1 10 (link .up))) ∧
    ¬Ob.inOrder (frame 20 10 0x10 0) (quiet (frame 20 10 0x10 0) (herdRun 1 10 (link .closed))) := by
  unfold Ob.inOrder; decide +kernel

theorem witness_hello : (herdRun 1 20 (link .closed)).serialOk 10 77 = true ∧ (herdRun 1 20 (link .closed)).serialOk 10 78 = false ∧
    (frame 10 20 0x01 16).src < (quiet (frame 10 20 0x01 16) (herdRun 1 20 (link .closed))).selfId ∧
    FrameIs (frame 10 20 0x01 16) 0x01 = true ∧ chooseVersion [0x0103] ≠ 0 ∧ chooseVersion [0x0200] = 0 ∧
    (herdRun 1 10 (link .helloSent)).serialOk 20 88 = true ∧ helloVersions.contains 0x0103 = true ∧
    ((quiet (frame 20 10 0x02 16) (herdRun 1 10 (link .helloSent))).linkOf 20).st = .helloSent ∧
    FrameIs (frame 20 10 0x02 16) 0x02 = true ∧ ((run 1).linkOf 20).down = false := by decide +kernel

theorem witness_hello_ok : (herdRun 1 20 (link .closed)).frameOk (frame 10 20 0x01 16) 16 = true :=
  frameOk_pair _ 20 (frame 10 20 0x01 16) (by decide +kernel) (by decide +kernel) (by decide +kernel) (by decide +kernel) (by decide +kernel)

theorem witness_hello_ack_ok : (herdRun 1 10 (link .helloSent)).frameOk (frame 20 10 0x02 16) 16 = true :=
  frameOk_pair _ 10 (frame 20 10 0x02 16) (by decide +kernel) (by decide +kernel) (by decide +kernel) (by decide +kernel) (by decide +kernel)

/-- The state in which a reliable frame of member 20 acts. -/
def taken (type len : Nat) : State :=
  Ob.advanced (frame 20 10 type len) (quiet (frame 20 10 type len) (herdRun 1 10 (link .up)))

/-- A job whose one holder is member 20, and a read that waits for a fragment. -/
def job : Job :=
  { hkey := 1, k := 0, hstripe := 0, inFlight := true, again := false, late := false, stampSeq := 0, holders := [20],
    answered := [], unreadable := [], refused := false }

def withJob (s : State) (j : Job) : State :=
  { s with herd := { s.herd with jobs := [(4, j)], asked := [(20, opHdr)] } }

theorem witness_reliable : { frame 20 10 0x10 0 with epoch := 5 }.epoch > (taken 0x10 0).epoch ∧ (taken 0x10 0).epoch = 4 ∧
    (taken 0x10 0).herd.transfer = none ∧ (taken 0x11 8).herd.map = some pairMap ∧ pairMap.epoch = 4 ∧
    (0 : Nat) < badMap.length ∧ (frame 20 10 0x20 32).epoch ≤ (taken 0x20 32).epoch ∧
    (taken 0x22 32).heldSlot 1 1 0 0 = none ∧ (taken 0x23 32).asking 1 1 0 0 = false ∧
    (withJob (taken 0x23 32) job).asking 1 1 0 0 = true ∧ fragmentDone [(opHdr, [])] = false ∧
    (taken 0x21 32).jobFor opHdr 20 = none ∧
    (withJob (taken 0x21 32) job).jobFor { opHdr with k := 0 } 20 = some (4, job) ∧
    Job.established { job with answered := [0] } (job.holders.length - job.k) = true ∧ Job.established job 1 = false ∧
    (1 : Nat) ∉ [0, 3, 5] := by decide +kernel

theorem badMap_refused (flock keys : Nat) : mapFault badMap flock keys = some 0 := by
  unfold mapFault; simp [badMap]

theorem witness_map_data (s : State) (h : s.herd.incoming = []) : (s.offerMap badMap).herd.incoming = [] := by
  unfold State.offerMap
  rw [badMap_refused]
  simpa [State.raiseRecord_frame _, State.count_frame _] using h

theorem witness_map_data_taken : (taken 0x12 16).herd.incoming = [] := by decide +kernel

theorem witness_link_timers : (herdRun 1 10 (link .helloSent)).selfId < 20 ∧
    ((herdRun 1 10 (link .helloSent)).linkOf 20).st ≠ .up ∧ (herdRun 1 10 (link .up)).linkUp 20 = true ∧
    ((herdRun 1 10 (link .up)).linkOf 20).owedAcks ≠ 0 ∧ ((herdRun 1 10 (link .up)).linkOf 20).unacked ≠ [] ∧
    (herdRun 1 10 (link .up)).joined = true ∧ (herdRun 1 10 (link .up)).herdId = 7 := by decide +kernel

theorem witness_link_peers : (herdRun 1 10 (link .helloSent)).peers.contains 20 = true ∧
    (herdRun 1 10 (link .up)).majority = false := by
  have e1 : (herdRun 1 10 (link .helloSent)).peers = [20] := by
    rw [pair_peers _ 10 (by decide +kernel) (by decide +kernel) (by decide +kernel)]; decide +kernel
  have e2 : (herdRun 1 10 (link .up)).peers = [20] := by
    rw [pair_peers _ 10 (by decide +kernel) (by decide +kernel) (by decide +kernel)]; decide +kernel
  refine ⟨by rw [e1]; rfl, ?_⟩
  unfold State.majority
  rw [e2]
  decide +kernel

/-- A herd namespace that this N9 homes, with a sweep. -/
def herdNs : Namespace := { ns with kind := .herdNs, hkey := 1, herd := 7 }

def homed (sw : Bool) : Homed :=
  { segments := [], target := { k := 1, m := 0, elig := [], home := 10 }, boundary := 0, checkpoint := 0, sweeping := sw, held := none,
    rebuilding := false, ahead := [0], stampEpoch := 4 }

def homing (sw : Bool) (j : Job) : State :=
  let s := herdRun 1 10 (link .up)
  { s with nss := [(5, herdNs)], herd := { s.herd with jobs := [(4, j)], homed := [(5, homed sw)] } }

theorem witness_jobs : (homing true { job with inFlight := false }).herd.jobs.look 4 = some { job with inFlight := false } ∧
    (homing true job).nsOfKey job.hkey = some (5, herdNs) ∧ job.late = false ∧
    (homing true job).herd.homed.look 5 = some (homed true) ∧
    (homing true job).fld Reg.HRD_RETAIN Reg.HRD_RETAIN_.SWEEP_SHARE ≠ 0 ∧
    (homed true).ahead.contains ((homed true).boundary / max 1 (homed true).target.k) = true ∧
    (homing false job).herd.homed.look 5 = some (homed false) := by decide +kernel

theorem witness_peer_ports : (armedFor (run 1) 13).judge pfA Reg.HRD_CTRL 8 true = .served ∧ (armedFor (run 1) 13).isArmed pfA 13 = true ∧
    (run 1).isArmed pfA 13 = false ∧ (armedFor (run 1) 13).judge pfA (Reg.HRD_MAC 2) 8 true = .served ∧
    (run 1).judge pfA (Reg.HRD_PORT 2) 4 true = .served ∧
    ((run 1).fld (Reg.HRD_PORT 2) Reg.HRD_PORT_.AN ≠ 0 ∨ (run 1).fld (Reg.HRD_PORT 2) Reg.HRD_PORT_.AN ≠ 1) := by decide +kernel

/-! ## Hold-up, flush, pools and the match array (witnesses) -/

theorem witness_hold : (run 1).mayHold = true ∧ (run 0).mayHold = true ∧ (run 4).mayHold = false ∧
    SMap.look (chanRun [descOf 1 0]).stopDescs.media.chans 0 ≠ none ∧ (chanRun [descOf 1 0]).media.chans.look 0 ≠ none := by
  decide +kernel

theorem witness_bank : (run 1).running = true ∧ (run 1).mode ≠ modeFrozen ∧ (run 1).mode ≠ modeHoldup ∧
    (0 : BitVec 10).toNat < ((run 1).setFld Reg.PWR_THRESH Reg.PWR_THRESH_.ENTER 1).fld Reg.PWR_THRESH Reg.PWR_THRESH_.ENTER ∧
    (run 1).fld Reg.PWR_THRESH Reg.PWR_THRESH_.ENTER ≤ (1023 : BitVec 10).toNat ∧
    (run 1).fld Reg.PWR_CTRL Reg.PWR_CTRL_.SENSE_EN = 1 ∧ (run 1).power.lowEnter < 2 ∧
    (run 4).mode = modeHoldup ∧ (run 4).running = true ∧ (run 4).mode ≠ modeFrozen ∧
    (0 : BitVec 10).toNat < ((run 4).setFld Reg.PWR_THRESH Reg.PWR_THRESH_.ABORT 1).fld Reg.PWR_THRESH Reg.PWR_THRESH_.ABORT := by decide +kernel

/-- A flush at a step, with a band of sixteen dies. -/
def flushing (x : Flush) (c : Bool) : State :=
  { (run 4).setDie 0 { die with flushBlocks := [9] } with
    power := { (run 4).power with flush := x, cut := c, flushBand := (List.range 16).map fun i => 16 * i } }

theorem witness_flush : (flushing .entered false).running = true ∧ (flushing .entered false).power.flush = .entered ∧
    (flushing .fixed false).power.flush = .fixed ∧ (flushing .fixed false).power.cut = false ∧
    (flushing .fixed false).power.flushBand.length = 16 ∧
    ((flushing .fixed false).dieOf ((flushing .fixed false).power.flushBand.headD 0)).flushBlocks.head? = some 9 ∧
    (flushing .programmed false).mode = modeHoldup ∧ (flushing .programmed false).power.flush = .programmed ∧
    (flushing .fixed true).power.cut = true ∧ (flushing .fixed true).mode = modeHoldup ∧ (run 1).serving = true := by decide +kernel

/-- An allocation of one small staging buffer, one that no pool is large enough for. -/
def smallReq : Word := 0x0000_0100

def hugeReq : Word := 0x000F_FFFF

/-- A buffer of the source, another source's, and an allocation that waits. -/
def buf : Buf := { addr := 0x1000, pool := 0, num := 0, cls := 0, pips := 1, src := pfA, releasing := false }

def allocWait : AllocWait := { src := pfA, pool := 0, cls := 0, order := 0 }

def withBuf : State := { run 1 with pools := { (run 1).pools with bufs := [buf], waits := [allocWait] } }

theorem witness_alloc : (run 1).judge pfA Reg.BPM_ALLOCREQ 4 true = .served ∧ (run 1).allocPending pfA = false ∧
    poolFor ((smallReq.setWidth 64).getLsbD 31) (Reg.BPM_ALLOCREQ_.BYTES.get (smallReq.setWidth 64)) = some 0 ∧
    poolFor ((hugeReq.setWidth 64).getLsbD 31) (Reg.BPM_ALLOCREQ_.BYTES.get (hugeReq.setWidth 64)) = none ∧
    ({ run 1 with pools := { (run 1).pools with resp := [(pfA, .pending)] } } : State).allocPending pfA = true ∧
    (poolPips 0 ≤ ((run 1).poolQuota 0 0).1 ∧ (run 1).canAlloc 0 0 = true ∧ (run 1).pools.waits = []) ∧
    (((run 1).setFld (Reg.BPM_QUOTA 0) Reg.BPM_QUOTA_.SRAM 0).poolQuota 0 0).1 < poolPips 0 ∧
    ((run 1).setFld (Reg.BPM_QUOTA 0) Reg.BPM_QUOTA_.SRAM 1).poolQuota 0 0 = (1, 0) ∧
    State.canAlloc { (run 1).setFld (Reg.BPM_QUOTA 0) Reg.BPM_QUOTA_.SRAM 1 with pools := withBuf.pools } 0 0 = false ∧
    (run 1).judge pfA Reg.BPM_RELEASE 8 true = .served ∧
    withBuf.pools.bufs.find? (fun b => decide (b.addr = (0x1000 : DWord).toNat % 2 ^ 48)) = some buf ∧ buf.src = pfA ∧
    withBuf.bufBusy 0x1000 = false ∧ buf.src ≠ .mtf ∧ withBuf.judge .mtf Reg.BPM_RELEASE 8 true = .served ∧
    withBuf.nextAlloc 0 = some allocWait := by decide +kernel

theorem witness_buf_busy : State.bufBusy { withBuf with media := { withBuf.media with
    chans := [(0, { queue := [{ descOf 1 0 with bits := 0x1000 <<< 128 }], posted := 1, cring := [], seq := 0 })] } } 0x1000 = true := by
  decide +kernel

/-- A match-array entry that matches a key of zeros, at an address of the firmware partition and at its last one. -/
def entry : MatEntry := { key := 0, mask := 0, result := 7 }

def mat (l : SMap MatEntry) (x : List Slide) : State := { run 1 with mat := { entries := l, slides := x, resp := [] } }

theorem witness_match : Ob.MatTaken pfA 122880 (mat [(122880, entry)] []) ∧
    (matLookup (Ob.matUnder (mat [(122880, entry)] []) 122880).mat.entries (partitionAt 122880).1 (partitionAt 122880).2
      (Ob.matUnder (mat [(122880, entry)] []) 122880).matOperand.key
      (Ob.matUnder (mat [(122880, entry)] []) 122880).matOperand.mask) = some (122880, entry) ∧
    (matLookup [] (partitionAt 131071).1 (partitionAt 131071).2 0 0) = none ∧ Ob.MatTaken pfA 131071 (mat [] []) ∧
    SMap.look [(122880, entry)] 122880 = some entry ∧ SMap.look [(131071, entry)] ((partitionAt 122880).2 - 1) = some entry ∧
    (mat [] []).mat.entries.look ((partitionAt 122880).2 - 1) = none ∧
    (mat [] []).judge pfA Reg.MAT_CMD 4 true = .served ∧ (mat [] []).matBusy pfA = false ∧
    (Ob.matUnder (mat [] []) 122879).matPermitted pfA 122879 = false := by
  unfold Ob.MatTaken; decide +kernel

/-- A slide of an insert and of a delete. -/
def slide (e : Option MatEntry) : Slide := { partition := 3, addr := 122880, entry := e, src := pfA }

theorem witness_slides : (mat [] [slide (some entry)]).mat.slides.find? (fun x => decide (x.partition = 3)) =
      some (slide (some entry)) ∧
    (mat [] [slide (some entry)]).mat.entries.look ((partitionAt (slide (some entry)).addr).2 - 1) = none ∧
    (mat [(131071, entry)] [slide (some entry)]).mat.entries.look ((partitionAt (slide (some entry)).addr).2 - 1) = some entry ∧
    (mat [] [slide none]).mat.slides.find? (fun x => decide (x.partition = 3)) = some (slide none) ∧
    ([(122880, entry)].map (·.1)).Nodup ∧ SMap.look [(122880, entry)] 122880 = some entry := by decide +kernel

/-! ## Mules (witnesses) -/

/-- A state with ring 0 of the mules enabled, halted, paced. -/
def ringRun (h p : Nat) : State :=
  (((run 1).setFld (Reg.MUL_RCTRL 0) Reg.MUL_RCTRL_.ENABLE 1).setFld (Reg.MUL_RSTAT 0) Reg.MUL_RSTAT_.HALTED h).setFld
    (Reg.MUL_RSTAT 0) Reg.MUL_RSTAT_.PACED p

theorem witness_mule_rings : (run 1).ringEnabled 0 = false ∧ (run 1).judge pfA (Reg.MUL_RCTRL 0) 4 true = .served ∧
    (ringRun 0 1).ringEnabled 0 = true ∧ (ringRun 1 0).ringHalted 0 = true ∧ (ringRun 0 1).ringHalted 0 = false ∧
    (ringRun 0 1).judge pfA (Reg.MUL_RCTRL 0) 4 true = .served ∧ (ringRun 1 0).judge pfA (Reg.MUL_RCTRL 0) 4 true = .served ∧
    (ringRun 0 1).fld (Reg.MUL_RSTAT 0) Reg.MUL_RSTAT_.PACED = 1 ∧ (ringRun 0 1).paceHigh 0 = 0 := by decide +kernel

/-- A ring that runs, with its descriptors at the start of staging SRAM and bytes there. -/
def stagingRing (l : List Byte) : State :=
  { (ringRun 0 0).setFld (Reg.MUL_RBASE 0) Reg.MUL_RBASE_.BASE (Config.stagingPage % 2 ^ 35) with ram := writeBytes [] stagingBase l }

theorem stagingRing_reg (l : List Byte) (a : Nat) (h : a ≠ Reg.MUL_RBASE 0) : (stagingRing l).reg a = (ringRun 0 0).reg a := by
  have e : (stagingRing l).reg a = ((ringRun 0 0).setFld (Reg.MUL_RBASE 0) Reg.MUL_RBASE_.BASE (Config.stagingPage % 2 ^ 35)).reg a := by
    unfold stagingRing State.reg
    rfl
  rw [e, Laws.reg_setFld_of_ne _ _ _ _ _ h]

theorem stagingRing_base (l : List Byte) : Ob.mdAt (stagingRing l) 0 = stagingBase := by
  have h : (stagingRing l).fld (Reg.MUL_RBASE 0) Reg.MUL_RBASE_.BASE = Config.stagingPage % 2 ^ 35 % 2 ^ 52 := by
    have e : (stagingRing l).fld (Reg.MUL_RBASE 0) Reg.MUL_RBASE_.BASE =
        ((ringRun 0 0).setFld (Reg.MUL_RBASE 0) Reg.MUL_RBASE_.BASE (Config.stagingPage % 2 ^ 35)).fld (Reg.MUL_RBASE 0)
          Reg.MUL_RBASE_.BASE := by
      unfold stagingRing State.fld State.reg
      rfl
    rw [e, Laws.fld_setFld_self _ _ _ _ (by decide) (by decide)]
    rfl
  have h2 : (stagingRing l).fld (Reg.MUL_RSTAT 0) Reg.MUL_RSTAT_.HEAD = 0 := by
    unfold State.fld
    rw [stagingRing_reg l _ (by decide +kernel)]
    decide +kernel
  unfold Ob.mdAt stagingBase
  rw [h, h2]
  omega

theorem witness_ring_runs (l : List Byte) : Ob.RingRuns 0 (stagingRing l) := by
  have e : ∀ a f, a ≠ Reg.MUL_RBASE 0 → (stagingRing l).fld a f = (ringRun 0 0).fld a f := by
    intro a f h; unfold State.fld; rw [stagingRing_reg l a h]
  have m : Reg.MOD_STATE ≠ Reg.MUL_RBASE 0 ∧ Reg.MUL_RCTRL 0 ≠ Reg.MUL_RBASE 0 ∧ Reg.MUL_RSTAT 0 ≠ Reg.MUL_RBASE 0 ∧
      Reg.MUL_RPACE 0 ≠ Reg.MUL_RBASE 0 := by decide +kernel
  have up : (stagingRing l).up = (ringRun 0 0).up := by
    unfold State.up State.mode
    rw [e _ _ m.1]
    rfl
  refine ⟨by rw [up]; decide +kernel, by decide, ?_, ?_, rfl, rfl, ?_, ?_⟩
  · unfold State.ringEnabled; rw [e _ _ m.2.1]; decide +kernel
  · unfold State.ringHalted; rw [e _ _ m.2.2.1]; decide +kernel
  · unfold State.paceStops State.paceHigh; rw [e _ _ m.2.2.2]
    have : (ringRun 0 0).fld (Reg.MUL_RPACE 0) Reg.MUL_RPACE_.HIGH = 0 := by decide +kernel
    rw [this]; simp
  · rw [e _ _ m.2.2.1]; decide +kernel

theorem witness_ring_fabric (l : List Byte) : (stagingRing l).fabricOk (Ob.mdAt (stagingRing l) 0) 32 = true := by
  rw [stagingRing_base]
  unfold State.fabricOk inStaging
  have : decide (stagingBase ≤ stagingBase ∧ stagingBase + 32 ≤ stagingBase + 2 ^ 27) = true := by simp
  rw [this]
  rfl

/-- A descriptor with OWN set, and one with it clear. -/
def owned (b : Nat) : List Byte := leBytes 32 (b * 2 ^ 31)

theorem stagingRing_ram (l : List Byte) (h : l.length = 32) : readBytes (stagingRing l).ram stagingBase 32 = l := by
  have e : (stagingRing l).ram = writeBytes [] stagingBase l := by unfold stagingRing; rfl
  rw [e, ← h]
  exact Laws.readBytes_writeBytes l [] stagingBase (by decide)

theorem owned_head (b : Nat) : Ob.mdHead (stagingRing (owned b)) 0 = BitVec.ofNat 256 (leNat (owned b)) := by
  unfold Ob.mdHead
  rw [stagingRing_base, stagingRing_ram _ (by simp [owned, leBytes])]

theorem witness_own : (Ob.mdHead (stagingRing (owned 1)) 0).getLsbD 31 = true ∧
    (Ob.mdHead (stagingRing (owned 0)) 0).getLsbD 31 = false := by
  rw [owned_head, owned_head]
  decide +kernel

/-- A paced ring. -/
theorem witness_paced : (State.paceStops (((ringRun 0 0).setFld (Reg.MUL_RPACE 0) Reg.MUL_RPACE_.HIGH 1).setFld
    (Reg.MUL_RPACE 0) Reg.MUL_RPACE_.SRC 1) 0 = false) ∧
    State.paceStops { (((ringRun 0 0).setFld (Reg.MUL_RPACE 0) Reg.MUL_RPACE_.HIGH 1).setFld
      (Reg.MUL_RPACE 0) Reg.MUL_RPACE_.SRC 1) with hosts := { (run 1).hosts with
        ports := [(0, { port with tags := List.replicate 64 { tag := 0, owner := .muleData 0, quarantined := false } }), (1, port)] } } 0 =
      true := by decide +kernel

/-- A descriptor that copies 16 bytes of staging SRAM. -/
def copyBits : BitVec 256 := BitVec.ofNat 256 (16 * 2 ^ 32 + stagingBase * 2 ^ 64 + (stagingBase + 4096) * 2 ^ 128)

/-- A ring that has it in progress. -/
def copying : State :=
  { ringRun 0 0 with mules := [(0, { cur := some copyBits, addr := stagingBase + 8192, idle := false, cut := none, pendingBack := none })] }

theorem stagingBase_lt : stagingBase < 2 ^ 47 := by
  unfold stagingBase
  have h : Config.stagingPage % 2 ^ 35 < 2 ^ 35 := Nat.mod_lt _ (Nat.two_pow_pos 35)
  generalize Config.stagingPage % 2 ^ 35 = x at h
  norm_num at h ⊢
  omega

theorem copyBits_nat : copyBits.toNat = 16 * 2 ^ 32 + stagingBase * 2 ^ 64 + (stagingBase + 4096) * 2 ^ 128 := by
  have := stagingBase_lt
  unfold copyBits
  rw [BitVec.toNat_ofNat]
  omega

theorem copyBits_field (lo n : Nat) : descBits copyBits lo n =
    (16 * 2 ^ 32 + stagingBase * 2 ^ 64 + (stagingBase + 4096) * 2 ^ 128) / 2 ^ lo % 2 ^ n := by
  unfold descBits
  rw [BitVec.toNat_ushiftRight, copyBits_nat, Nat.shiftRight_eq_div_pow]

theorem copyBits_bit (i : Nat) : copyBits.getLsbD i =
    decide ((16 * 2 ^ 32 + stagingBase * 2 ^ 64 + (stagingBase + 4096) * 2 ^ 128) / 2 ^ i % 2 = 1) := by
  rw [← BitVec.testBit_toNat, copyBits_nat, Nat.testBit_eq_decide_div_mod_eq]

theorem small_sum (x : Nat) (h : x < 2 ^ 47) : 16 * 2 ^ 32 + x * 2 ^ 64 + (x + 4096) * 2 ^ 128 < 2 ^ 192 := by
  omega

theorem copyBits_high (i : Nat) (h : 192 ≤ i) :
    (16 * 2 ^ 32 + stagingBase * 2 ^ 64 + (stagingBase + 4096) * 2 ^ 128) / 2 ^ i = 0 := by
  exact Nat.div_eq_of_lt (Nat.lt_of_lt_of_le (small_sum _ stagingBase_lt) (Nat.pow_le_pow_right (by decide) h))

theorem copyBits_dst : (16 * 2 ^ 32 + stagingBase * 2 ^ 64 + (stagingBase + 4096) * 2 ^ 128) / 2 ^ 128 = stagingBase + 4096 := by
  have b := stagingBase_lt
  omega

theorem witness_copy : mdReservedOk copyBits = true ∧ mdXform copyBits = false ∧ mdTally copyBits = false ∧
    mdSrcSg copyBits = false ∧ mdDstSg copyBits = false ∧ mdSrcSp copyBits = 0 ∧ mdDstSp copyBits = 0 ∧ mdLen copyBits = 16 ∧
    mdSrc copyBits = stagingBase ∧ mdDst copyBits = stagingBase + 4096 := by
  have b := stagingBase_lt
  refine ⟨?_, ?_, ?_, ?_, ?_, ?_, ?_, ?_, ?_, ?_⟩
  · unfold mdReservedOk mdSrcSp mdDstSp
    simp only [copyBits_field, decide_eq_true_eq]
    refine ⟨?_, ?_, ?_, ?_, ?_⟩ <;> first | (rw [copyBits_high _ (by decide)]; decide) | omega
  · unfold mdXform; rw [copyBits_bit, decide_eq_false_iff_not]; omega
  · unfold mdTally; rw [copyBits_bit, decide_eq_false_iff_not]; omega
  · unfold mdSrcSg; rw [copyBits_bit, decide_eq_false_iff_not]; omega
  · unfold mdDstSg; rw [copyBits_bit, decide_eq_false_iff_not]; omega
  · unfold mdSrcSp; rw [copyBits_field, copyBits_high _ (by decide), Nat.zero_mod]
  · unfold mdDstSp; rw [copyBits_field, copyBits_high _ (by decide), Nat.zero_mod]
  · unfold mdLen; rw [copyBits_field]; omega
  · unfold mdSrc; rw [copyBits_field]; omega
  · unfold mdDst; rw [copyBits_field, copyBits_dst]; omega

theorem witness_copying : copying.up = true ∧ Memory.wf copying.ram = true ∧ copying.ringHalted 0 = false ∧
    (copying.mule 0).cur = some copyBits ∧ (copying.mule 0).cut = none ∧ (copying.mule 0).pendingBack = none ∧
    copying.fabricOk stagingBase 16 = true ∧ copying.fabricOk (stagingBase + 4096) 16 = true := by
  have f : ∀ k, k ≤ 4096 → copying.fabricOk (stagingBase + k) 16 = true := by
    intro k h
    unfold State.fabricOk inStaging
    have : decide (stagingBase ≤ stagingBase + k ∧ stagingBase + k + 16 ≤ stagingBase + 2 ^ 27) = true := by
      rw [decide_eq_true_eq]; omega
    rw [this]; rfl
  have f0 := f 0 (by omega)
  have f1 := f 4096 (by omega)
  rw [Nat.add_zero] at f0
  refine ⟨by decide +kernel, by decide +kernel, by decide +kernel, ?_, by decide +kernel, by decide +kernel, f0, f1⟩
  unfold copying State.mule
  rfl

theorem witness_write_back (st : Byte) (n : Word) (d : BitVec 256) :
    (State.mule { ringRun 0 0 with mules := [(0, { cur := some d, addr := 0, idle := false, cut := none, pendingBack := some (st, n) })] }
      0).pendingBack = some (st, n) := rfl

theorem witness_k7 : (run 1).judge pfA (Reg.MUL_K7CNT 3) 4 true = .served ∧ (run 1).debugLevel = 0 ∧
    ((run 1).setFld Reg.GRD_POLICY Reg.GRD_POLICY_.DEBUG 1).debugLevel ≠ 0 ∧
    ((run 1).setFld Reg.GRD_POLICY Reg.GRD_POLICY_.DEBUG 1).judge pfA (Reg.MUL_K7CNT 3) 4 true = .served ∧
    (run 1).fld (Reg.MUL_K7CNT 3) Reg.MUL_K7CNT_.BUSY = 0 ∧
    ((run 1).setFld (Reg.MUL_K7CNT 3) Reg.MUL_K7CNT_.BUSY 1).fld (Reg.MUL_K7CNT 3) Reg.MUL_K7CNT_.BUSY = 1 := by decide +kernel

/-! ## The SDRAM controller (witnesses) -/

/-- An N9 with channel 0 of the SDRAM in a mode. -/
def sdc (m : Nat) : State := (run 1).setFld (Reg.SDC_STATE 0) Reg.SDC_STATE_.MODE m

theorem witness_patrol : (sdc 2).running = true ∧ (sdc 2).sdcIn 0 [2] = true ∧
    (sdc 2).fld Reg.SDC_ECCCTRL Reg.SDC_ECCCTRL_.SCRUB_H ≠ 0 ∧
    (((sdc 2).setSdram 0 { (sdc 2).sdramOf 0 with patrolAt := ((sdc 2).sdramOf 0).patrolAt + 1 }).besideFailed 0 1 3 = false) ∧
    State.besideFailed (((sdc 2).setFld (Reg.SDC_STATE 0) Reg.SDC_STATE_.DEV_VALID 1).setFld (Reg.SDC_STATE 0)
      Reg.SDC_STATE_.DEV 3) 0 0 4 = true := by decide +kernel

theorem witness_sdram_errors : (run 1).fld (Reg.SDC_STATE 0) Reg.SDC_STATE_.DEV_VALID = 0 ∧
    ((run 1).setFld Reg.SDC_ECCCTRL Reg.SDC_ECCCTRL_.SPARE_THRESH 1).fld Reg.SDC_ECCCTRL Reg.SDC_ECCCTRL_.SPARE_THRESH ≤ 1 ∧
    ((run 1).sdramOf 0).deviceErrs.look (1 * 32 + 19) = none ∧
    1 < (run 1).fld Reg.SDC_ECCCTRL Reg.SDC_ECCCTRL_.SPARE_THRESH ∧ ((run 1).sdramOf 0).uncorrRun + 1 < 16 ∧
    15 ≤ (((run 1).setSdram 0 { (run 1).sdramOf 0 with uncorrRun := 15 }).sdramOf 0).uncorrRun ∧
    ((run 1).setSdram 0 { (run 1).sdramOf 0 with uncorrRun := 15 }).sdcFailed (sdramPartner 0) = false := by decide +kernel

theorem witness_sdram_commands : (sdc 1).sdcIn 0 [1, 2] = true ∧ (sdc 2).sdcIn 0 [1, 2] = true ∧
    (((sdc 2).setSdram 0 { (sdc 2).sdramOf 0 with banks := [(7, { counter := 0, lastRow := 1, isOpen := true })] }).sdramOf 0).bank 7 =
      { counter := 0, lastRow := 1, isOpen := true } ∧
    (run 1).sdcFailed 0 = false ∧ State.up { run 1 with map := { (run 1).map with detour := true } } = true ∧
    (0 : BitVec 12).toNat ≤ (sdc 2).fld (Reg.SDC_DQS 0 19) Reg.SDC_DQS_.WL_R0 + 2 ∧
    (sdc 2).fld (Reg.SDC_DQS 0 19) Reg.SDC_DQS_.WL_R0 ≤ (0 : BitVec 12).toNat + 2 ∧
    (sdc 2).fld (Reg.SDC_DQS 0 19) Reg.SDC_DQS_.WL_R1 + 2 < (4095 : BitVec 12).toNat ∧
    (armedFor (run 1) 17).judge pfA (Reg.SDC_CTRL 0) 4 true = .served ∧ (armedFor (run 1) 17).isArmed pfA 17 = true ∧
    (armedFor (run 1) 17).mode ≠ modeBoot ∧
    ({ run 0 with armed := [(.core house, 17)] } : State).judge (.core house) (Reg.SDC_CTRL 0) 4 true = .served ∧
    ({ run 0 with armed := [(.core house, 17)] } : State).isArmed (.core house) 17 = true ∧ (run 0).mode = modeBoot := by
  decide +kernel

theorem witness_training : (sdc 1).judge pfA (Reg.SDC_TCMD 0) 8 true = .served ∧ (sdc 1).sdcIn 0 [1] = true ∧
    (sdc 2).judge pfA (Reg.SDC_TCMD 0) 8 true = .served ∧ (sdc 2).sdcIn 0 [1] = false := by decide +kernel

/-! ## Reset, boot, castling, faults, freeze (witnesses) -/

theorem witness_reset : (run 1).pins.resetLow = false ∧ State.reset.pins.resetLow = true ∧ State.reset.mode = modeBoot := by
  decide +kernel

/-- The faces of the balls. -/
def faced (x : Face) (f : Bool) : State := { run 0 with pins := { (run 0).pins with face := x, freezeLow := f } }

theorem witness_strap_end : (faced .strap false).running = true ∧ (faced .strap true).running = true ∧
    (faced .strap true).pins.face = .strap ∧ (faced .strap false).pins.freezeLow = false ∧
    (faced .strap true).pins.freezeLow = true := by decide +kernel

/-- An N9 whose mask ROM has not checked the NOR, with a fuse row. -/
def rom (r : BitVec 4096) : State :=
  { run 0 with boot := { (run 0).boot with fuses := r }, pins := { (run 0).pins with face := .boot } }

/-- A fuse row of serial number 0 with its CRC, without and with the first lifecycle nibble blown. -/
def rowOf (n : Nat) : BitVec 4096 := BitVec.ofNat 4096 (0x8C28B28A * 2 ^ 64 + n * 2 ^ 1776)

theorem zeros8_crc : crc32c (List.replicate 8 0) = 0x8C28B28A#32 := by
  simp [crc32c, crcOf, List.replicate, crcByte_bits, crcBit]

theorem serialOk_of (r : BitVec 4096) (h : leBytes 8 (fuseSerial r) = List.replicate 8 0) :
    serialOk r = decide (0x8C28B28A = fuseBits r 64 32) := by
  unfold serialOk
  rw [h, zeros8_crc]
  rfl

theorem witness_serials : serialOk 0 = false ∧ serialOk (rowOf 0) = true ∧ serialOk (rowOf 0xF) = true := by
  rw [serialOk_of 0 (by decide +kernel), serialOk_of (rowOf 0) (by decide +kernel), serialOk_of (rowOf 0xF) (by decide +kernel)]
  decide +kernel

theorem witness_rom : Ob.MaskRom (rom 0) ∧ Ob.MaskRom (rom (rowOf 0)) ∧ Ob.MaskRom (rom (rowOf 0xF)) ∧
    lifecycle (rowOf 0) = 0 ∧ lifecycle (rowOf 0xF) ≠ 0 ∧ norCandidates none none = [] := by
  unfold Ob.MaskRom; decide +kernel

/-- An image of four blocks that nothing signs, of a security version. -/
def manifest (v : Nat) : Manifest :=
  { magic := 0x4E394D46, format := 0x0400, svn := v, exportFmt := 0x0200, supportEnd := 0, versions := [1, 1, 1],
    beside := List.replicate 3 (List.replicate 3 { min := 1, max := 1 }), revoke := 0, svnFuse := false, part := [0, 0, 0],
    hdrHash := 1, sectHashes := [1, 2, 3, 4, 5], signSlot := 0, signer := 0, signature := 0 }

def image (v : Nat) : Image :=
  { magic := 0x4E394948, format := 0x0400, nblk := 8, tblk := 1, manifestBlk := 6, crcOk := true,
    sections := (List.range 5).map fun k => { kind := k + 1, firstBlk := 2, length := 16, hash := k + 1 }, hdrHash := 1,
    manifest := manifest v }

def nor (c : DWord) (v : Nat) : NorSlot := { cseq := c, valid := true, image := image v }

/-- A fuse row with a signer of key hash 0 in slot 0. -/
def signedRow : BitVec 4096 := rowOf 0xF ||| BitVec.ofNat 4096 (0xBF9E51AD * 2 ^ 480)

theorem witness_candidates : norCandidates (some (nor 1 0)) none = [(0, nor 1 0)] ∧
    norCandidates (some (nor 2 0)) (some (nor 1 1)) = [(0, nor 2 0), (1, nor 1 1)] ∧
    (Ob.withNor (rom (rowOf 0xF)) (some (nor 2 0)) none).slotBoots { nor 2 0 with valid := false } = false ∧
    Machine.headerOk (image 0) = true ∧ loaderOk (image 0) = true := by decide +kernel

/-- A slot boots where its manifest is accepted; the signature is Config's and the CRC over the signer's key hash the fuses'. -/
theorem witness_slot_boots (s : State) (h : s.manifestOk (manifest 0) = true) (f : minSvn s.boot.fuses = 0) :
    s.slotBoots (nor 1 0) = true := by
  have e : Machine.headerOk (image 0) = true ∧ loaderOk (image 0) = true := by decide +kernel
  unfold State.slotBoots
  have m : (nor 1 0).image.manifest = manifest 0 := rfl
  have i : (nor 1 0).image = image 0 := rfl
  simp only [m]
  rw [i, e.1, e.2, h, f]
  rfl

theorem witness_manifest (s : State) (h : s.slotAccepted 0 = true) (f : fuseHash s.boot.fuses 0 = 0)
    (g : Config.signatureOk (Config.manifestDigest (manifest 0)) 0 0 = true) : s.manifestOk (manifest 0) = true := by
  have m : (manifest 0).signSlot = 0 ∧ (manifest 0).signer = 0 ∧ (manifest 0).signature = 0 := ⟨rfl, rfl, rfl⟩
  unfold State.manifestOk State.signedOk
  rw [m.1, m.2.1, m.2.2, h, f, g]
  rfl

/-- An N9 whose loader runs. -/
def loading : State :=
  ({ rom (rowOf 0xF) with boot := { (rom (rowOf 0xF)).boot with booted := some (image 0) } } : State).setFld Reg.BOT_STATUS
    Reg.BOT_STATUS_.STAGE 1

theorem witness_loader : loading.boot.booted = some (image 0) ∧ loading.running = true ∧ loading.mode = modeBoot ∧
    loading.fld Reg.BOT_STATUS Reg.BOT_STATUS_.STAGE = 1 ∧ loading.fld Reg.BOT_STATUS Reg.BOT_STATUS_.CODE ≠ 7 := by decide +kernel

def bootCore : Source := .core { group := .boot, idx := 0 }

def locked (s : State) : State := s.setReg Reg.GRD_POLICY (1 <<< 63)

theorem witness_fuses : (run 0).up = true ∧ (run 0).judge bootCore Reg.FUS_PROG 4 true = .served ∧ (run 0).guardLocked = false ∧
    fuseRefused 0 4095 = true ∧ fuseRefused 0 0 = false ∧ (0 : BitVec 4096).getLsbD 0 = false ∧ pfA ≠ bootCore ∧
    (locked (run 0)).guardLocked = true ∧ (run 0).judge bootCore Reg.GRD_LOCK 4 true = .served ∧
    (locked (run 0)).judge bootCore Reg.GRD_LOCK 4 true = .served ∧ (1 : Word).getLsbD 0 = true ∧ (0 : Word).getLsbD 0 = false := by
  decide +kernel

/-- An N9 in BOOT whose firmware runs, at a step of recovery. -/
def recov (n : Nat) : State :=
  { run 0 with boot := { (run 0).boot with running := some (image 0) }, power := { (run 0).power with recStep := n } }

def later (n : Nat) : State :=
  { (withDies (recov n)) with power := { (withDies (recov n)).power with firstStart := false, journal := [0], cleanSession := some 0 } }

theorem witness_recovery : ((List.range 10).all fun n => decide ((recov n).recovering = true ∧ (recov n).mayRecover = true)) = true ∧
    (recov 2).isFirstStart = true ∧ (later 6).closedClean = true ∧ (later 6).flushReadable = true ∧ (recov 6).closedClean = false ∧
    (recov 10).mayRecover = false ∧ (run 0).recovering = false ∧
    2 ≤ ((recov 7).setFld Reg.PWR_LASTSTOP Reg.PWR_LASTSTOP_.KIND 2).fld Reg.PWR_LASTSTOP Reg.PWR_LASTSTOP_.KIND := by decide +kernel

/-- A castling. -/
def castle (n : Nat) (st : Bool) : Castle :=
  { image := image 1, handed := n, stopped := st, abort := none, inBoot := false, seq := 0 }

def castling (n : Nat) (st : Bool) : State :=
  { run 3 with boot := { (run 3).boot with running := some (image 0), castle := some (castle n st) } }

theorem witness_castling : (castling 0 false).running = true ∧ (castling 0 false).mode = modeCastling ∧
    (castling 0 false).dueCore (castle 0 false) = some 0 ∧ (castle 0 false).inBoot = false ∧
    (castling 23 true).dueCore (castle 23 true) = some 23 ∧ (castle 23 true).abort = none ∧
    (castling 0 true).dueCore { castle 0 true with stopped := false, handed := 1 } = some 1 ∧
    (castling 23 true).dueCore { castle 23 true with stopped := false, handed := 24 } = none ∧
    (castling 1 true).dueCore { castle 1 true with stopped := false, abort := some (1, 1) } = some 0 ∧
    (castling 0 true).dueCore { castle 0 true with stopped := false, abort := some (1, 0) } = none := by decide +kernel

/-- An N9 at the end of recovery whose store is ahead of the NOR. -/
def ahead : State :=
  let b := (recov 10).boot
  { (recov 10).setFld Reg.BOT_STATUS Reg.BOT_STATUS_.SLOT 0 with
    boot := { b with booted := some (image 0), norA := some (nor 1 0), store := { b.store with committed := some (image 1) } } }

theorem witness_boot_castle : ahead.boot.booted = some (image 0) ∧ ahead.boot.store.committed = some (image 1) ∧
    (image 1).manifest ≠ (image 0).manifest ∧ ahead.running = true ∧ ahead.mode = modeBoot ∧ ahead.power.recStep = 10 ∧
    ahead.boot.castle = none ∧ ahead.fld Reg.BOT_STATUS Reg.BOT_STATUS_.SLOT = 0 ∧
    versionsOk (image 0).manifest (image 1).manifest = true ∧ ahead.boot.norA = some (nor 1 0) := by decide +kernel

/-- An N9 in service whose firmware runs. -/
def manned : State := { run 1 with boot := { (run 1).boot with running := some (image 0) } }

theorem witness_faults : manned.coreRuns house = true ∧ manned.boot.castle = none ∧ 1 < groupSize house.group ∧
    manned.coreFailed house.group 1 = false ∧ manned.up = true ∧ 0 < (engineIslands .ecc).2.1 ∧
    manned.isIsolated ((engineIslands .ecc).1 + 0) = false ∧ 1 < (engineIslands .ecc).2.1 ∧
    manned.isIsolated ((engineIslands .ecc).1 + 1) = false ∧ (run 1).mode = modeServe ∧
    ((run 1).reg Reg.MOD_REASON).getLsbD 7 = false ∧ (0 : Nat) ∈ (run 1).fnKeys := by decide +kernel

theorem witness_limits : (run 1).running = true ∧ (run 1).mode ≠ modeHoldup ∧ loneIsland 211 = true ∧
    (110 * 16 ≤ (1760 : Half).toInt) ∧ (100 * 16 ≤ (1600 : Half).toInt) ∧ ((1551 : Half).toInt < 97 * 16) ∧
    (97 * 16 ≤ (1552 : Half).toInt ∧ (1552 : Half).toInt < 100 * 16) := by decide +kernel

theorem witness_counters : (run 1).judge pfA Reg.EVT_CLRSTATS 4 true = .served ∧
    (armedFor (run 1) 23).judge pfA Reg.EVT_CLRSTATS 4 true = .served ∧ (armedFor (run 1) 23).isArmed pfA 23 = true ∧
    (run 1).isArmed pfA 23 = false ∧ ctrCount.get (0 : DWord) + 1 < 2 ^ 31 - 1 ∧
    2 ^ 31 - 1 ≤ ctrCount.get (0x7FFFFFFE : DWord) + 1 ∧ isClearedCounter Reg.MOD_HALT = false := by decide +kernel

theorem witness_freeze : (run 1).pins.resetLow = false ∧ (run 1).pins.face ≠ .strap ∧ (run 1).pins.frozen = false ∧
    State.reset.pins.resetLow = true ∧ (run 1).judge pfA Reg.FRZ_CTRL 4 true = .served ∧
    (armedFor (run 1) 24).isArmed pfA 24 = true ∧ (armedFor (run 1) 24).debugLevel = 0 ∧
    (armedFor (run 1) 24).judge pfA Reg.FRZ_CTRL 4 true = .served ∧ (run 1).isArmed pfA 24 = false ∧
    State.debugLevel ((armedFor (run 1) 24).setFld Reg.GRD_POLICY Reg.GRD_POLICY_.DEBUG 1) ≠ 0 ∧
    State.judge ((armedFor (run 1) 24).setFld Reg.GRD_POLICY Reg.GRD_POLICY_.DEBUG 1) pfA Reg.FRZ_CTRL 4 true = .served ∧
    ({ run 1 with pins := { (run 1).pins with frozen := true } } : State).pins.frozen = true := by decide +kernel

/-! ## Management tasks (witnesses) -/

/-- An N9 whose task register file is in a state, with an opcode, owned by endpoint 5. -/
def task (x op : Nat) : State :=
  let s := ((run 1).setFld Reg.CCP_TASK_STAT Reg.CCP_TASK_STAT_.STATE x).setFld Reg.CCP_TASK_STAT Reg.CCP_TASK_STAT_.OWNER 5
  let s := s.setFld Reg.CCP_TASK_CTRL Reg.CCP_TASK_CTRL_.OPCODE op
  { withDies s with nss := [(0xFF00, sysNs)], mtf := { s.mtf with negotiated := true } }

/-- An argument of a task. -/
def arg (s : State) (i n : Nat) : State := s.setReg (taskArg i) (BitVec.ofNat 64 n)

theorem witness_task_file : (task 0 0).up = true ∧ (List.range 16).all (fun i => taskOffsetOk (0x1000 + 4 * i)) = true ∧
    taskOffsetOk 2 = false ∧ (task 0 0).taskState = 0 ∧ taskOffsetOk 0x20 = true ∧ taskOffsetOk 0x3C = true ∧
    (1 : Word).getLsbD 0 = true ∧ (task 2 0).taskState = 2 ∧
    ({ task 2 0 with mtf := { (task 2 0).mtf with expired := true } } : State).mtf.expired = true ∧
    (1 : Word).getLsbD 1 = false ∧ (task 2 0).ownsTask 6 = false ∧ (task 2 0).ownsTask 5 = true ∧
    (task 2 0).mtf.expired = false ∧ (0x0C000001 : Word).toNat / 2 ^ 24 = 0x0C := by decide +kernel

theorem witness_gates : Ob.taskOf .mtfModeGet = some (2, modesAll) ∧ Ob.taskOf .mtfLogGet = some (5, modesServing) ∧
    (task 0 2).taskState ≠ 1 ∧ (task 1 2).taskState = 1 ∧ (task 1 2).fld Reg.CCP_TASK_CTRL Reg.CCP_TASK_CTRL_.OPCODE = 2 ∧
    ({ task 1 2 with mtf := (run 1).mtf } : State).mtf.negotiated = false ∧ (task 1 5).up = true ∧
    modesServing.contains ((task 1 5).setReg Reg.MOD_STATE 0).mode = false := by decide +kernel

theorem witness_busy_hello : Ob.Busy .mtfHello (task 1 0) ∧ (task 1 0).mode < 4 ∧ (arg (task 1 0) 0 0x0102).taskArg 0 % 65536 = 0x0102 ∧
    (task 1 0).taskArg 0 % 65536 ≠ 0x0102 ∧ (task 1 0).taskArg 0 / 65536 ≠ 0x0102 :=
  ⟨⟨by decide +kernel, by decide +kernel, rfl, _, rfl, by decide +kernel, by decide +kernel⟩, by decide +kernel⟩

theorem witness_busy_identify : Ob.Busy .mtfIdentify (task 1 1) :=
  ⟨by decide +kernel, by decide +kernel, rfl, _, rfl, by decide +kernel, by decide +kernel⟩

theorem witness_busy_mode : Ob.Busy .mtfModeGet (task 1 2) :=
  ⟨by decide +kernel, by decide +kernel, rfl, _, rfl, by decide +kernel, by decide +kernel⟩

/-- The task reads or writes MOD_HOURS, and a register that no register is. -/
def regTask (op a : Nat) : State := arg (arg (task 1 op) 0 a) 1 4

theorem witness_busy_read : Ob.Busy (.mtfRegRead .answered) (regTask 3 Reg.MOD_WDOG) ∧ (regTask 3 Reg.MOD_WDOG).taskArg 0 < 0x400_0000 ∧
    (regTask 3 Reg.MOD_WDOG).taskArg 1 = 4 ∧ (regTask 3 Reg.MOD_WDOG).judge .mtf ((regTask 3 Reg.MOD_WDOG).taskArg 0) 4 false = .served ∧
    (regTask 3 (Reg.MOD_WDOG + 1)).judge .mtf ((regTask 3 (Reg.MOD_WDOG + 1)).taskArg 0) 4 false = .error 3 :=
  ⟨⟨by decide +kernel, by decide +kernel, rfl, _, rfl, by decide +kernel, by decide +kernel⟩, by decide +kernel⟩

theorem witness_busy_write : Ob.Busy (.mtfRegWrite .answered) (regTask 4 Reg.MOD_WDOG) ∧ (regTask 4 Reg.MOD_WDOG).taskArg 0 < 0x400_0000 ∧
    (regTask 4 Reg.MOD_WDOG).taskArg 1 = 4 ∧ (regTask 4 Reg.MOD_WDOG).judge .mtf ((regTask 4 Reg.MOD_WDOG).taskArg 0) 4 true = .served ∧
    (regTask 4 (Reg.MOD_WDOG + 1)).judge .mtf ((regTask 4 (Reg.MOD_WDOG + 1)).taskArg 0) 4 true = .error 3 :=
  ⟨⟨by decide +kernel, by decide +kernel, rfl, _, rfl, by decide +kernel, by decide +kernel⟩, by decide +kernel⟩

/-- The task reads 64 bytes of log 1. -/
def logTask : State := arg (arg (task 1 5) 0 1) 2 64

theorem witness_busy_log : Ob.Busy .mtfLogGet logTask ∧ logTask.taskArg 2 ≤ 4096 ∧
    logTask.taskFault (pfOf 0) (taskPacket opLogGet 0 (logTask.taskArg 1) (logTask.taskArg 2) (logTask.taskArg 0)) = none :=
  ⟨⟨by decide +kernel, by decide +kernel, rfl, _, rfl, by decide +kernel, by decide +kernel⟩, by decide +kernel⟩

/-- The task gets or sets feature 4. -/
def featTask (op : Nat) : State := arg (arg (task 1 op) 0 4) 2 1000

theorem witness_busy_features : Ob.Busy .mtfFeatureGet (featTask 6) ∧ Ob.Busy .mtfFeatureSet (featTask 7) ∧
    (featTask 6).taskFault (pfOf ((featTask 6).taskArg 4 / 65536 % 2)) (Ob.featurePacket (featTask 6) opFeatureGet 0) = none ∧
    (featTask 7).taskFault (pfOf ((featTask 7).taskArg 4 / 65536 % 2)) (Ob.featurePacket (featTask 7) opFeatureSet
      ((featTask 7).taskArg64 2)) = none :=
  ⟨⟨by decide +kernel, by decide +kernel, rfl, _, rfl, by decide +kernel, by decide +kernel⟩,
    ⟨by decide +kernel, by decide +kernel, rfl, _, rfl, by decide +kernel, by decide +kernel⟩, by decide +kernel⟩

/-- The task reads or writes a block of system namespace 0. -/
def sysTask (op lba : Nat) : State := arg (task 1 op) 1 lba

theorem witness_busy_sysns : Ob.Busy .mtfSysnsRead (sysTask 8 3) ∧ (sysTask 8 3).taskArg 0 ≤ 7 ∧
    (sysTask 8 3).nss.look (0xFF00 + (sysTask 8 3).taskArg 0) = some sysNs ∧ sysNs.kind = .systemNs ∧
    (sysTask 8 3).taskArg64 1 < sysNs.size ∧ (sysTask 8 3).taskMayLock false (0xFF00 + (sysTask 8 3).taskArg 0)
      ((sysTask 8 3).taskArg64 1) = true ∧ sysNs.sysBlock ((sysTask 8 4).taskArg64 1) = none ∧
    sysNs.sysBlock ((sysTask 8 3).taskArg64 1) = some sysBlk ∧ (sysTask 8 3).dieServes sysBlk.dieA = true :=
  ⟨⟨by decide +kernel, by decide +kernel, rfl, _, rfl, by decide +kernel, by decide +kernel⟩, by decide +kernel⟩

theorem witness_busy_sysns_write : Ob.Busy .mtfSysnsWrite (sysTask 9 3) ∧
    (sysTask 9 3).nss.look (0xFF00 + (sysTask 9 3).taskArg 0) = some sysNs ∧
    (sysTask 9 3).taskMayLock true (0xFF00 + (sysTask 9 3).taskArg 0) ((sysTask 9 3).taskArg64 1) = true :=
  ⟨⟨by decide +kernel, by decide +kernel, rfl, _, rfl, by decide +kernel, by decide +kernel⟩, by decide +kernel⟩

theorem witness_sysns_dies : (sysTask 9 3).sysDies = some (0, 256) := by
  refine sysDies_two _ ?_ 
  decide +kernel

/-- A first piece of blocks 0 and 1 of an image. -/
def firstPiece : FwPiece := { blockCrcOk := [true, true], image := some (image 0) }

/-- The task brings block 2 of the image whose first piece stands in the staging area. -/
def fwTask (op : Nat) : State :=
  let s := arg (arg (task 1 op) 0 8192) 1 4096
  { s with boot := { s.boot with staging := { owner := mtfOwner, image := some (image 0), blocks := List.range 8 } } }

theorem witness_busy_stage : Ob.Busy (.mtfFwStage piece) (fwTask 10) ∧ (fwTask 10).taskArg 1 ≤ 4096 ∧
    (fwTask 10).taskFault (pfOf 0) (taskPacket opFwStage 0 ((fwTask 10).taskArg 0) ((fwTask 10).taskArg 1)
      ((fwTask 10).taskArg 2)) = none ∧
    ((fwTask 10).fwStage mtfOwner ((fwTask 10).taskArg 0) ((fwTask 10).taskArg 1 / 4096)
      (decide ((fwTask 10).taskArg 2 = 1)) piece).1 = stOk 0 :=
  ⟨⟨by decide +kernel, by decide +kernel, rfl, _, rfl, by decide +kernel, by decide +kernel⟩, by decide +kernel⟩

theorem witness_busy_castle : Ob.Busy .mtfFwCastle (fwTask 11) ∧ (fwTask 11).boot.staging.image = some (image 0) :=
  ⟨⟨by decide +kernel, by decide +kernel, rfl, _, rfl, by decide +kernel, by decide +kernel⟩, rfl⟩

/-- The checks of FW_CASTLE pass where the manifest is accepted and every usable die matches one profile: both are Config's. -/
theorem witness_castle_passes (s : State) (m : s.fwMode = true) (st : s.boot.staging = ⟨mtfOwner, some (image 0), List.range 8⟩) (ok : s.manifestOk (manifest 0) = true) (f : minSvn s.boot.fuses = 0)
    (p : s.partsOk (manifest 0) = true) (d : s.profilesFit (image 0) = true) (r : s.boot.running = none)
    (y : s.sysDies.isNone = false) : s.castleFault mtfOwner = none := by
  have e : ((List.range (image 0).nblk).find? fun b => !(List.range 8).contains b) = none := by decide +kernel
  have b : badSection (image 0) = none := by decide +kernel
  have i : (image 0).manifest = manifest 0 := rfl
  have h : (image 0).hdrHash = (manifest 0).hdrHash := rfl
  unfold State.castleFault
  simp only [st, m, e, i, ok, h, b, f, p, d, r, y]
  rfl

theorem witness_sideband : (run 1).running = true ∧ ({ run 1 with mtf := { (run 1).mtf with i3c := true } } : State).mtf.i3c = true ∧
    (run 1).mtf.i3c = false := by decide +kernel

/-! ## The whole block (witnesses) -/

/-- A state with a command that waits. -/
def queued (s : State) (i : Instr) : State := { s with pending := [i] }

theorem witness_steps : (queued (run 1) .hourTick).pending = [.hourTick] ∧ (run 1).pending = [] ∧
    Memory.wf (queued (run 1) .hourTick).ram = true ∧ (queued (run 1) .hourTick).running = true ∧
    (0xF : BitVec 4096).getLsbD 0 = true := by decide +kernel

theorem witness_hour (s : State) (h : s.running = true) (p : s.pending = [.hourTick]) : ∃ t, step s = .next t := by
  refine ⟨((s.withPending []).setReg Reg.MOD_HOURS (counterAdd ((s.withPending []).reg Reg.MOD_HOURS) 1)), ?_⟩
  unfold step
  rw [p]
  show exec .hourTick (s.withPending []) = _
  unfold exec Sys2Proof.Machine.execHourTick
  have : (s.withPending []).running = true := h
  rw [this]
  rfl

theorem witness_frozen : ({ run 1 with pins := { (run 1).pins with frozen := true }, pending := [.thermtrip] } : State).pins.frozen =
      true ∧ (some Instr.thermtrip ≠ some .chipResetAssert) ∧ (some Instr.thermtrip ≠ some .coreSupplyLoss) ∧
    (run 1).pins.resetLow = false := by decide +kernel

/-! ## Ill-formed commands -/

theorem test_wf_slot : Instr.wf (.ringDeleteComplete 65536) = false := by decide

theorem test_wf_doorbell : Instr.wf (.sqDoorbellWrite { port := .a, idx := 512 } 0 4 0) = false ∧
    Instr.wf (.sqDoorbellWrite fA 0 0 0) = false ∧ Instr.wf (.cqDoorbellWrite fA 0 9 0) = false := by decide

theorem test_wf_window : Instr.wf (.blockKeyWrite (.pf .a) 0 0) = false ∧ Instr.wf (.blockKeyWrite (.pf .a) 27 0) = false ∧
    Instr.wf (.blockKeyWrite (.pf .a) 26 0) = true := by decide

theorem test_wf_sources : Instr.wf (.statAckWrite (.core { group := .command, idx := 16 }) 0 0) = false ∧
    Instr.wf (.coreWatchdog { group := .media, idx := 4 }) = false ∧ Instr.wf (.coreWatchdog { group := .boot, idx := 1 }) = false := by
  decide

theorem test_wf_rings : Instr.wf (.cqAggTimer fA 65536) = false ∧ Instr.wf (.muleRingKick (.pf .a) 256) = false ∧
    Instr.wf (.mulePaceResume 255) = true := by decide

theorem test_wf_pools : Instr.wf (.pipReserveGrant 64) = false ∧ Instr.wf (.allocGrant 4) = false ∧
    Instr.wf (.matchSlideDone 4) = false := by decide

theorem test_wf_map : Instr.wf (.mapPageDrop (2 ^ 27)) = false ∧ Instr.wf (.dirtyLineRebuild 0 64) = false ∧
    Instr.wf (.evictionWritebackDone 4 0) = false ∧ Instr.wf (.evictionWritebackDone 0 8) = false ∧
    Instr.wf (.streamDetectorIdle 8) = false := by decide

theorem test_wf_media : Instr.wf (.packWindowExpire 2048 0) = false ∧ Instr.wf (.gatherAgeExpire 256) = false ∧
    Instr.wf (.dieDispatch 128 0) = false ∧ Instr.wf (.dieDispatch 127 16) = false ∧
    Instr.wf (.descriptorStarve 0 4 0) = false ∧ Instr.wf (.carrierButtonPress 8) = false ∧
    Instr.wf (.codewordDecode 0 4 0 true) = false ∧ Instr.wf (.codewordDecode 0 0 13 true) = false := by decide

theorem test_wf_planes : Instr.wf (.frameDiscard 4) = false ∧ Instr.wf (.peerDeadTimeout 10 4) = false := by decide

theorem test_wf_sdram : Instr.wf (.refreshTick 12) = false ∧ Instr.wf (.rowIdleClose 11 128) = false ∧
    Instr.wf (.rowIdleClose 11 127) = true := by decide

theorem test_wf_host : Instr.wf (.tagQuarantineEnd .a 8192) = false ∧ Instr.wf (.k7Start (.pf .a) 16 [] .ok) = false ∧
    Instr.wf (.fuseProgram (.pf .a) 4096 true) = false := by decide

/-! ## The worked examples of the manual -/

/-- The packet of chapter 03's example READ. -/
theorem test_packet : pkOpcode (pkt 0x00420101 7 0x123400 8 0x4010000000 0x8000 0) = opRead ∧
    pkNsid (pkt 0x00420101 7 0x123400 8 0x4010000000 0x8000 0) = 7 ∧
    pkSlba (pkt 0x00420101 7 0x123400 8 0x4010000000 0x8000 0) = 0x123400 := by decide +kernel

/-- The cover of chapter 04's example WRITE, and the first and last key and mask of its Table 3. -/
theorem test_cover : decompose 1025 1047 = [(1025, 0), (1026, 1), (1028, 2), (1032, 3), (1040, 3)] ∧
    (rangeLocks true 7 4102 4191 0).map (fun l => l.key) =
      [0x180007000000000401, 0x180007000000000402, 0x180007000000000404, 0x180007000000000408, 0x180007000000000410] ∧
    ((rangeLocks true 7 4102 4191 0).map (fun l => l.mask)).getLast? = some 0xFFFFFFFFFFFFFFFFF8 := by decide +kernel

/-- The single entry of the TRIM after it. -/
theorem test_cover_trim : (rangeLocks true 7 4 1019 0).map (fun l => (l.key.setWidth 32, l.mask)) =
    [((0 : Word), 0xFFFFFFFFFFFFFFFF00)] := by decide +kernel

/-- The map page of chapter 05's example. -/
theorem test_mpn : Namespace.mpn { ns with extents := [5] } 298496 = 20868 := by decide +kernel

/-- The acknowledgement of chapter 02's example. -/
theorem test_ack : (StatReg.ack { seq := 0, stamps := [(16, 0xFFFC), (17, 0xFFFF), (21, 0)] } 0xFFFE).value =
      0x0000000000220000 ∧
    StatReg.ackAhead { seq := 0, stamps := [] } 0xFFFE = false := by decide +kernel

/-- The commitment of chapter 07's example. -/
theorem test_commit : commitOf 2 1344000000 = 1793000000 ∧ capState 4800000000 4793000000 = 2 := by decide +kernel

/-- The parity of chapter 06's example: g·D1 and g²·D2. -/
theorem test_parity : gfMul 0x36 (gfPow 1) = 0x6C ∧ gfMul 0xA5 (gfPow 2) = 0xAE ∧
    (0x0F ^^^ gfMul 0x36 (gfPow 1) ^^^ gfMul 0xA5 (gfPow 2) : Byte) = 0xCD := by decide +kernel

/-- The place of chapter 13's example: channel 6, bank group 7, bank 0, row 2,246. -/
theorem test_sdram_place : plainPlace (List.range 12) 0x34A5BC6C0 = some (6, 0x463250C0) ∧
    (((run 1).setFld Reg.SDC_GEOM Reg.SDC_GEOM_.BG_BITS 3).setFld Reg.SDC_GEOM Reg.SDC_GEOM_.ROW_BITS 16).bankOf 0x463250C0 = 28 ∧
    (((run 1).setFld Reg.SDC_GEOM Reg.SDC_GEOM_.BG_BITS 3).setFld Reg.SDC_GEOM Reg.SDC_GEOM_.ROW_BITS 16).rowOf 0x463250C0 = 2246 := by
  decide +kernel

/-- The fence key of chapter 15's example. -/
theorem test_fence_key : fenceKey { port := .a, idx := 3 } 0x380000000 = 0x300C00000380000000 := by decide +kernel

/-- A range of versions; the two manifests of chapter 15's example, a version x.y as 16 x + y. -/
def vr (a b : Nat) : VersionRange := { min := a, max := b }

def running23 : Manifest :=
  { manifest 0 with versions := [0x23, 0x21, 0x30], beside := [[vr 0x23 0x24, vr 0x20 0x22, vr 0x30 0x31],
    [vr 0x22 0x24, vr 0x21 0x22, vr 0x30 0x31], [vr 0x23 0x24, vr 0x21 0x22, vr 0x30 0x30]] }

def staged24 : Manifest :=
  { manifest 0 with versions := [0x24, 0x22, 0x31], beside := [[vr 0x23 0x24, vr 0x21 0x22, vr 0x30 0x31],
    [vr 0x24 0x24, vr 0x21 0x22, vr 0x30 0x31], [vr 0x24 0x24, vr 0x22 0x22, vr 0x30 0x31]] }

/-- The castling of that example fails, and passes once the running command group lists 3.0 to 3.1. -/
theorem test_versions : versionsOk running23 staged24 = false ∧
    versionsOk { running23 with versions := [0x24, 0x22, 0x30], beside := [[vr 0x23 0x24, vr 0x20 0x22, vr 0x30 0x31],
      [vr 0x22 0x24, vr 0x21 0x22, vr 0x30 0x31], [vr 0x23 0x24, vr 0x21 0x22, vr 0x30 0x31]] } staged24 = true := by decide +kernel

end Sys2Proof.Tests
end

/-! ## Register keys: what a write of a wrong key value leaves (R48 to R50, R55) -/

namespace Sys2Proof.Machine

open Sys2Proof Sys2Proof.Laws

/-! ### Status registers -/

/-- A lookup passes through a map of a table's values. -/
theorem look_map_val {α β : Type} (g : α → β) (m : SMap α) (k : Nat) :
    SMap.look (m.map fun e => (e.1, g e.2)) k = (m.look k).map g := by
  induction m with
  | nil => rfl
  | cons e m ih =>
    simp only [List.map_cons, SMap.look]
    split
    · rfl
    · exact ih

/-- The ageing of the stamps (R58) clears no event bit. -/
theorem StatReg.isSet_event (r : StatReg) (b c : Nat) : (r.event b).isSet c = (decide (c = b) || r.isSet c) := by
  simp only [StatReg.isSet, StatReg.event, look_map_val, Option.isSome_map, look_put]
  by_cases h : c = b <;> simp [h]

theorem State.statOf_setStat (s : State) (a x : Nat) (r : StatReg) :
    (s.setStat a r).statOf x = if x = a then r else s.statOf x := by
  simp only [State.statOf, State.setStat_stat, look_put]
  split <;> rfl

theorem State.statOf_raiseAt (s : State) (sa ea b x : Nat) :
    (s.raiseAt sa ea b).statOf x = if x = sa then (s.statOf sa).event b else s.statOf x := by
  have emitted : ∀ (t : State) (o : Out), (t.emit o).statOf x = t.statOf x := fun _ _ => rfl
  simp only [State.raiseAt]
  split
  · rw [emitted, State.statOf_setStat]
  · rw [State.statOf_setStat]

theorem State.statOf_raiseHdr_isSet (s : State) (src : Source) (w b : Nat) :
    ((s.raiseHdr src w b).statOf (headerAddr src w 0x10)).isSet b = true := by
  simp [State.raiseHdr, State.statOf_raiseAt, StatReg.isSet_event]

/-- An event changes no register value: its stamp stands in the table of status registers. -/
theorem State.reg_raiseHdr (s : State) (src : Source) (w b a : Nat) : (s.raiseHdr src w b).reg a = s.reg a := by
  simp [State.reg, State.raiseHdr_frame]

/-! ### Armings -/

theorem State.isArmed_disarm_self (s : State) (src : Source) (w : Nat) : (s.disarm src w).isArmed src w = false := by
  simp [State.isArmed, State.disarm]

theorem State.isArmed_setReg (s : State) (a : Nat) (v : DWord) (src : Source) (w : Nat) :
    (s.setReg a v).isArmed src w = s.isArmed src w := rfl

theorem State.isArmed_raiseHdr (s : State) (src src' : Source) (w w' b : Nat) :
    (s.raiseHdr src w b).isArmed src' w' = s.isArmed src' w' := by
  simp [State.isArmed, State.raiseHdr_frame]

/-! ### Writes of a block's key register -/

theorem headerAddr_zero_add (src : Source) (w off : Nat) : headerAddr src w 0 + off = headerAddr src w off := by
  unfold headerAddr
  split <;> simp

/-- R50 as one state: the source disarmed, MISMATCH_COUNT of the copy it reaches advanced, KEY_MISMATCH raised there. -/
theorem State.writeKey_of_ne (s : State) (src : Source) (w : Nat) (v : Half) (h : keyOf w ≠ some v) :
    s.writeKey src w v = ((s.disarm src w).setReg (headerAddr src w 0x0C)
      (mismatchAdd (s.reg (headerAddr src w 0x0C)))).raiseHdr src w 0 := by
  have disarmed : ∀ a, (s.disarm src w).reg a = s.reg a := fun _ => rfl
  simp only [State.writeKey, State.writeKeyAt, if_neg h, headerAddr_zero_add, disarmed, State.raiseHdr]

theorem exec_blockKeyWrite (src : Source) (window : Nat) (v : Half) (s : State) :
    exec (.blockKeyWrite src window v) s = execBlockKeyWrite src window v s := rfl

/-- A key write that the N9 serves has its effect, for a right and for a wrong value. -/
theorem exec_blockKeyWrite_served (src : Source) (window : Nat) (v : Half) (s : State) (up : s.up = true)
    (low : 1 ≤ window) (high : window ≤ 26) (served : s.judge src (window * 0x100000 + 8) 4 true = .served) :
    exec (.blockKeyWrite src window v) s = .next (s.writeKey src window v) := by
  simp [exec_blockKeyWrite, execBlockKeyWrite, answer, up, low, high, served]

/-- Settles O4: each part is read off the one state that a wrong key value leaves. -/
theorem wrongKeyEndsArming : Obligations.WrongKeyEndsArming := by
  intro src window v s up low high served wrong
  refine ⟨_, exec_blockKeyWrite_served src window v s up low high served, ?_⟩
  rw [State.writeKey_of_ne s src window v wrong]
  refine ⟨?armed, ?count, State.statOf_raiseHdr_isSet _ _ _ _⟩
  case armed => rw [State.isArmed_raiseHdr, State.isArmed_setReg, State.isArmed_disarm_self]
  case count => rw [State.reg_raiseHdr, reg_setReg_self]

end Sys2Proof.Machine

/-! ## MOD_HALT over a chip reset and over the loss of the core supply (R501, R502) -/

namespace Sys2Proof.Machine

open Sys2Proof Sys2Proof.Laws

/-! ### Register values that the cut of a castling leaves -/

/-- The firmware state shows in FWU_STATE and FWU_VERS alone. -/
theorem State.reg_syncFwu (s : State) (a : Nat) (state : a ≠ Reg.FWU_STATE) (vers : a ≠ Reg.FWU_VERS) :
    s.syncFwu.reg a = s.reg a := by
  simp [State.syncFwu, reg_setFld_of_ne, state, vers]

theorem State.reg_setBoot (s : State) (b : BootState) (a : Nat) (state : a ≠ Reg.FWU_STATE)
    (vers : a ≠ Reg.FWU_VERS) : (s.setBoot b).reg a = s.reg a :=
  State.reg_syncFwu _ a state vers

theorem State.reg_noteCastle (s : State) (c : Castle) (result core a : Nat) :
    (s.noteCastle c result core).reg a = s.reg a := rfl

theorem State.reg_cutCastle (s : State) (a : Nat) (state : a ≠ Reg.FWU_STATE) (vers : a ≠ Reg.FWU_VERS) :
    s.cutCastle.reg a = s.reg a := by
  unfold State.cutCastle
  split
  · rfl
  · rw [State.reg_setBoot _ _ a state vers, State.reg_noteCastle]

theorem State.cutCastle_media (s : State) : s.cutCastle.media = s.media := by
  simp [State.cutCastle_frame s]

/-! ### Register values after a chip reset -/

/-- What a register reads as from a table in which one value was stored. -/
theorem look_regsSet (m : SMap DWord) (a b : Nat) (v : DWord) :
    ((regsSet m a v).look b).getD (regReset b) = if b = a then v else (m.look b).getD (regReset b) :=
  reg_setReg { State.reset with regs := m } a b v

/-- Table 6: chip reset leaves one register that is not at its reset value, MOD_HALT. -/
theorem State.reg_chipReset (s : State) (a : Nat) :
    s.chipReset.reg a = if a = Reg.MOD_HALT then haltKept (s.reg Reg.MOD_HALT) else regReset a :=
  look_regsSet [] Reg.MOD_HALT a _

theorem State.chipReset_media_pages (s : State) : s.chipReset.media.pages = s.media.pages := rfl

/-! ### The fields of MOD_HALT -/

theorem Fld.get_lt (f : Fld) (v : DWord) : f.get v < 2 ^ (f.hi - f.lo + 1) :=
  Nat.mod_lt _ (Nat.two_pow_pos _)

theorem haltKept_cause (v : DWord) : Reg.MOD_HALT_.CAUSE.get (haltKept v) = 0 := by
  rw [haltKept, Fld.get_set _ _ _ (by decide) (by decide), Nat.zero_mod]

/-- CAUSE is as wide as LAST_CAUSE, so it arrives whole. -/
theorem haltKept_lastCause (v : DWord) :
    Reg.MOD_HALT_.LAST_CAUSE.get (haltKept v) = Reg.MOD_HALT_.CAUSE.get v := by
  rw [haltKept, Fld.get_set_of_disjoint _ _ _ _ (by decide) (by decide) (by decide),
    Fld.get_set _ _ _ (by decide) (by decide)]
  exact Nat.mod_eq_of_lt (Fld.get_lt Reg.MOD_HALT_.CAUSE v)

/-- A field below LAST_CAUSE stands as it was. -/
theorem haltKept_below (f : Fld) (v : DWord) (wf : f.lo ≤ f.hi) (below : f.hi < 56) :
    f.get (haltKept v) = f.get v := by
  have underCause : f.hi < Reg.MOD_HALT_.CAUSE.lo := Nat.lt_trans below (by decide)
  rw [haltKept, Fld.get_set_of_disjoint _ _ _ _ (by decide) wf (.inl underCause),
    Fld.get_set_of_disjoint _ _ _ _ (by decide) wf (.inl below)]

/-! ### The two commands -/

theorem exec_chipResetAssert_next (s : State) (high : s.pins.resetLow = false) :
    exec .chipResetAssert s = .next s.cutCastle.chipReset := by
  have arm : exec .chipResetAssert s = execChipResetAssert s := rfl
  simp [arm, execChipResetAssert, answer, high]

/-- MOD_HALT over a chip reset: the castling that is cut short first does not touch it. -/
theorem State.reg_chipReset_cutCastle_halt (s : State) :
    s.cutCastle.chipReset.reg Reg.MOD_HALT = haltKept (s.reg Reg.MOD_HALT) := by
  rw [State.reg_chipReset, if_pos rfl, State.reg_cutCastle s _ (by decide) (by decide)]

/-- The state in chip reset from which a loss of the core supply goes on: the present one when CHIP_RESET_N is low. -/
def State.heldReset (s : State) : State :=
  if s.pins.resetLow then s else s.cutCastle.chipReset

theorem State.heldReset_kept (s : State) : s.heldReset.pins.resetLow = true ∧
    s.heldReset.boot.fuses = s.boot.fuses ∧ s.heldReset.media.pages = s.media.pages := by
  unfold State.heldReset
  split
  case isTrue low => exact ⟨low, rfl, rfl⟩
  case isFalse =>
    obtain ⟨fuses, low⟩ := State.chipReset_chip s.cutCastle
    refine ⟨low, fuses.trans s.cutCastle_chip, ?_⟩
    rw [State.chipReset_media_pages, State.cutCastle_media]

/-- Log entry 54: the loss of the core supply is a chip reset that also clears MOD_HALT and releases THERMTRIP_N. -/
theorem exec_coreSupplyLoss_next (s : State) : exec .coreSupplyLoss s =
    .next { s.heldReset.setReg Reg.MOD_HALT 0 with pins := { s.heldReset.pins with thermtripLow := false } } := rfl

/-- Settles O45: a chip reset rewrites MOD_HALT by `haltKept`, the loss of the core supply by 0. -/
theorem haltRecordKept : Obligations.HaltRecordKept := by
  refine ⟨fun s high => ⟨_, exec_chipResetAssert_next s high, ?chipReset⟩,
    fun s => ⟨_, exec_coreSupplyLoss_next s, ?supplyLoss⟩⟩
  case chipReset =>
    simp only [State.fld, State.reg_chipReset_cutCastle_halt]
    exact ⟨haltKept_lastCause _, haltKept_cause _, haltKept_below _ _ (by decide) (by decide),
      haltKept_below _ _ (by decide) (by decide)⟩
  case supplyLoss =>
    exact ⟨reg_setReg_self s.heldReset Reg.MOD_HALT 0, rfl, s.heldReset_kept⟩

end Sys2Proof.Machine

/-! ## The frame of every command (R48 on; log entry 7) -/

namespace Sys2Proof.Machine

open Sys2Proof Sys2Proof.Laws

/-- A command answers a next state and keeps every part that it is not listed with. -/
def Keeps (i : Instr) (s : State) : Prop :=
  ∃ t, exec i s = .next t ∧ ∀ p : Ob.Part, p ∉ Ob.writes i → Ob.same p s t

/-- A frame that holds whatever state a stop would be read as is the frame of a next state. -/
theorem next_of_pending {o : Host.Outcome State Fault Refusal} {s : State}
    (h : ∀ u, (after u o).pending = s.pending) : o = .next (after s o) := by
  cases o with
  | next t => rfl
  | fault r => nomatch r
  | refused r => exact absurd (h (s.withPending (.hourTick :: s.pending))) (List.cons_ne_self _ _)

/-- From the frame lemma of a command's meaning `o` to the frame of the command: each part is listed with the command, or
stands in the frame lemma. -/
theorem keeps_of_frame {i : Instr} {s : State} (o : Host.Outcome State Fault Refusal) {F : State → Prop}
    (frame : ∀ u, F u) (run : exec i s = o := by rfl)
    (pending : ∀ u, F u → (after u o).pending = s.pending := by
      intro u f; simp [f])
    (parts : F s → ∀ p, (Ob.writes i).elem p = false → Ob.same p s (after s o) := by
      intro f p hp; cases p <;> first | exact absurd hp.symm Bool.false_ne_true | simp [Ob.same, f]) :
    Keeps i s :=
  ⟨_, run.trans (next_of_pending fun u => pending u (frame u)), fun p hp => parts (frame s) p (by simpa using hp)⟩

/-- Whether a command is one of the rows `lo` to `hi - 1` of the table of commands. -/
def rowsFrom (lo hi : Nat) (i : Instr) : Bool := lo.ble i.ctorIdx && i.ctorIdx.blt hi

/-- The accesses and commands of chapters 02 and 03 keep their parts. -/
theorem keeps_hostRows (i : Instr) (s : State) (row : rowsFrom 0 36 i = true) : Keeps i s := by
  cases i with
  | sqDoorbellWrite f offset size value => exact keeps_of_frame (execSqDoorbellWrite f offset size value s) (execSqDoorbellWrite_frame f offset size value s)
  | cqDoorbellWrite f offset size value => exact keeps_of_frame (execCqDoorbellWrite f offset size value s) (execCqDoorbellWrite_frame f offset size value s)
  | blockKeyWrite src window value => exact keeps_of_frame (execBlockKeyWrite src window value s) (execBlockKeyWrite_frame src window value s)
  | statAckWrite src reg ack => exact keeps_of_frame (execStatAckWrite src reg ack s) (execStatAckWrite_frame src reg ack s)
  | registerWrite src addr size value x => exact keeps_of_frame (execRegisterWrite src addr size value x s) (execRegisterWrite_frame src addr size value x s)
  | registerAccessTimeout src addr write => exact keeps_of_frame (execRegisterAccessTimeout src addr write s) (execRegisterAccessTimeout_frame src addr write s)
  | stalledWriteApply p island => exact keeps_of_frame (execStalledWriteApply p island s) (execStalledWriteApply_frame p island s)
  | packetFetch p packets => exact keeps_of_frame (execPacketFetch p packets s) (execPacketFetch_frame p packets s)
  | read slot h => exact keeps_of_frame (execRead slot h s) (execRead_frame slot h s)
  | write slot h => exact keeps_of_frame (execWrite slot h s) (execWrite_frame slot h s)
  | trim slot h => exact keeps_of_frame (execTrim slot h s) (execTrim_frame slot h s)
  | writeZeroes slot h => exact keeps_of_frame (execWriteZeroes slot h s) (execWriteZeroes_frame slot h s)
  | compare slot h => exact keeps_of_frame (execCompare slot h s) (execCompare_frame slot h s)
  | orderBarrier slot h => exact keeps_of_frame (execOrderBarrier slot h s) (execOrderBarrier_frame slot h s)
  | gatherRead slot h => exact keeps_of_frame (execGatherRead slot h s) (execGatherRead_frame slot h s)
  | hello slot h => exact keeps_of_frame (execHello slot h s) (execHello_frame slot h s)
  | ringCreate slot h => exact keeps_of_frame (execRingCreate slot h s) (execRingCreate_frame slot h s)
  | ringDelete slot h => exact keeps_of_frame (execRingDelete slot h s) (execRingDelete_frame slot h s)
  | ringDeleteComplete slot => exact keeps_of_frame (execRingDeleteComplete slot s) (execRingDeleteComplete_frame slot s)
  | nsCreate slot h => exact keeps_of_frame (execNsCreate slot h s) (execNsCreate_frame slot h s)
  | nsDelete slot h => exact keeps_of_frame (execNsDelete slot h s) (execNsDelete_frame slot h s)
  | nsAttach slot h => exact keeps_of_frame (execNsAttach slot h s) (execNsAttach_frame slot h s)
  | nsDetachComplete slot => exact keeps_of_frame (execNsDetachComplete slot s) (execNsDetachComplete_frame slot s)
  | nsResize slot h => exact keeps_of_frame (execNsResize slot h s) (execNsResize_frame slot h s)
  | mapRegionAdd slot h => exact keeps_of_frame (execMapRegionAdd slot h s) (execMapRegionAdd_frame slot h s)
  | mapRegionRemove slot h => exact keeps_of_frame (execMapRegionRemove slot h s) (execMapRegionRemove_frame slot h s)
  | mapRegionRemoveComplete slot => exact keeps_of_frame (execMapRegionRemoveComplete slot s) (execMapRegionRemoveComplete_frame slot s)
  | logGet slot h => exact keeps_of_frame (execLogGet slot h s) (execLogGet_frame slot h s)
  | featureSet slot h => exact keeps_of_frame (execFeatureSet slot h s) (execFeatureSet_frame slot h s)
  | featureGet slot h => exact keeps_of_frame (execFeatureGet slot h s) (execFeatureGet_frame slot h s)
  | fwStage slot h => exact keeps_of_frame (execFwStage slot h s) (execFwStage_frame slot h s)
  | fwCastle slot h => exact keeps_of_frame (execFwCastle slot h s) (execFwCastle_frame slot h s)
  | herdJoin slot h => exact keeps_of_frame (execHerdJoin slot h s) (execHerdJoin_frame slot h s)
  | herdLeave slot h => exact keeps_of_frame (execHerdLeave slot h s) (execHerdLeave_frame slot h s)
  | herdReshape slot h => exact keeps_of_frame (execHerdReshape slot h s) (execHerdReshape_frame slot h s)
  | keyLoad slot h => exact keeps_of_frame (execKeyLoad slot h s) (execKeyLoad_frame slot h s)
  | _ => exact absurd row Bool.false_ne_true

/-- The rings, functions, management tasks, waits and map pages of chapters 03 to 05 keep their parts. -/
theorem keeps_mapRows (i : Instr) (s : State) (row : rowsFrom 36 75 i = true) : Keeps i s := by
  cases i with
  | heldRecordPost f cq => exact keeps_of_frame (execHeldRecordPost f cq s) (execHeldRecordPost_frame f cq s)
  | cqAggTimer f cq => exact keeps_of_frame (execCqAggTimer f cq s) (execCqAggTimer_frame f cq s)
  | functionEnable f => exact keeps_of_frame (execFunctionEnable f s) (execFunctionEnable_frame f s)
  | functionDisable f => exact keeps_of_frame (execFunctionDisable f s) (execFunctionDisable_frame f s)
  | mtfMessage endpoint op => exact keeps_of_frame (execMtfMessage endpoint op s) (execMtfMessage_frame endpoint op s)
  | mtfHello => exact keeps_of_frame (execMtfHello s) (execMtfHello_frame s)
  | mtfIdentify => exact keeps_of_frame (execMtfIdentify s) (execMtfIdentify_frame s)
  | mtfModeGet => exact keeps_of_frame (execMtfModeGet s) (execMtfModeGet_frame s)
  | mtfRegRead x => exact keeps_of_frame (execMtfRegRead x s) (execMtfRegRead_frame x s)
  | mtfRegWrite x => exact keeps_of_frame (execMtfRegWrite x s) (execMtfRegWrite_frame x s)
  | mtfLogGet => exact keeps_of_frame (execMtfLogGet s) (execMtfLogGet_frame s)
  | mtfFeatureGet => exact keeps_of_frame (execMtfFeatureGet s) (execMtfFeatureGet_frame s)
  | mtfFeatureSet => exact keeps_of_frame (execMtfFeatureSet s) (execMtfFeatureSet_frame s)
  | mtfSysnsRead => exact keeps_of_frame (execMtfSysnsRead s) (execMtfSysnsRead_frame s)
  | mtfSysnsWrite => exact keeps_of_frame (execMtfSysnsWrite s) (execMtfSysnsWrite_frame s)
  | mtfFwStage piece => exact keeps_of_frame (execMtfFwStage piece s) (execMtfFwStage_frame piece s)
  | mtfFwCastle => exact keeps_of_frame (execMtfFwCastle s) (execMtfFwCastle_frame s)
  | mtfTaskAck endpoint => exact keeps_of_frame (execMtfTaskAck endpoint s) (execMtfTaskAck_frame endpoint s)
  | mtfResultExpire => exact keeps_of_frame (execMtfResultExpire s) (execMtfResultExpire_frame s)
  | i3cBroadcast => exact keeps_of_frame (execI3cBroadcast s) (execI3cBroadcast_frame s)
  | commandAdmit => exact keeps_of_frame (execCommandAdmit s) (execCommandAdmit_frame s)
  | lockWaitEnd slot => exact keeps_of_frame (execLockWaitEnd slot s) (execLockWaitEnd_frame slot s)
  | barrierWaitEnd slot => exact keeps_of_frame (execBarrierWaitEnd slot s) (execBarrierWaitEnd_frame slot s)
  | oaWaitEnd slot => exact keeps_of_frame (execOaWaitEnd slot s) (execOaWaitEnd_frame slot s)
  | pipReserveGrant cls => exact keeps_of_frame (execPipReserveGrant cls s) (execPipReserveGrant_frame cls s)
  | allocGrant pool => exact keeps_of_frame (execAllocGrant pool s) (execAllocGrant_frame pool s)
  | deferredHourlyLog => exact keeps_of_frame (execDeferredHourlyLog s) (execDeferredHourlyLog_frame s)
  | hmrFetchComplete mpn answer => exact keeps_of_frame (execHmrFetchComplete mpn answer s) (execHmrFetchComplete_frame mpn answer s)
  | hmrFetchTimeout mpn => exact keeps_of_frame (execHmrFetchTimeout mpn s) (execHmrFetchTimeout_frame mpn s)
  | mapFlashFetchDone mpn readable => exact keeps_of_frame (execMapFlashFetchDone mpn readable s) (execMapFlashFetchDone_frame mpn readable s)
  | mapPagePlace mpn p => exact keeps_of_frame (execMapPagePlace mpn p s) (execMapPagePlace_frame mpn p s)
  | mapPageDrop mpn => exact keeps_of_frame (execMapPageDrop mpn s) (execMapPageDrop_frame mpn s)
  | mapPagePersist mpn => exact keeps_of_frame (execMapPagePersist mpn s) (execMapPagePersist_frame mpn s)
  | directorySnapshot => exact keeps_of_frame (execDirectorySnapshot s) (execDirectorySnapshot_frame s)
  | evictionWritebackDone island index => exact keeps_of_frame (execEvictionWritebackDone island index s) (execEvictionWritebackDone_frame island index s)
  | streamDetectorIdle detector => exact keeps_of_frame (execStreamDetectorIdle detector s) (execStreamDetectorIdle_frame detector s)
  | dirtyLineRebuild mpn line => exact keeps_of_frame (execDirtyLineRebuild mpn line s) (execDirtyLineRebuild_frame mpn line s)
  | sysnsMerge ns logPair => exact keeps_of_frame (execSysnsMerge ns logPair s) (execSysnsMerge_frame ns logPair s)
  | mchScratchWrite src value => exact keeps_of_frame (execMchScratchWrite src value s) (execMchScratchWrite_frame src value s)
  | _ => exact absurd row Bool.false_ne_true

/-- The rows of placement, channels and carriers (chapters 06 to 08) keep their parts. -/
theorem keeps_mediaRows (i : Instr) (s : State) (row : rowsFrom 75 120 i = true) : Keeps i s := by
  cases i with
  | packWindowExpire dieA dieB => exact keeps_of_frame (execPackWindowExpire dieA dieB s) (execPackWindowExpire_frame dieA dieB s)
  | stagingEntryGrant slot => exact keeps_of_frame (execStagingEntryGrant slot s) (execStagingEntryGrant_frame slot s)
  | gatherAgeExpire stream => exact keeps_of_frame (execGatherAgeExpire stream s) (execGatherAgeExpire_frame stream s)
  | gatherInstall stripe => exact keeps_of_frame (execGatherInstall stripe s) (execGatherInstall_frame stripe s)
  | rebuildStripe band stripe => exact keeps_of_frame (execRebuildStripe band stripe s) (execRebuildStripe_frame band stripe s)
  | coreRebalance busy => exact keeps_of_frame (execCoreRebalance busy s) (execCoreRebalance_frame busy s)
  | reclaimVictim => exact keeps_of_frame (execReclaimVictim s) (execReclaimVictim_frame s)
  | copyStripeInstall stripe verified => exact keeps_of_frame (execCopyStripeInstall stripe verified s) (execCopyStripeInstall_frame stripe verified s)
  | scoreAgeTick => exact keeps_of_frame (execScoreAgeTick s) (execScoreAgeTick_frame s)
  | bandEraseStart band => exact keeps_of_frame (execBandEraseStart band s) (execBandEraseStart_frame band s)
  | wearPersist => exact keeps_of_frame (execWearPersist s) (execWearPersist_frame s)
  | spaceGrant slot => exact keeps_of_frame (execSpaceGrant slot s) (execSpaceGrant_frame slot s)
  | chnRead ch queue byCore d => exact keeps_of_frame (execChnRead ch queue byCore d s) (execChnRead_frame ch queue byCore d s)
  | chnProgram ch queue byCore d => exact keeps_of_frame (execChnProgram ch queue byCore d s) (execChnProgram_frame ch queue byCore d s)
  | chnErase ch queue byCore d => exact keeps_of_frame (execChnErase ch queue byCore d s) (execChnErase_frame ch queue byCore d s)
  | chnReadTrailer ch queue byCore d => exact keeps_of_frame (execChnReadTrailer ch queue byCore d s) (execChnReadTrailer_frame ch queue byCore d s)
  | chnGetFeatures ch queue byCore d => exact keeps_of_frame (execChnGetFeatures ch queue byCore d s) (execChnGetFeatures_frame ch queue byCore d s)
  | chnSetFeatures ch queue byCore d => exact keeps_of_frame (execChnSetFeatures ch queue byCore d s) (execChnSetFeatures_frame ch queue byCore d s)
  | chnReadParameter ch queue byCore d => exact keeps_of_frame (execChnReadParameter ch queue byCore d s) (execChnReadParameter_frame ch queue byCore d s)
  | chnResetDie ch queue byCore d => exact keeps_of_frame (execChnResetDie ch queue byCore d s) (execChnResetDie_frame ch queue byCore d s)
  | chnMark ch queue byCore d => exact keeps_of_frame (execChnMark ch queue byCore d s) (execChnMark_frame ch queue byCore d s)
  | chnReadId ch queue byCore d => exact keeps_of_frame (execChnReadId ch queue byCore d s) (execChnReadId_frame ch queue byCore d s)
  | chnTrain ch queue byCore d => exact keeps_of_frame (execChnTrain ch queue byCore d s) (execChnTrain_frame ch queue byCore d s)
  | dieDispatch ch die => exact keeps_of_frame (execDieDispatch ch die s) (execDieDispatch_frame ch die s)
  | dieOpComplete ch die result dieStat elapsed => exact keeps_of_frame (execDieOpComplete ch die result dieStat elapsed s) (execDieOpComplete_frame ch die result dieStat elapsed s)
  | suspendIssue ch die ran => exact keeps_of_frame (execSuspendIssue ch die ran s) (execSuspendIssue_frame ch die ran s)
  | dieTimeout ch die resetReady => exact keeps_of_frame (execDieTimeout ch die resetReady s) (execDieTimeout_frame ch die resetReady s)
  | descriptorStarve ch queue die => exact keeps_of_frame (execDescriptorStarve ch queue die s) (execDescriptorStarve_frame ch queue die s)
  | chnCheadWrite src ch value => exact keeps_of_frame (execChnCheadWrite src ch value s) (execChnCheadWrite_frame src ch value s)
  | chnRetrain src ch trains => exact keeps_of_frame (execChnRetrain src ch trains s) (execChnRetrain_frame src ch trains s)
  | chnRateTargetWrite src ch value trains => exact keeps_of_frame (execChnRateTargetWrite src ch value trains s) (execChnRateTargetWrite_frame src ch value trains s)
  | carrierPresenceChange c present => exact keeps_of_frame (execCarrierPresenceChange c present s) (execCarrierPresenceChange_frame c present s)
  | carrierButtonPress c => exact keeps_of_frame (execCarrierButtonPress c s) (execCarrierButtonPress_frame c s)
  | carrierRemove src c => exact keeps_of_frame (execCarrierRemove src c s) (execCarrierRemove_frame src c s)
  | carrierCancel src c => exact keeps_of_frame (execCarrierCancel src c s) (execCarrierCancel_frame src c s)
  | carrierInsert src c => exact keeps_of_frame (execCarrierInsert src c s) (execCarrierInsert_frame src c s)
  | carrierLocate src c => exact keeps_of_frame (execCarrierLocate src c s) (execCarrierLocate_frame src c s)
  | carrierPowerDelay c => exact keeps_of_frame (execCarrierPowerDelay c s) (execCarrierPowerDelay_frame c s)
  | carrierDiscoveryDone c dies record dieHash => exact keeps_of_frame (execCarrierDiscoveryDone c dies record dieHash s) (execCarrierDiscoveryDone_frame c dies record dieHash s)
  | carrierReconcileDone c currentBands => exact keeps_of_frame (execCarrierReconcileDone c currentBands s) (execCarrierReconcileDone_frame c currentBands s)
  | evacuationDone c => exact keeps_of_frame (execEvacuationDone c s) (execEvacuationDone_frame c s)
  | carrierQuiesceDone c => exact keeps_of_frame (execCarrierQuiesceDone c s) (execCarrierQuiesceDone_frame c s)
  | refuseBlinkExpire c => exact keeps_of_frame (execRefuseBlinkExpire c s) (execRefuseBlinkExpire_frame c s)
  | departureRecordExpire c => exact keeps_of_frame (execDepartureRecordExpire c s) (execDepartureRecordExpire_frame c s)
  | codewordDecode unit slot step decodes => exact keeps_of_frame (execCodewordDecode unit slot step decodes s) (execCodewordDecode_frame unit slot step decodes s)
  | _ => exact absurd row Bool.false_ne_true

/-- The rows of the herd, of power and of the buffers (chapters 10 to 12) keep their parts. -/
theorem keeps_herdRows (i : Instr) (s : State) (row : rowsFrom 120 159 i = true) : Keeps i s := by
  cases i with
  | aizaikHello hdr vers serial => exact keeps_of_frame (execAizaikHello hdr vers serial s) (execAizaikHello_frame hdr vers serial s)
  | aizaikHelloAck hdr chosen serial => exact keeps_of_frame (execAizaikHelloAck hdr chosen serial s) (execAizaikHelloAck_frame hdr chosen serial s)
  | heartbeat hdr vmax => exact keeps_of_frame (execHeartbeat hdr vmax s) (execHeartbeat_frame hdr vmax s)
  | ack hdr => exact keeps_of_frame (execAck hdr s) (execAck_frame hdr s)
  | mapOffer hdr => exact keeps_of_frame (execMapOffer hdr s) (execMapOffer_frame hdr s)
  | mapRequest hdr epoch => exact keeps_of_frame (execMapRequest hdr epoch s) (execMapRequest_frame hdr epoch s)
  | mapData hdr epoch offset whole => exact keeps_of_frame (execMapData hdr epoch offset whole s) (execMapData_frame hdr epoch offset whole s)
  | fragWrite hdr op symbols => exact keeps_of_frame (execFragWrite hdr op symbols s) (execFragWrite_frame hdr op symbols s)
  | fragDone hdr op => exact keeps_of_frame (execFragDone hdr op s) (execFragDone_frame hdr op s)
  | fragRead hdr op => exact keeps_of_frame (execFragRead hdr op s) (execFragRead_frame hdr op s)
  | fragData hdr op symbols => exact keeps_of_frame (execFragData hdr op symbols s) (execFragData_frame hdr op symbols s)
  | fragDiscard hdr op => exact keeps_of_frame (execFragDiscard hdr op s) (execFragDiscard_frame hdr op s)
  | sweepDone hdr hkey k m home elig => exact keeps_of_frame (execSweepDone hdr hkey k m home elig s) (execSweepDone_frame hdr hkey k m home elig s)
  | linkHelloRetry peer => exact keeps_of_frame (execLinkHelloRetry peer s) (execLinkHelloRetry_frame peer s)
  | ackTimer peer => exact keeps_of_frame (execAckTimer peer s) (execAckTimer_frame peer s)
  | retransmitTimeout peer => exact keeps_of_frame (execRetransmitTimeout peer s) (execRetransmitTimeout_frame peer s)
  | heartbeatTimer => exact keeps_of_frame (execHeartbeatTimer s) (execHeartbeatTimer_frame s)
  | peerDeadTimeout peer plane => exact keeps_of_frame (execPeerDeadTimeout peer plane s) (execPeerDeadTimeout_frame peer plane s)
  | leaseExpire => exact keeps_of_frame (execLeaseExpire s) (execLeaseExpire_frame s)
  | herdJobStart job => exact keeps_of_frame (execHerdJobStart job s) (execHerdJobStart_frame job s)
  | jobDeferTimeout job => exact keeps_of_frame (execJobDeferTimeout job s) (execJobDeferTimeout_frame job s)
  | jobRetryTimer => exact keeps_of_frame (execJobRetryTimer s) (execJobRetryTimer_frame s)
  | sweepStripe ns => exact keeps_of_frame (execSweepStripe ns s) (execSweepStripe_frame ns s)
  | misslogExpire peer => exact keeps_of_frame (execMisslogExpire peer s) (execMisslogExpire_frame peer s)
  | ethertypeWrite src value => exact keeps_of_frame (execEthertypeWrite src value s) (execEthertypeWrite_frame src value s)
  | hrdMacWrite src plane value => exact keeps_of_frame (execHrdMacWrite src plane value s) (execHrdMacWrite_frame src plane value s)
  | hrdPortAnWrite src plane an => exact keeps_of_frame (execHrdPortAnWrite src plane an s) (execHrdPortAnWrite_frame src plane an s)
  | peerLinkChange plane up => exact keeps_of_frame (execPeerLinkChange plane up s) (execPeerLinkChange_frame plane up s)
  | powerFail => exact keeps_of_frame (execPowerFail s) (execPowerFail_frame s)
  | bankSample code => exact keeps_of_frame (execBankSample code s) (execBankSample_frame code s)
  | energyRecompute => exact keeps_of_frame (execEnergyRecompute s) (execEnergyRecompute_frame s)
  | horizonWrite => exact keeps_of_frame (execHorizonWrite s) (execHorizonWrite_frame s)
  | chargeGrant slot => exact keeps_of_frame (execChargeGrant slot s) (execChargeGrant_frame slot s)
  | flushWritebackDone => exact keeps_of_frame (execFlushWritebackDone s) (execFlushWritebackDone_frame s)
  | flushStripeDone ok => exact keeps_of_frame (execFlushStripeDone ok s) (execFlushStripeDone_frame ok s)
  | flushComplete us => exact keeps_of_frame (execFlushComplete us s) (execFlushComplete_frame us s)
  | recoveryStep => exact keeps_of_frame (execRecoveryStep s) (execRecoveryStep_frame s)
  | bpmAllocRequest src value => exact keeps_of_frame (execBpmAllocRequest src value s) (execBpmAllocRequest_frame src value s)
  | bpmRelease src value => exact keeps_of_frame (execBpmRelease src value s) (execBpmRelease_frame src value s)
  | _ => exact absurd row Bool.false_ne_true

/-- The rows of the match unit, the mules, the SDRAM and the endpoint (chapters 12 to 14) keep their parts. -/
theorem keeps_engineRows (i : Instr) (s : State) (row : rowsFrom 159 205 i = true) : Keeps i s := by
  cases i with
  | matchScan bad late => exact keeps_of_frame (execMatchScan bad late s) (execMatchScan_frame bad late s)
  | matchSlideDone partition => exact keeps_of_frame (execMatchSlideDone partition s) (execMatchSlideDone_frame partition s)
  | matLookup src addr => exact keeps_of_frame (execMatLookup src addr s) (execMatLookup_frame src addr s)
  | matRead src addr => exact keeps_of_frame (execMatRead src addr s) (execMatRead_frame src addr s)
  | matWrite src addr => exact keeps_of_frame (execMatWrite src addr s) (execMatWrite_frame src addr s)
  | matInsert src addr => exact keeps_of_frame (execMatInsert src addr s) (execMatInsert_frame src addr s)
  | matDelete src addr => exact keeps_of_frame (execMatDelete src addr s) (execMatDelete_frame src addr s)
  | matInvalidate src addr => exact keeps_of_frame (execMatInvalidate src addr s) (execMatInvalidate_frame src addr s)
  | muleRingEnable src ring => exact keeps_of_frame (execMuleRingEnable src ring s) (execMuleRingEnable_frame src ring s)
  | muleRingDisable src ring => exact keeps_of_frame (execMuleRingDisable src ring s) (execMuleRingDisable_frame src ring s)
  | muleRingResume src ring => exact keeps_of_frame (execMuleRingResume src ring s) (execMuleRingResume_frame src ring s)
  | muleRingKick src ring => exact keeps_of_frame (execMuleRingKick src ring s) (execMuleRingKick_frame src ring s)
  | muleDescriptor ring fetchOk => exact keeps_of_frame (execMuleDescriptor ring fetchOk s) (execMuleDescriptor_frame ring fetchOk s)
  | muleDescriptorDone ring data dataAnswer writeBackOk => exact keeps_of_frame (execMuleDescriptorDone ring data dataAnswer writeBackOk s) (execMuleDescriptorDone_frame ring data dataAnswer writeBackOk s)
  | mulePaceResume ring => exact keeps_of_frame (execMulePaceResume ring s) (execMulePaceResume_frame ring s)
  | k7Start src channel data dataAnswer => exact keeps_of_frame (execK7Start src channel data dataAnswer s) (execK7Start_frame src channel data dataAnswer s)
  | refreshTick ch => exact keeps_of_frame (execRefreshTick ch s) (execRefreshTick_frame ch s)
  | mr4Poll ch hot => exact keeps_of_frame (execMr4Poll ch hot s) (execMr4Poll_frame ch hot s)
  | rowIdleClose ch bank => exact keeps_of_frame (execRowIdleClose ch bank s) (execRowIdleClose_frame ch bank s)
  | patrolScrub ch result => exact keeps_of_frame (execPatrolScrub ch result s) (execPatrolScrub_frame ch result s)
  | sdramChannelFailure ch => exact keeps_of_frame (execSdramChannelFailure ch s) (execSdramChannelFailure_frame ch s)
  | sdramLossCleanup => exact keeps_of_frame (execSdramLossCleanup s) (execSdramLossCleanup_frame s)
  | writeLevelTrack ch device rank delay => exact keeps_of_frame (execWriteLevelTrack ch device rank delay s) (execWriteLevelTrack_frame ch device rank delay s)
  | sdcModeWrite src ch mode => exact keeps_of_frame (execSdcModeWrite src ch mode s) (execSdcModeWrite_frame src ch mode s)
  | tcmdMrw src ch sub rank operand => exact keeps_of_frame (execTcmdMrw src ch sub rank operand s) (execTcmdMrw_frame src ch sub rank operand s)
  | tcmdMrr src ch sub rank operand data => exact keeps_of_frame (execTcmdMrr src ch sub rank operand data s) (execTcmdMrr_frame src ch sub rank operand data s)
  | tcmdMpc src ch sub rank operand => exact keeps_of_frame (execTcmdMpc src ch sub rank operand s) (execTcmdMpc_frame src ch sub rank operand s)
  | tcmdPatternWrite src ch sub rank operand => exact keeps_of_frame (execTcmdPatternWrite src ch sub rank operand s) (execTcmdPatternWrite_frame src ch sub rank operand s)
  | tcmdPatternCompare src ch sub rank operand fails => exact keeps_of_frame (execTcmdPatternCompare src ch sub rank operand fails s) (execTcmdPatternCompare_frame src ch sub rank operand fails s)
  | configWrite f field value => exact keeps_of_frame (execConfigWrite f field value s) (execConfigWrite_frame f field value s)
  | busMasterClear f => exact keeps_of_frame (execBusMasterClear f s) (execBusMasterClear_frame f s)
  | busMasterSet f => exact keeps_of_frame (execBusMasterSet f s) (execBusMasterSet_frame f s)
  | d3hotEntry f => exact keeps_of_frame (execD3hotEntry f s) (execD3hotEntry_frame f s)
  | d0Return f => exact keeps_of_frame (execD0Return f s) (execD0Return_frame f s)
  | flr f => exact keeps_of_frame (execFlr f s) (execFlr_frame f s)
  | vfEnableClear p => exact keeps_of_frame (execVfEnableClear p s) (execVfEnableClear_frame p s)
  | vfEnableSet p => exact keeps_of_frame (execVfEnableSet p s) (execVfEnableSet_frame p s)
  | perstAssert p => exact keeps_of_frame (execPerstAssert p s) (execPerstAssert_frame p s)
  | perstDeassert p => exact keeps_of_frame (execPerstDeassert p s) (execPerstDeassert_frame p s)
  | hotReset p => exact keeps_of_frame (execHotReset p s) (execHotReset_frame p s)
  | linkDown p => exact keeps_of_frame (execLinkDown p s) (execLinkDown_frame p s)
  | linkUp p rate width flit => exact keeps_of_frame (execLinkUp p rate width flit s) (execLinkUp_frame p rate width flit s)
  | hstMaxrateWrite src p rate => exact keeps_of_frame (execHstMaxrateWrite src p rate s) (execHstMaxrateWrite_frame src p rate s)
  | hostReadCompletion p tag status => exact keeps_of_frame (execHostReadCompletion p tag status s) (execHostReadCompletion_frame p tag status s)
  | completionTimeout p tag => exact keeps_of_frame (execCompletionTimeout p tag s) (execCompletionTimeout_frame p tag s)
  | tagQuarantineEnd p tag => exact keeps_of_frame (execTagQuarantineEnd p tag s) (execTagQuarantineEnd_frame p tag s)
  | _ => exact absurd row Bool.false_ne_true

/-- The rows of reset, boot, faults and freeze (chapters 15 to 18) keep their parts. -/
theorem keeps_chipRows (i : Instr) (s : State) (row : rowsFrom 205 234 i = true) : Keeps i s := by
  cases i with
  | chipResetAssert => exact keeps_of_frame (execChipResetAssert s) (execChipResetAssert_frame s)
  | chipResetRelease straps sysclk refA refB => exact keeps_of_frame (execChipResetRelease straps sysclk refA refB s) (execChipResetRelease_frame straps sysclk refA refB s)
  | strapFaceEnd => exact keeps_of_frame (execStrapFaceEnd s) (execStrapFaceEnd_frame s)
  | bootImageCheck norPresent slotA slotB => exact keeps_of_frame (execBootImageCheck norPresent slotA slotB s) (execBootImageCheck_frame norPresent slotA slotB s)
  | loaderRun board entropyFails parkUs => exact keeps_of_frame (execLoaderRun board entropyFails parkUs s) (execLoaderRun_frame board entropyFails parkUs s)
  | bootCastle norWriteOk => exact keeps_of_frame (execBootCastle norWriteOk s) (execBootCastle_frame norWriteOk s)
  | fuseProgram src bit blows => exact keeps_of_frame (execFuseProgram src bit blows s) (execFuseProgram_frame src bit blows s)
  | grdLockWrite src value => exact keeps_of_frame (execGrdLockWrite src value s) (execGrdLockWrite_frame src value s)
  | coreHandover => exact keeps_of_frame (execCoreHandover s) (execCoreHandover_frame s)
  | handoverImportDone commitOk => exact keeps_of_frame (execHandoverImportDone commitOk s) (execHandoverImportDone_frame commitOk s)
  | handoverTimeout => exact keeps_of_frame (execHandoverTimeout s) (execHandoverTimeout_frame s)
  | coreWatchdog c => exact keeps_of_frame (execCoreWatchdog c s) (execCoreWatchdog_frame c s)
  | coreFault c cause => exact keeps_of_frame (execCoreFault c cause s) (execCoreFault_frame c cause s)
  | engineIslandFault kind idx => exact keeps_of_frame (execEngineIslandFault kind idx s) (execEngineIslandFault_frame kind idx s)
  | halt cause island => exact keeps_of_frame (execHalt cause island s) (execHalt_frame cause island s)
  | hourTick => exact keeps_of_frame (execHourTick s) (execHourTick_frame s)
  | clearStats src => exact keeps_of_frame (execClearStats src s) (execClearStats_frame src s)
  | thermalSample temp cooled tripped => exact keeps_of_frame (execThermalSample temp cooled tripped s) (execThermalSample_frame temp cooled tripped s)
  | thermtrip => exact keeps_of_frame (execThermtrip s) (execThermtrip_frame s)
  | freezeN => exact keeps_of_frame (execFreezeN s) (execFreezeN_frame s)
  | freezeRequest src => exact keeps_of_frame (execFreezeRequest src s) (execFreezeRequest_frame src s)
  | channelIslandFault ch => exact keeps_of_frame (execChannelIslandFault ch s) (execChannelIslandFault_frame ch s)
  | frameDiscard plane => exact keeps_of_frame (execFrameDiscard plane s) (execFrameDiscard_frame plane s)
  | bar0ReadError p addr size => exact keeps_of_frame (execBar0ReadError p addr size s) (execBar0ReadError_frame p addr size s)
  | evacuationCopy c => exact keeps_of_frame (execEvacuationCopy c s) (execEvacuationCopy_frame c s)
  | coreSupplyLoss => exact keeps_of_frame (execCoreSupplyLoss s) (execCoreSupplyLoss_frame s)
  | tapOperation op => exact keeps_of_frame (execTapOperation op s) (execTapOperation_frame op s)
  | setdasa address => exact keeps_of_frame (execSetdasa address s) (execSetdasa_frame address s)
  | entdaa address => exact keeps_of_frame (execEntdaa address s) (execEntdaa_frame address s)
  | _ => exact absurd row Bool.false_ne_true
/-- The table of commands has 234 rows. -/
theorem ctorIdx_lt (i : Instr) : i.ctorIdx < 234 := by
  cases i <;> exact Nat.le_of_ble_eq_true rfl

theorem rowsFrom_of_le_of_lt {lo hi : Nat} {i : Instr} (le : lo ≤ i.ctorIdx) (lt : i.ctorIdx < hi) :
    rowsFrom lo hi i = true := by
  simp [rowsFrom, le, Nat.blt_eq, lt]

theorem keeps (i : Instr) (s : State) : Keeps i s := by
  have last := ctorIdx_lt i
  rcases lt_or_ge i.ctorIdx 36 with h | h36
  · exact keeps_hostRows i s (rowsFrom_of_le_of_lt (Nat.zero_le _) h)
  rcases lt_or_ge i.ctorIdx 75 with h | h75
  · exact keeps_mapRows i s (rowsFrom_of_le_of_lt h36 h)
  rcases lt_or_ge i.ctorIdx 120 with h | h120
  · exact keeps_mediaRows i s (rowsFrom_of_le_of_lt h75 h)
  rcases lt_or_ge i.ctorIdx 159 with h | h159
  · exact keeps_herdRows i s (rowsFrom_of_le_of_lt h120 h)
  rcases lt_or_ge i.ctorIdx 205 with h | h205
  · exact keeps_engineRows i s (rowsFrom_of_le_of_lt h159 h)
  · exact keeps_chipRows i s (rowsFrom_of_le_of_lt h205 last)

/-- Settles O57: every command keeps the parts that its row is not listed with. -/
theorem partsKept : Obligations.PartsKept := keeps

end Sys2Proof.Machine

/-! ## What lasts over every command: the form of memory, blown fuses, the freeze (R462, R502, R512; log entry 6) -/

namespace Sys2Proof.Machine

open Sys2Proof Sys2Proof.Laws

/-- From one state to another the memory stays in its one form, no blown fuse returns to 0 and a freeze goes on. -/
structure Lasting (s t : State) : Prop where
  ram : Memory.wf s.ram = true → Memory.wf t.ram = true
  fuses : ∀ bit, s.boot.fuses.getLsbD bit = true → t.boot.fuses.getLsbD bit = true
  frozen : s.pins.frozen = true → t.pins.frozen = true

theorem Lasting.refl (s : State) : Lasting s s := ⟨id, fun _ => id, id⟩

theorem Lasting.trans {s t u : State} (a : Lasting s t) (b : Lasting t u) : Lasting s u :=
  ⟨b.ram ∘ a.ram, fun bit => b.fuses bit ∘ a.fuses bit, b.frozen ∘ a.frozen⟩

theorem Lasting.of_kept {s t : State} (ram : t.ram = s.ram) (fuses : t.boot.fuses = s.boot.fuses)
    (frozen : t.pins.frozen = s.pins.frozen) : Lasting s t :=
  ⟨fun h => ram ▸ h, fun _ h => fuses ▸ h, fun h => frozen ▸ h⟩

/-- A change of memory alone. -/
theorem Lasting.of_ram {s t : State} (ram : Memory.wf s.ram = true → Memory.wf t.ram = true)
    (fuses : t.boot.fuses = s.boot.fuses) (frozen : t.pins.frozen = s.pins.frozen) : Lasting s t :=
  ⟨ram, fun _ h => fuses ▸ h, fun h => frozen ▸ h⟩

theorem Lasting.ite {s t u : State} {p : Prop} [Decidable p] (a : Lasting s t) (b : Lasting s u) :
    Lasting s (if p then t else u) := by
  split
  · exact a
  · exact b

theorem Lasting.foldl {α : Type} {g : State → α → State} (h : ∀ s x, Lasting s (g s x)) (l : List α) (s : State) :
    Lasting s (l.foldl g s) := by
  induction l generalizing s with
  | nil => exact .refl s
  | cons x l ih => exact (h s x).trans (ih _)

/-- A write that is not served leaves its answer alone (R46). -/
theorem Lasting.access {s : State} {f : State → State} (h : Lasting s (f s)) (src : Source) (a size : Nat) :
    Lasting s (s.access src a size f) := by
  unfold State.access
  split
  · exact h
  · exact .refl s
  · exact .of_kept (by simp [State.deniedResponse_frame]) (by simp [State.deniedResponse_frame])
      (by simp [State.deniedResponse_frame])
  · exact .of_kept (by simp [State.errorResponse_frame]) (by simp [State.errorResponse_frame])
      (by simp [State.errorResponse_frame])

/-- A keyed write without its arming, or under the guard lock, leaves its event alone (R51, R481). -/
theorem Lasting.keyed {f : State → State} (h : ∀ s, Lasting s (f s)) (s : State) (src : Source) (w : Nat) :
    Lasting s (s.keyed src w f) := by
  have disarmed : Lasting s (s.disarm src w) :=
    .of_kept (by simp [State.disarm_frame]) (by simp [State.disarm_frame]) (by simp [State.disarm_frame])
  unfold State.keyed
  split
  · exact .of_kept (by simp [State.raiseHdr_frame]) (by simp [State.raiseHdr_frame]) (by simp [State.raiseHdr_frame])
  split
  · exact disarmed.trans (.of_kept (by simp [State.raise_frame]) (by simp [State.raise_frame]) (by simp [State.raise_frame]))
  · exact disarmed.trans (h _)

/-! ### The form of memory -/

theorem foldl_wf {α : Type} {g : State → α → State} (h : ∀ s x, Memory.wf s.ram = true → Memory.wf (g s x).ram = true)
    (l : List α) {s : State} (wf : Memory.wf s.ram = true) : Memory.wf (l.foldl g s).ram = true := by
  induction l generalizing s with
  | nil => exact wf
  | cons x l ih => exact ih (h s x wf)

theorem foldl_writeByte_wf (l : List Host.Cell) {m : List Host.Cell} (wf : Memory.wf m = true) :
    Memory.wf (l.foldl (fun r c => writeByte r c.1 c.2) m) = true := by
  induction l generalizing m with
  | nil => exact wf
  | cons c l ih => exact ih (writeByte_wf m c.1 c.2 wf)

theorem State.store_wf {s : State} (a : Nat) (l : List Byte) (wf : Memory.wf s.ram = true) :
    Memory.wf (s.store a l).ram = true :=
  writeBytes_wf l _ a (by simpa [State.touch_frame] using wf)

theorem State.remapPlain_wf {s : State} (ch : Nat) (wf : Memory.wf s.ram = true) :
    Memory.wf (s.remapPlain ch).ram = true :=
  foldl_writeByte_wf _ (filter_wf _ _ wf)

theorem State.initSdram_wf {s : State} (ch : Nat) (wf : Memory.wf s.ram = true) :
    Memory.wf (s.initSdram ch).ram = true :=
  filter_wf _ _ wf

theorem State.k7Finish_wf {s : State} (p : Port) (n : Nat) (got : List Byte) (ok : Bool)
    (wf : Memory.wf s.ram = true) : Memory.wf (s.k7Finish p n got ok).ram = true := by
  unfold State.k7Finish
  dsimp only
  (repeat' split) <;> first | apply State.store_wf | skip
  all_goals simpa [State.setFld_frame, State.emit_frame] using wf

theorem State.k7Move_wf {s : State} (src : Source) (n : Nat) (data : List Byte) (ans : HostAnswer)
    (wf : Memory.wf s.ram = true) : Memory.wf (s.k7Move src n data ans).ram = true := by
  unfold State.k7Move
  dsimp only
  split
  · exact State.k7Finish_wf _ _ _ _ wf
  split
  · exact State.k7Finish_wf _ _ _ _ wf
  split
  · refine State.k7Finish_wf _ _ _ _ ?_
    split
    · simpa [State.hostTimeout_frame] using wf
    · exact wf
  split
  · simpa [State.takeTag_frame, State.setFld_frame] using wf
  · exact State.k7Finish_wf _ _ _ _ wf

theorem State.abandonReads_wf {s : State} (fk : Nat) (wf : Memory.wf s.ram = true) :
    Memory.wf (s.abandonReads fk).ram = true := by
  unfold State.abandonReads
  refine foldl_wf (fun s n => State.k7Finish_wf _ _ _ _) _ ?_
  split
  · exact wf
  · exact wf

theorem State.stopMaster_wf {s : State} (fk : Nat) (wf : Memory.wf s.ram = true) :
    Memory.wf (s.stopMaster fk).ram = true := by
  have left := State.abandonReads_wf fk wf
  unfold State.stopMaster
  dsimp only
  split <;> simpa [State.dropRegions_frame, State.abortHostCmds_frame, State.abortMules_frame] using left

theorem State.resetFn_wf {s : State} (fk : Nat) (wf : Memory.wf s.ram = true) :
    Memory.wf (s.resetFn fk).ram = true := by
  have left := State.abandonReads_wf fk wf
  unfold State.resetFn
  dsimp only
  split <;> simpa [State.reapDeposed_frame, State.dropRegions_frame, State.disarmAll_frame, State.setFn_frame,
    State.resetFnRegs_frame, State.discardFn_frame, State.abortMules_frame] using left

theorem State.removeVfs_wf {s : State} (p : Port) (wf : Memory.wf s.ram = true) :
    Memory.wf (s.removeVfs p).ram = true :=
  foldl_wf (fun _ fk => State.resetFn_wf fk) _ wf

theorem State.resetFns_wf {s : State} (p : Port) (wf : Memory.wf s.ram = true) :
    Memory.wf (s.resetFns p).ram = true :=
  State.resetFn_wf _ (State.removeVfs_wf p wf)

theorem State.resetPort_wf {s : State} (p : Port) (wf : Memory.wf s.ram = true) :
    Memory.wf (s.resetPort p).ram = true := by
  simpa [State.resetPort, State.reason_frame, State.count_frame, State.setPort_frame, State.setReg_frame] using
    State.resetFns_wf p wf

theorem State.ownerFails_wf {s : State} (p : Port) (o : TagOwner) (wf : Memory.wf s.ram = true) :
    Memory.wf (s.ownerFails p o).ram = true := by
  unfold State.ownerFails
  split
  case h_5 n => exact State.k7Finish_wf _ _ _ _ wf
  all_goals
    (repeat' split) <;> simpa [State.faultSq_frame, State.complete_frame, State.fetchError_frame, State.setMule_frame] using wf

theorem State.readOut_wf {s : State} (dk : Nat) (d : Desc) (wf : Memory.wf s.ram = true) :
    Memory.wf (s.readOut dk d).ram = true :=
  foldl_wf (fun s e h => State.store_wf _ _ (by simpa [State.rawBytes_frame] using h)) _ wf

theorem State.trailersOut_wf {s : State} (dk : Nat) (d : Desc) (wf : Memory.wf s.ram = true) :
    Memory.wf (s.trailersOut dk d).ram = true :=
  foldl_wf (fun _ _ h => State.store_wf _ _ h) _ wf

/-- The free bytes that a die answers with are stored at the descriptor's buffer. -/
theorem State.storeFree_wf {s : State} (a n : Nat) (wf : Memory.wf s.ram = true) :
    Memory.wf ((s.takeBytes n).2.store a (s.takeBytes n).1).ram = true :=
  State.store_wf _ _ (by simpa [State.takeBytes_frame] using wf)

theorem State.completeOp_wf {s : State} (ch die : Nat) (o : DieOp) (ok : Bool) (stat elapsed : Nat)
    (wf : Memory.wf s.ram = true) : Memory.wf (s.completeOp ch die o ok stat elapsed).ram = true := by
  have idle : Memory.wf (s.setDie (dieKey ch die) { s.dieOf (dieKey ch die) with cur := none }).ram = true := wf
  unfold State.completeOp
  simp only [State.endDesc_frame]
  split
  · exact State.readOut_wf _ _ idle
  · simpa [State.programmed_frame] using idle
  · simpa [State.eraseEnd_frame] using idle
  · exact State.trailersOut_wf _ _ idle
  · exact State.storeFree_wf _ _ idle
  · exact State.storeFree_wf _ _ idle
  · exact State.storeFree_wf _ _ idle
  · split <;> simpa [State.setFld_frame] using idle
  · exact idle

theorem State.putOut_wf {s : State} (d : BitVec 256) (a : Nat) (l : List Byte) (wf : Memory.wf s.ram = true) :
    Memory.wf (s.putOut d a l).ram = true := by
  unfold State.putOut
  split
  · exact State.store_wf _ _ wf
  · exact wf

theorem State.moveBytes_wf {s : State} (d : BitVec 256) (src : List Byte) (dst : List (Nat × Nat))
    (wf : Memory.wf s.ram = true) : Memory.wf (s.moveBytes d src dst).ram = true :=
  foldl_wf (fun _ _ h => State.putOut_wf _ _ _ h) _ wf

theorem State.makeTallies_wf {s : State} (els : List (Nat × Nat)) (src : List Byte) (wf : Memory.wf s.ram = true) :
    Memory.wf (s.makeTallies els src).ram = true :=
  foldl_wf (fun _ _ h => State.store_wf _ _ h) _ wf

theorem State.runMove_wf {s : State} (d : BitVec 256) (srcs dst : List (Nat × Nat)) (data : List Byte)
    (cut : Option Nat) (wf : Memory.wf s.ram = true) : Memory.wf (s.runMove d srcs dst data cut).2.ram = true := by
  have touched : ∀ l : List (Nat × Nat), Memory.wf (l.foldl (fun s e => s.touch e.1 e.2 false) s).ram = true :=
    fun l => foldl_wf (fun _ _ h => by simpa [State.touch_frame] using h) l wf
  unfold State.runMove
  dsimp only
  (repeat' split) <;> first | apply State.makeTallies_wf | skip
  all_goals apply State.moveBytes_wf
  all_goals first | exact touched _ | exact wf

theorem State.runDesc_wf {s : State} (d : BitVec 256) (data : List Byte) (cut : Option Nat)
    (wf : Memory.wf s.ram = true) : Memory.wf (s.runDesc d data cut).2.ram = true := by
  unfold State.runDesc
  dsimp only
  (repeat' split) <;> first | exact wf | exact State.runMove_wf _ _ _ _ _ wf

theorem State.writeBackDesc_wf {s : State} (r : Nat) (d : BitVec 256) (status done : Nat)
    (wf : Memory.wf s.ram = true) : Memory.wf (s.writeBackDesc r d status done).ram = true := by
  have stored : ∀ a b l m, Memory.wf ((s.store a l).store b m).ram = true :=
    fun _ _ _ _ => State.store_wf _ _ (State.store_wf _ _ wf)
  unfold State.writeBackDesc
  dsimp only
  (repeat' split) <;> simpa [State.sweepReleases_frame, State.emit_frame, State.raise_frame, State.setFld_frame,
    State.setMule_frame] using stored _ _ _ _

theorem State.endMule_wf {s : State} (r : Nat) (d : BitVec 256) (status done : Nat) (ok : Bool)
    (wf : Memory.wf s.ram = true) : Memory.wf (s.endMule r d status done ok).ram = true := by
  unfold State.endMule
  split
  · exact State.writeBackDesc_wf _ _ _ _ wf
  · simpa [State.haltRing_frame, State.setMule_frame] using wf

theorem State.failSdram_wf {s : State} (ch : Nat) (wf : Memory.wf s.ram = true) :
    Memory.wf (s.failSdram ch).ram = true := by
  have raised : Memory.wf (if decide (s.sdcMode ch = 1) = true then s.raise 17 21 else s).ram = true := by
    split
    · simpa [State.raise_frame] using wf
    · exact wf
  unfold State.failSdram
  dsimp only
  generalize (if decide (s.sdcMode ch = 1) = true then s.raise 17 21 else s) = u at raised ⊢
  split
  · simpa [State.haltNow_frame, State.setFld_frame] using raised
  · have moved := State.remapPlain_wf ch raised
    split <;> simpa [State.reason_frame, State.loseBuffers_frame, State.discardStaging_frame, State.recordFault_frame,
      State.raise_frame, State.isolate_frame, State.setFld_frame] using moved

theorem State.uncorrectable_wf {s : State} (ch : Nat) (mirror : Bool) (wf : Memory.wf s.ram = true) :
    Memory.wf (s.uncorrectable ch mirror).ram = true := by
  have counted : ∀ x, Memory.wf (((s.count (Reg.SDC_UNCORR ch) 1).raise 17 17).setSdram ch x).ram = true :=
    fun x => by simpa [State.setSdram_frame, State.raise_frame, State.count_frame] using wf
  unfold State.uncorrectable
  dsimp only
  split
  · simpa [State.haltNow_frame] using counted _
  split
  · exact State.failSdram_wf _ (counted _)
  · exact counted _

end Sys2Proof.Machine

/-! ## What lasts over every command, row by row -/

namespace Sys2Proof.Machine

open Sys2Proof Sys2Proof.Laws

/-! ### Commands that write memory -/

/-- A property of the state that an event leaves, where it is shown for both branches of `answer`. -/
theorem after_answer_ram_wf {u s t : State} {p : Bool} (wf : Memory.wf s.ram = true) (h : Memory.wf t.ram = true) :
    Memory.wf (after u (answer p s t)).ram = true := by
  rw [after_answer]
  split
  · exact h
  · exact wf

theorem after_configRequest_ram_wf {u s t : State} {f : Fn} {p : Bool} (wf : Memory.wf s.ram = true)
    (h : Memory.wf t.ram = true) : Memory.wf (after u (configRequest f s p t)).ram = true := by
  unfold configRequest
  split
  · exact wf
  split
  · exact wf
  · rw [after_next]
    split <;> assumption

theorem execFunctionDisable_wf {s : State} (u : State) (f : Fn) (wf : Memory.wf s.ram = true) :
    Memory.wf (after u (execFunctionDisable f s)).ram = true := by
  refine after_answer_ram_wf wf ?_
  dsimp only
  split <;> simpa [State.reapDeposed_frame, State.dropRegions_frame, State.setFn_frame, State.setFld_frame,
    State.setReg_frame, State.discardFn_frame, State.abortMules_frame] using State.abandonReads_wf f.key wf

theorem execBusMasterClear_wf {s : State} (u : State) (f : Fn) (wf : Memory.wf s.ram = true) :
    Memory.wf (after u (execBusMasterClear f s)).ram = true := by
  refine after_configRequest_ram_wf wf ?_
  dsimp only
  split
  · exact wf
  · simpa [State.raiseHst_frame] using State.stopMaster_wf f.key (s := s.setFn f.key _) wf

theorem execD3hotEntry_wf {s : State} (u : State) (f : Fn) (wf : Memory.wf s.ram = true) :
    Memory.wf (after u (execD3hotEntry f s)).ram = true := by
  refine after_configRequest_ram_wf wf ?_
  dsimp only
  split
  · simpa [State.raiseHst_frame] using State.stopMaster_wf f.key (s := s.setFn f.key _) wf
  · exact wf

theorem execDieOpComplete_wf {s : State} (u : State) (ch die : Nat) (r : DieResult) (stat : Byte) (elapsed : Nat)
    (wf : Memory.wf s.ram = true) : Memory.wf (after u (execDieOpComplete ch die r stat elapsed s)).ram = true := by
  unfold execDieOpComplete
  split
  · exact wf
  · refine after_answer_ram_wf wf ?_
    simpa [State.mediaChanged_frame] using State.completeOp_wf _ _ _ _ _ _ wf

theorem execMuleDescriptorDone_wf {s : State} (u : State) (r : Nat) (l : List Byte) (a : HostAnswer) (ok : Bool)
    (wf : Memory.wf s.ram = true) : Memory.wf (after u (execMuleDescriptorDone r l a ok s)).ram = true := by
  unfold execMuleDescriptorDone
  split
  · exact wf
  · rename_i d _
    refine after_answer_ram_wf wf ?_
    split
    · exact State.endMule_wf _ _ _ _ _ wf
    · dsimp only
      have timed : Memory.wf (if a = .timedOut then s.muleTimeout r d else s).ram = true := by
        split
        · simpa [State.muleTimeout_frame] using wf
        · exact wf
      generalize (if a = .timedOut then s.muleTimeout r d else s) = v at timed ⊢
      split
      · refine State.endMule_wf _ _ _ _ _ ?_
        simpa [State.dropMuleTags_frame] using State.runDesc_wf _ _ _ timed
      · simpa [State.haltRing_frame] using timed

theorem execFlr_wf {s : State} (u : State) (f : Fn) (wf : Memory.wf s.ram = true) :
    Memory.wf (after u (execFlr f s)).ram = true := by
  refine after_configRequest_ram_wf wf ?_
  split
  · simpa [State.raiseHst_frame] using State.resetFns_wf _ wf
  · simpa [State.raiseHst_frame] using State.resetFn_wf _ wf

theorem execPerstAssert_wf {s : State} (u : State) (p : Port) (wf : Memory.wf s.ram = true) :
    Memory.wf (after u (execPerstAssert p s)).ram = true := by
  unfold execPerstAssert
  dsimp only
  split
  · simpa [State.raiseHst_frame, State.setPort_frame] using State.resetPort_wf _ wf
  · exact wf

theorem execHotReset_wf {s : State} (u : State) (p : Port) (wf : Memory.wf s.ram = true) :
    Memory.wf (after u (execHotReset p s)).ram = true :=
  after_answer_ram_wf wf (by simpa [State.raiseHst_frame] using State.resetPort_wf _ wf)

theorem execLinkDown_wf {s : State} (u : State) (p : Port) (wf : Memory.wf s.ram = true) :
    Memory.wf (after u (execLinkDown p s)).ram = true :=
  after_answer_ram_wf wf (by simpa [State.recordFault_frame, State.raiseHst_frame] using State.resetPort_wf _ wf)

theorem execHostReadCompletion_wf {s : State} (u : State) (p : Port) (n : Nat) (x : CplStatus)
    (wf : Memory.wf s.ram = true) : Memory.wf (after u (execHostReadCompletion p n x s)).ram = true := by
  unfold execHostReadCompletion
  split
  · exact wf
  · refine after_answer_ram_wf wf ?_
    split
    · simpa [State.logAer_frame, State.raiseHst_frame, State.count_frame] using wf
    split
    · split
      · exact wf
      · exact wf
      · refine State.k7Finish_wf _ _ _ _ ?_
        simpa [State.dropTag_frame, State.takeBytes_frame] using wf
      · simpa [State.dropTag_frame] using wf
    · refine State.ownerFails_wf _ _ ?_
      simpa [State.dropTag_frame] using wf

theorem execCompletionTimeout_wf {s : State} (u : State) (p : Port) (n : Nat) (wf : Memory.wf s.ram = true) :
    Memory.wf (after u (execCompletionTimeout p n s)).ram = true := by
  unfold execCompletionTimeout
  split
  · exact wf
  · refine after_answer_ram_wf wf (State.ownerFails_wf _ _ ?_)
    simpa [State.countTimeout_frame, State.setPort_frame] using wf

theorem execPatrolScrub_wf {s : State} (u : State) (ch : Nat) (x : ScrubResult) (wf : Memory.wf s.ram = true) :
    Memory.wf (after u (execPatrolScrub ch x s)).ram = true := by
  refine after_answer_ram_wf wf ?_
  dsimp only
  split
  · exact wf
  · split
    · exact State.uncorrectable_wf _ _ wf
    · simpa [State.corrected_frame, State.setSdram_frame] using wf
  · exact State.uncorrectable_wf _ _ wf

/-! ### Register writes with their own step that write memory -/

theorem State.k7Move_lasting (s : State) (src : Source) (n : Nat) (l : List Byte) (a : HostAnswer) :
    Lasting s (s.k7Move src n l a) :=
  .of_ram (State.k7Move_wf src n l a) (by simp [State.k7Move_frame]) (by simp [State.k7Move_frame])

theorem State.raise_lasting (s : State) (blk bit : Nat) : Lasting s (s.raise blk bit) :=
  .of_kept (by simp [State.raise_frame]) (by simp [State.raise_frame]) (by simp [State.raise_frame])

theorem State.setFld_lasting (s : State) (a : Nat) (f : Fld) (n : Nat) : Lasting s (s.setFld a f n) :=
  .of_kept (by simp [State.setFld_frame]) (by simp [State.setFld_frame]) (by simp [State.setFld_frame])

theorem State.resetPort_lasting (s : State) (p : Port) : Lasting s (s.resetPort p) :=
  .of_ram (State.resetPort_wf p) (by simp [s.resetPort_frame p]) (by simp [s.resetPort_chip p])

theorem State.raiseHst_lasting (s : State) (p : Port) (bit : Nat) : Lasting s (s.raiseHst p bit) :=
  .of_kept (by simp [State.raiseHst_frame]) (by simp [State.raiseHst_frame]) (by simp [State.raiseHst_frame])

theorem after_answer_lasting {u s t : State} {p : Bool} (h : Lasting s t) : Lasting s (after u (answer p s t)) := by
  rw [after_answer]
  exact .ite h (.refl s)

theorem execK7Start_lasting (u s : State) (src : Source) (n : Nat) (l : List Byte) (a : HostAnswer) :
    Lasting s (after u (execK7Start src n l a s)) :=
  after_answer_lasting <| by
    refine .access ?_ src _ 4
    exact .ite (s.raise_lasting 16 18) (.ite (s.raise_lasting 16 19) (s.k7Move_lasting src n l a))

theorem execHstMaxrateWrite_lasting (u s : State) (src : Source) (p : Port) (rate : BitVec 4) :
    Lasting s (after u (execHstMaxrateWrite src p rate s)) := by
  refine after_answer_lasting (.access (.keyed (fun s => .ite (.refl s) ?_) s src 1) src _ 4)
  have down : Lasting s (if (s.portOf p).inReset = true then s else (s.resetPort p).raiseHst p 16) :=
    .ite (.refl s) ((s.resetPort_lasting p).trans (State.raiseHst_lasting _ _ _))
  exact down.trans (State.setFld_lasting _ _ _ _)

theorem execSdcModeWrite_lasting (u s : State) (src : Source) (ch : Nat) (m : BitVec 2) :
    Lasting s (after u (execSdcModeWrite src ch m s)) := by
  refine after_answer_lasting (.access (.keyed (fun s => .ite (s.raise_lasting 17 22) ?_) s src 17) src _ 4)
  have zeroed : ∀ s : State, Lasting s (s.initSdram ch) := fun s =>
    .of_ram (State.initSdram_wf ch) (by simp [State.initSdram_frame]) (by simp [State.initSdram_frame])
  dsimp only
  exact ((State.setFld_lasting s _ _ _).trans (.ite (zeroed _) (.refl _))).trans (State.setFld_lasting _ _ _ _)

/-! ### Fuses (R465, R474) -/

theorem State.showFuses_lasting (s : State) : Lasting s s.showFuses :=
  .of_kept (by simp [State.showFuses_frame]) (by simp [State.showFuses_frame]) (by simp [State.showFuses_frame])

theorem State.bootCode_lasting (s : State) (n : Nat) : Lasting s (s.bootCode n) :=
  .of_kept (by simp [State.bootCode_frame]) (by simp [State.bootCode_frame]) (by simp [State.bootCode_frame])

theorem State.record_lasting (s : State) (a b c d : Nat) (l : List Byte) : Lasting s (s.record a b c d l) :=
  .of_kept (by simp [State.record_frame]) (by simp [State.record_frame]) (by simp [State.record_frame])

/-- Programming sets a bit of the row, or none. -/
theorem State.blowFuse_lasting (s : State) (b : Nat) (blows : Bool) : Lasting s (s.blowFuse b blows) := by
  unfold State.blowFuse
  refine .ite (State.setFld_lasting _ _ _ _) ?_
  have row : Lasting s { s with boot := { s.boot with
      fuses := if blows then s.boot.fuses ||| BitVec.ofNat 4096 (2 ^ b) else s.boot.fuses } } :=
    ⟨id, fun bit h => by dsimp only; split <;> simp [h], id⟩
  exact (row.trans (State.showFuses_lasting _)).trans (.ite ((State.setFld_lasting _ _ _ _).trans (State.raise_lasting _ _ _))
    (((State.setFld_lasting _ _ _ _).trans (State.raise_lasting _ _ _)).trans (State.bootCode_lasting _ _)))

theorem blowAll_lasting (s : State) (l : List Nat) : Lasting s (blowAll s l) :=
  .foldl (fun s b => s.blowFuse_lasting b true) l s

theorem revokeOne_lasting (img : Image) (board : Option Board) (s : State) (k : Nat) :
    Lasting s (revokeOne img board s k) :=
  .ite (.refl s) (.ite (blowAll_lasting s _) (s.record_lasting _ _ _ _ _))

theorem State.fuseRequests_lasting (s : State) (img : Image) (board : Option Board) :
    Lasting s (s.fuseRequests img board) := by
  have svn : Lasting s (if img.manifest.svnFuse then blowAll s (svnBits s.boot.fuses (s.minSvnGoal img)) else s) :=
    .ite (blowAll_lasting s _) (.refl s)
  have revoked := svn.trans (.foldl (revokeOne_lasting img board) (List.range 4) _)
  unfold State.fuseRequests
  dsimp only
  split
  · exact revoked.trans (.ite (blowAll_lasting _ _) (.refl _))
  · exact revoked

theorem execLoaderRun_lasting (u s : State) (board : Option Board) (fails us : Nat) :
    Lasting s (after u (execLoaderRun board fails us s)) := by
  unfold execLoaderRun
  split
  · exact .refl s
  rename_i img _
  refine after_answer_lasting ?_
  dsimp only
  have checked : Lasting s (if (board.filter fun b => s.boardOk b).isSome = true then s else (s.bootCode 4).raise 19 17) :=
    .ite (.refl s) ((s.bootCode_lasting 4).trans (State.raise_lasting _ _ _))
  have fused := checked.trans (State.fuseRequests_lasting _ img (board.filter fun b => s.boardOk b))
  generalize State.fuseRequests _ img _ = v at fused ⊢
  refine fused.trans (.of_kept ?_ ?_ ?_) <;> (repeat' split) <;> simp [State.setBoot_frame, State.setFld_frame,
    State.setReg_frame, State.endRetry_frame, State.writeGuardSet_frame, State.raise_frame, State.emit_frame,
    State.bootCode_frame]

theorem State.writeGeneric_lasting (s : State) (src : Source) (a size : Nat) (v : DWord) :
    Lasting s (s.writeGeneric src a size v) :=
  .of_kept (by simp [State.writeGeneric_frame]) (by simp [State.writeGeneric_frame]) (by simp [State.writeGeneric_frame])

theorem execFuseProgram_lasting (u s : State) (src : Source) (bit : Nat) (blows : Bool) :
    Lasting s (after u (execFuseProgram src bit blows s)) :=
  after_answer_lasting <| by
    refine .access ?_ src _ 4
    have written := s.writeGeneric_lasting src Reg.FUS_PROG 4 (BitVec.ofNat 64 (bit % 4096))
    exact .ite (written.trans (State.blowFuse_lasting _ _ _)) written

/-! ### The freeze (R512) -/

theorem State.freeze_lasting (s : State) : Lasting s s.freeze :=
  ⟨fun h => by simpa [State.freeze, State.emit_frame, State.enterMode_frame] using h,
    fun _ h => by simpa [State.freeze, State.emit_frame, State.enterMode_frame] using h, fun _ => rfl⟩

theorem execFreezeN_lasting (u s : State) : Lasting s (after u (execFreezeN s)) := by
  unfold execFreezeN
  split
  · exact .of_kept rfl rfl rfl
  · exact after_answer_lasting s.freeze_lasting

theorem execStrapFaceEnd_lasting (u s : State) : Lasting s (after u (execStrapFaceEnd s)) :=
  after_answer_lasting (.ite s.freeze_lasting (.of_kept rfl rfl rfl))

theorem execFreezeRequest_lasting (u s : State) (src : Source) : Lasting s (after u (execFreezeRequest src s)) :=
  after_answer_lasting (.access (.keyed (fun s => .ite (.refl s) s.freeze_lasting) s src 24) src _ 4)

/-! ### Every command but a chip reset and a register write -/

/-- What a command leaves, part by part, from its frame. -/
theorem exec_same {i : Instr} {p : Ob.Part} (u s : State) (unlisted : (Ob.writes i).elem p = false) :
    Ob.same p s (after u (exec i s)) := by
  obtain ⟨t, next, same⟩ := keeps i s
  rw [next]
  exact same p (by simpa using unlisted)

theorem exec_lasting_of_ram {i : Instr} (u : State) {s : State}
    (ram : Memory.wf s.ram = true → Memory.wf (after u (exec i s)).ram = true)
    (fuses : (Ob.writes i).elem .fuses = false := by rfl) (frozen : (Ob.writes i).elem .frozen = false := by rfl) :
    Lasting s (after u (exec i s)) :=
  .of_ram ram (exec_same u s fuses) (exec_same u s frozen)

theorem exec_lasting_of_unlisted {i : Instr} (u s : State) (ram : (Ob.writes i).elem .ram = false)
    (fuses : (Ob.writes i).elem .fuses = false) (frozen : (Ob.writes i).elem .frozen = false) :
    Lasting s (after u (exec i s)) :=
  .of_kept (exec_same u s ram) (exec_same u s fuses) (exec_same u s frozen)

/-- A command whose row lists the memory, the fuses or the freeze. -/
def touchesLasting (i : Instr) : Bool :=
  (Ob.writes i).elem .ram || (Ob.writes i).elem .fuses || (Ob.writes i).elem .frozen

/-- The commands that bring a register write of whatever register, and the two that reset the chip. -/
def isWriteOrReset : Instr → Bool
  | .registerWrite .. | .stalledWriteApply .. | .mtfRegWrite _ | .chipResetAssert | .coreSupplyLoss => true
  | _ => false

theorem exec_lasting_of_touches (i : Instr) (u s : State) (touches : touchesLasting i = true)
    (plain : isWriteOrReset i = false) : Lasting s (after u (exec i s)) := by
  cases i with
  | functionDisable f => exact exec_lasting_of_ram u (execFunctionDisable_wf u f)
  | busMasterClear f => exact exec_lasting_of_ram u (execBusMasterClear_wf u f)
  | d3hotEntry f => exact exec_lasting_of_ram u (execD3hotEntry_wf u f)
  | dieOpComplete ch die r stat elapsed => exact exec_lasting_of_ram u (execDieOpComplete_wf u ch die r stat elapsed)
  | muleDescriptorDone r l a ok => exact exec_lasting_of_ram u (execMuleDescriptorDone_wf u r l a ok)
  | k7Start src n l a => exact execK7Start_lasting u s src n l a
  | patrolScrub ch x => exact exec_lasting_of_ram u (execPatrolScrub_wf u ch x)
  | sdramChannelFailure ch => exact exec_lasting_of_ram u fun wf => after_answer_ram_wf wf (State.failSdram_wf ch wf)
  | sdcModeWrite src ch m => exact execSdcModeWrite_lasting u s src ch m
  | flr f => exact exec_lasting_of_ram u (execFlr_wf u f)
  | vfEnableClear p => exact exec_lasting_of_ram u fun wf => after_configRequest_ram_wf wf (State.removeVfs_wf p wf)
  | perstAssert p => exact exec_lasting_of_ram u (execPerstAssert_wf u p)
  | hotReset p => exact exec_lasting_of_ram u (execHotReset_wf u p)
  | linkDown p => exact exec_lasting_of_ram u (execLinkDown_wf u p)
  | hstMaxrateWrite src p rate => exact execHstMaxrateWrite_lasting u s src p rate
  | hostReadCompletion p n x => exact exec_lasting_of_ram u (execHostReadCompletion_wf u p n x)
  | completionTimeout p n => exact exec_lasting_of_ram u (execCompletionTimeout_wf u p n)
  | loaderRun board fails us => exact execLoaderRun_lasting u s board fails us
  | fuseProgram src bit blows => exact execFuseProgram_lasting u s src bit blows
  | strapFaceEnd => exact execStrapFaceEnd_lasting u s
  | freezeN => exact execFreezeN_lasting u s
  | freezeRequest src => exact execFreezeRequest_lasting u s src
  | registerWrite | stalledWriteApply | mtfRegWrite | chipResetAssert | coreSupplyLoss => exact absurd plain.symm Bool.false_ne_true
  | _ => exact absurd touches Bool.false_ne_true

theorem exec_lasting_of_plain (i : Instr) (u s : State) (plain : isWriteOrReset i = false) :
    Lasting s (after u (exec i s)) := by
  cases touches : touchesLasting i with
  | true => exact exec_lasting_of_touches i u s touches plain
  | false =>
    simp only [touchesLasting, Bool.or_eq_false_iff] at touches
    obtain ⟨⟨ram, fuses⟩, frozen⟩ := touches
    exact exec_lasting_of_unlisted u s ram fuses frozen

end Sys2Proof.Machine

/-! ## Memory, fuses and the freeze over a register write, a reset and a step -/

namespace Sys2Proof.Machine

open Sys2Proof Sys2Proof.Laws

/-! ### Register writes (R12, R13; log entry 9) -/

/-- A write of CAR_CMD begins up to four of the carrier commands, each a row of its own. -/
theorem State.writeCarCmd_lasting (s : State) (src : Source) (c : Nat) (v : DWord) :
    Lasting s (s.writeCarCmd src c v) := by
  have row : ∀ (i : Instr) (s : State) (p : Prop) [Decidable p], isWriteOrReset i = false →
      Lasting s (if p then after s (exec i s) else s) :=
    fun i s _ _ plain => .ite (exec_lasting_of_plain i s s plain) (.refl s)
  exact (((row (.carrierRemove src c) s _ rfl).trans (row (.carrierInsert src c) _ _ rfl)).trans
    (row (.carrierCancel src c) _ _ rfl)).trans (row (.carrierLocate src c) _ _ rfl)

theorem State.writeRing_lasting (s : State) (src : Source) (r : Nat) (v : DWord) : Lasting s (s.writeRing src r v) := by
  have row : ∀ (i : Instr) (u : State) (p : Prop) [Decidable p], isWriteOrReset i = false →
      Lasting u (if p then after u (exec i u) else u) :=
    fun i u _ _ plain => .ite (exec_lasting_of_plain i u u plain) (.refl u)
  have enable : Lasting s (after s (if v.getLsbD 31 then execMuleRingEnable src r s else execMuleRingDisable src r s)) := by
    split
    · exact exec_lasting_of_plain (.muleRingEnable src r) s s rfl
    · exact exec_lasting_of_plain (.muleRingDisable src r) s s rfl
  unfold State.writeRing
  generalize after s _ = u at enable ⊢
  exact (enable.trans (row (.muleRingResume src r) u _ rfl)).trans (row (.muleRingKick src r) _ _ rfl)

theorem State.writeMatCmd_lasting (s : State) (src : Source) (v : DWord) : Lasting s (s.writeMatCmd src v) :=
  .of_kept (by simp [State.writeMatCmd_frame]) (by simp [State.writeMatCmd_frame]) (by simp [State.writeMatCmd_frame])

/-- The steps that fields have of their own are those of other rows, or write registers alone. -/
theorem State.ownWrite_lasting (s : State) (src : Source) (row : RegRow) (i : Nat) (wm v : DWord) :
    Lasting s (s.ownWrite src row i wm v) := by
  have step (x : Instr) (u t : State) (plain : isWriteOrReset x = false := by rfl) : Lasting t (after u (exec x t)) :=
    exec_lasting_of_plain x u t plain
  have keyed (w : Nat) : Lasting s (s.keyed src w id) := .keyed (fun t => .refl t) s src w
  have freeBytes (n : Nat) : Lasting s (s.freeBytes n).2 :=
    .of_kept (by simp [State.freeBytes_frame]) (by simp [State.freeBytes_frame]) (by simp [State.freeBytes_frame])
  unfold State.ownWrite
  dsimp only
  split
  · exact .of_kept (by simp [State.writeKeyAt_frame]) (by simp [State.writeKeyAt_frame]) (by simp [State.writeKeyAt_frame])
  · exact .of_kept (by simp [State.writeKeyAt_frame]) (by simp [State.writeKeyAt_frame]) (by simp [State.writeKeyAt_frame])
  iterate 3
    · exact .ite (.of_kept (by simp [State.writeAck_frame]) (by simp [State.writeAck_frame]) (by simp [State.writeAck_frame]))
        (.refl s)
  · split
    · exact step (.functionEnable _) s s
    · exact step (.functionDisable _) s s
  · exact .ite (step (.ethertypeWrite ..) s s) (.refl s)
  iterate 4
    · exact step (.hrdMacWrite ..) s s
  · exact step (.hrdPortAnWrite ..) s s
  · exact step (.hstMaxrateWrite ..) s s
  · exact .ite (step (.chnRetrain ..) s s) (.refl s)
  · exact step (.chnRateTargetWrite ..) s s
  · exact step (.chnCheadWrite ..) s s
  · exact step (.sdcModeWrite ..) s s
  · exact .ite (.of_kept (by simp [State.writeTcmd_frame]) (by simp [State.writeTcmd_frame]) (by simp [State.writeTcmd_frame]))
      (.refl s)
  · exact step (.mchScratchWrite ..) s s
  · exact step (.bpmAllocRequest ..) s s
  · exact step (.bpmRelease ..) s s
  iterate 4
    · exact s.writeRing_lasting _ _ _
  · exact .ite ((freeBytes _).trans (step (.k7Start ..) s _)) (.refl s)
  · exact .ite (step (.freezeRequest src) s s) (keyed 24)
  · exact .ite (step (.clearStats src) s s) (keyed 23)
  · exact s.writeMatCmd_lasting src v
  · exact step (.grdLockWrite ..) s s
  · exact .ite ((Lasting.of_kept (s := s) (t := s.takeFree.2) rfl rfl rfl).trans (step (.fuseProgram src (v.toNat % 4096) (s.takeFree.1.getLsbD 0)) s _)) (.refl s)
  · exact s.writeCarCmd_lasting src i v
  · exact .refl s

theorem State.writeReg_lasting (s : State) (src : Source) (a size : Nat) (v : DWord) :
    Lasting s (s.writeReg src a size v) := by
  have follow : ∀ (t old : State) (e : RegRow × Nat), Lasting t (t.followRow old e.1 e.2) := fun t old e =>
    .of_kept (by simp [State.followRow_frame]) (by simp [State.followRow_frame]) (by simp [State.followRow_frame])
  have gen : ∀ t old : State, Lasting t (t.followGen old) := fun t old =>
    .of_kept (by simp [State.followGen_frame]) (by simp [State.followGen_frame]) (by simp [State.followGen_frame])
  have fields : Lasting s (if ownAlone src (resolve src a) size v then s else s.writeGeneric src (resolve src a) size v) :=
    .ite (.refl s) (s.writeGeneric_lasting _ _ _ _)
  exact ((fields.trans (.foldl (fun t e => follow t s e) _ _)).trans (gen _ s)).trans
    (.foldl (fun t e => t.ownWrite_lasting _ _ _ _ _) _ _)

theorem execRegisterWrite_lasting (u s : State) (src : Source) (a size : Nat) (v : DWord) (x : Crossing) :
    Lasting s (after u (execRegisterWrite src a size v x s)) := by
  unfold execRegisterWrite
  split
  · exact .refl s
  split
  · rw [after_next]
    split
    · exact .of_kept rfl rfl rfl
    · exact .refl s
  · rw [after_next]
    refine .access ?_ src a size
    exact .ite (.of_kept rfl rfl rfl) (s.writeReg_lasting _ _ _ _)

theorem execStalledWriteApply_lasting (u s : State) (p : Port) (island : Nat) :
    Lasting s (after u (execStalledWriteApply p island s)) := by
  have queues (late posted : List PostedWrite) : Lasting s { s with late := late, posted := posted } :=
    .of_kept rfl rfl rfl
  have writes (t : State) (q : PostedWrite) : Lasting t (t.writeReg q.src q.addr q.size q.value) :=
    t.writeReg_lasting q.src q.addr q.size q.value
  refine after_answer_lasting ?_
  exact .ite (queues _ _) ((queues _ _).trans (Lasting.foldl writes _ _))

theorem State.taskAccess_lasting (s : State) (x : Crossing) (write : Bool) {f : State → State} (h : Lasting s (f s)) :
    Lasting s (s.taskAccess x write f) := by
  have done : ∀ (t : State) (n : Nat), Lasting t (t.taskDone n) := fun t n =>
    .of_kept (by simp [State.taskDone_frame]) (by simp [State.taskDone_frame]) (by simp [State.taskDone_frame])
  unfold State.taskAccess
  split
  · exact .of_kept (by simp [State.badArg_frame]) (by simp [State.badArg_frame]) (by simp [State.badArg_frame])
  dsimp only
  have failed : ∀ a n c w d, Lasting s ((s.errorResponse .mtf a n c w).accessFailed d) := fun a n c w d =>
    .of_kept (by simp [State.accessFailed_frame, State.errorResponse_frame])
      (by simp [State.accessFailed_frame, State.errorResponse_frame])
      (by simp [State.accessFailed_frame, State.errorResponse_frame])
  split
  · exact failed _ _ _ _ _
  · exact .ite (failed _ _ _ _ _) (h.trans (done _ 0))
  · refine Lasting.trans ?_ (done _ 0)
    exact .ite (.refl s) (.of_kept (by simp [State.setResult64_frame]) (by simp [State.setResult64_frame])
      (by simp [State.setResult64_frame]))

theorem State.task_lasting (u s : State) (op : Nat) (modes : List Nat) {f : State → State} (h : Lasting s (f s)) :
    Lasting s (after u (s.task op modes f)) := by
  refine after_answer_lasting (.ite ?_ (.ite ?_ h))
  · exact .of_kept (by simp [State.taskDone_frame]) (by simp [State.taskDone_frame]) (by simp [State.taskDone_frame])
  · exact .of_kept (by simp [State.taskDone_frame, State.setResult_frame])
      (by simp [State.taskDone_frame, State.setResult_frame]) (by simp [State.taskDone_frame, State.setResult_frame])

theorem execMtfRegWrite_lasting (u s : State) (x : Crossing) : Lasting s (after u (execMtfRegWrite x s)) :=
  State.task_lasting u s 4 modesAll
    (f := fun s => s.taskAccess x true fun s => s.writeReg .mtf (s.taskArg 0) (s.taskArg 1) (BitVec.ofNat 64 (s.taskArg64 2)))
    (s.taskAccess_lasting x true (s.writeReg_lasting .mtf _ _ _))

theorem exec_lasting (i : Instr) (u s : State) (reset : i ≠ .chipResetAssert) (loss : i ≠ .coreSupplyLoss) :
    Lasting s (after u (exec i s)) := by
  cases plain : isWriteOrReset i with
  | false => exact exec_lasting_of_plain i u s plain
  | true =>
    cases i with
    | registerWrite src a size v x => exact execRegisterWrite_lasting u s src a size v x
    | stalledWriteApply p island => exact execStalledWriteApply_lasting u s p island
    | mtfRegWrite x => exact execMtfRegWrite_lasting u s x
    | chipResetAssert => exact absurd rfl reset
    | coreSupplyLoss => exact absurd rfl loss
    | _ => exact absurd plain Bool.false_ne_true

/-! ### Resets: the memory is empty, the fuses stay (R462, R502) -/

theorem execChipResetAssert_ram (u s : State) (wf : Memory.wf s.ram = true) :
    Memory.wf (after u (execChipResetAssert s)).ram = true :=
  after_answer_ram_wf wf rfl

theorem State.heldReset_ram (s : State) (wf : Memory.wf s.ram = true) : Memory.wf s.heldReset.ram = true := by
  unfold State.heldReset
  split
  · exact wf
  · rfl

theorem exec_ram_wf (i : Instr) (u s : State) (wf : Memory.wf s.ram = true) :
    Memory.wf (after u (exec i s)).ram = true := by
  by_cases reset : i = .chipResetAssert
  · subst reset
    exact execChipResetAssert_ram u s wf
  by_cases loss : i = .coreSupplyLoss
  · subst loss
    rw [exec_coreSupplyLoss_next]
    exact s.heldReset_ram wf
  exact (exec_lasting i u s reset loss).ram wf

theorem exec_fuses_stay (i : Instr) (u s : State) (bit : Nat) (blown : s.boot.fuses.getLsbD bit = true) :
    (after u (exec i s)).boot.fuses.getLsbD bit = true := by
  have kept : (Ob.writes i).elem .fuses = false → (after u (exec i s)).boot.fuses.getLsbD bit = true := fun unlisted => by
    rw [show (after u (exec i s)).boot.fuses = s.boot.fuses from exec_same u s unlisted]
    exact blown
  by_cases reset : i = .chipResetAssert
  · exact kept (by subst reset; rfl)
  by_cases loss : i = .coreSupplyLoss
  · exact kept (by subst loss; rfl)
  exact (exec_lasting i u s reset loss).fuses bit blown

/-! ### The three obligations -/

/-- A step is the front command on the queue's rest; with an empty queue the block idles. -/
theorem step_of_pending_cons {c : Instr} {rest : List Instr} {s : State} (h : s.pending = c :: rest) :
    step s = exec c (s.withPending rest) := by
  simp [step, h]

theorem step_of_pending_nil {s : State} (h : s.pending = []) : step s = .next s := by
  simp [step, h]

/-- A property that every command keeps is kept by every step, whatever the queue holds. -/
theorem step_induct {P : State → Prop} (queue : ∀ s q, P s → P (s.withPending q)) {s t : State}
    (cmd : ∀ c ∈ s.pending.head?, ∀ v : State, P v → P (after v (exec c v))) (start : P s) (next : step s = .next t) : P t := by
  cases pending : s.pending with
  | nil =>
    rw [step_of_pending_nil pending, Host.Outcome.next.injEq] at next
    exact next ▸ start
  | cons c rest =>
    rw [step_of_pending_cons pending] at next
    have ran := cmd c (by simp [pending]) _ (queue s rest start)
    rwa [next] at ran

/-- Settles O58: memory stays in its one form over every row. -/
theorem memoryKept : Obligations.MemoryKept := fun _ _ wf next =>
  step_induct (P := fun s => Memory.wf s.ram = true) (fun _ _ => id) (fun c _ v => exec_ram_wf c v v) wf next

/-- Settles O59: every row keeps a blown fuse, the resets among them. -/
theorem fuseBitsStay : Obligations.FuseBitsStay := fun _ _ bit next blown =>
  step_induct (P := fun s => s.boot.fuses.getLsbD bit = true) (fun _ _ => id) (fun c _ v => exec_fuses_stay c v v bit)
    blown next

/-- Settles O60: the two resets alone end a freeze. -/
theorem freezeEndsInReset : Obligations.FreezeEndsInReset := by
  refine ⟨fun s t frozen noReset noLoss next => ?_, fun s high => ⟨_, exec_chipResetAssert_next s high, rfl, rfl⟩⟩
  refine step_induct (P := fun s => s.pins.frozen = true) (fun _ _ => id) (fun c front v => ?_) frozen next
  refine (exec_lasting c v v ?_ ?_).frozen
  · rintro rfl
    exact noReset front
  · rintro rfl
    exact noLoss front

end Sys2Proof.Machine

/-! ## The state after power-on, and the front of the queue (log entries 5, 10) -/

namespace Sys2Proof.Machine

open Sys2Proof Sys2Proof.Laws

/-- Settles O55: the reset state lists no register, no event and no byte, so each reads its default. -/
theorem resetState : Obligations.ResetState :=
  ⟨rfl, rfl, rfl, rfl, rfl, fun _ => rfl, fun _ _ => rfl, rfl, rfl, rfl, rfl, rfl, rfl, rfl, rfl⟩

/-- Settles O56: a step is the front command on the queue's rest, and no word spells a command. -/
theorem stepRunsFront : Obligations.StepRunsFront :=
  ⟨fun _ _ _ => step_of_pending_cons, fun _ => step_of_pending_nil, fun _ _ _ => rfl⟩

end Sys2Proof.Machine

/-! ## Doorbells (R45, R77 to R79) -/

namespace Sys2Proof.Machine

open Sys2Proof Sys2Proof.Laws

/-! ### Commands that are answered, and what an event shows afterwards -/

/-- A command whose guard holds answers the state that it makes. -/
theorem answer_of {p : Bool} (h : p = true) (s t : State) : answer p s t = .next t := by
  simp [answer, h]

theorem State.reg_congr {s t : State} (h : t.regs = s.regs) (a : Nat) : t.reg a = s.reg a := by
  simp [State.reg, h]

theorem State.fld_congr {s t : State} (h : t.regs = s.regs) (a : Nat) (f : Fld) : t.fld a f = s.fld a f := by
  simp [State.fld, State.reg_congr h]

theorem State.statOf_congr {s t : State} (h : t.stat = s.stat) (a : Nat) : t.statOf a = s.statOf a := by
  simp [State.statOf, h]

theorem State.statOf_raiseFn (s : State) (fk b x : Nat) :
    (s.raiseFn fk b).statOf x = if x = Reg.EVT_FSTAT fk then (s.statOf (Reg.EVT_FSTAT fk)).event b else s.statOf x := by
  rw [← s.statOf_setStat (Reg.EVT_FSTAT fk) x]
  unfold State.raiseFn
  dsimp only
  split
  · exact State.statOf_congr (by simp [State.message_frame]) x
  · rfl

theorem State.statOf_raiseFn_isSet (s : State) (fk b : Nat) :
    ((s.raiseFn fk b).statOf (Reg.EVT_FSTAT fk)).isSet b = true := by
  simp [State.statOf_raiseFn, StatReg.isSet_event]

theorem State.reg_raiseFn (s : State) (fk b a : Nat) : (s.raiseFn fk b).reg a = s.reg a :=
  State.reg_congr (by simp [State.raiseFn_frame]) a

/-! ### A doorbell by the ring that it names -/

theorem doorbellSizeOk_zero {size : Nat} (h : size = 4 ∨ size = 8) : doorbellSizeOk 0 size = true := by
  simp [doorbellSizeOk, or_comm.mp h]

section
variable {s : State} {f : Fn} {off size ring byte : Nat} (v : DWord) (answers : s.fnAnswers f = true)
include answers

theorem State.doorbell_sq {r : SubRing} (slot : doorbellSlot f off = some (false, ring, 0)) (size4or8 : size = 4 ∨ size = 8)
    (exists' : s.cmds.sqs.look (ringKey f.key ring) = some r) :
    s.doorbell false f off size v = s.sqBell f.key ring r (doorbellValue size v) := by
  simp [State.doorbell, answers, slot, doorbellSizeOk_zero size4or8, exists']

theorem State.doorbell_cq {q : CplRing} (slot : doorbellSlot f off = some (true, ring, 0)) (size4or8 : size = 4 ∨ size = 8)
    (exists' : s.cmds.cqs.look (ringKey f.key ring) = some q) :
    s.doorbell true f off size v = s.cqBell f.key ring q (doorbellValue size v) := by
  simp [State.doorbell, answers, slot, doorbellSizeOk_zero size4or8, exists']

/-- R45: a doorbell of another size, or of no ring, is counted. -/
theorem State.doorbell_dropped {cpl : Bool} (slot : doorbellSlot f off = some (cpl, ring, byte))
    (bad : doorbellSizeOk byte size = false ∨
      (if cpl then (s.cmds.cqs.look (ringKey f.key ring)).isNone else (s.cmds.sqs.look (ringKey f.key ring)).isNone) = true) :
    s.doorbell cpl f off size v = s.count (Reg.HST_DBDROP f.port.num) 1 := by
  cases ok : doorbellSizeOk byte size with
  | false => simp [State.doorbell, answers, slot, ok, State.dropDoorbell]
  | true =>
    cases cpl <;> simp [ok] at bad <;> simp [State.doorbell, answers, slot, ok, bad, State.dropDoorbell]

end

/-! ### Ring faults (R78, R79) -/

/-- A recorded fault stands in CCP_RINGERR and in the function's events, and changes no ring. -/
theorem State.recordRingFault_shows (s : State) (fk : Nat) (cplKind : Bool) (ring cause : Nat) :
    (s.recordRingFault fk cplKind ring cause).cmds = s.cmds ∧
      (s.recordRingFault fk cplKind ring cause).reg (Reg.CCP_RINGERR fk) =
        ringErrValue (s.reg (Reg.CCP_RINGERR fk)) cplKind ring cause ∧
      ((s.recordRingFault fk cplKind ring cause).statOf (Reg.EVT_FSTAT fk)).isSet 0 = true := by
  refine ⟨by simp [State.recordRingFault_frame], ?_, State.statOf_raiseFn_isSet _ fk 0⟩
  exact (State.reg_raiseFn _ fk 0 _).trans (reg_setReg_self s _ _)

theorem State.faultSq_of_look {s : State} {fk ring : Nat} {r : SubRing} (h : s.cmds.sqs.look (ringKey fk ring) = some r)
    (cause : Nat) :
    s.faultSq fk ring cause = (s.setSq (ringKey fk ring) { r with faulted := true }).recordRingFault fk false ring cause := by
  simp [State.faultSq, h]

theorem State.faultCq_of_look {s : State} {fk ring : Nat} {q : CplRing} (h : s.cmds.cqs.look (ringKey fk ring) = some q)
    (cause : Nat) :
    s.faultCq fk ring cause = (s.setCq (ringKey fk ring) { q with faulted := true }).recordRingFault fk true ring cause := by
  simp [State.faultCq, h]

/-! ### What a bell does to its ring -/

theorem State.sqBell_taken (s : State) (fk ring : Nat) {r : SubRing} {v : Nat} (faulted : r.faulted = false)
    (stopped : r.stopped = false) (inside : v < r.size) :
    s.sqBell fk ring r v = s.setSq (ringKey fk ring)
      { r with
        tail := v, rung := r.rung + (v + r.size - r.tail) % r.size
        bells := r.bells ++ [{ upTo := r.rung + (v + r.size - r.tail) % r.size, notes := s.bellNotes fk }] } := by
  simp [State.sqBell, faulted, stopped, Nat.not_le.mpr inside]

theorem State.sqBell_outside (s : State) (fk ring : Nat) {r : SubRing} {v : Nat} (faulted : r.faulted = false)
    (stopped : r.stopped = false) (outside : r.size ≤ v) : s.sqBell fk ring r v = s.faultSq fk ring 1 := by
  simp [State.sqBell, faulted, stopped, outside]

theorem State.cqBell_taken (s : State) (fk ring : Nat) {q : CplRing} {v : Nat} (faulted : q.faulted = false)
    (inside : v < q.size) (posted : (v + q.size - q.head) % q.size ≤ (q.tail + q.size - q.head) % q.size) :
    s.cqBell fk ring q v = s.setCq (ringKey fk ring) { q with head := v } := by
  simp [State.cqBell, faulted, Nat.not_le.mpr inside, Nat.not_lt.mpr posted]

theorem State.cqBell_refused (s : State) (fk ring : Nat) {q : CplRing} {v : Nat} (faulted : q.faulted = false)
    (bad : q.size ≤ v ∨ (q.tail + q.size - q.head) % q.size < (v + q.size - q.head) % q.size) :
    s.cqBell fk ring q v = s.faultCq fk ring (if q.size ≤ v then 1 else 2) := by
  by_cases outside : q.size ≤ v
  · simp [State.cqBell, faulted, outside]
  · simp [State.cqBell, faulted, outside, bad.resolve_left outside]

theorem doorbellTaken : Ob.DoorbellTaken := by
  refine ⟨fun f off size ring v s r up answers slot sz ringThere faulted stopped inside => ?_,
    fun f off size ring v s q up answers slot sz ringThere faulted inside posted => ?_⟩
  · exact (answer_of up _ _).trans
      (congrArg _ ((State.doorbell_sq v answers slot sz ringThere).trans (s.sqBell_taken _ _ faulted stopped inside)))
  · exact (answer_of up _ _).trans
      (congrArg _ ((State.doorbell_cq v answers slot sz ringThere).trans (s.cqBell_taken _ _ faulted inside posted)))

theorem doorbellRefused : Ob.DoorbellRefused := by
  refine ⟨fun f off size ring v s r up answers slot sz ringThere faulted stopped outside => ?sq,
    fun f off size ring v s q up answers slot sz ringThere faulted bad => ?cq,
    fun f off size ring byte v s up answers slot bad => ?sqDropped,
    fun f off size ring byte v s up answers slot bad => ?cqDropped⟩
  case sq =>
    refine ⟨_, answer_of up _ _, ?_⟩
    rw [State.doorbell_sq v answers slot sz ringThere, s.sqBell_outside _ _ faulted stopped outside,
      State.faultSq_of_look ringThere]
    exact State.recordRingFault_shows _ _ _ _ _
  case cq =>
    refine ⟨_, answer_of up _ _, ?_⟩
    rw [State.doorbell_cq v answers slot sz ringThere, s.cqBell_refused _ _ faulted bad, State.faultCq_of_look ringThere]
    exact State.recordRingFault_shows _ _ _ _ _
  case sqDropped =>
    exact (answer_of up _ _).trans (congrArg _ (State.doorbell_dropped v answers slot (by simpa using bad)))
  case cqDropped =>
    exact (answer_of up _ _).trans (congrArg _ (State.doorbell_dropped v answers slot (by simpa using bad)))

/-- Settles O1: by the ring that the doorbell names, and by where its value lies in the ring. -/
theorem doorbells : Obligations.Doorbells := ⟨doorbellTaken, doorbellRefused⟩

end Sys2Proof.Machine

/-! ## Packet fetch (R76, R217, R452) -/

namespace Sys2Proof.Machine

open Sys2Proof Sys2Proof.Laws

theorem State.portOf_setPort_self (s : State) (p : Port) (x : PortState) : (s.setPort p x).portOf p = x := by
  simp [State.portOf, State.setPort, look_put_self]

/-- The ring that a round visits next is one that it does not skip. -/
theorem State.fetchable_of_nextRing {s : State} {p : Port} {k : Nat} {r : SubRing} (h : s.nextRing p = some (k, r)) :
    s.fetchable p k r = true := by
  have listed : (k, r) ∈ s.cmds.sqs.filter fun e => s.fetchable p e.1 e.2 := by
    simp only [State.nextRing] at h
    split at h
    next e found =>
      rw [← Option.some.inj h]
      exact List.mem_of_find?_eq_some found
    next => exact List.mem_of_head? h
  exact (List.mem_filter.mp listed).2

/-- A ring that a round does not skip has a packet to fetch, and the N9 has room for it. -/
theorem State.room_of_fetchable {s : State} {p : Port} {k : Nat} {r : SubRing} (h : s.fetchable p k r = true) :
    r.fetched < r.rung ∧ s.cmds.inflight.length < inflightMax ∧ s.intakeFill r.home < intakeQueue := by
  simp only [State.fetchable, Bool.and_eq_true, decide_eq_true_eq] at h
  obtain ⟨⟨⟨⟨⟨⟨⟨⟨-, unfetched⟩, -⟩, -⟩, -⟩, -⟩, flight⟩, intake⟩, -⟩ := h
  exact ⟨unfetched, flight, intake⟩

/-- A visit that is offered one packet takes it when there is room. -/
theorem State.visitCount_one {s : State} {k : Nat} {r : SubRing} (share : k % 65536 = 0 ∨ 0 < r.weight)
    (unfetched : r.fetched < r.rung) (flight : s.cmds.inflight.length < inflightMax)
    (intake : s.intakeFill r.home < intakeQueue) : s.visitCount k r 1 = 1 := by
  unfold State.visitCount
  split <;> omega

theorem execPacketFetch_of_nextRing {s : State} {p : Port} {k : Nat} {r : SubRing} (packets : List (BitVec 512))
    (serving : s.serving = true) (port : (s.portOf p).inReset = false) (next : s.nextRing p = some (k, r)) :
    execPacketFetch p packets s = .next
      (let u := s.setPort p { s.portOf p with lastRing := k + 1 }
       if packets.isEmpty then u.takeTag p (.packet (Fn.ofKey (k / 65536)) (k % 65536))
       else u.takePackets k (packets.take (s.visitCount k r packets.length))) := by
  unfold execPacketFetch
  rw [next]
  exact answer_of (by simp [serving, port]) _ _

/-- A packet of a known opcode goes into flight, and the ring goes on by one. -/
theorem State.takePacket_of_known (s : State) (k : Nat) (r : SubRing) {pk : BitVec 512} (known : opKnown (pkOpcode pk) = true) :
    s.takePacket k r pk =
      (s.setSq k { r with
        head := (r.head + 1) % r.size, fetched := r.fetched + 1
        bells := r.bells.filter fun b => decide (r.fetched + 1 < b.upTo) }).setCmd (s.cmds.inflight.firstFree 0)
          (fetchedCmd (Fn.ofKey (k / 65536)) (k % 65536) r.cls r.fetched (notesFor r.bells r.fetched) pk) := by
  simp [State.takePacket, known]

/-- Settles O2: the ring visited has a packet and room, so the one packet offered is taken. -/
theorem packetFetched : Obligations.PacketFetched := by
  refine ⟨fun p s k r serving port next => ?request, fun p s k r pk serving port next ringThere share known => ?packet⟩
  case request =>
    refine ⟨_, execPacketFetch_of_nextRing [] serving port next, rfl, ?_, ?_⟩ <;>
      simp [State.takeTag, State.portOf_setPort_self, PortState.freeTag]
  case packet =>
    obtain ⟨unfetched, flight, intake⟩ := State.room_of_fetchable (State.fetchable_of_nextRing next)
    refine ⟨_, execPacketFetch_of_nextRing [pk] serving port next, ?_⟩
    have taken : [pk].take (s.visitCount k r [pk].length) = [pk] := by
      rw [List.length_singleton, State.visitCount_one share unfetched flight intake]
      rfl
    rw [taken, List.isEmpty_cons, if_neg Bool.false_ne_true]
    simp [State.takePackets, State.setPort_frame, ringThere, unfetched, State.takePacket_of_known _ _ _ known,
      State.setCmd, State.setSq]

end Sys2Proof.Machine

/-! ## Armings, acknowledgements and event stamps (R49, R55, R56, R58) -/

namespace Sys2Proof.Machine

open Sys2Proof Sys2Proof.Laws

/-! ### The key value arms (R49) -/

theorem State.writeKey_of_eq (s : State) (src : Source) (w : Nat) (v : Half) (h : keyOf w = some v) :
    s.writeKey src w v = { s with armed := if s.armed.contains (src, w) then s.armed else (src, w) :: s.armed } := by
  simp [State.writeKey, State.writeKeyAt, h]

/-- An arming that stands already is not listed a second time, so membership alone tells. -/
theorem contains_arm {α : Type} [BEq α] [LawfulBEq α] (l : List α) (x y : α) :
    (if l.contains x then l else x :: l).contains y = (y == x || l.contains y) := by
  split
  next listed =>
    by_cases same : y = x
    · subst same
      simpa using listed
    · simp [same]
  next => simp

theorem keyArms : Ob.KeyArms := by
  intro src window v s up low high served key
  refine ⟨_, exec_blockKeyWrite_served src window v s up low high served, ?_⟩
  rw [State.writeKey_of_eq s src window v key]
  refine ⟨?_, rfl, fun src' w' other => ?_⟩
  · simp only [State.isArmed, contains_arm, beq_self_eq_true, Bool.true_or]
  · simp only [State.isArmed, contains_arm, beq_false_of_ne other, Bool.false_or]

/-! ### Acknowledgements (R56) -/

theorem exec_statAckWrite_served {src : Source} {reg : Nat} (a : Half) {s : State} (up : s.up = true)
    (status : isStatReg (resolve src reg) = true) (served : s.judge src reg 8 true = .served) :
    exec (.statAckWrite src reg a) s = .next (s.writeAck (resolve src reg) a) :=
  answer_of (by simp [up, status, served]) _ _

theorem State.signalSet_stat (s : State) (sa : Nat) (only : DWord) : (s.signalSet sa only).stat = s.stat := by
  simp [State.signalSet_frame]

theorem State.statOf_writeAck {s : State} {sa : Nat} {a : Half} (covered : (s.statOf sa).ackAhead a = false) :
    (s.writeAck sa a).statOf sa = (s.statOf sa).ack a := by
  simp only [State.writeAck, covered, Bool.false_eq_true, ↓reduceIte]
  rw [State.statOf_congr (State.signalSet_stat _ _ _), State.statOf_setStat, if_pos rfl]

theorem State.writeAck_ahead {s : State} {sa : Nat} {a : Half} (ahead : (s.statOf sa).ackAhead a = true)
    (block : sa < 0x1_0000_0000) : s.writeAck sa a = s.raiseAt sa (statEvten sa) 2 := by
  simp [State.writeAck, ahead, Nat.not_le.mpr block]

theorem ackClears : Ob.AckClears := by
  refine ⟨fun src reg a s up status served covered => ?cleared, fun src reg a s up status served ahead block => ?rejected⟩
  case cleared =>
    refine ⟨_, exec_statAckWrite_served a up status served, ?_, ?_, fun b x => ?_⟩
    · simp [State.writeAck_frame]
    · simp [State.writeAck_frame]
    · simp [State.statOf_writeAck covered, StatReg.ack]
  case rejected =>
    refine ⟨_, exec_statAckWrite_served a up status served, ?_, ?_, ?_, fun b set => ?_⟩
    · simp [State.writeAck_frame]
    · simp [State.writeAck_frame]
    · simp [State.writeAck_ahead ahead block, State.statOf_raiseAt, StatReg.isSet_event]
    · simp [State.writeAck_ahead ahead block, State.statOf_raiseAt, StatReg.isSet_event, set]

/-! ### Stamps (R55, R58) -/

theorem ageStamp_self (seq : Half) : ageStamp seq seq = seq := by
  simp [ageStamp]

/-- Ageing leaves no stamp more than 32,767 behind. -/
theorem ageStamp_near (seq stamp : Half) : (seq - ageStamp seq stamp).toNat ≤ 32767 := by
  unfold ageStamp
  split
  · rw [show seq - (seq - 32767) = 32767 by bv_omega]
    decide
  · omega

theorem eventStamps : Ob.EventStamps := by
  intro r b
  refine ⟨rfl, ?_, fun c other => ?_, fun e listed => ?_⟩
  · simp [StatReg.event, look_map_val, look_put_self, ageStamp_self]
  · simp [StatReg.isSet_event, other]
  · obtain ⟨x, -, rfl⟩ := List.mem_map.mp listed
    exact ageStamp_near _ _

/-- Settles O5: the key value, the acknowledgement and the event, each by the one table entry that it changes. -/
theorem keysAndEvents : Obligations.KeysAndEvents := ⟨keyArms, ackClears, eventStamps⟩

end Sys2Proof.Machine

/-! ## Register writes and their waiting (R12, R13, R49, R51, R64, R66, R67) -/

namespace Sys2Proof.Machine

open Sys2Proof Sys2Proof.Laws

/-! ### A write on its way (R13, R66, R67) -/

theorem State.access_served {s : State} {src : Source} {a size : Nat} (h : s.judge src a size true = .served)
    (f : State → State) : s.access src a size f = f s := by
  simp [State.access, h]

theorem execRegisterWrite_served {src : Source} {a size : Nat} (v : DWord) (x : Crossing) {s : State} (up : s.up = true)
    (inside : a < 0x2_0000_0000) (reaches : s.sourceReaches src a = true) (served : s.judge src a size true = .served) :
    exec (.registerWrite src a size v x) s = .next
      (if crosses src a && s.mustWait src a x then
        { s with posted := s.posted ++
          [{ src := src, island := islandOf (resolve src a) src.port, addr := a, size := size, value := v }] }
       else s.writeReg src a size v) := by
  change execRegisterWrite src a size v x s = _
  simp only [execRegisterWrite, up, reaches, State.access_served served, decide_eq_false (Nat.not_le.mpr inside),
    Bool.not_true, Bool.or_self, Bool.false_eq_true, ↓reduceIte]

theorem exec_stalledWriteApply_one {p : Port} {island : Nat} {s : State} {q : PostedWrite} (up : s.up = true)
    (answers : s.isIsolated island = false) (late : s.late = [q]) (posted : s.posted = []) (src : q.src = .pf p)
    (target : q.island = island) :
    exec (.stalledWriteApply p island) s = .next (State.writeReg { s with late := [] } (.pf p) q.addr q.size q.value) := by
  have queues : ({ s with late := [], posted := [] } : State) = { s with late := [] } :=
    congrArg (fun l => { s with late := [], posted := l }) posted.symm
  refine (answer_of up _ _).trans (congrArg _ ?_)
  simp [answers, late, posted, src, target, queues]

theorem registerWriteReaches : Ob.RegisterWriteReaches := by
  refine ⟨fun src a size v x s up inside reaches served direct => ?_, fun src a size v x s up inside reaches served cross wait => ?_,
    fun p island s q => exec_stalledWriteApply_one, fun p island s up isolated => ?_⟩
  · rw [execRegisterWrite_served v x up inside reaches served, if_neg]
    rcases direct with h | h <;> simp [h]
  · rw [execRegisterWrite_served v x up inside reaches served, if_pos (by simp [cross, wait])]
  · exact (answer_of up _ _).trans (by simp [isolated])

/-! ### The fields of one register (R12, R49, R51) -/

/-- Clearing no bit of a mask leaves it. -/
theorem and_not_zero (x : DWord) : x &&& ~~~0 = x := by
  rw [show ~~~(0 : DWord) = BitVec.allOnes 64 from rfl, BitVec.and_allOnes]

theorem dword_or_zero (x : DWord) : x ||| 0 = x := BitVec.or_zero

section
variable {s : State} (src : Source) {row : RegRow} {base : Nat} {wm : DWord} (v : DWord)
  (free : s.heldByEnable row base = false) (level : s.debugLevel ≠ 2) (noOwn : ownStep row = 0)
  (noAfter : ∀ (t : State) (m old : DWord), t.afterWrite row base m old = t)
  (noRule : ∀ (m w : DWord), s.writeRule row base m w = (0, none)) (keyed : row.maskOf .rwk &&& wm ≠ 0)
include free level noOwn noAfter noRule keyed

/-- R51: without an arming the keyed fields stay, and the write is noted. -/
theorem State.writeFields_unarmed (unarmed : s.isArmed src (windowOf base) = false) :
    s.writeFields src row base wm v = (s.raiseHdr src (windowOf base) 1).setReg base
      ((s.reg base &&& ~~~(wm &&& row.maskOf .rw)) ||| (v &&& (wm &&& row.maskOf .rw))) := by
  simp only [State.writeFields, free, level, noOwn, noAfter, noRule, and_not_zero, keyed, unarmed, Bool.false_and,
    Bool.not_false, Bool.false_eq_true, ↓reduceIte, dword_or_zero]

/-- R49: with an arming, where the guard lock holds nothing, plain and keyed fields take the value. -/
theorem State.writeFields_armed (armed : s.isArmed src (windowOf base) = true)
    (unlocked : s.guardLocked = false ∨ windowOf base < 19 ∨ 21 < windowOf base) :
    s.writeFields src row base wm v = (s.disarm src (windowOf base)).setReg base
      ((s.reg base &&& ~~~(wm &&& (row.maskOf .rw ||| (row.maskOf .rwk &&& wm)))) |||
        (v &&& (wm &&& (row.maskOf .rw ||| (row.maskOf .rwk &&& wm))))) := by
  have takes : (s.guardLocked && decide (19 ≤ windowOf base ∧ windowOf base ≤ 21)) = false := by
    rcases unlocked with h | h
    · simp [h]
    · simp only [Bool.and_eq_false_iff, decide_eq_false_iff_not]
      omega
  simp only [State.writeFields, free, level, noOwn, noAfter, noRule, and_not_zero, keyed, armed, takes, Bool.not_false,
    Bool.and_self, Bool.not_true, Bool.false_eq_true, ↓reduceIte, dword_or_zero]

end

theorem fieldsTakeWrites : Ob.FieldsTakeWrites := by
  intro s src row base wm v free level noOwn noAfter noRule keyed
  refine ⟨fun unarmed => ?_, fun armed unlocked => ?_⟩
  · rw [State.writeFields_unarmed src v free level noOwn noAfter noRule keyed unarmed]
    exact ⟨reg_setReg_self _ _ _, State.statOf_raiseHdr_isSet s src _ 1⟩
  · rw [State.writeFields_armed src v free level noOwn noAfter noRule keyed armed unlocked]
    exact ⟨reg_setReg_self _ _ _, State.isArmed_disarm_self s src _⟩

/-- Settles O6: the write reaches its register or waits, and its fields take it by their access and the arming. -/
theorem registerWrites : Obligations.RegisterWrites := ⟨registerWriteReaches, fieldsTakeWrites⟩

end Sys2Proof.Machine

/-! ## Accesses without an answer, and refused ones (R46, R64 to R69) -/

namespace Sys2Proof.Machine

open Sys2Proof Sys2Proof.Laws

/-! ### Fields of a value that is put together from parts -/

theorem Fld.get_or (f : Fld) (x y : DWord) : f.get (x ||| y) = f.get x ||| f.get y := by
  refine Nat.eq_of_testBit_eq fun i => ?_
  simp only [Nat.testBit_or, Fld.testBit_get, BitVec.getLsbD_or, Bool.and_or_distrib_left]

/-- A number shifted to where a field begins, and short enough for it, is what the field reads. -/
theorem Fld.get_shl_self (f : Fld) {n k : Nat} (start : k = f.lo) (order : f.lo ≤ f.hi) (inside : f.hi < 64)
    (short : n < 2 ^ (f.hi - f.lo + 1)) : f.get (BitVec.ofNat 64 n <<< k) = n := by
  subst start
  refine Nat.eq_of_testBit_eq fun i => ?_
  by_cases low : i < f.hi - f.lo + 1
  · have bit : f.lo + i < 64 := by omega
    have number : i < 64 := by omega
    rw [Fld.testBit_get, BitVec.getLsbD_shiftLeft, Nat.add_sub_cancel_left, BitVec.getLsbD_ofNat]
    simp only [low, bit, number, decide_true, Bool.true_and, Nat.not_lt.mpr (Nat.le_add_right f.lo i), decide_false,
      Bool.not_false]
  · have high : n.testBit i = false :=
      Nat.testBit_lt_two_pow (short.trans_le (Nat.pow_le_pow_right (by decide) (Nat.le_of_not_lt low)))
    simp [Fld.testBit_get, low, high]

/-- A number that stands wholly outside a field does not show in it. -/
theorem Fld.get_shl_of_apart (f : Fld) {n k m : Nat} (short : n < 2 ^ m) (apart : k + m ≤ f.lo ∨ f.hi < k)
    (order : f.lo ≤ f.hi) : f.get (BitVec.ofNat 64 n <<< k) = 0 := by
  refine Nat.eq_of_testBit_eq fun i => ?_
  have above : ¬ f.lo + i < k → i < f.hi - f.lo + 1 → n.testBit (f.lo + i - k) = false := fun beyond low =>
    Nat.testBit_lt_two_pow (short.trans_le (Nat.pow_le_pow_right (by decide) (by omega)))
  simp only [Fld.testBit_get, BitVec.getLsbD_shiftLeft, BitVec.getLsbD_ofNat, Nat.zero_testBit, Bool.and_eq_false_iff,
    decide_eq_false_iff_not, Bool.not_eq_eq_eq_not, Bool.not_false, decide_eq_true_eq]
  by_cases low : i < f.hi - f.lo + 1
  · by_cases beyond : f.lo + i < k
    · exact .inr (.inl (.inr beyond))
    · exact .inr (.inr (.inr (above beyond low)))
  · exact .inl low

/-! ### The port's record of its last error (R69) -/

/-- The value that HST_REGERR takes: the stamp, the cause, the direction and the offset of the access. -/
def regErrValue (seq : Half) (cause : Nat) (write : Bool) (offset : Nat) : DWord :=
  (BitVec.ofNat 64 seq.toNat <<< 48) ||| (BitVec.ofNat 64 (cause % 16) <<< 44) |||
    (if write then (1 : DWord) <<< 43 else 0) ||| BitVec.ofNat 64 (offset % 2 ^ 26)

theorem regErrValue_eq (seq : Half) (cause : Nat) (write : Bool) (offset : Nat) :
    regErrValue seq cause write offset = (BitVec.ofNat 64 seq.toNat <<< 48) ||| (BitVec.ofNat 64 (cause % 16) <<< 44) |||
      (BitVec.ofNat 64 write.toNat <<< 43) ||| (BitVec.ofNat 64 (offset % 2 ^ 26) <<< 0) := by
  cases write <;> simp [regErrValue]

theorem regErrValue_fields (seq : Half) (cause : Nat) (write : Bool) (offset : Nat) :
    Reg.HST_REGERR_.CAUSE.get (regErrValue seq cause write offset) = cause % 16 ∧
      Reg.HST_REGERR_.DIR.get (regErrValue seq cause write offset) = write.toNat ∧
      Reg.HST_REGERR_.OFFSET.get (regErrValue seq cause write offset) = offset % 2 ^ 26 := by
  have cause16 : cause % 16 < 2 ^ 4 := Nat.mod_lt _ (by decide)
  have dir : write.toNat < 2 ^ 1 := Bool.toNat_lt write
  have off : offset % 2 ^ 26 < 2 ^ 26 := Nat.mod_lt _ (by decide)
  simp only [regErrValue_eq, Fld.get_or]
  refine ⟨?_, ?_, ?_⟩
  · rw [Fld.get_shl_of_apart _ (n := seq.toNat) seq.isLt (.inr (by decide)) (by decide),
      Fld.get_shl_self Reg.HST_REGERR_.CAUSE (k := 44) rfl (by decide) (by decide) cause16,
      Fld.get_shl_of_apart _ dir (.inl (by decide)) (by decide), Fld.get_shl_of_apart _ off (.inl (by decide)) (by decide)]
    simp
  · rw [Fld.get_shl_of_apart _ (n := seq.toNat) seq.isLt (.inr (by decide)) (by decide),
      Fld.get_shl_of_apart _ cause16 (.inr (by decide)) (by decide),
      Fld.get_shl_self Reg.HST_REGERR_.DIR (k := 43) rfl (by decide) (by decide) dir, Fld.get_shl_of_apart _ off (.inl (by decide)) (by decide)]
    simp
  · rw [Fld.get_shl_of_apart _ (n := seq.toNat) seq.isLt (.inr (by decide)) (by decide),
      Fld.get_shl_of_apart _ cause16 (.inr (by decide)) (by decide), Fld.get_shl_of_apart _ dir (.inr (by decide)) (by decide),
      Fld.get_shl_self Reg.HST_REGERR_.OFFSET (k := 0) rfl (by decide) (by decide) off]
    simp

theorem regErr_ne_count (p : Port) : Reg.HST_REGERR p.num ≠ Reg.HST_REGERRCNT p.num := by
  cases p <;> decide

/-- The last error and the count that a refused access leaves. -/
theorem State.regError_shows (s : State) (p : Port) (cause : Nat) (write : Bool) (offset : Nat) :
    (s.regError p cause write offset).fld (Reg.HST_REGERR p.num) Reg.HST_REGERR_.CAUSE = cause % 16 ∧
      (s.regError p cause write offset).fld (Reg.HST_REGERR p.num) Reg.HST_REGERR_.DIR = write.toNat ∧
      (s.regError p cause write offset).fld (Reg.HST_REGERR p.num) Reg.HST_REGERR_.OFFSET = offset % 2 ^ 26 ∧
      (s.regError p cause write offset).reg (Reg.HST_REGERRCNT p.num) =
        counterAdd (s.reg (Reg.HST_REGERRCNT p.num)) 1 := by
  have value : (s.regError p cause write offset).reg (Reg.HST_REGERR p.num) =
      regErrValue (s.statOf (hstStat p)).seq cause write offset := by
    simp [State.regError, State.count, reg_setReg, regErr_ne_count, regErrValue]
  refine ⟨?_, ?_, ?_, ?_⟩
  · exact (congrArg _ value).trans (regErrValue_fields _ _ _ _).1
  · exact (congrArg _ value).trans (regErrValue_fields _ _ _ _).2.1
  · exact (congrArg _ value).trans (regErrValue_fields _ _ _ _).2.2
  · simp [State.regError, State.count, reg_setReg, (regErr_ne_count p).symm]

/-! ### What an unanswered access leaves besides (R68) -/

theorem State.reg_raise (s : State) (w b a : Nat) : (s.raise w b).reg a = s.reg a :=
  State.reg_congr (by simp [State.raise_frame]) a

theorem State.reg_emit (s : State) (o : Out) (a : Nat) : (s.emit o).reg a = s.reg a := rfl

/-- A log entry touches the stamp counter and the count of overwritten entries alone. -/
theorem State.reg_record (s : State) (window unit kind detail : Nat) (data : List Byte) {a : Nat}
    (stamp : a ≠ Reg.MOD_DSEQ) (overwritten : a ≠ Reg.EVT_OVERWRITTEN) :
    (s.record window unit kind detail data).reg a = s.reg a := by
  have stamped : (s.takeStamps 1).reg a = s.reg a := by simp [State.takeStamps, reg_setReg, stamp]
  have changed : ∀ (n : Nat) (l : List LogEntry), State.reg { s.takeStamps 1 with free := n, evlog := l } a = s.reg a :=
    fun _ _ => stamped
  unfold State.record
  dsimp only
  split
  · rfl
  split
  · exact changed _ _
  · rw [State.count, reg_setReg, if_neg overwritten]
    split
    · rw [State.reg_raise]
      exact changed _ _
    · exact changed _ _

theorem State.reg_accessError (s : State) (src : Source) (a : Nat) {x : Nat} (stamp : x ≠ Reg.MOD_DSEQ)
    (overwritten : x ≠ Reg.EVT_OVERWRITTEN) : (s.accessError src a).reg x = s.reg x := by
  unfold State.accessError
  dsimp only
  rw [State.reg_record _ _ _ _ _ _ stamp overwritten]
  split
  · exact State.reg_raiseHdr _ _ _ _ _
  · rfl

/-- The state in which a port's record is made: with the block's event and the log entry, for the causes that have them. -/
def State.afterAccessError (s : State) (src : Source) (a cause : Nat) : State :=
  if cause = 1 ∨ cause = 2 then s.accessError src a else s

theorem State.errorResponse_pf (s : State) (p : Port) (a size cause : Nat) (write : Bool) :
    s.errorResponse (.pf p) a size cause write =
      (let u := (s.afterAccessError (.pf p) a cause).regError p cause write a
       if write then u else u.emit (.allOnes p a size)) := rfl

theorem State.reg_afterAccessError (s : State) (src : Source) (a cause : Nat) (p : Port) :
    (s.afterAccessError src a cause).reg (Reg.HST_REGERRCNT p.num) = s.reg (Reg.HST_REGERRCNT p.num) := by
  unfold State.afterAccessError
  split
  · exact State.reg_accessError s src a (by cases p <;> decide) (by cases p <;> decide)
  · rfl

/-- R46, R65: the record, the count and the all ones that a BAR0 access without effect leaves. -/
theorem State.errorResponse_pf_shows (s : State) (p : Port) (a size cause : Nat) (write : Bool) :
    (s.errorResponse (.pf p) a size cause write).fld (Reg.HST_REGERR p.num) Reg.HST_REGERR_.CAUSE = cause % 16 ∧
      (s.errorResponse (.pf p) a size cause write).fld (Reg.HST_REGERR p.num) Reg.HST_REGERR_.DIR = write.toNat ∧
      (s.errorResponse (.pf p) a size cause write).fld (Reg.HST_REGERR p.num) Reg.HST_REGERR_.OFFSET = a % 2 ^ 26 ∧
      (s.errorResponse (.pf p) a size cause write).reg (Reg.HST_REGERRCNT p.num) =
        counterAdd (s.reg (Reg.HST_REGERRCNT p.num)) 1 := by
  rw [State.errorResponse_pf, ← State.reg_afterAccessError s (.pf p) a cause p]
  cases write <;> exact State.regError_shows _ p cause _ a

theorem State.allOnes_errorResponse (s : State) (p : Port) (a size cause : Nat) :
    Out.allOnes p a size ∈ (s.errorResponse (.pf p) a size cause false).out := by
  simp [State.errorResponse_pf, State.emit]

/-- Settles O7: each access without an answer ends in the error response of its source. -/
theorem accessErrors : Obligations.AccessErrors := by
  refine ⟨fun p a s up => ?read, fun c a s up => ?core, fun p a s q up posted addr src island => ?write,
    fun p a size cause s up answers refused small => ?refused⟩
  case read =>
    obtain ⟨cause, dir, -, count⟩ := s.errorResponse_pf_shows p a 4 1 false
    exact ⟨_, answer_of up _ _, s.allOnes_errorResponse p a 4 1, cause, dir, count, by simp [State.errorResponse_frame],
      by simp [State.errorResponse_frame]⟩
  case core =>
    refine ⟨_, answer_of up _ _, ?_⟩
    simp [State.errorResponse, State.emit]
  case write =>
    have waits : exec (.registerAccessTimeout (.pf p) a true) s =
        .next ({ s with posted := [], late := s.late ++ [q] }.errorResponse (.pf p) a q.size 1 true) := by
      change execRegisterAccessTimeout (.pf p) a true s = _
      simp [execRegisterAccessTimeout, State.postedTo, posted, addr, src, island, Source.port, answer, up]
    obtain ⟨cause, dir, -, count⟩ :=
      State.errorResponse_pf_shows { s with posted := [], late := s.late ++ [q] } p a q.size 1 true
    exact ⟨_, waits, by simp [State.errorResponse_frame], by simp [State.errorResponse_frame], cause, dir, count⟩
  case refused =>
    have runs : exec (.bar0ReadError p a size) s = .next (s.errorResponse (.pf p) a size cause false) := by
      change execBar0ReadError p a size s = _
      simp [execBar0ReadError, up, answers, refused]
    obtain ⟨shown, dir, offset, count⟩ := s.errorResponse_pf_shows p a size cause false
    exact ⟨_, runs, s.allOnes_errorResponse p a size cause, shown.trans (Nat.mod_eq_of_lt small), dir, offset, count,
      by simp [State.errorResponse_frame], by simp [State.errorResponse_frame]⟩

end Sys2Proof.Machine

/-! ## Configuration writes, bus mastering and D3hot (R443 to R447, R456, R457; log entry 59) -/

namespace Sys2Proof.Machine

open Sys2Proof Sys2Proof.Laws

/-! ### The configuration state of functions (R443): what ends, aborts and posts commands leaves it, and logs errors beside it -/

/-- A function's configuration state: all that stands for it beside its error log. -/
def HostState.config (h : HostState) (fk : Nat) : FnState :=
  { (h.fns.look fk).getD FnState.reset with errLog := [] }

theorem State.fnOf_busMaster (s : State) (fk : Nat) : (s.fnOf fk).busMaster = (s.hosts.config fk).busMaster := rfl

theorem State.fnOf_d3hot (s : State) (fk : Nat) : (s.fnOf fk).d3hot = (s.hosts.config fk).d3hot := rfl

theorem State.fnOf_msixEnable (s : State) (fk : Nat) : (s.fnOf fk).msixEnable = (s.hosts.config fk).msixEnable := rfl

theorem State.fnOf_setFn_self (s : State) (fk : Nat) (x : FnState) : (s.setFn fk x).fnOf fk = x := by
  simp [State.fnOf, State.setFn, look_put_self]

theorem State.config_setFn_self (s : State) (fk : Nat) (x : FnState) :
    (s.setFn fk x).hosts.config fk = { x with errLog := [] } := by
  simp [HostState.config, State.setFn, look_put_self]

@[simp] theorem State.setPort_config (s : State) (p : Port) (x : PortState) : (s.setPort p x).hosts.config = s.hosts.config :=
  rfl

@[simp] theorem State.message_config (s : State) (fk v : Nat) : (s.message fk v).hosts.config = s.hosts.config := by
  unfold State.message
  split <;> rfl

@[simp] theorem State.sendAllPending_config (s : State) (fk : Nat) : (s.sendAllPending fk).hosts.config = s.hosts.config :=
  rfl

@[simp] theorem State.logError_config (s : State) (c : Cmd) (r : BitVec 256) :
    (s.logError c r).hosts.config = s.hosts.config := by
  unfold State.logError
  split
  · rfl
  · funext fk
    simp only [State.takeStamps_frame, State.setFn, HostState.config, State.fnOf, look_put]
    by_cases own : fk = c.fn.key <;> simp [own]

@[simp] theorem foldl_config {α : Type} (g : State → α → State) (l : List α) (s : State)
    (h : ∀ s x, (g s x).hosts.config = s.hosts.config) : (l.foldl g s).hosts.config = s.hosts.config := by
  induction l generalizing s with
  | nil => rfl
  | cons x l ih => exact (ih _).trans (h s x)

@[simp] theorem State.postRecord_config (s : State) (slot : Nat) (c : Cmd) (cq : Nat) (q : CplRing) (r : BitVec 256) :
    (s.postRecord slot c cq q r).hosts.config = s.hosts.config := by
  unfold State.postRecord
  dsimp only
  split <;> simp [State.release_frame, State.setCq_frame, State.emit_frame]

@[simp] theorem State.postHeld_config (s : State) (fk cq : Nat) : (s.postHeld fk cq).hosts.config = s.hosts.config := by
  unfold State.postHeld
  (repeat' split) <;> simp [State.setCq_frame]

@[simp] theorem State.complete_config (s : State) (slot : Nat) (x : Status) :
    (s.complete slot x).hosts.config = s.hosts.config := by
  unfold State.complete
  dsimp only
  (repeat' split) <;> simp [State.release_frame, State.setCq_frame, State.setCmd_frame, State.unqueue_frame]

@[simp] theorem State.raiseFn_config (s : State) (fk b : Nat) : (s.raiseFn fk b).hosts.config = s.hosts.config := by
  unfold State.raiseFn
  dsimp only
  split <;> simp [State.setStat_frame]

@[simp] theorem State.raiseFns_config (s : State) (fks : List Nat) (b : Nat) :
    (s.raiseFns fks b).hosts.config = s.hosts.config :=
  foldl_config _ _ _ fun s fk => s.raiseFn_config fk b

@[simp] theorem State.raiseNs_config (s : State) (nsid b : Nat) : (s.raiseNs nsid b).hosts.config = s.hosts.config := by
  unfold State.raiseNs
  split <;> simp

@[simp] theorem State.enterMode_config (s : State) (m : Nat) : (s.enterMode m).hosts.config = s.hosts.config := by
  unfold State.enterMode
  dsimp only
  split <;> simp [State.record_frame, State.raise_frame, State.setReg_frame]

@[simp] theorem State.reason_config (s : State) (r : Nat) (holds : Bool) : (s.reason r holds).hosts.config = s.hosts.config := by
  unfold State.reason State.followReasons
  dsimp only
  (repeat' split) <;> simp [State.record_frame, State.raise_frame, State.setReg_frame]

@[simp] theorem State.followCapacity_config (s : State) : s.followCapacity.hosts.config = s.hosts.config := by
  unfold State.followCapacity
  dsimp only
  split <;> simp [State.raise_frame, State.setFld_frame]

@[simp] theorem State.reviewFences_config (s : State) : s.reviewFences.hosts.config = s.hosts.config := by
  simp [State.reviewFences, State.raise_frame, State.setNs_frame]

@[simp] theorem State.deleteNs_config (s : State) (nsid : Nat) : (s.deleteNs nsid).hosts.config = s.hosts.config := by
  unfold State.deleteNs
  dsimp only
  (repeat' split) <;> simp [State.freeDeferred_frame, State.emptyPage_frame, State.dropUnits_frame]

@[simp] theorem reapNs_config (s : State) (e : Nat × Namespace) : (reapNs s e).hosts.config = s.hosts.config := by
  unfold reapNs State.dropDeposed State.followHerd
  (repeat' split) <;> simp [State.raiseRecord_frame]

@[simp] theorem State.dropRegions_config (s : State) (p : Port) (event : Bool) :
    (s.dropRegions p event).hosts.config = s.hosts.config := by
  unfold State.dropRegions
  dsimp only
  (repeat' split) <;> simp [State.raise_frame, State.count_frame]

@[simp] theorem State.stopMaster_config (s : State) (fk : Nat) : (s.stopMaster fk).hosts.config = s.hosts.config := by
  unfold State.stopMaster State.abortHostCmds State.reapDeposed State.abandonReads
  dsimp only
  (repeat' split) <;> simp [State.abortMules_frame, State.k7Finish_frame]

@[simp] theorem State.resumeMaster_config (s : State) (fk : Nat) : (s.resumeMaster fk).hosts.config = s.hosts.config := by
  simp [State.resumeMaster]

/-! ### Configuration requests (R443, R444) -/

section
variable {f : Fn} {s : State} (up : s.up = true) (there : s.fnExists f = true) (out : (s.portOf f.port).inReset = false)
include up there out

/-- R444: a request that arrives while Request Retry Status holds is answered so. -/
theorem configRequest_retry (ok : Bool) (t : State) (retry : (s.portOf f.port).retry = true) :
    configRequest f s ok t = .next (s.emit (.requestRetry f)) := by
  simp [configRequest, up, there, out, retry]

theorem configRequest_served {ok : Bool} (t : State) (retry : (s.portOf f.port).retry = false) (applies : ok = true) :
    configRequest f s ok t = .next t := by
  simp [configRequest, up, there, out, retry, applies]

end

theorem Fn.key_physical (p : Port) : Fn.key { port := p, idx := 0 } = p.num * 512 := Nat.add_zero _

theorem State.fnExists_physical (s : State) (p : Port) : s.fnExists { port := p, idx := 0 } = true := rfl

theorem configurationWritten : Ob.ConfigurationWritten := by
  refine ⟨fun p v s up out retry => ?memory, fun f v s up there out retry => ?msix,
    fun p v s up out retry off small => ?numVFs, fun f field v s up there out retry => ?retried⟩
  case memory =>
    refine ⟨_, configRequest_served up (s.fnExists_physical p) out _ retry rfl, ?_, rfl, rfl, rfl⟩
    rw [← Fn.key_physical]
    exact congrArg FnState.memorySpace (s.fnOf_setFn_self _ _)
  case msix =>
    refine ⟨_, configRequest_served up there out _ retry rfl, ?_, rfl, rfl, rfl⟩
    exact congrArg FnState.msixEnable (s.fnOf_setFn_self f.key _)
  case numVFs =>
    refine ⟨_, configRequest_served up (s.fnExists_physical p) out _ retry rfl, ?_⟩
    have taken : s.configField { port := p, idx := 0 } .numVFs v = s.setPort p { s.portOf p with numVFs := v.toNat } := by
      simp [State.configField, off, small]
    rw [taken]
    exact ⟨by rw [State.portOf_setPort_self], rfl, rfl, rfl⟩
  case retried => exact configRequest_retry up there out _ _ retry

/-! ### Bus Master Enable and D3hot (R445, R456, R457) -/

theorem State.statOf_raiseHst_isSet (s : State) (p : Port) (b : Nat) : ((s.raiseHst p b).statOf (hstStat p)).isSet b = true := by
  simp [State.raiseHst, State.statOf_raiseAt, StatReg.isSet_event]

/-- A function that stops mastering keeps its configuration, the boot state and the medium, and its port's event stands. -/
theorem State.stopMaster_raised (s : State) (f : Fn) (x : FnState) :
    (((s.setFn f.key x).stopMaster f.key).raiseHst f.port 21).hosts.config f.key = { x with errLog := [] } ∧
      ((((s.setFn f.key x).stopMaster f.key).raiseHst f.port 21).statOf (hstStat f.port)).isSet 21 = true ∧
      (((s.setFn f.key x).stopMaster f.key).raiseHst f.port 21).boot = s.boot ∧
      (((s.setFn f.key x).stopMaster f.key).raiseHst f.port 21).media = s.media := by
  refine ⟨?_, State.statOf_raiseHst_isSet _ _ _, ?_, ?_⟩
  · simp [State.raiseHst_frame, State.config_setFn_self]
  · simp [State.raiseHst_frame, State.stopMaster_frame, State.setFn_frame]
  · simp [State.raiseHst_frame, State.stopMaster_frame, State.setFn_frame]

/-- A function that masters again keeps its configuration; the boot state, the medium and memory stay. -/
theorem State.resumeMaster_kept (s : State) (fk : Nat) (x : FnState) :
    ((s.setFn fk x).resumeMaster fk).hosts.config fk = { x with errLog := [] } ∧
      ((s.setFn fk x).resumeMaster fk).boot = s.boot ∧ ((s.setFn fk x).resumeMaster fk).media = s.media ∧
      ((s.setFn fk x).resumeMaster fk).ram = s.ram := by
  simp [State.resumeMaster_frame, State.setFn_frame, State.config_setFn_self]

theorem busMasteringFollows : Ob.BusMasteringFollows := by
  refine ⟨fun f s up there out retry master awake => ?clear, fun f s up there out retry idle => ?set,
    fun f s up there out retry master awake => ?d3hot, fun f s up there out retry asleep => ?d0⟩
  case clear =>
    obtain ⟨config, event, boot, media⟩ := s.stopMaster_raised f { s.fnOf f.key with busMaster := false }
    refine ⟨_, (configRequest_served up there out _ retry master).trans (congrArg _ (if_neg (by simp [awake]))), ?_, event,
      boot, media⟩
    rw [State.fnOf_busMaster, config]
  case set =>
    obtain ⟨config, boot, media, ram⟩ := s.resumeMaster_kept f.key { s.fnOf f.key with busMaster := true }
    refine ⟨_, configRequest_served up there out _ retry (by simp [idle]), ?_, boot, media, ram⟩
    rw [State.fnOf_busMaster, config]
  case d3hot =>
    obtain ⟨config, event, boot, media⟩ := s.stopMaster_raised f { s.fnOf f.key with d3hot := true }
    refine ⟨_, (configRequest_served up there out _ retry (by simp [awake])).trans (congrArg _ (if_pos master)), ?_, event,
      boot, media⟩
    rw [State.fnOf_d3hot, config]
  case d0 =>
    obtain ⟨config, boot, media, ram⟩ := s.resumeMaster_kept f.key { s.fnOf f.key with d3hot := false }
    refine ⟨_, configRequest_served up there out _ retry asleep, ?_, boot, media, ram⟩
    rw [State.fnOf_d3hot, config]

/-- Settles O9: the field named takes the value; what starts and stops mastering leaves the configuration state. -/
theorem configuration : Obligations.Configuration := ⟨configurationWritten, busMasteringFollows⟩

end Sys2Proof.Machine

/-! ## The host link's state and the tags of requests (R442, R452 to R455, R460, R461) -/

namespace Sys2Proof.Machine

open Sys2Proof Sys2Proof.Laws

/-! ### What a reason of MOD_REASON, and the mode that follows, leave (R494 to R496) -/

@[simp] theorem State.message_ports (s : State) (fk v : Nat) : (s.message fk v).hosts.ports = s.hosts.ports := by
  unfold State.message
  split <;> rfl

@[simp] theorem State.raiseFn_ports (s : State) (fk b : Nat) : (s.raiseFn fk b).hosts.ports = s.hosts.ports := by
  unfold State.raiseFn
  dsimp only
  split <;> simp [State.setStat_frame]

@[simp] theorem State.raiseFns_ports (s : State) (fks : List Nat) (b : Nat) :
    (s.raiseFns fks b).hosts.ports = s.hosts.ports := by
  unfold State.raiseFns
  induction fks generalizing s with
  | nil => rfl
  | cons fk fks ih => exact (ih _).trans (s.raiseFn_ports fk b)

@[simp] theorem State.enterMode_ports (s : State) (m : Nat) : (s.enterMode m).hosts.ports = s.hosts.ports := by
  unfold State.enterMode
  dsimp only
  split <;> simp [State.record_frame, State.raise_frame, State.setReg_frame]

@[simp] theorem State.reason_ports (s : State) (r : Nat) (holds : Bool) : (s.reason r holds).hosts.ports = s.hosts.ports := by
  unfold State.reason State.followReasons
  dsimp only
  (repeat' split) <;> simp [State.record_frame, State.raise_frame, State.setReg_frame]

theorem State.portOf_congr {s t : State} (h : t.hosts.ports = s.hosts.ports) (p : Port) : t.portOf p = s.portOf p := by
  simp [State.portOf, h]

theorem State.reg_raiseFns (s : State) (fks : List Nat) (b a : Nat) : (s.raiseFns fks b).reg a = s.reg a :=
  State.reg_congr (by simp [State.raiseFns_frame]) a

/-- The registers that a change of mode or reason writes: the mode, its reasons, the stamp counter, the log's overflow. -/
def modeRegs : List Nat := [Reg.MOD_STATE, Reg.MOD_REASON, Reg.MOD_DSEQ, Reg.EVT_OVERWRITTEN]

theorem State.reg_enterMode (s : State) (m : Nat) {a : Nat} (state : a ≠ Reg.MOD_STATE) (stamp : a ≠ Reg.MOD_DSEQ)
    (overwritten : a ≠ Reg.EVT_OVERWRITTEN) : (s.enterMode m).reg a = s.reg a := by
  have faced : ∀ (t : State) (f : Face), State.reg { t with pins := { t.pins with face := f } } a = t.reg a := fun _ _ => rfl
  unfold State.enterMode
  dsimp only
  split
  · rfl
  · rw [State.reg_record _ _ _ _ _ _ stamp overwritten, State.reg_raiseFns, State.reg_raise, faced, reg_setReg, if_neg state]

theorem State.reg_followReasons (s : State) {a : Nat} (state : a ≠ Reg.MOD_STATE) (stamp : a ≠ Reg.MOD_DSEQ)
    (overwritten : a ≠ Reg.EVT_OVERWRITTEN) : s.followReasons.reg a = s.reg a := by
  unfold State.followReasons
  split
  · exact s.reg_enterMode _ state stamp overwritten
  · rfl

theorem State.reg_reason (s : State) (r : Nat) (holds : Bool) {a : Nat} (other : a ∉ modeRegs) :
    (s.reason r holds).reg a = s.reg a := by
  simp only [modeRegs, List.mem_cons, List.not_mem_nil, or_false, not_or] at other
  obtain ⟨state, reason, stamp, overwritten⟩ := other
  unfold State.reason
  split
  · rfl
  · dsimp only
    rw [State.reg_followReasons _ state stamp overwritten, State.reg_record _ _ _ _ _ _ stamp overwritten, State.reg_raise,
      reg_setReg, if_neg reason]

/-- A reason that ends is clear in MOD_REASON. -/
theorem State.reason_clears (s : State) (r : Nat) : ((s.reason r false).reg Reg.MOD_REASON).getLsbD r = false := by
  unfold State.reason
  split
  next clear => exact clear
  next =>
    dsimp only
    rw [State.reg_followReasons _ (by decide) (by decide) (by decide), State.reg_record _ _ _ _ _ _ (by decide) (by decide),
      State.reg_raise, reg_setReg_self]
    simp

/-- The status registers at which a change of mode or reason sets an event: those of the log, the modes, and functions. -/
def ModeStat (x : Nat) : Prop := x = Reg.HDR_STAT 23 ∨ x = Reg.HDR_STAT 26 ∨ 0x1_0000_0000 ≤ x

theorem State.statOf_raise (s : State) (w b x : Nat) :
    (s.raise w b).statOf x = if x = Reg.HDR_STAT w then (s.statOf (Reg.HDR_STAT w)).event b else s.statOf x :=
  s.statOf_raiseAt _ _ _ _

theorem State.statOf_record (s : State) (window unit kind detail : Nat) (data : List Byte) {x : Nat}
    (log : x ≠ Reg.HDR_STAT 23) : (s.record window unit kind detail data).statOf x = s.statOf x := by
  have changed : ∀ (n : Nat) (l : List LogEntry), State.statOf { s.takeStamps 1 with free := n, evlog := l } x = s.statOf x :=
    fun _ _ => rfl
  have counted : ∀ (t : State) (a n : Nat), (t.count a n).statOf x = t.statOf x := fun _ _ _ => rfl
  unfold State.record
  dsimp only
  split
  · rfl
  split
  · exact changed _ _
  · rw [counted]
    split
    · rw [State.statOf_raise, if_neg log]
      exact changed _ _
    · exact changed _ _

theorem State.statOf_raiseFns (s : State) (fks : List Nat) (b : Nat) {x : Nat} (block : x < 0x1_0000_0000) :
    (s.raiseFns fks b).statOf x = s.statOf x := by
  have function : ∀ fk, x ≠ Reg.EVT_FSTAT fk := fun fk => by
    unfold Reg.EVT_FSTAT
    omega
  unfold State.raiseFns
  induction fks generalizing s with
  | nil => rfl
  | cons fk fks ih => exact (ih _).trans (by rw [State.statOf_raiseFn, if_neg (function fk)])

theorem State.statOf_enterMode (s : State) (m : Nat) {x : Nat} (other : ¬ ModeStat x) : (s.enterMode m).statOf x = s.statOf x := by
  simp only [ModeStat, not_or, Nat.not_le] at other
  obtain ⟨log, mode, block⟩ := other
  have faced : ∀ (t : State) (f : Face), State.statOf { t with pins := { t.pins with face := f } } x = t.statOf x :=
    fun _ _ => rfl
  have written : ∀ (t : State) (a : Nat) (v : DWord), (t.setReg a v).statOf x = t.statOf x := fun _ _ _ => rfl
  unfold State.enterMode
  dsimp only
  split
  · rfl
  · rw [State.statOf_record _ _ _ _ _ _ log, State.statOf_raiseFns _ _ _ block, State.statOf_raise, if_neg mode, faced, written]

theorem State.statOf_reason (s : State) (r : Nat) (holds : Bool) {x : Nat} (other : ¬ ModeStat x) :
    (s.reason r holds).statOf x = s.statOf x := by
  have written : ∀ (t : State) (a : Nat) (v : DWord), (t.setReg a v).statOf x = t.statOf x := fun _ _ _ => rfl
  have followed : ∀ t : State, t.followReasons.statOf x = t.statOf x := fun t => by
    unfold State.followReasons
    split
    · exact t.statOf_enterMode _ other
    · rfl
  simp only [ModeStat, not_or, Nat.not_le] at other
  obtain ⟨log, mode, block⟩ := other
  unfold State.reason
  split
  · rfl
  · dsimp only
    rw [followed, State.statOf_record _ _ _ _ _ _ log, State.statOf_raise, if_neg mode, written]

/-! ### A link that comes up (R442, R460) -/

theorem hstStat_not_modeStat (p : Port) : ¬ ModeStat (hstStat p) := by
  cases p <;> unfold ModeStat <;> decide

theorem hstLink_not_modeReg (p : Port) : Reg.HST_LINK p.num ∉ modeRegs := by
  cases p <;> decide

theorem State.fld_reason_link (s : State) (r : Nat) (holds : Bool) (p : Port) (f : Fld) :
    (s.reason r holds).fld (Reg.HST_LINK p.num) f = s.fld (Reg.HST_LINK p.num) f :=
  congrArg f.get (s.reg_reason r holds (hstLink_not_modeReg p))

theorem State.linkFits_range {s : State} {p : Port} {rate width : Nat} (h : s.linkFits p rate width = true) :
    rate ≤ 7 ∧ width ≤ 16 := by
  simp only [State.linkFits, Bool.and_eq_true, decide_eq_true_eq, List.contains_iff_mem, List.mem_cons, List.not_mem_nil,
    or_false] at h
  obtain ⟨⟨-, rate7, -⟩, widths⟩ := h
  omega

/-- HST_LINK once a link is up: the four fields, written one after the other. -/
def State.showLink (s : State) (p : Port) (rate width : Nat) (flit : Bool) : State :=
  (((s.setFld (Reg.HST_LINK p.num) Reg.HST_LINK_.UP 1).setFld (Reg.HST_LINK p.num) Reg.HST_LINK_.FLIT
    (if flit || decide (6 ≤ rate) then 1 else 0)).setFld (Reg.HST_LINK p.num) Reg.HST_LINK_.RATE rate).setFld
      (Reg.HST_LINK p.num) Reg.HST_LINK_.WIDTH width

theorem State.showLink_fields (s : State) (p : Port) {rate width : Nat} (flit : Bool) (rate7 : rate ≤ 7) (width16 : width ≤ 16) :
    (s.showLink p rate width flit).fld (Reg.HST_LINK p.num) Reg.HST_LINK_.UP = 1 ∧
      (s.showLink p rate width flit).fld (Reg.HST_LINK p.num) Reg.HST_LINK_.RATE = rate ∧
      (s.showLink p rate width flit).fld (Reg.HST_LINK p.num) Reg.HST_LINK_.WIDTH = width := by
  unfold State.showLink
  refine ⟨?_, ?_, ?_⟩
  · rw [fld_setFld_of_disjoint _ _ _ _ _ (by decide) (by decide) (by decide),
      fld_setFld_of_disjoint _ _ _ _ _ (by decide) (by decide) (by decide),
      fld_setFld_of_disjoint _ _ _ _ _ (by decide) (by decide) (by decide), fld_setFld_self _ _ _ _ (by decide) (by decide)]
    rfl
  · rw [fld_setFld_of_disjoint _ _ _ _ _ (by decide) (by decide) (by decide), fld_setFld_self _ _ _ _ (by decide) (by decide)]
    exact Nat.mod_eq_of_lt (Nat.lt_of_le_of_lt rate7 (by decide))
  · rw [fld_setFld_self _ _ _ _ (by decide) (by decide)]
    exact Nat.mod_eq_of_lt (Nat.lt_of_le_of_lt width16 (by decide))

/-- The state of a port whose link is up, before its reason ends. -/
def State.linkShown (s : State) (p : Port) (rate width : Nat) (flit : Bool) : State :=
  let t := ((s.setPort p { s.portOf p with inReset := false }).showLink p rate width flit).raiseHst p 17
  if rate < 7 ∨ width < 16 then t.raiseHst p 18 else t

theorem State.portUp_eq (s : State) (p : Port) (rate width : Nat) (flit : Bool) :
    s.portUp p rate width flit = (s.linkShown p rate width flit).reason (reasonPort p) false := rfl

/-- A second event at the port leaves what the first state shows, and the first event. -/
theorem State.linkShown_shows (s : State) (p : Port) (rate width : Nat) (flit : Bool) :
    (s.linkShown p rate width flit).hosts.ports = (s.setPort p { s.portOf p with inReset := false }).hosts.ports ∧
      (s.linkShown p rate width flit).regs =
        ((s.setPort p { s.portOf p with inReset := false }).showLink p rate width flit).regs ∧
      ((s.linkShown p rate width flit).statOf (hstStat p)).isSet 17 = true ∧
      (s.linkShown p rate width flit).cmds = s.cmds ∧ (s.linkShown p rate width flit).ram = s.ram ∧
      (s.linkShown p rate width flit).boot = s.boot := by
  unfold State.linkShown State.showLink
  dsimp only
  split <;>
    simp [State.setFld_frame, State.setPort_frame, State.raiseHst, State.raiseAt_frame,
      State.statOf_raiseAt, StatReg.isSet_event]

theorem State.portUp_shows (s : State) (p : Port) {rate width : Nat} (flit : Bool) (rate7 : rate ≤ 7) (width16 : width ≤ 16) :
    ((s.portUp p rate width flit).portOf p).inReset = false ∧
      (s.portUp p rate width flit).fld (Reg.HST_LINK p.num) Reg.HST_LINK_.UP = 1 ∧
      (s.portUp p rate width flit).fld (Reg.HST_LINK p.num) Reg.HST_LINK_.RATE = rate ∧
      (s.portUp p rate width flit).fld (Reg.HST_LINK p.num) Reg.HST_LINK_.WIDTH = width ∧
      ((s.portUp p rate width flit).reg Reg.MOD_REASON).getLsbD (reasonPort p) = false ∧
      ((s.portUp p rate width flit).statOf (hstStat p)).isSet 17 = true ∧ (s.portUp p rate width flit).cmds = s.cmds ∧
      (s.portUp p rate width flit).ram = s.ram ∧ (s.portUp p rate width flit).boot = s.boot := by
  obtain ⟨ports, regs, event, cmds, ram, boot⟩ := s.linkShown_shows p rate width flit
  obtain ⟨up, rateShown, widthShown⟩ :=
    (s.setPort p { s.portOf p with inReset := false }).showLink_fields p flit rate7 width16
  simp only [State.portUp_eq, State.fld_reason_link, State.fld_congr regs]
  refine ⟨?_, up, rateShown, widthShown, State.reason_clears _ _, ?_, ?_, ?_, ?_⟩
  · rw [State.portOf_congr (State.reason_ports _ _ _), State.portOf_congr ports, State.portOf_setPort_self]
  · rw [State.statOf_reason _ _ _ (hstStat_not_modeStat p)]
    exact event
  · simp [State.reason_frame, cmds]
  · simp [State.reason_frame, ram]
  · simp [State.reason_frame, boot]

/-! ### A new rate for an up port (R461) -/

/-- A reset of functions ends armings and begins none. -/
theorem State.resetFn_armed (s : State) (fk : Nat) : (s.resetFn fk).armed ⊆ s.armed := by
  have disarmed (t : State) (src : Source) : (t.disarmAll src).armed ⊆ t.armed := List.filter_subset_self _
  have before : ((((s.abandonReads fk).abortMules fk).discardFn fk).resetFnRegs fk).armed = s.armed := by
    simp [State.resetFnRegs_frame, State.discardFn_frame, State.abortMules_frame, State.abandonReads_frame]
  unfold State.resetFn
  dsimp only
  split
  · simp only [State.reapDeposed_frame, State.dropRegions_frame]
    refine List.Subset.trans (disarmed _ _) ?_
    simp [State.setFn_frame, before]
  · simp [State.reapDeposed_frame, State.setFn_frame, before]

theorem State.removeVfs_armed (s : State) (p : Port) : (s.removeVfs p).armed ⊆ s.armed := by
  have fold : ∀ (l : List Nat) (t : State), (l.foldl (fun s fk => s.resetFn fk) t).armed ⊆ t.armed := fun l => by
    induction l with
    | nil => exact fun _ => List.Subset.refl _
    | cons fk l ih => exact fun t => List.Subset.trans (ih _) (t.resetFn_armed fk)
  exact fold _ s

theorem State.resetPort_armed (s : State) (p : Port) : (s.resetPort p).armed ⊆ s.armed := by
  have fns : (s.resetFns p).armed ⊆ s.armed := by
    simp only [State.resetFns, State.setPort_frame]
    exact List.Subset.trans (State.resetFn_armed _ _) (s.removeVfs_armed p)
  simpa [State.resetPort, State.reason_frame, State.count_frame, State.setPort_frame, State.setReg_frame] using fns

theorem State.resetPort_inReset (s : State) (p : Port) : ((s.resetPort p).portOf p).inReset = true := by
  have counted : ∀ (t : State) (x : PortState) (a n : Nat), ((t.setPort p x).count a n).portOf p = x := fun t x _ _ =>
    t.portOf_setPort_self p x
  unfold State.resetPort
  dsimp only
  rw [State.portOf_congr (State.reason_ports _ _ _), counted]

/-- A port that is in reset, and one that goes into it: no arming is begun, and the boot state stays. -/
theorem State.toReset_shows (s : State) (p : Port) (t : State)
    (h : t = if (s.portOf p).inReset then s else (s.resetPort p).raiseHst p 16) :
    (t.portOf p).inReset = true ∧ t.armed ⊆ s.armed ∧ t.boot = s.boot := by
  subst h
  split
  next reset => exact ⟨reset, List.Subset.refl _, rfl⟩
  next =>
    refine ⟨?_, ?_, ?_⟩
    · rw [State.portOf_congr (s := s.resetPort p) (by simp [State.raiseHst_frame]), State.resetPort_inReset]
    · simpa [State.raiseHst_frame] using s.resetPort_armed p
    · simp [State.raiseHst_frame, State.resetPort_frame]

/-- A keyed write with its arming, at a block that the guard lock does not hold. -/
theorem State.keyed_armed {s : State} {src : Source} {w : Nat} (f : State → State) (armed : s.isArmed src w = true)
    (unlocked : s.guardLocked = false ∨ w < 19 ∨ 21 < w) : s.keyed src w f = f (s.disarm src w) := by
  have takes : (s.guardLocked && decide (19 ≤ w ∧ w ≤ 21)) = false := by
    rcases unlocked with h | h
    · simp [h]
    · simp only [Bool.and_eq_false_iff, decide_eq_false_iff_not]
      omega
  simp only [State.keyed, armed, takes, Bool.not_true, Bool.false_eq_true, ↓reduceIte]

theorem State.keyed_unarmed {s : State} {src : Source} {w : Nat} (f : State → State) (unarmed : s.isArmed src w = false) :
    s.keyed src w f = s.raiseHdr src w 1 := by
  simp [State.keyed, unarmed]

theorem linkFollows : Ob.LinkFollows := by
  refine ⟨fun p rate width flit s up reset perst clock fits => ?linkUp, fun src p rate s up served armed new => ?armed,
    fun src p rate s up served unarmed => ?unarmed⟩
  case linkUp =>
    obtain ⟨rate7, width16⟩ := State.linkFits_range fits
    exact ⟨_, answer_of (by simp [up, reset, perst, clock, fits]) _ _, s.portUp_shows p flit rate7 width16⟩
  case armed =>
    refine ⟨_, answer_of up _ _, ?_⟩
    simp only [State.access_served served]
    rw [State.keyed_armed _ armed (.inr (.inl (by decide)))]
    have other : (s.disarm src 1).fld (Reg.HST_LINK p.num) Reg.HST_LINK_.MAXRATE ≠ rate.toNat := new
    simp only [if_neg other]
    generalize made : (if ((s.disarm src 1).portOf p).inReset then s.disarm src 1
      else ((s.disarm src 1).resetPort p).raiseHst p 16) = t
    obtain ⟨reset, armings, boot⟩ := (s.disarm src 1).toReset_shows p t made.symm
    refine ⟨?_, ?_, ?_, ?_⟩
    · rw [fld_setFld_self _ _ _ _ (by decide) (by decide)]
      exact Nat.mod_eq_of_lt rate.isLt
    · exact reset
    · have ended : (src, 1) ∉ t.armed := fun h => by simpa [State.disarm] using armings h
      simpa [State.isArmed, State.setFld_frame] using ended
    · simpa [State.setFld_frame, State.disarm] using boot
  case unarmed =>
    refine ⟨_, answer_of up _ _, ?_⟩
    simp only [State.access_served served]
    rw [State.keyed_unarmed _ unarmed]
    exact ⟨by simp [State.raiseHdr_frame], by simp [State.raiseHdr_frame], State.statOf_raiseHdr_isSet s src 1 1⟩

/-! ### Tags (R452, R454, R455) -/

theorem State.portOf_logAer (s : State) (fk bit : Nat) (p : Port) : (s.logAer fk bit).portOf p = s.portOf p := rfl

theorem State.statOf_logAer (s : State) (fk bit x : Nat) : (s.logAer fk bit).statOf x = s.statOf x := rfl

theorem State.reg_logAer (s : State) (fk bit a : Nat) : (s.logAer fk bit).reg a = s.reg a := rfl

theorem State.reg_raiseHst (s : State) (p : Port) (b a : Nat) : (s.raiseHst p b).reg a = s.reg a :=
  State.reg_congr (by simp [State.raiseHst_frame]) a

theorem State.portOf_raiseHst (s : State) (p q : Port) (b : Nat) : (s.raiseHst p b).portOf q = s.portOf q :=
  State.portOf_congr (by simp [State.raiseHst_frame]) q

theorem State.portOf_count (s : State) (a n : Nat) (p : Port) : (s.count a n).portOf p = s.portOf p := rfl

theorem tagsFollow : Ob.TagsFollow := by
  refine ⟨fun p n st s x up out found late => ?late, fun p n s x f ring up out found live owner => ?packet,
    fun p n s x r up out found owner => ?timeout, fun p n s x up found => ?ended⟩
  case late =>
    have runs : exec (.hostReadCompletion p n st) s =
        .next (((s.count (Reg.HST_LATE p.num) 1).raiseHst p 23).logAer (s.ownerFn p x.owner) 16) := by
      change execHostReadCompletion p n st s = _
      simp [execHostReadCompletion, found, late, answer, up, out]
    refine ⟨_, runs, ?_, ?_, ?_, ?_, ?_⟩
    · rw [State.reg_logAer, State.reg_raiseHst, State.count, reg_setReg_self]
    · rw [State.portOf_logAer, State.portOf_raiseHst, State.portOf_count]
    · rw [State.statOf_logAer]
      exact State.statOf_raiseHst_isSet _ _ _
    · simp [State.logAer_frame, State.raiseHst_frame, State.count_frame]
    · simp [State.logAer_frame, State.raiseHst_frame, State.count_frame]
  case packet =>
    change execHostReadCompletion p n .ok s = _
    simp [execHostReadCompletion, found, live, owner, answer, up, out, State.dropTag]
  case timeout =>
    generalize marked : s.setPort p { s.portOf p with
      tags := (s.portOf p).tags.map fun u => if u = x then { u with quarantined := true } else u } = u
    have runs : exec (.completionTimeout p n) s = .next ((u.countTimeout p x.owner).ownerFails p x.owner) := by
      change execCompletionTimeout p n s = _
      simp [execCompletionTimeout, found, answer, up, out, ← marked]
    have tags : (u.portOf p).tags = (s.portOf p).tags.map fun u => if u = x then { u with quarantined := true } else u := by
      rw [← marked, State.portOf_setPort_self]
    have kept : u.regs = s.regs ∧ u.cmds = s.cmds ∧ u.ram = s.ram := by
      rw [← marked]
      exact ⟨rfl, rfl, rfl⟩
    obtain ⟨regs, cmds, ram⟩ := kept
    rw [owner] at runs
    have afterwards : ((u.countTimeout p (.muleData r)).ownerFails p (.muleData r)) =
      (u.countTimeout p (.muleData r)).setMule r { (u.countTimeout p (.muleData r)).mule r with cut := some 1 } := rfl
    rw [afterwards] at runs
    generalize counted : u.countTimeout p (.muleData r) = v at runs
    have shows : v.reg (Reg.HST_TIMEOUTS p.num) = counterAdd (s.reg (Reg.HST_TIMEOUTS p.num)) 1 ∧ v.portOf p = u.portOf p ∧
        (v.statOf (hstStat p)).isSet 22 = true ∧ v.cmds = s.cmds ∧ v.ram = s.ram := by
      subst counted
      unfold State.countTimeout
      refine ⟨?_, ?_, ?_, ?_, ?_⟩
      · rw [State.reg_logAer, State.reg_raiseHst, State.count, reg_setReg_self, State.reg_congr regs]
      · rw [State.portOf_logAer, State.portOf_raiseHst, State.portOf_count]
      · rw [State.statOf_logAer]
        exact State.statOf_raiseHst_isSet _ _ _
      · simp [State.logAer_frame, State.raiseHst_frame, State.count_frame, cmds]
      · simp [State.logAer_frame, State.raiseHst_frame, State.count_frame, ram]
    obtain ⟨count, ports, event, cmds, ram⟩ := shows
    refine ⟨_, runs, count, ?_, event, ?_, cmds, ram⟩
    · exact (congrArg PortState.tags ports).trans tags
    · simp [State.mule, State.setMule, look_put_self]
  case ended =>
    change execTagQuarantineEnd p n s = _
    simp [execTagQuarantineEnd, found, answer, up, State.dropTag]

/-- Settles O11: what the link's fields and a request's tag show after each command. -/
theorem linksAndTags : Obligations.LinksAndTags := ⟨linkFollows, tagsFollow⟩

end Sys2Proof.Machine

/-! ## How a command ends (R74, R75, R80, R81, R88, R117) -/

namespace Sys2Proof.Machine

open Sys2Proof Sys2Proof.Laws

/-! ### The class of a record (R80, Table 13) -/

theorem recordClass_or (r q : BitVec 256) : recordClass (r ||| q) = recordClass r ||| recordClass q := by
  simp only [recordClass, BitVec.ushiftRight_or_distrib, BitVec.toNat_or]
  exact Nat.or_mod_two_pow (n := 8)

/-- What stands wholly above the class of a record does not show in it. -/
theorem recordClass_ofNat_high {n : Nat} (m : Nat) (h : n = 2 ^ 40 * m) : recordClass (BitVec.ofNat 256 n) = 0 := by
  subst h
  simp only [recordClass, BitVec.toNat_ushiftRight, BitVec.toNat_ofNat, Nat.shiftRight_eq_div_pow]
  omega

theorem recordClass_mkRecord (ring cid nsid : Nat) (defp : Bool) {x : Status} (small : x.cls < 256) :
    recordClass (mkRecord ring cid nsid defp x) = x.cls := by
  simp only [mkRecord, recordClass, BitVec.toNat_ushiftRight, BitVec.toNat_ofNat, Nat.shiftRight_eq_div_pow]
  split <;> omega

theorem recordClass_deferredMark (s : State) (c : Cmd) (r : BitVec 256) : recordClass (s.deferredMark c r) = recordClass r := by
  have bit56 : recordClass (1#256 <<< 56) = 0 := by decide
  have bit40 : recordClass (1#256 <<< 40) = 0 := by decide
  have info : ∀ i, recordClass (BitVec.ofNat 256 (i % 65536 * 2 ^ 128)) = 0 := fun i =>
    recordClass_ofNat_high (i % 65536 * 2 ^ 88) (by omega)
  unfold State.deferredMark
  dsimp only
  split
  · rfl
  split
  · rfl
  split
  · simp only [recordClass_or, bit56, bit40, info, Nat.or_zero]
  · simp only [recordClass_or, bit56, Nat.or_zero]

theorem recordClass_sealRecord (r : BitVec 256) (phase : Bool) (head : Nat) :
    recordClass (sealRecord r phase head) = recordClass r := by
  have high : recordClass (BitVec.ofNat 256 (head % 65536 * 2 ^ 224 + if phase then 2 ^ 255 else 0)) = 0 :=
    recordClass_ofNat_high (head % 65536 * 2 ^ 184 + if phase then 2 ^ 215 else 0) (by split <;> omega)
  rw [sealRecord, recordClass_or, high, Nat.or_zero]

/-! ### The record and the slot -/

/-- A message adds to what the N9 has sent; it takes nothing back. -/
theorem State.mem_message_out {s : State} {o : Out} (fk v : Nat) (h : o ∈ s.out) : o ∈ (s.message fk v).out := by
  unfold State.message
  split
  · exact List.mem_append_left _ h
  · exact h

/-- R74: the record of a command goes to the tail of its ring, and the command's slot and locks are given up. -/
theorem State.postRecord_shows (s : State) (slot : Nat) (c : Cmd) (cq : Nat) (q : CplRing) (r : BitVec 256) :
    (∃ r', Out.record c.fn cq q.tail q.split r' ∈ (s.postRecord slot c cq q r).out ∧ recordClass r' = recordClass r) ∧
      (s.postRecord slot c cq q r).cmds.inflight.look slot = none ∧
      (s.postRecord slot c cq q r).cmds.locks = s.cmds.locks.filter (fun l => decide (l.slot ≠ slot)) := by
  have kept : ∀ (t : State) (fk v : Nat) (b : Bool), (if b then t.message fk v else t).cmds = t.cmds := by
    intro t fk v b
    cases b <;> simp [State.message_frame]
  unfold State.postRecord
  dsimp only
  generalize made : sealRecord _ q.phase _ = r'
  refine ⟨⟨r', ?sent, ?cls⟩, look_del_self _ _, ?locks⟩
  case cls => rw [← made, recordClass_sealRecord, recordClass_deferredMark]
  case sent =>
    have recorded : ∀ (t : State) (o : Out) (k : Nat) (q : CplRing) (r : BitVec 256),
        o ∈ (((t.emit o).setCq k q).logError c r).out := fun t o k q r => by
      simp only [State.logError_frame, State.setCq_frame]
      exact List.mem_append_right _ (List.mem_singleton_self _)
    simp only [State.release_frame]
    split
    · exact State.mem_message_out _ _ (recorded _ _ _ _ _)
    · exact recorded _ _ _ _ _
  case locks =>
    simp only [State.release, kept, State.logError_frame]
    rfl

section
variable {s : State} {slot : Nat} {c : Cmd} {sq : SubRing} {q : CplRing} (x : Status)
  (flight : s.cmds.inflight.look slot = some c) (ring : s.cmds.sqs.look (ringKey c.fn.key c.ring) = some sq)
  (cplRing : s.cmds.cqs.look (ringKey c.fn.key sq.cq) = some q)
include flight ring cplRing

/-- A command whose ring takes records posts its own at once. -/
theorem State.complete_posts (room : q.full = false) (good : q.faulted = false) (first : q.held = [])
    (master : s.mayWriteHost c.fn.key = true) (current : s.version c.fn.key ≠ 0x0204) :
    s.complete slot x = s.postRecord slot c sq.cq q (mkRecord c.ring (pkCid c.packet) (pkNsid c.packet) false x) := by
  simp [State.complete, flight, ring, cplRing, room, good, first, master, current]

/-- R75: while the ring is full the record is held at it. -/
theorem State.complete_holds (full : q.full = true) :
    ∃ r, s.complete slot x = ((s.setCq (ringKey c.fn.key sq.cq) { q with held := q.held ++ [{ slot := slot, record := r }] }).setCmd
      slot { c with stage := .waitHeld, sramPips := 0, sdramPips := 0 }).unqueue slot := by
  simp only [State.complete, flight, ring, cplRing, full, true_or, ↓reduceIte]
  exact ⟨_, rfl⟩

end

/-- Settles O12: a ring with room takes the record, a full one holds it. -/
theorem commandEnds : Obligations.CommandEnds := by
  refine ⟨fun slot x s c sq q flight ring cplRing room good first master small current => ?_,
    fun slot x s c sq q flight ring cplRing full => ?_⟩
  · rw [State.complete_posts x flight ring cplRing room good first master current]
    obtain ⟨⟨r, sent, cls⟩, gone, locks⟩ := s.postRecord_shows slot c sq.cq q
      (mkRecord c.ring (pkCid c.packet) (pkNsid c.packet) false x)
    refine ⟨r, sent, cls.trans (recordClass_mkRecord _ _ _ _ small), gone, locks, ?_, ?_, ?_, ?_⟩ <;>
      simp [State.postRecord_frame]
  · obtain ⟨r, held⟩ := State.complete_holds x flight ring cplRing full
    rw [held]
    exact ⟨_, r, look_put_self _ _ _, rfl, rfl, look_put_self _ _ _, rfl⟩

end Sys2Proof.Machine

/-! ## A command from its fetch to its operation (R89, R116 to R122, R399) -/

namespace Sys2Proof.Machine

open Sys2Proof Sys2Proof.Laws

/-! ### What a command that is ready meets on its way -/

theorem look_upd_self {α : Type} (m : SMap α) (k : Nat) (f : α → α) : (m.upd k f).look k = (m.look k).map f := by
  induction m with
  | nil => rfl
  | cons e m ih =>
    simp only [SMap.upd, List.map_cons, SMap.look]
    by_cases own : e.1 = k
    · simp [own]
    · simp only [own, ↓reduceIte]
      exact ih

theorem State.runnable_eq_some {s : State} {slot : Nat} {ok : Nat → Bool} {c : Cmd} (h : s.runnable slot ok = some c) :
    s.cmds.inflight.look slot = some c ∧ ok (pkOpcode c.packet) = true := by
  unfold State.runnable at h
  split at h
  · exact absurd h (by simp)
  next d found =>
    split at h
    next taken =>
      rw [← Option.some.inj h]
      simp only [Bool.and_eq_true, decide_eq_true_eq] at taken
      exact ⟨found, taken.1.1.2⟩
    next => exact absurd h (by simp)

theorem runCommand_of_runnable {op slot : Nat} (h : HostSide) {s : State} {c : Cmd}
    (run : s.runnable slot (fun x => decide (x = op)) = some c) :
    runCommand op slot h s = .next (s.interpret slot { c with host := h }) := by
  simp [runCommand, run]

/-- R89: a command that passes every check, under the lease where it needs one, goes into order. -/
theorem State.interpret_of_valid {slot : Nat} {h : HostSide} {s : State} {c : Cmd}
    (checks : s.validate slot c.fn c.ring c.cls c.packet h = (10, none))
    (lease : (Ob.valid slot h s c).noLease c.packet = false) :
    s.interpret slot { c with host := h } = (Ob.valid slot h s c).order slot (Ob.judged h s c) := by
  have packet : (Ob.judged h s c).packet = c.packet := by
    unfold Ob.judged
    dsimp only
    split <;> rfl
  simp only [State.interpret, checks]
  change (if (Ob.valid slot h s c).noLease (Ob.judged h s c).packet then _ else _) = _
  rw [packet, lease]
  rfl

/-- R122, R399: with no order rule to wait for and its pips free, a command comes to the admission order. -/
theorem State.order_of_free {v : State} {slot : Nat} {c : Cmd} (order : v.orderWaits slot c = false)
    (turn : v.classWaits c.cls = false) (pips : v.pipsFree c.cls (v.demand c.packet) = true) :
    v.order slot c = (v.setCmd slot (Ob.withPips v c)).enterAdmission slot (Ob.withPips v c) := by
  simp only [State.order, State.askPips, order, turn, pips, Bool.not_true, Bool.or_self, Bool.false_eq_true, ↓reduceIte]
  rfl

/-- R116, R118: at the head of the admission order, with room for its entries and no earlier conflict, it begins. -/
theorem State.enterAdmission_of_free {v : State} {slot : Nat} {c : Cmd} (first : v.cmds.admission = [])
    (room : v.lockRoom slot c = true) (free : lockBlocked (v.cmds.locks ++ v.lockList slot c) slot = false) :
    v.enterAdmission slot c =
      (State.updCmd { (if v.lockCoarse c then v.count Reg.ORD_COARSENED 1 else v) with
        cmds := { (if v.lockCoarse c then v.count Reg.ORD_COARSENED 1 else v).cmds with
          locks := v.cmds.locks ++ v.lockList slot c } } slot fun c => { c with stage := .waitLock }).perform slot := by
  simp only [State.enterAdmission, State.admitNow, first, room, free, List.isEmpty_nil, Bool.true_and, Bool.false_eq_true,
    ↓reduceIte]

/-! ### The command and the state in which its operation begins -/

section
variable {op slot : Nat} {h : HostSide} {s : State} {c : Cmd}

theorem judged_kept (h : HostSide) (s : State) (c : Cmd) :
    (Ob.judged h s c).packet = c.packet ∧ (Ob.judged h s c).fn = c.fn ∧ (Ob.judged h s c).ring = c.ring ∧
      (Ob.judged h s c).cls = c.cls ∧ (Ob.judged h s c).host = h ∧ (Ob.judged h s c).changed = c.changed ∧
      (Ob.judged h s c).moved = c.moved ∧ (Ob.judged h s c).grant = c.grant := by
  unfold Ob.judged
  dsimp only
  split <;> exact ⟨rfl, rfl, rfl, rfl, rfl, rfl, rfl, rfl⟩

@[simp] theorem startedCmd_packet : (Ob.startedCmd slot h s c).packet = c.packet := (judged_kept h s c).1

@[simp] theorem startedCmd_fn : (Ob.startedCmd slot h s c).fn = c.fn := (judged_kept h s c).2.1

@[simp] theorem startedCmd_host : (Ob.startedCmd slot h s c).host = h := (judged_kept h s c).2.2.2.2.1

@[simp] theorem startedCmd_changed : (Ob.startedCmd slot h s c).changed = c.changed := (judged_kept h s c).2.2.2.2.2.1

@[simp] theorem startedCmd_moved : (Ob.startedCmd slot h s c).moved = c.moved := (judged_kept h s c).2.2.2.2.2.2.1

theorem started_look : (Ob.started slot h s c).cmds.inflight.look slot = some (Ob.startedCmd slot h s c) := by
  have counted : ∀ (t : State) (b : Bool), (if b then t.count Reg.ORD_COARSENED 1 else t).cmds = t.cmds := by
    intro t b
    cases b <;> rfl
  simp only [Ob.started, State.updCmd, look_upd_self, counted]
  simp only [Ob.reserved, State.setCmd, look_put_self]
  rfl

/-- What stands beside the command itself as its operation begins: all but its locks and the count of coarse covers. -/
theorem started_kept (slot : Nat) (h : HostSide) (s : State) (c : Cmd) :
    (Ob.started slot h s c).nss = s.nss ∧ (Ob.started slot h s c).herd = s.herd ∧ (Ob.started slot h s c).map = s.map ∧
      (Ob.started slot h s c).place = s.place ∧ (Ob.started slot h s c).media = s.media ∧
      (Ob.started slot h s c).isolated = s.isolated ∧ (Ob.started slot h s c).ram = s.ram := by
  unfold Ob.started
  dsimp only
  split <;> exact ⟨rfl, rfl, rfl, rfl, rfl, rfl, rfl⟩

/-- The way of a command that is ready: it is taken, judged, reserved and admitted, and its operation begins. -/
theorem runCommand_of_ready (ready : Ob.Ready op slot h s c) :
    runCommand op slot h s = .next ((Ob.started slot h s c).perform slot) := by
  obtain ⟨run, checks, lease, order, turn, pips, first, room, free⟩ := ready
  rw [runCommand_of_runnable h run, State.interpret_of_valid checks lease]
  obtain ⟨packet, -, -, cls, -⟩ := judged_kept h s c
  have queue : (Ob.reserved slot h s c).cmds.admission = [] := first
  rw [State.order_of_free order (by rw [cls]; exact turn) (by rw [cls, packet]; exact pips)]
  change Host.Outcome.next ((Ob.reserved slot h s c).enterAdmission slot (Ob.taken slot h s c)) = _
  rw [State.enterAdmission_of_free queue room free]
  rfl

theorem ready_opcode (ready : Ob.Ready op slot h s c) : pkOpcode c.packet = op :=
  of_decide_eq_true (State.runnable_eq_some ready.1).2

/-- An administrative command takes its own turn, and what it lets go on follows. -/
theorem runCommand_admin (ready : Ob.Ready op slot h s c) (admin : isIo op = false) (noResize : op ≠ opNsResize) :
    runCommand op slot h s = .next (Ob.after ((Ob.started slot h s c).adminTurn slot (Ob.startedCmd slot h s c))) := by
  rw [runCommand_of_ready ready]
  simp only [State.perform, started_look, startedCmd_packet, ready_opcode ready, admin, noResize, Bool.false_eq_true, or_self,
    ↓reduceIte]
  rfl

/-- An I/O command of a namespace takes its turn there, and what it answered is followed. -/
theorem runCommand_io {n : Namespace} (ready : Ob.Ready op slot h s c) (io : isIo op = true) (noResize : op ≠ opNsResize)
    (there : s.nss.look (pkNsid c.packet) = some n) :
    runCommand op slot h s =
      .next (Ob.after (((Ob.started slot h s c).ioTurn slot (Ob.startedCmd slot h s c) n).follow slot)) := by
  have found : (Ob.started slot h s c).nss.look (pkNsid c.packet) = some n := by rw [(started_kept slot h s c).1, there]
  rw [runCommand_of_ready ready]
  simp only [State.perform, started_look, startedCmd_packet, ready_opcode ready, io, noResize, found, true_or, ↓reduceIte]
  rfl

end

end Sys2Proof.Machine

/-! ## HELLO, features and logs, and ring commands (R71, R92, R94, R102, R104, R105) -/

namespace Sys2Proof.Machine

open Sys2Proof Sys2Proof.Laws

section
variable {s : State} {slot : Nat} {c : Cmd}

/-! ### The turn of an administrative command by its opcode (R91) -/

/-- A command that reads no descriptor from host memory has none that fails. -/
theorem descriptorFailed_of_op {op : Nat} (code : pkOpcode c.packet = op)
    (none' : op ≠ opFwStage ∧ op ≠ opHerdJoin ∧ op ≠ opHerdReshape ∧ op ≠ opKeyLoad) : descriptorFailed c = false := by
  obtain ⟨stage, join, reshape, load⟩ := none'
  simp [descriptorFailed, code, stage, join, reshape, load]

theorem State.adminTurn_hello (code : pkOpcode c.packet = opHello) :
    s.adminTurn slot c = (s.helloTurn c).2.complete slot (s.helloTurn c).1 := by
  simp [State.adminTurn, descriptorFailed_of_op code (by decide), code]

theorem State.adminTurn_ringCreate (code : pkOpcode c.packet = opRingCreate) :
    s.adminTurn slot c = (s.ringCreate c).2.complete slot (s.ringCreate c).1 := by
  simp [State.adminTurn, descriptorFailed_of_op code (by decide), code, opRingCreate, opHello]

theorem State.adminTurn_ringDelete (code : pkOpcode c.packet = opRingDelete) :
    s.adminTurn slot c = s.ringDelete slot c := by
  simp [State.adminTurn, descriptorFailed_of_op code (by decide), code, opRingDelete, opRingCreate, opHello]

theorem State.adminTurn_logGet (code : pkOpcode c.packet = opLogGet) :
    s.adminTurn slot c = (s.logGet c).2.complete slot (s.logGet c).1 := by
  simp [State.adminTurn, descriptorFailed_of_op code (by decide), code, opLogGet, opRingDelete, opRingCreate, opHello,
    opNsCreate, opNsDelete, opNsAttach, opRegionAdd, opRegionRemove]

theorem State.adminTurn_featureSet (code : pkOpcode c.packet = opFeatureSet) :
    s.adminTurn slot c = (s.featureSet c.fn (pkSpec c.packet 0 16) (featureTarget c.fn (pkSpec c.packet 16 16))
      (pkSlba c.packet)).complete slot (stOk 0) := by
  simp [State.adminTurn, descriptorFailed_of_op code (by decide), code, opFeatureSet, opLogGet, opRingDelete, opRingCreate,
    opHello, opNsCreate, opNsDelete, opNsAttach, opRegionAdd, opRegionRemove]

theorem State.adminTurn_featureGet (code : pkOpcode c.packet = opFeatureGet) :
    s.adminTurn slot c = s.complete slot (stOk (s.featureGet c.fn (pkSpec c.packet 0 16) (pkNsid c.packet)
      (featureTarget c.fn (pkSpec c.packet 16 16)))) := by
  simp [State.adminTurn, descriptorFailed_of_op code (by decide), code, opFeatureGet, opFeatureSet, opLogGet, opRingDelete,
    opRingCreate, opHello, opNsCreate, opNsDelete, opNsAttach, opRegionAdd, opRegionRemove]

/-! ### Each turn's own cases -/

theorem State.helloTurn_of_common {v : Nat} (common : ccpVersions.find? (fun v => (helloList c.packet).contains v) = some v) :
    s.helloTurn c = (stOk (v + 8192 * 2 ^ 16 + s.maxSq c.fn.key * 2 ^ 32 + s.maxCq c.fn.key * 2 ^ 48),
      s.setFld (Reg.CCP_FSTAT c.fn.key) Reg.CCP_FSTAT_.VERSION v) := by
  simp only [State.helloTurn, common]

theorem State.helloTurn_of_none (none' : ccpVersions.find? (fun v => (helloList c.packet).contains v) = none) :
    s.helloTurn c = (stVersion (0x0301 + 0x0300 * 2 ^ 16 + 0x0204 * 2 ^ 32), s) := by
  simp only [State.helloTurn, none']

theorem State.logGet_eq (some' : 0 < pkDlen c.packet) (other : pkSpec c.packet 0 8 ≠ 7) :
    s.logGet c = (stOk (s.logBytes c.fn (pkSpec c.packet 0 8)).length,
      s.emit (.hostWrite c.fn (BitVec.ofNat 64 (pkDptr c.packet))
        (logPart (s.logBytes c.fn (pkSpec c.packet 0 8)) (pkSlba c.packet) (pkDlen c.packet)))) := by
  simp [State.logGet, State.afterLog, Nat.pos_iff_ne_zero.mp some', other]

theorem State.ringCreate_sq {i : Nat} (kind : pkSpec c.packet 63 1 = 0)
    (free : freeRing s.cmds.sqs c.fn.key (s.maxSq c.fn.key) = some i) (room : s.cmds.sqs.length < ringMax) :
    s.ringCreate c = (stOk i, s.setSq (ringKey c.fn.key i)
      (freshSq (BitVec.ofNat 64 (pkDptr c.packet)) (pkNlb c.packet) (pkSpec c.packet 0 16) (pkSpec c.packet 16 4)
        (s.newRingClass c.fn.key (pkSpec c.packet 20 6)) s.homeCore)) := by
  simp [State.ringCreate, kind, free, Nat.not_le.mpr room]

theorem State.ringCreate_cq {i : Nat} (kind : pkSpec c.packet 63 1 = 1)
    (free : freeRing s.cmds.cqs c.fn.key (s.maxCq c.fn.key) = some i) (room : s.cmds.cqs.length < ringMax) :
    s.ringCreate c = (stOk i, s.setCq (ringKey c.fn.key i)
      (freshCq (BitVec.ofNat 64 (pkDptr c.packet)) (pkNlb c.packet) (pkSpec c.packet 0 16) (pkSpec c.packet 16 8)
        (pkSpec c.packet 24 8) (decide (pkSpec c.packet 32 1 = 1)) (decide (pkSpec c.packet 33 1 = 1)))) := by
  simp [State.ringCreate, kind, free, Nat.not_le.mpr room]

theorem State.ringCreate_quota (kind : pkSpec c.packet 63 1 = 0)
    (full : freeRing s.cmds.sqs c.fn.key (s.maxSq c.fn.key) = none) : s.ringCreate c = (stQuota 1, s) := by
  simp [State.ringCreate, kind, full]

/-- R94: a ring without another command in flight ends with the command that deletes it. -/
theorem State.ringEnd_of_idle {i : Nat} (target : pkSpec c.packet 0 16 = i) (idle : s.ringSlots c.fn i = []) :
    s.ringEnd slot c = (s.dropSq c.fn i).complete slot (stOk c.result) := by
  simp [State.ringEnd, target, idle]

/-- The commands of a ring stay the same ones when one of them has its result and stage changed. -/
theorem State.ringSlots_updCmd (s : State) (slot : Nat) (g : Cmd → Cmd) (f : Fn) (ring : Nat)
    (same : ∀ d, (g d).fn = d.fn ∧ (g d).ring = d.ring) : (s.updCmd slot g).ringSlots f ring = s.ringSlots f ring := by
  simp only [State.ringSlots, State.updCmd, SMap.upd]
  induction s.cmds.inflight with
  | nil => rfl
  | cons e l ih =>
    simp only [List.map_cons, List.filter_cons]
    by_cases own : e.1 = slot
    · by_cases mine : e.2.fn = f ∧ e.2.ring = ring
      · simpa [own, same, mine] using ih
      · simpa [own, same, mine] using ih
    · by_cases mine : e.2.fn = f ∧ e.2.ring = ring
      · simpa [own, mine] using ih
      · simpa [own, mine] using ih

/-- R94: deleting a submission ring that no other command uses stops it and removes it. -/
theorem State.ringDelete_sq {r : SubRing} (flight : s.cmds.inflight.look slot = some c) (kind : pkSpec c.packet 63 1 = 0)
    (wait : pkSpec c.packet 16 1 = 0) (there : s.cmds.sqs.look (ringKey c.fn.key (pkSpec c.packet 0 16)) = some r)
    (idle : s.ringSlots c.fn (pkSpec c.packet 0 16) = []) :
    s.ringDelete slot c = (State.dropSq ((s.setSq (ringKey c.fn.key (pkSpec c.packet 0 16))
      { r with stopped := true, rung := r.fetched, bells := [] }).updCmd slot
        fun d => { d with result := r.rung - r.fetched, stage := .waitRingEnd }) c.fn (pkSpec c.packet 0 16)).complete slot
          (stOk (r.rung - r.fetched)) := by
  have stop : s.ringStop slot c = (s.setSq (ringKey c.fn.key (pkSpec c.packet 0 16))
      { r with stopped := true, rung := r.fetched, bells := [] }).updCmd slot
        fun d => { d with result := r.rung - r.fetched, stage := .waitRingEnd } := by
    simp [State.ringStop, there, wait]
  generalize stopped : s.ringStop slot c = t at stop
  have still : t.cmds.inflight.look slot = some { c with result := r.rung - r.fetched, stage := .waitRingEnd } := by
    rw [stop]
    simp only [State.updCmd, look_upd_self, State.setSq, flight, Option.map_some]
  have none' : t.ringSlots c.fn (pkSpec c.packet 0 16) = [] := by
    rw [stop]
    refine Eq.trans (State.ringSlots_updCmd _ slot _ _ _ ?_) idle
    exact fun _ => ⟨rfl, rfl⟩
  have runs : s.ringDelete slot c = t.ringEnd slot { c with result := r.rung - r.fetched, stage := .waitRingEnd } := by
    simp [State.ringDelete, kind, stopped, still]
  have ends := State.ringEnd_of_idle (slot := slot) (c := { c with result := r.rung - r.fetched, stage := .waitRingEnd }) rfl none'
  rw [runs, ends, stop]

theorem State.ringDelete_cq (kind : pkSpec c.packet 63 1 = 1) :
    s.ringDelete slot c = State.complete { s with cmds := { s.cmds with
      cqs := s.cmds.cqs.del (ringKey c.fn.key (pkSpec c.packet 0 16)) } } slot (stOk 0) := by
  simp [State.ringDelete, kind]

end

/-- Settles O16: each command comes to its turn, and its turn completes it. -/
theorem protocolCommandsComplete : Obligations.ProtocolCommandsComplete := by
  refine ⟨fun slot v h s c ready common => ?hello, fun slot h s c ready none' => ?refused, fun slot h s c ready => ?set,
    fun slot h s c ready => ?get, fun slot h s u c ready start some' other => ?log⟩
  case hello =>
    refine (runCommand_admin ready rfl (by decide)).trans ?_
    rw [State.adminTurn_hello (by simp [ready_opcode ready]), State.helloTurn_of_common (by simpa using common)]
    simp only [startedCmd_fn]
  case refused =>
    refine (runCommand_admin ready rfl (by decide)).trans ?_
    rw [State.adminTurn_hello (by simp [ready_opcode ready]), State.helloTurn_of_none (by simpa using none')]
  case set =>
    refine (runCommand_admin ready rfl (by decide)).trans ?_
    rw [State.adminTurn_featureSet (by simp [ready_opcode ready])]
    simp only [startedCmd_fn, startedCmd_packet]
  case get =>
    refine (runCommand_admin ready rfl (by decide)).trans ?_
    rw [State.adminTurn_featureGet (by simp [ready_opcode ready])]
    simp only [startedCmd_fn, startedCmd_packet]
  case log =>
    subst start
    refine (runCommand_admin ready rfl (by decide)).trans ?_
    rw [State.adminTurn_logGet (by simp [ready_opcode ready]), State.logGet_eq (by simpa using some') (by simpa using other)]
    simp only [startedCmd_fn, startedCmd_packet]

/-- RING_DELETE_COMPLETE takes a command that waits for its ring's end. -/
theorem exec_ringDeleteComplete {slot : Nat} {s : State} {c : Cmd} (up : s.up = true)
    (flight : s.cmds.inflight.look slot = some c) (waits : c.stage = .waitRingEnd) :
    exec (.ringDeleteComplete slot) s = .next (s.ringEnd slot c) := by
  refine (answer_of up _ _).trans (congrArg _ ?_)
  simp [State.goOn, flight, waits]

/-- Settles O17: a new ring takes the lowest free index, and a ring goes with the command that deletes it. -/
theorem ringCommandsComplete : Obligations.RingCommandsComplete := by
  refine ⟨fun slot i h s u c ready start kind free room => ?sq, fun slot i h s u c ready start kind free room => ?cq,
    fun slot h s u c ready start kind full => ?quota, fun slot h s u c ready start kind => ?deleteCq,
    fun slot h s u c r ready start kind wait there idle => ?deleteSq, fun slot s c up flight waits idle => ?ended⟩
  case sq =>
    subst start
    refine (runCommand_admin ready rfl (by decide)).trans ?_
    rw [State.adminTurn_ringCreate (by simp [ready_opcode ready]),
      State.ringCreate_sq (by simpa using kind) (by simpa using free) room]
    simp only [startedCmd_fn, startedCmd_packet]
  case cq =>
    subst start
    refine (runCommand_admin ready rfl (by decide)).trans ?_
    rw [State.adminTurn_ringCreate (by simp [ready_opcode ready]),
      State.ringCreate_cq (by simpa using kind) (by simpa using free) room]
    simp only [startedCmd_fn, startedCmd_packet]
  case quota =>
    subst start
    refine (runCommand_admin ready rfl (by decide)).trans ?_
    rw [State.adminTurn_ringCreate (by simp [ready_opcode ready]),
      State.ringCreate_quota (by simpa using kind) (by simpa using full)]
  case deleteCq =>
    subst start
    refine (runCommand_admin ready rfl (by decide)).trans ?_
    rw [State.adminTurn_ringDelete (by simp [ready_opcode ready]), State.ringDelete_cq (by simpa using kind)]
    simp only [startedCmd_fn, startedCmd_packet]
  case deleteSq =>
    subst start
    refine (runCommand_admin ready rfl (by decide)).trans ?_
    rw [State.adminTurn_ringDelete (by simp [ready_opcode ready]),
      State.ringDelete_sq started_look (by simpa using kind) (by simpa using wait) (by simpa using there)
        (by simpa using idle)]
    simp only [startedCmd_fn, startedCmd_packet]
  case ended =>
    rw [exec_ringDeleteComplete up flight waits, State.ringEnd_of_idle rfl idle]

end Sys2Proof.Machine

/-! ## I/O commands of one namespace (R90, R111, R120, R122, R126, R127, R178, R203, R297, R299, R415) -/

namespace Sys2Proof.Machine

open Sys2Proof Sys2Proof.Laws

/-! ### A stored block of a system namespace (R178, R297) -/

section
variable {u : State} {slot : Nat} {c : Cmd} {n : Namespace} {b : SysBlock}

/-- A stored block of a system namespace with a die that serves reads as it was written. -/
theorem State.gotBlock_sys_either {lba : Nat} (sys : n.kind = .systemNs) (stored : n.sysBlock lba = some b)
    (serves : u.dieServes b.dieA = true ∨ u.dieServes b.dieB = true) (nsid : Nat) :
    u.gotBlock nsid n lba = .block (mkCodeword b.data b.tally (mkHeader nsid 9 false lba 0)) 0 (.ladder 0) := by
  simp only [State.gotBlock, sys, ↓reduceIte, stored, serves]

theorem State.gotBlock_sys {lba : Nat} (sys : n.kind = .systemNs) (stored : n.sysBlock lba = some b)
    (serves : u.dieServes b.dieA = true) (nsid : Nat) :
    u.gotBlock nsid n lba = .block (mkCodeword b.data b.tally (mkHeader nsid 9 false lba 0)) 0 (.ladder 0) :=
  State.gotBlock_sys_either sys stored (.inl serves) nsid

theorem State.readBlock_sys {lba : Nat} (sys : n.kind = .systemNs) (stored : n.sysBlock lba = some b)
    (serves : u.dieServes b.dieA = true) (noTag : pkAtc c.packet = false) (whole : c.host.faults = []) :
    u.readBlock c n [] [] lba = (.good b.data b.tally, u) := by
  simp [State.readBlock, State.gotBlock_sys sys stored serves, State.noteRead, faultsOf, failsInside, whole, noTag,
    State.noteChecks, mkCodeword]

/-- The end of a read: the command as it stands in flight has changed something once a block was handed over. -/
theorem State.readTurn_sys {r : List (List Byte × BitVec 128) × Option Status × State} (sys : n.kind = .systemNs)
    (homeless : u.herd.homed.look (pkNsid c.packet) = none)
    (answered : pkOpcode c.packet = opCompare → c.host.dataAnswer = .ok)
    (blocks : readFrom (readOne c n [] []) (pkNlb c.packet) 0 u = r) (kept : r.2.2 = u.noteUncorrectable none)
    (noted : u.noteUncorrectable r.2.1 = u) (flight : u.cmds.inflight.look slot = some c) :
    u.readTurn slot c n = (.over (r.2.1.getD (stOk 0)),
      (if pkOpcode c.packet = opCompare then u else u.deliver c r.1).setCmd slot { c with changed := c.changed || !r.1.isEmpty }) := by
  have data : ¬ (pkOpcode c.packet = opCompare ∧ c.host.dataAnswer ≠ .ok) := fun ⟨op, bad⟩ => bad (answered op)
  have same : r.2.2 = u := kept
  simp only [State.readTurn, sys, ↓reduceIte, Bool.false_eq_true, data, State.readHerd, homeless, State.readArounds, true_or,
    blocks, same, noted]
  have still : (if pkOpcode c.packet = opCompare then u else u.deliver c r.1).cmds.inflight.look slot = some c := by
    split
    · exact flight
    · simpa [State.deliver_frame] using flight
  rw [still]

theorem readFrom_one_good {f : State → Nat → BlockOut × State} {u t : State} {d : List Byte} {y : BitVec 128}
    (read : f u 0 = (.good d y, t)) : readFrom f 1 0 u = ([(d, y)], none, t) := by
  simp only [readFrom, read]

theorem readFrom_one_bad {f : State → Nat → BlockOut × State} {u t : State} {x : Status}
    (read : f u 0 = (.bad x, t)) : readFrom f 1 0 u = ([], some x, t) := by
  simp only [readFrom, read]

theorem State.compareBlock_sys (plain : n.hostTallies = false) (i : Nat) (sys : n.kind = .systemNs)
    (stored : n.sysBlock (pkSlba c.packet + i) = some b) (serves : u.dieServes b.dieA = true)
    (noTag : pkAtc c.packet = false) (whole : c.host.faults = []) :
    u.compareBlock c n [] [] i =
      if b.data = (hostBlock c.host i).data then (.good b.data b.tally, u)
      else (.bad (stMiscompare (pkSlba c.packet + i)), u) := by
  simp only [State.compareBlock, plain, Bool.false_and, Bool.false_eq_true, ↓reduceIte,
    State.readBlock_sys sys stored serves noTag whole]

end

section
variable {op slot : Nat} {h : HostSide} {s : State} {c : Cmd}

/-- The registers that stand as an operation begins: the count of coarse covers alone may have advanced. -/
theorem started_reg {a : Nat} (other : a ≠ Reg.ORD_COARSENED) : (Ob.started slot h s c).reg a = s.reg a := by
  have counted : ∀ (t : State) (b : Bool), (if b then t.count Reg.ORD_COARSENED 1 else t).reg a = t.reg a := by
    intro t b
    cases b
    · rfl
    · simp only [State.count, ↓reduceIte, reg_setReg, other]
  exact counted (Ob.reserved slot h s c) _

theorem started_dieServes {dk : Nat} (serves : s.dieServes dk = true) : (Ob.started slot h s c).dieServes dk = true := by
  have dies : Reg.CHN_DIEMAP (dk / 16) ≠ Reg.ORD_COARSENED := by
    unfold Reg.CHN_DIEMAP Reg.ORD_COARSENED
    omega
  have carriers : Reg.CAR_STATE (dieCarrier dk) ≠ Reg.ORD_COARSENED := by
    unfold Reg.CAR_STATE Reg.ORD_COARSENED
    omega
  obtain ⟨-, -, -, -, -, isolated, -⟩ := started_kept slot h s c
  have usable : (Ob.started slot h s c).dieUsable dk = s.dieUsable dk := by
    simp only [State.dieUsable, started_reg dies]
  have state : (Ob.started slot h s c).carState (dieCarrier dk) = s.carState (dieCarrier dk) :=
    congrArg Reg.CAR_STATE_.STATE.get (started_reg carriers)
  rw [State.dieServes, State.carInService, usable, state, State.isIsolated, isolated]
  exact serves

/-! ### The turn of an I/O command by its opcode -/

theorem State.ioTurn_read {u : State} {n : Namespace} (code : pkOpcode c.packet = op)
    (read : op = opRead ∨ op = opGatherRead ∨ op = opCompare) (inside : pkSlba c.packet + pkNlb c.packet ≤ n.size) :
    u.ioTurn slot c n = u.readTurn slot c n := by
  rcases read with rfl | rfl | rfl <;>
    simp [State.ioTurn, code, Nat.not_lt.mpr inside, opRead, opGatherRead, opCompare, opBarrier, opTrim, opWrite, opWriteZeroes]

theorem State.ioTurn_write {u : State} {n : Namespace} (code : pkOpcode c.packet = op) (write : op = opWrite ∨ op = opWriteZeroes)
    (inside : pkSlba c.packet + pkNlb c.packet ≤ n.size) : u.ioTurn slot c n = u.writeTurn slot c n := by
  rcases write with rfl | rfl <;>
    simp [State.ioTurn, code, Nat.not_lt.mpr inside, opBarrier, opTrim, opWrite, opWriteZeroes]

theorem State.ioTurn_trim {u : State} {n : Namespace} (code : pkOpcode c.packet = opTrim)
    (inside : pkSlba c.packet + pkNlb c.packet ≤ n.size) : u.ioTurn slot c n = u.trimTurn slot c n := by
  simp [State.ioTurn, code, Nat.not_lt.mpr inside, opBarrier, opTrim]

theorem State.ioTurn_barrier {u : State} {n : Namespace} (code : pkOpcode c.packet = opBarrier)
    (inside : pkSlba c.packet + pkNlb c.packet ≤ n.size) : u.ioTurn slot c n = (.over (stOk 0), u) := by
  simp [State.ioTurn, code, Nat.not_lt.mpr inside]

/-! ### Reads (R90, R127, R297, R299, R415) -/

section
variable {n : Namespace} {b : SysBlock} (ready : Ob.Ready op slot h s c) (there : s.nss.look (pkNsid c.packet) = some n)
  (sys : n.kind = .systemNs) (plain : n.hostTallies = false) (homeless : s.herd.homed.look (pkNsid c.packet) = none)
  (one : pkNlb c.packet = 1) (inside : pkSlba c.packet < n.size) (stored : n.sysBlock (pkSlba c.packet) = some b)
  (serves : s.dieServes b.dieA = true) (noTag : pkAtc c.packet = false) (whole : h.faults = [])
include ready there sys homeless one inside stored serves noTag whole

/-- A READ or GATHER_READ of one stored block of a system namespace. -/
theorem runCommand_readSys (read : op = opRead ∨ op = opGatherRead) :
    runCommand op slot h s = .next (Ob.after
      ((((Ob.started slot h s c).deliver (Ob.startedCmd slot h s c) [(b.data, b.tally)]).setCmd slot
        { Ob.startedCmd slot h s c with changed := true }).complete slot (stOk 0))) := by
  have code : pkOpcode (Ob.startedCmd slot h s c).packet = op := by rw [startedCmd_packet, ready_opcode ready]
  have noCompare : pkOpcode (Ob.startedCmd slot h s c).packet ≠ opCompare := by
    rw [code]
    rcases read with rfl | rfl <;> decide
  have blocks : readFrom (readOne (Ob.startedCmd slot h s c) n [] []) (pkNlb (Ob.startedCmd slot h s c).packet) 0
      (Ob.started slot h s c) = ([(b.data, b.tally)], none, Ob.started slot h s c) := by
    rw [startedCmd_packet, one]
    refine readFrom_one_good ?_
    simp only [readOne, noCompare, ↓reduceIte, Nat.add_zero]
    rw [State.readBlock_sys sys (by simpa using stored) (started_dieServes serves) (by simpa using noTag) (by simpa using whole)]
  have io : isIo op = true := by rcases read with rfl | rfl <;> rfl
  have noResize : op ≠ opNsResize := by rcases read with rfl | rfl <;> decide
  rw [runCommand_io ready io noResize there,
    State.ioTurn_read code (by tauto) (by rw [startedCmd_packet]; omega),
    State.readTurn_sys sys (by rw [(started_kept slot h s c).2.1, startedCmd_packet, homeless]) (fun op => absurd op noCompare)
      blocks rfl rfl started_look]
  simp only [noCompare, ↓reduceIte, List.isEmpty_cons, Bool.not_false, Bool.or_true]
  rfl

include plain

/-- A COMPARE of one stored block of a system namespace with the host's. -/
theorem runCommand_compareSys (compare : op = opCompare) (answered : h.dataAnswer = .ok) :
    runCommand op slot h s = .next (Ob.after
      (if b.data = (hostBlock h 0).data then
        ((Ob.started slot h s c).setCmd slot { Ob.startedCmd slot h s c with changed := true }).complete slot (stOk 0)
      else
        ((Ob.started slot h s c).setCmd slot { Ob.startedCmd slot h s c with changed := c.changed }).complete slot
          (stMiscompare (pkSlba c.packet)))) := by
  subst compare
  have code : pkOpcode (Ob.startedCmd slot h s c).packet = opCompare := by rw [startedCmd_packet, ready_opcode ready]
  have blocks : readFrom (readOne (Ob.startedCmd slot h s c) n [] []) (pkNlb (Ob.startedCmd slot h s c).packet) 0
      (Ob.started slot h s c) = if b.data = (hostBlock h 0).data then ([(b.data, b.tally)], none, Ob.started slot h s c)
        else ([], some (stMiscompare (pkSlba c.packet)), Ob.started slot h s c) := by
    have compared := State.compareBlock_sys (c := Ob.startedCmd slot h s c) (u := Ob.started slot h s c) plain 0 sys
      (by simpa using stored) (started_dieServes serves) (by simpa using noTag) (by simpa using whole)
    simp only [startedCmd_host, startedCmd_packet, Nat.add_zero] at compared
    rw [startedCmd_packet, one]
    by_cases same : b.data = (hostBlock h 0).data
    · rw [if_pos same] at compared ⊢
      refine readFrom_one_good ?_
      simp only [readOne, code, ↓reduceIte, compared]
    · rw [if_neg same] at compared ⊢
      refine readFrom_one_bad ?_
      simp only [readOne, code, ↓reduceIte, compared]
  rw [runCommand_io ready rfl (by decide) there,
    State.ioTurn_read code (by tauto) (by rw [startedCmd_packet]; omega),
    State.readTurn_sys sys (by rw [(started_kept slot h s c).2.1, startedCmd_packet, homeless])
      (fun _ => by rw [startedCmd_host, answered]) blocks (by split <;> rfl) (by split <;> rfl) started_look]
  simp only [code, ↓reduceIte]
  split
  · simp only [List.isEmpty_cons, Bool.not_false, Bool.or_true]
    rfl
  · simp only [List.isEmpty_nil, Bool.not_true, Bool.or_false, startedCmd_changed]
    rfl

end

/-! ### Writes (R126, R178) -/

/-- Without a failing check and with tallies of the N9's own, every block of a write is good. -/
theorem writeGood_all {n : Namespace} (plain : n.hostTallies = false) (whole : c.host.faults = []) :
    writeGood c n = pkNlb c.packet := by
  have good : (List.range (pkNlb c.packet)).find? (fun _ => false) = none := List.find?_eq_none.mpr (by simp)
  simp [writeGood, plain, failsInside, faultsOf, whole, good]

theorem State.sysWriteTurn_whole {u : State} {n : Namespace} {pair : Nat × Nat}
    (answered : pkOpcode c.packet = opWrite → c.host.dataAnswer = .ok) (dies : u.sysDies = some pair)
    (there : u.nss.look (pkNsid c.packet) = some n) (plain : n.hostTallies = false) (whole : c.host.faults = []) :
    u.sysWriteTurn slot c = (.over (stOk 0),
      (u.sysWrite (pkNsid c.packet) ((List.range (pkNlb c.packet)).map fun i =>
        (pkSlba c.packet + i, (writeCodeword c n 9 i 0).data, (writeCodeword c n 9 i 0).tally))).updCmd slot
          fun d => { d with changed := true }) := by
  have data : ¬ (pkOpcode c.packet = opWrite ∧ c.host.dataAnswer ≠ .ok) := fun ⟨op, bad⟩ => bad (answered op)
  simp only [State.sysWriteTurn, data, dies, there, writeGood_all plain whole, writeFaults, whole, writeStatus, List.filter_nil,
    State.noteChecks, List.foldl_nil, Option.isNone_some, Bool.false_eq_true, Nat.lt_irrefl, ↓reduceIte]

section
variable {n : Namespace} {pair : Nat × Nat} (ready : Ob.Ready op slot h s c) (there : s.nss.look (pkNsid c.packet) = some n)
  (sys : n.kind = .systemNs) (plain : n.hostTallies = false) (inside : pkSlba c.packet + pkNlb c.packet ≤ n.size)
  (dies : (Ob.started slot h s c).sysDies = some pair) (whole : h.faults = [])
include ready there sys plain inside dies whole

/-- A WRITE or WRITE_ZEROES stores what its codewords hold. -/
theorem runCommand_writeSys (write : op = opWrite ∨ op = opWriteZeroes) (answered : op = opWrite → h.dataAnswer = .ok) :
    runCommand op slot h s = .next (Ob.after
      ((((Ob.started slot h s c).sysWrite (pkNsid c.packet) ((List.range (pkNlb c.packet)).map fun i =>
        (pkSlba c.packet + i, (writeCodeword (Ob.startedCmd slot h s c) n 9 i 0).data,
          (writeCodeword (Ob.startedCmd slot h s c) n 9 i 0).tally))).updCmd slot
        fun d => { d with changed := true }).complete slot (stOk 0))) := by
  have code : pkOpcode (Ob.startedCmd slot h s c).packet = op := by rw [startedCmd_packet, ready_opcode ready]
  have io : isIo op = true := by rcases write with rfl | rfl <;> rfl
  have noResize : op ≠ opNsResize := by rcases write with rfl | rfl <;> decide
  have turn : (Ob.started slot h s c).writeTurn slot (Ob.startedCmd slot h s c) n =
      (Ob.started slot h s c).sysWriteTurn slot (Ob.startedCmd slot h s c) := by
    simp [State.writeTurn, sys]
  rw [runCommand_io ready io noResize there, State.ioTurn_write code write (by simpa using inside), turn,
    State.sysWriteTurn_whole (fun w => by rw [startedCmd_host]; exact answered (code.symm.trans w)) dies
      (by rw [(started_kept slot h s c).1, startedCmd_packet, there]) plain (by simpa using whole), startedCmd_packet]
  rfl

end

theorem writeCodeword_write {n : Namespace} (code : pkOpcode c.packet = opWrite) (plain : n.hostTallies = false) (i : Nat) :
    (writeCodeword c n 9 i 0).data = (hostBlock c.host i).data ∧ (writeCodeword c n 9 i 0).tally =
      genTally (hostBlock c.host i).data (pkSlba c.packet + i) n.nstag.toNat (pkApptag c.packet) := by
  simp [writeCodeword, code, plain, mkCodeword]

theorem writeCodeword_zeroes {n : Namespace} (code : pkOpcode c.packet = opWriteZeroes) (i : Nat) :
    (writeCodeword c n 9 i 0).data = zeroBlock ∧ (writeCodeword c n 9 i 0).tally =
      genTally zeroBlock (pkSlba c.packet + i) n.nstag.toNat (pkApptag c.packet) := by
  simp [writeCodeword, code, mkCodeword, opWriteZeroes, opWrite]

end

/-- Settles O13: the block is read from its first die, and handed over or compared. -/
theorem readsComplete : Obligations.ReadsComplete := by
  intro op slot h s c n b ready there sys plain _ homeless one inside stored serves noTag whole
  have reads := runCommand_readSys ready there sys homeless one inside stored serves noTag whole
  have compares := runCommand_compareSys ready there sys plain homeless one inside stored serves noTag whole
  refine ⟨fun read => ?_, fun read => ?_, fun compare answered same => ?_, fun compare answered other => ?_⟩
  · subst read
    exact reads (.inl rfl)
  · subst read
    exact reads (.inr rfl)
  · subst compare
    exact (compares rfl answered).trans (by rw [if_pos same.symm])
  · subst compare
    exact (compares rfl answered).trans (by rw [if_neg (Ne.symm other)])

/-- Settles O14: each block's codeword is the host's block, or zeroes, with the tally of its place. -/
theorem writesComplete : Obligations.WritesComplete := by
  intro op slot h s c n pair ready there sys plain inside dies whole
  have code : pkOpcode (Ob.startedCmd slot h s c).packet = op := by rw [startedCmd_packet, ready_opcode ready]
  have writes := runCommand_writeSys ready there sys plain inside dies whole
  refine ⟨fun write answered => ?_, fun write => ?_⟩
  · subst write
    refine (writes (.inl rfl) fun _ => answered).trans ?_
    simp only [writeCodeword_write code plain, startedCmd_host, startedCmd_packet]
  · subst write
    refine (writes (.inr rfl) fun same => absurd same (by decide)).trans ?_
    simp only [writeCodeword_zeroes code, startedCmd_packet]

/-! ### Trims (R111, R122, R203) -/

theorem mem_unitsOf {slba nlb u : Nat} (h : u ∈ unitsOf slba nlb) : 0 < nlb ∧ slba / 4 ≤ u ∧ u ≤ (slba + nlb - 1) / 4 := by
  unfold unitsOf at h
  split at h
  · exact absurd h List.not_mem_nil
  · simp only [List.mem_map, List.mem_range] at h
    omega

/-- Where the range begins and ends between units, it holds each of its units whole. -/
theorem blocksIn_whole {slba nlb u : Nat} (start : slba % 4 = 0) (length : nlb % 4 = 0) (h : u ∈ unitsOf slba nlb) :
    (blocksIn u slba nlb).length = 4 := by
  obtain ⟨some', low, high⟩ := mem_unitsOf h
  have all : ∀ b ∈ List.range 4, decide (slba ≤ 4 * u + b ∧ 4 * u + b < slba + nlb) = true := fun b small => by
    have := List.mem_range.mp small
    exact decide_eq_true (by omega)
  rw [blocksIn, List.filter_eq_self.mpr all, List.length_range]

section
variable {u : State} {slot : Nat} {c : Cmd} {n : Namespace} {us : List Nat}

/-- Pages that are there need no fetch before a store (R155). -/
theorem State.fetchForStore_near (near : us.all (fun x => !u.map.away (n.mpn x)) = true) : u.fetchForStore n us = (false, u) := by
  have none' : (((us.map fun x => n.mpn x).dedup).filter fun m => u.map.away m) = [] := by
    refine List.filter_eq_nil_iff.mpr fun m listed => ?_
    obtain ⟨x, mine, rfl⟩ := List.mem_map.mp (List.mem_dedup.mp listed)
    simpa using List.all_eq_true.mp near x mine
  simp [State.fetchForStore, none']

theorem ceilDiv_zero (d : Nat) : ceilDiv 0 d = 0 := by
  unfold ceilDiv
  cases d with
  | zero => rfl
  | succ d => exact Nat.div_eq_of_lt (by omega)

/-- Without a unit that is written in part no gather stripe is needed. -/
theorem State.newStripes_nil (nsid : Nat) : u.newStripes nsid n [] = 0 := by
  unfold State.newStripes
  dsimp only
  split <;> simp [ceilDiv_zero]

theorem State.newEntries_whole {nsid slba nlb : Nat} (start : slba % 4 = 0) (length : nlb % 4 = 0) :
    u.newEntries nsid slba nlb = 0 := by
  have none' : ((unitsOf slba nlb).filter fun x =>
      decide ((blocksIn x slba nlb).length < 4) && (u.stageOf nsid x).isNone) = [] := by
    refine List.filter_eq_nil_iff.mpr fun x listed => ?_
    simp [blocksIn_whole start length listed]
  rw [State.newEntries, none', List.length_nil]

/-- A command whose whole range is trimmed has no window left. -/
theorem State.trimWindows_done (fuel : Nat) (flight : u.cmds.inflight.look slot = some c)
    (done : pkNlb c.packet ≤ c.moved) : State.trimWindows slot n fuel u = (none, u) := by
  cases fuel with
  | zero => rfl
  | succ k =>
    have none' : min (pageEnd (pkSlba c.packet + c.moved)) (pkSlba c.packet + pkNlb c.packet) ≤ pkSlba c.packet + c.moved := by
      omega
    simp only [State.trimWindows, flight, none', ↓reduceIte]

section
variable (flight : u.cmds.inflight.look slot = some c) (fresh : c.moved = 0) (some' : 0 < pkNlb c.packet)
  (page : pkSlba c.packet + pkNlb c.packet ≤ pageEnd (pkSlba c.packet)) (start : pkSlba c.packet % 4 = 0)
  (length : pkNlb c.packet % 4 = 0) (units : us = unitsOf (pkSlba c.packet) (pkNlb c.packet))
  (near : us.all (fun x => !u.map.away (n.mpn x)) = true) (charges : u.chargesFit (u.cleanPages n us) 0 = true)
  (index : u.place.index.length ≤ indexMax)
include flight fresh some' page start length units near charges index

/-- R203: a range of whole units within one map page is trimmed in one window. -/
theorem State.trimWindows_one (fuel : Nat) :
    State.trimWindows slot n (fuel + 1) u =
      (none, ((u.trimRange (pkNsid c.packet) (pkSlba c.packet) (pkNlb c.packet)).storeLines c n us).updCmd slot
        fun d => { d with moved := d.moved + pkNlb c.packet, changed := true }) := by
  have window : min (pageEnd (pkSlba c.packet)) (pkSlba c.packet + pkNlb c.packet) = pkSlba c.packet + pkNlb c.packet :=
    Nat.min_eq_right page
  have more : ¬ pkSlba c.packet + pkNlb c.packet ≤ pkSlba c.packet := by omega
  have parts : (us.filter fun x => decide ((blocksIn x (pkSlba c.packet) (pkNlb c.packet)).length < 4)) = [] := by
    refine List.filter_eq_nil_iff.mpr fun x listed => ?_
    simp [blocksIn_whole start length (units ▸ listed)]
  have room : ¬ indexMax < u.place.index.length := Nat.not_lt.mpr index
  simp only [State.trimWindows, flight, fresh, Nat.add_zero, window, more, ↓reduceIte, Nat.add_sub_cancel_left, ← units,
    State.fetchForStore_near near, parts, State.newStripes_nil, Nat.mul_zero, charges, Bool.not_true, Bool.false_eq_true,
    State.newEntries_whole start length, room]
  refine State.trimWindows_done (c := { c with moved := c.moved + pkNlb c.packet, changed := true }) fuel ?_ (by simp [fresh])
  simp only [State.updCmd, look_upd_self, State.storeLines_frame, State.trimRange_frame, flight, Option.map_some]

theorem State.trimTurn_one (room : u.jobsFull (pkNsid c.packet) (pkSlba c.packet) (pkNlb c.packet) = false)
    (homeless : u.herd.homed.look (pkNsid c.packet) = none) :
    u.trimTurn slot c n = (.over (stOk 0),
      ((((u.trimRange (pkNsid c.packet) (pkSlba c.packet) (pkNlb c.packet)).storeLines c n us).updCmd slot
        fun d => { d with moved := d.moved + pkNlb c.packet, changed := true }).createJobs (pkNsid c.packet)
          (pkSlba c.packet) (pkNlb c.packet)).stagePressure) := by
  simp only [State.trimTurn, room, Bool.false_eq_true, ↓reduceIte, State.sweepFirst, homeless, Bool.not_true,
    State.trimWindows_one flight fresh some' page start length units near charges index]

end

end

/-- Settles O15: a barrier ends as it is admitted; a trim of whole units within one page is one window. -/
theorem trimAndBarrierComplete : Obligations.TrimAndBarrierComplete := by
  refine ⟨fun slot h s c n ready there inside => ?barrier, fun slot h s u c n us ready begun there _ homeless room fresh some' inside
    page start length units near charges index => ?trim⟩
  case barrier =>
    refine (runCommand_io ready rfl (by decide) there).trans ?_
    rw [State.ioTurn_barrier (by simp [ready_opcode ready]) (by simpa using inside)]
    rfl
  case trim =>
    subst begun
    have kept := started_kept slot h s c
    refine (runCommand_io ready rfl (by decide) there).trans ?_
    rw [State.ioTurn_trim (by simp [ready_opcode ready]) (by simpa using inside),
      State.trimTurn_one started_look (by simpa using fresh) (by simpa using some') (by simpa using page) (by simpa using start)
        (by simpa using length) (by simpa using units) near charges index (by simpa using room)
        (by rw [kept.2.1, startedCmd_packet, homeless])]
    simp only [startedCmd_packet]
    rfl

end Sys2Proof.Machine

/-! ## Admission in order, and waits that end (R116 to R122, R204, R399) -/

namespace Sys2Proof.Machine

open Sys2Proof Sys2Proof.Laws

theorem look_upd_of_ne {α : Type} (m : SMap α) {k j : Nat} (f : α → α) (other : j ≠ k) : (m.upd k f).look j = m.look j := by
  induction m with
  | nil => rfl
  | cons e m ih =>
    simp only [SMap.upd, List.map_cons]
    by_cases own : e.1 = k
    · have miss : e.1 ≠ j := fun same => other (same.symm.trans own)
      simp only [own, ↓reduceIte, SMap.look] at miss ⊢
      rw [if_neg miss, if_neg miss]
      exact ih
    · simp only [own, ↓reduceIte, SMap.look]
      split
      · rfl
      · exact ih

/-! ### The head of the admission order (R116, R118) -/

section
variable {slot : Nat} {rest : List Nat} {s : State} {c : Cmd} (queue : s.cmds.admission = slot :: rest)
  (flight : s.cmds.inflight.look slot = some c)
include queue flight

theorem exec_commandAdmit : exec .commandAdmit s = answer (s.serving && s.lockRoom slot c) s
    (State.admitNow { s with cmds := { s.cmds with admission := rest } } slot c) := by
  change execCommandAdmit s = _
  simp only [execCommandAdmit, queue, flight]

theorem exec_commandAdmit_room (serving : s.serving = true)
    (room : s.cmds.locks.length + (s.lockList slot c).length ≤ lockEntries) :
    exec .commandAdmit s = .next (State.admitNow { s with cmds := { s.cmds with admission := rest } } slot c) := by
  rw [exec_commandAdmit queue flight, answer_of (by simp [serving, State.lockRoom, room])]

end

/-- A command that finds an earlier conflict waits behind its entries, and nothing but its stage and the locks changes. -/
theorem State.admitNow_blocked {u : State} {slot : Nat} {c : Cmd} (flight : u.cmds.inflight.look slot = some c)
    (blocked : lockBlocked (u.cmds.locks ++ u.lockList slot c) slot = true) :
    (u.admitNow slot c).cmds.admission = u.cmds.admission ∧
      (u.admitNow slot c).cmds.locks = u.cmds.locks ++ u.lockList slot c ∧
      (u.admitNow slot c).cmds.inflight.look slot = some { c with stage := .waitLock } ∧
      (∀ j, j ≠ slot → (u.admitNow slot c).cmds.inflight.look j = u.cmds.inflight.look j) ∧
      (u.admitNow slot c).out = u.out ∧ (u.admitNow slot c).media = u.media := by
  have counted : ∀ (b : Bool), (if b then u.count Reg.ORD_COARSENED 1 else u).cmds = u.cmds ∧
      (if b then u.count Reg.ORD_COARSENED 1 else u).out = u.out ∧
      (if b then u.count Reg.ORD_COARSENED 1 else u).media = u.media := by
    intro b
    cases b <;> exact ⟨rfl, rfl, rfl⟩
  obtain ⟨cmds, out, media⟩ := counted (u.lockCoarse c)
  simp only [State.admitNow, blocked, ↓reduceIte, State.updCmd, cmds, out, media, look_upd_self, flight, Option.map_some,
    true_and, and_true]
  exact fun j other => look_upd_of_ne _ _ other

theorem commandAdmitted : Ob.CommandAdmitted := by
  refine ⟨fun slot rest s c serving queue flight room => exec_commandAdmit_room queue flight serving room,
    fun slot rest s c serving queue flight room blocked => ?_, fun slot rest s c queue flight full => ?_⟩
  · exact ⟨_, exec_commandAdmit_room queue flight serving room,
      State.admitNow_blocked (u := { s with cmds := { s.cmds with admission := rest } }) flight blocked⟩
  · rw [exec_commandAdmit queue flight]
    simp [answer, State.lockRoom, Nat.not_le.mpr full]

/-! ### Waits of one command (R116, R120 to R122, R204, R245, R364, R399) -/

/-- R399: with the class's turn and its pips free, asking is having. -/
theorem State.askPips_free {s : State} {slot : Nat} {c : Cmd} (turn : s.classWaits c.cls = false)
    (pips : s.pipsFree c.cls (s.demand c.packet) = true) : s.askPips slot c = s.reserve slot c := by
  simp [State.askPips, turn, pips]

section
variable {slot : Nat} {s : State} {c : Cmd} (flight : s.cmds.inflight.look slot = some c)
include flight

theorem State.goOn_of {st : Stage} {ok : Cmd → Bool} (f : State → Cmd → State) (stage : c.stage = st) (cond : ok c = true) :
    s.goOn slot st ok f = f s c := by
  simp [State.goOn, flight, stage, cond]

theorem State.goOn_stays {st : Stage} {ok : Cmd → Bool} (f : State → Cmd → State) (cond : ok c = false) :
    s.goOn slot st ok f = s := by
  simp [State.goOn, flight, cond]

theorem State.retry_of {st : Stage} (stage : c.stage = st) : s.retry slot st = s.perform slot :=
  State.goOn_of flight _ stage rfl

theorem perform_barrier {n : Namespace} (code : pkOpcode c.packet = opBarrier) (there : s.nss.look (pkNsid c.packet) = some n)
    (inside : pkSlba c.packet + pkNlb c.packet ≤ n.size) : s.perform slot = Ob.after (s.complete slot (stOk 0)) := by
  have io : isIo opBarrier = true := rfl
  have noResize : opBarrier ≠ opNsResize := by decide
  simp only [State.perform, flight, code, io, there, noResize, true_or, ↓reduceIte, State.ioTurn_barrier code inside]
  rfl

end

theorem pipsGranted {cls slot : Nat} {s : State} {c : Cmd}
    (first : s.pools.pipWaits.find? (fun e => decide (e.1 = cls)) = some (cls, slot))
    (flight : s.cmds.inflight.look slot = some c) :
    exec (.pipReserveGrant cls) s = answer (s.serving && s.pipsFree cls (s.demand c.packet)) s
      (State.reserve { s with pools := { s.pools with pipWaits := s.pools.pipWaits.erase (cls, slot) } } slot c) := by
  change execPipReserveGrant cls s = _
  simp only [execPipReserveGrant, first, flight]

theorem waitsEnd : Ob.WaitsEnd := by
  refine ⟨fun slot s c serving flight => ⟨fun stage free => ?lock, fun blocked => ?blocked, fun stage => ?space,
    fun stage => ?entry, fun stage => ?charge, fun stage code order turn pips => ?barrier,
    fun stage token order turn pips => ?token, fun order => ?order⟩,
    fun cls slot s c serving first flight => ⟨fun pips => ?granted, fun none' => ?refused⟩,
    fun slot s c n flight => perform_barrier flight⟩
  case lock => exact (answer_of (by simp [serving, free]) _ _).trans (congrArg _ (State.retry_of flight stage))
  case blocked =>
    change answer (s.serving && !lockBlocked s.cmds.locks slot) s _ = _
    simp [answer, blocked]
  case space => exact (answer_of serving _ _).trans (congrArg _ (State.retry_of flight stage))
  case entry => exact (answer_of serving _ _).trans (congrArg _ (State.retry_of flight stage))
  case charge => exact (answer_of serving _ _).trans (congrArg _ (State.retry_of flight stage))
  case barrier =>
    refine (answer_of serving _ _).trans (congrArg _ ?_)
    rw [State.goOn_of flight _ stage (by simp [code, order]), State.askPips_free turn pips]
  case token =>
    refine (answer_of serving _ _).trans (congrArg _ ?_)
    rw [State.goOn_of flight _ stage (by simp [token, order]), State.askPips_free turn pips]
  case order =>
    exact ⟨(answer_of serving _ _).trans (congrArg _ (State.goOn_stays flight _ (by simp [order]))),
      (answer_of serving _ _).trans (congrArg _ (State.goOn_stays flight _ (by simp [order])))⟩
  case granted => rw [pipsGranted first flight, answer_of (by simp [serving, pips])]
  case refused =>
    rw [pipsGranted first flight]
    simp [answer, none']

/-- Settles O22: the head of the admission order by its room, and each wait by what ends it. -/
theorem admissionAndWaits : Obligations.AdmissionAndWaits := ⟨commandAdmitted, waitsEnd⟩

end Sys2Proof.Machine

/-! ## Staging, and copies that are installed (R197, R228, R230) -/

namespace Sys2Proof.Machine

open Sys2Proof Sys2Proof.Laws

/-! ### Events that stand until they are acknowledged (R55, R58) -/

/-- From one state to another no event is lost. -/
def EventsKept (s t : State) : Prop := ∀ a b, (s.statOf a).isSet b = true → (t.statOf a).isSet b = true

theorem EventsKept.refl (s : State) : EventsKept s s := fun _ _ => id

theorem EventsKept.trans {s t u : State} (first : EventsKept s t) (second : EventsKept t u) : EventsKept s u :=
  fun a b => second a b ∘ first a b

theorem EventsKept.of_stat {s t : State} (same : t.stat = s.stat) : EventsKept s t := fun a b set => by
  rw [State.statOf_congr same]
  exact set

theorem EventsKept.ite {s t u : State} {p : Prop} [Decidable p] (first : EventsKept s t) (second : EventsKept s u) :
    EventsKept s (if p then t else u) := by
  split
  · exact first
  · exact second

theorem State.raiseAt_events (s : State) (sa ea b : Nat) : EventsKept s (s.raiseAt sa ea b) := fun a c set => by
  rw [State.statOf_raiseAt]
  split
  next here => rw [StatReg.isSet_event, ← here, set, Bool.or_true]
  next => exact set

theorem State.raise_events (s : State) (w b : Nat) : EventsKept s (s.raise w b) := s.raiseAt_events _ _ _

theorem State.raiseFn_events (s : State) (fk b : Nat) : EventsKept s (s.raiseFn fk b) := fun a c set => by
  rw [State.statOf_raiseFn]
  split
  next here => rw [StatReg.isSet_event, ← here, set, Bool.or_true]
  next => exact set

theorem State.raiseFns_events (s : State) (fks : List Nat) (b : Nat) : EventsKept s (s.raiseFns fks b) := by
  unfold State.raiseFns
  induction fks generalizing s with
  | nil => exact .refl s
  | cons fk fks ih => exact (s.raiseFn_events fk b).trans (ih _)

theorem State.record_events (s : State) (window unit kind detail : Nat) (data : List Byte) :
    EventsKept s (s.record window unit kind detail data) := by
  have logged (n : Nat) (l : List LogEntry) : EventsKept s { s.takeStamps 1 with free := n, evlog := l } := .of_stat rfl
  have counted (t : State) (a n : Nat) : EventsKept t (t.count a n) := .of_stat rfl
  unfold State.record
  dsimp only
  split
  · exact .refl s
  split
  · exact logged _ _
  · refine EventsKept.trans ?_ (counted _ _ _)
    split
    · exact (logged _ _).trans (State.raise_events _ _ _)
    · exact logged _ _

theorem State.raiseRecord_events (s : State) (w b unit : Nat) (data : List Byte) : EventsKept s (s.raiseRecord w b unit data) :=
  (s.raise_events w b).trans (State.record_events _ _ _ _ _ _)

theorem State.enterMode_events (s : State) (m : Nat) : EventsKept s (s.enterMode m) := by
  unfold State.enterMode
  dsimp only
  split
  · exact .refl s
  · refine EventsKept.trans ?_ (State.record_events _ _ _ _ _ _)
    refine EventsKept.trans ?_ (State.raiseFns_events _ _ _)
    refine EventsKept.trans ?_ (State.raise_events _ _ _)
    exact .of_stat rfl

theorem State.reason_events (s : State) (r : Nat) (holds : Bool) : EventsKept s (s.reason r holds) := by
  have followed : ∀ t : State, EventsKept t t.followReasons := fun t => .ite (t.enterMode_events _) (.refl t)
  have written : ∀ (t : State) (a : Nat) (v : DWord), EventsKept t (t.setReg a v) := fun _ _ _ => .of_stat rfl
  unfold State.reason
  split
  · exact .refl s
  · exact (((written _ _ _).trans (State.raise_events _ _ _)).trans (State.record_events _ _ _ _ _ _)).trans (followed _)

theorem State.followCapacity_events (s : State) : EventsKept s s.followCapacity := by
  have shown : ∀ (t : State) (a : Nat) (f : Fld) (n : Nat), EventsKept t (t.setFld a f n) := fun _ _ _ _ => .of_stat rfl
  refine EventsKept.trans ?_ (State.reason_events _ _ _)
  exact .ite (.refl s) (((shown _ _ _ _).trans (State.raise_events _ _ _)).trans (State.raiseFns_events _ _ _))

theorem State.retireBlock_events (s : State) (dk block : Nat) : EventsKept s (s.retireBlock dk block) := by
  unfold State.retireBlock
  dsimp only
  refine EventsKept.trans ?_ (State.followCapacity_events _)
  refine EventsKept.trans ?_ (State.raiseRecord_events _ _ _ _ _)
  refine .of_stat ?_
  split <;> rfl

theorem State.queueRetire_events (s : State) (dk block : Nat) : EventsKept s (s.queueRetire dk block) := by
  unfold State.queueRetire
  exact .ite (.refl s) (.ite (.of_stat rfl) (s.retireBlock_events dk block))

theorem State.raise_isSet (s : State) (w b : Nat) : ((s.raise w b).statOf (Reg.HDR_STAT w)).isSet b = true := by
  simp [State.statOf_raise, StatReg.isSet_event]

/-! ### Staging (R197, R205) -/

theorem State.up_of_serving {s : State} (h : s.serving = true) : s.up = true := by
  simp only [State.serving, State.up, Bool.and_eq_true, decide_eq_true_eq] at h ⊢
  obtain ⟨run, mode⟩ := h
  refine ⟨run, ?_⟩
  rcases mode with m | m | m <;> rw [m] <;> decide

theorem State.not_holdup_of_up {s : State} (h : s.up = true) : s.mode ≠ modeHoldup := by
  simp only [State.up, Bool.and_eq_true, decide_eq_true_eq] at h
  exact h.2

theorem stagingGoesOn : Ob.StagingGoesOn := by
  refine ⟨fun a b s serving => answer_of serving _ _, fun a b s serving none' => ?idle, fun stream i g s up open' limit => ?age,
    fun i g s up there shut placed => ?install, fun i g s there open' => ?notShut⟩
  case idle =>
    refine (answer_of serving _ _).trans (congrArg _ ?_)
    have nothing : State.packFlush true (s.place.packs.length + 1) s (pairKey (a, b)) = s := by
      simp [State.packFlush, none']
    rw [nothing]
    rfl
  case age =>
    change execGatherAgeExpire stream s = _
    simp only [execGatherAgeExpire, open']
    exact answer_of (by simp [up, State.not_holdup_of_up up, limit]) _ _
  case install =>
    have drained : g.placed.isEmpty = false := by simpa using placed
    change execGatherInstall i s = _
    simp only [execGatherInstall, there, drained, Bool.false_eq_true, ↓reduceIte]
    exact answer_of (by simp [up, State.not_holdup_of_up up, shut]) _ _
  case notShut =>
    change execGatherInstall i s = _
    simp [execGatherInstall, there, answer, open']

/-! ### Copies (R228, R230) -/

theorem exec_copyStripeInstall {i : Nat} {c : CopyStripe} {s : State} (verified : Bool) (up : s.up = true)
    (there : s.place.copies.look i = some c) :
    exec (.copyStripeInstall i verified) s = .next
      (let t : State := { s with place := { s.place with copies := s.place.copies.del i } }
       if verified then t.installCopy c else t.failCopy c) := by
  change execCopyStripeInstall i verified s = _
  simp only [execCopyStripeInstall, there]
  exact answer_of (by simp [up, State.not_holdup_of_up up]) _ _

/-- An entry that is stored is the one that stands (R148). -/
theorem MapState.entries_setEntry (m : MapState) (key : Nat) (e : BitVec 40) :
    ((m.setEntry key e).entries.look key).getD 0 = e := by
  unfold MapState.setEntry
  dsimp only
  split
  next zero => rw [look_del_self, zero, Option.getD_none]
  next => rw [look_put_self, Option.getD_some]

theorem State.entryOf_congr {s t : State} (h : t.map.entries = s.map.entries) (n : Namespace) (u : Nat) :
    t.entryOf n u = s.entryOf n u := by
  simp [State.entryOf, h]

theorem State.entryOf_mapSet (s : State) (n : Namespace) (u : Nat) (e : BitVec 40) : (s.mapSet n u e).entryOf n u = e := by
  have stored : ∀ t : State, (t.storeEntry n u e).entryOf n u = e := fun t => t.map.entries_setEntry (n.entryKey u) e
  exact stored _

/-- What the end of an installation reviews, it leaves in the map and on the medium (R213). -/
theorem State.installCopy_kept (s : State) (c : CopyStripe) :
    (s.installCopy c).map = (c.items.foldl (installItem c.rebuild) s).map ∧
      (s.installCopy c).media = (c.items.foldl (installItem c.rebuild) s).media := by
  unfold State.installCopy
  dsimp only
  split <;> simp [State.followRedundancy_frame, State.raise_frame]

/-- R228: an entry that has changed since stays. -/
theorem installItem_stale {s : State} {x : CopyItem} (rebuild : Bool)
    (stale : ∀ n, s.nss.look x.nsid = some n → ¬(meV (s.entryOf n x.unit) = true ∧ meAddr (s.entryOf n x.unit) = x.src)) :
    installItem rebuild s x = s := by
  unfold installItem
  split
  · rfl
  next n there => exact if_neg (stale n there)

theorem installItem_current {s : State} {x : CopyItem} {n : Namespace} (rebuild : Bool) (there : s.nss.look x.nsid = some n)
    (valid : meV (s.entryOf n x.unit) = true) (same : meAddr (s.entryOf n x.unit) = x.src) :
    (installItem rebuild s x).entryOf n x.unit = mkEntry false false (meS (s.entryOf n x.unit)) true x.dst := by
  simp only [installItem, there, valid, same, and_self, ↓reduceIte]
  refine Eq.trans (State.entryOf_congr ?_ n x.unit) (s.entryOf_mapSet n x.unit _)
  split <;> rfl

theorem foldl_installItem_stale (rebuild : Bool) (l : List CopyItem) {s : State}
    (stale : ∀ x ∈ l, ∀ n, s.nss.look x.nsid = some n →
      ¬(meV (s.entryOf n x.unit) = true ∧ meAddr (s.entryOf n x.unit) = x.src)) : l.foldl (installItem rebuild) s = s := by
  induction l with
  | nil => rfl
  | cons x l ih =>
    rw [List.foldl_cons, installItem_stale rebuild (stale x List.mem_cons_self)]
    exact ih fun y listed => stale y (List.mem_cons_of_mem x listed)

theorem State.failCopy_shows (s : State) (c : CopyStripe) : (s.failCopy c).map = s.map ∧ (s.failCopy c).nss = s.nss ∧
    ((s.failCopy c).statOf (Reg.HDR_STAT 8)).isSet 21 = true := by
  have closed : ∀ (t : State) (k : Nat), EventsKept t (t.closeBand k) := fun t k => .of_stat (by simp [State.closeBand_frame])
  have copied : ∀ (t : State) (a b : Nat) (r : Bool) (l : List (Live × List Codeword)), EventsKept t (t.programCopy a b r l) :=
    fun t a b r l => .of_stat (by simp [State.programCopy_frame])
  unfold State.failCopy
  dsimp only
  cases c.items.head? with
  | none =>
    refine ⟨?_, ?_, ((closed _ _).trans (copied _ _ _ _ _)) _ _ (s.raise_isSet 8 21)⟩
    · simp [State.programCopy_frame, State.closeBand_frame, State.raise_frame]
    · simp [State.programCopy_frame, State.closeBand_frame, State.raise_frame]
  | some x =>
    refine ⟨?_, ?_, (((closed _ _).trans (State.queueRetire_events _ _ _)).trans (copied _ _ _ _ _)) _ _ (s.raise_isSet 8 21)⟩
    · simp [State.programCopy_frame, State.queueRetire_frame, State.closeBand_frame, State.raise_frame]
    · simp [State.programCopy_frame, State.queueRetire_frame, State.closeBand_frame, State.raise_frame]

theorem copiesInstall : Ob.CopiesInstall := by
  refine ⟨fun i c s up there => ⟨exec_copyStripeInstall true up there, exec_copyStripeInstall false up there⟩,
    fun x b r n s there valid same => ?_, fun c s stale => ?_, fun c s => s.failCopy_shows c⟩
  · rw [State.entryOf_congr (congrArg MapState.entries (s.installCopy_kept { band := b, rebuild := r, items := [x] }).1)]
    exact installItem_current r there valid same
  · obtain ⟨map, media⟩ := s.installCopy_kept c
    rw [map, media, foldl_installItem_stale c.rebuild c.items stale]
    exact ⟨rfl, rfl⟩

/-- Settles O25: a stripe drains and is installed as the map's entries still stand. -/
theorem stagingAndCopies : Obligations.StagingAndCopies := ⟨stagingGoesOn, copiesInstall⟩

end Sys2Proof.Machine

/-! ## The programming guard, channel training and the decoding ladder (R253, R273, R276, R304, R306) -/

namespace Sys2Proof.Machine

open Sys2Proof Sys2Proof.Laws

/-! ### The guard (R273) -/

/-- A list counts on from a number exactly when each of its places holds the number plus the place. -/
theorem eq_map_range_iff (l : List Nat) (n : Nat) :
    l = (List.range l.length).map (fun i => n + i) ↔ ∀ i x, l[i]? = some x → x = n + i := by
  constructor
  · intro counted i x at_
    rw [counted] at at_
    simp only [List.getElem?_map, Option.map_eq_some_iff] at at_
    obtain ⟨j, here, rfl⟩ := at_
    rw [(List.getElem?_eq_some_iff.mp here).2.symm, List.getElem_range]
  · intro each
    refine List.ext_getElem (by simp) fun i inside _ => ?_
    simpa using each i l[i] (List.getElem?_eq_getElem inside)

/-- Settles O28: planes that count on from the next one lie at or after it, so the order check holds the place check. -/
theorem guardExact : Obligations.GuardExact := by
  intro dk d s
  rw [← eq_map_range_iff]
  generalize planes : s.descPlanes dk d = l
  have later : l = (List.range l.length).map (fun i => (s.blockOf dk d.block).next + i) →
      l.any (fun x => decide (x < (s.blockOf dk d.block).next)) = false := fun counted => by
    rw [counted]
    simp
  by_cases state : (s.blockOf dk d.block).st ≠ .erased ∧ (s.blockOf dk d.block).st ≠ .opened
  · simp [State.guardCode, state]
  · have open' : (s.blockOf dk d.block).st = .erased ∨ (s.blockOf dk d.block).st = .opened := by tauto
    by_cases counted : l = (List.range l.length).map (fun i => (s.blockOf dk d.block).next + i)
    · simp only [State.guardCode, planes, state, later counted, or_self, Bool.false_eq_true, ↓reduceIte, ne_eq]
      rw [if_neg (not_not.mpr counted)]
      exact ⟨fun _ => ⟨open', counted⟩, fun _ => rfl⟩
    · simp only [State.guardCode, planes, ne_eq]
      rw [if_pos counted]
      split <;> simp [counted]

/-! ### Training (R253) -/

theorem foldl_min_le {α : Type} (f : α → Nat) (l : List α) (m : Nat) : l.foldl (fun m x => min m (f x)) m ≤ m := by
  induction l generalizing m with
  | nil => exact Nat.le_refl m
  | cons x l ih => exact (ih _).trans (Nat.min_le_left _ _)

theorem State.supportedRate_le (s : State) (ch : Nat) : s.supportedRate ch ≤ 7 := by
  unfold State.supportedRate
  split
  · exact Nat.zero_le 7
  · exact foldl_min_le _ _ 7

theorem trainFrom_nil (n : Nat) : trainFrom n [] = some n := by
  cases n <;> rfl

theorem State.trainChannel_succeeds (s : State) (ch : Nat) (some' : s.usableDies ch ≠ []) :
    s.trainChannel ch [] = ((s.setFld (Reg.CHN_RATE ch) Reg.CHN_RATE_.SUPPORTED (s.supportedRate ch)).setFld (Reg.CHN_RATE ch)
      Reg.CHN_RATE_.CURRENT (min (s.supportedRate ch) (s.fld (Reg.CHN_RATE ch) Reg.CHN_RATE_.TARGET))).setFld (Reg.CHN_RATE ch)
        Reg.CHN_RATE_.FALLBACK 0 := by
  have dies : (s.usableDies ch).isEmpty = false := by simpa using some'
  simp only [State.trainChannel, dies, Bool.false_eq_true, ↓reduceIte, trainFrom_nil, Nat.lt_irrefl]

theorem trainChannel_current (s : State) (ch : Nat) (some' : s.usableDies ch ≠ []) :
    (s.trainChannel ch []).fld (Reg.CHN_RATE ch) Reg.CHN_RATE_.CURRENT =
        min (s.supportedRate ch) (s.fld (Reg.CHN_RATE ch) Reg.CHN_RATE_.TARGET) ∧
      (s.trainChannel ch []).fld (Reg.CHN_RATE ch) Reg.CHN_RATE_.FALLBACK = 0 := by
  have small : min (s.supportedRate ch) (s.fld (Reg.CHN_RATE ch) Reg.CHN_RATE_.TARGET) < 2 ^ 4 :=
    Nat.lt_of_le_of_lt ((Nat.min_le_left _ _).trans (s.supportedRate_le ch)) (by decide)
  rw [State.trainChannel_succeeds s ch some']
  refine ⟨?_, ?_⟩
  · rw [fld_setFld_of_disjoint _ _ _ _ _ (by decide) (by decide) (by decide), fld_setFld_self _ _ _ _ (by decide) (by decide)]
    exact Nat.mod_eq_of_lt small
  · rw [fld_setFld_self _ _ _ _ (by decide) (by decide), Nat.zero_mod]

/-! ### The ladder (R304, R306) -/

theorem exec_codewordDecode {unit slot step : Nat} (decodes : Bool) {s : State} {p : PagePlane} {c : Codeword}
    (run : s.running = true) (four : slot < 4) (page : s.media.pages.look unit = some p) (word : p.slots[slot]? = some c)
    (current : step = (s.media.ladder.look (unit * 4 + slot)).getD 0) (ladder : step ≤ s.maxStep) :
    exec (.codewordDecode unit slot step decodes) s = .next
      (if decodes then { s with media := { s.media with
        pages := s.media.pages.upd unit fun p => { p with slots := p.slots.set slot { c with step := some step } }
        ladder := s.media.ladder.del (unit * 4 + slot) } }
      else if step < s.maxStep then
        { s with media := { s.media with ladder := s.media.ladder.put (unit * 4 + slot) (step + 1) } }
      else { s with media := { s.media with
        pages := s.media.pages.upd unit fun p => { p with slots := p.slots.set slot { c with step := none } }
        ladder := s.media.ladder.del (unit * 4 + slot) } }) := by
  change execCodewordDecode unit slot step decodes s = _
  simp only [execCodewordDecode, page, Option.bind_some, word]
  exact answer_of (by simp [run, four, ← current, ladder]) _ _

/-- Settles O30: the training that succeeds is written field by field; the ladder by what the codeword's step did. -/
theorem channelsAndLadder : Obligations.ChannelsAndLadder := by
  refine ⟨fun src ch l s up inside served => ?retrain, fun src ch v l s up inside served armed new => ?target,
    fun ch s some' => trainChannel_current s ch some', fun ch s run inside joined => ?fault,
    fun unit slot step s p c run four page word current ladder => ⟨?decodes, fun more => ?next, fun last => ?none⟩⟩
  case retrain =>
    exact (answer_of (by simp [up, inside]) _ _).trans (congrArg _ (State.access_served served _))
  case target =>
    have other : (s.disarm src 9).fld (Reg.CHN_RATE ch) Reg.CHN_RATE_.TARGET ≠ v.toNat / 2 ^ 20 % 16 := new
    refine (answer_of (by simp [up, inside]) _ _).trans (congrArg _ ?_)
    rw [State.access_served served, State.keyed_armed _ armed (.inr (.inl (by decide)))]
    exact if_neg other
  case fault => exact answer_of (by simp [run, inside, joined]) _ _
  case decodes => exact (exec_codewordDecode true run four page word current ladder).trans (by rw [if_pos rfl])
  case next =>
    exact (exec_codewordDecode false run four page word current ladder).trans (by rw [if_neg Bool.false_ne_true, if_pos more])
  case none =>
    exact (exec_codewordDecode false run four page word current ladder).trans
      (by rw [if_neg Bool.false_ne_true, if_neg (Nat.not_lt.mpr last.ge)])

end Sys2Proof.Machine

/-! ## Media carriers (R278 to R290; log entries 45 and 51) -/

namespace Sys2Proof.Machine

open Sys2Proof Sys2Proof.Laws

/-! ### CAR_STATE (R290, Table 21) -/

theorem carState_setFld_state (s : State) (c n : Nat) (small : n < 16) :
    (s.setFld (Reg.CAR_STATE c) Reg.CAR_STATE_.STATE n).carState c = n := by
  rw [State.carState, fld_setFld_self _ _ _ _ (by decide) (by decide)]
  exact Nat.mod_eq_of_lt small

/-- A field of CAR_STATE beside its state and its indicator stays over a change of state. -/
theorem fld_setCarState_of_apart (s : State) (c st : Nat) (f : Fld) (order : f.lo ≤ f.hi) (below : f.hi < 26) :
    (s.setCarState c st).fld (Reg.CAR_STATE c) f = s.fld (Reg.CAR_STATE c) f := by
  have state : ∀ (t : State) (n : Nat), (t.setFld (Reg.CAR_STATE c) Reg.CAR_STATE_.STATE n).fld (Reg.CAR_STATE c) f =
      t.fld (Reg.CAR_STATE c) f := fun t n =>
    fld_setFld_of_disjoint _ _ _ _ _ (by decide) order (.inl (below.trans (by decide)))
  have indicator : ∀ (t : State) (n : Nat), (t.setFld (Reg.CAR_STATE c) Reg.CAR_STATE_.INDICATOR n).fld (Reg.CAR_STATE c) f =
      t.fld (Reg.CAR_STATE c) f := fun t n => fld_setFld_of_disjoint _ _ _ _ _ (by decide) order (.inl below)
  unfold State.setCarState
  dsimp only
  split
  · rw [state]
  · rw [indicator, state]

theorem carState_setFld_of_apart (s : State) (c n : Nat) (f : Fld) (order : f.lo ≤ f.hi) (below : f.hi < 28) :
    (s.setFld (Reg.CAR_STATE c) f n).carState c = s.carState c :=
  fld_setFld_of_disjoint _ _ _ _ _ order (by decide) (.inr below)

theorem carState_setCarState (s : State) (c st : Nat) (small : st < 16) : (s.setCarState c st).carState c = st := by
  unfold State.setCarState
  dsimp only
  split
  · exact carState_setFld_state s c st small
  · rw [carState_setFld_of_apart _ _ _ _ (by decide) (by decide)]
    exact carState_setFld_state s c st small

theorem State.carState_lt (s : State) (c : Nat) : s.carState c < 16 := Fld.get_lt _ _

theorem State.carState_setCarrier (s : State) (c : Nat) (x : Carrier) : (s.setCarrier c x).carState c = s.carState c := rfl

/-- R278: the end of LOCATE leaves the state. -/
theorem State.carState_endLocate (s : State) (c : Nat) : (s.endLocate c).carState c = s.carState c := by
  unfold State.endLocate
  split
  · exact carState_setCarState _ _ _ (s.carState_lt c)
  · rfl

theorem reg_setCarState_of_ne (s : State) (c st : Nat) {a : Nat} (other : a ≠ Reg.CAR_STATE c) :
    (s.setCarState c st).reg a = s.reg a := by
  unfold State.setCarState
  dsimp only
  split
  · rw [reg_setFld_of_ne _ _ _ _ _ other]
  · rw [reg_setFld_of_ne _ _ _ _ _ other, reg_setFld_of_ne _ _ _ _ _ other]

theorem State.reg_raiseRecord (s : State) (w b unit : Nat) (data : List Byte) {a : Nat} (stamp : a ≠ Reg.MOD_DSEQ)
    (overwritten : a ≠ Reg.EVT_OVERWRITTEN) : (s.raiseRecord w b unit data).reg a = s.reg a :=
  (State.reg_record _ _ _ _ _ _ stamp overwritten).trans (State.reg_raise _ _ _ _)

/-! ### Slot inputs (R278, R281, R283, R284, R288) -/

/-- AUTO_ON stands in a register that a slot's own transitions do not write. -/
theorem fld_autoOn_kept (s : State) (c : Nat) :
    State.fld (State.raiseRecord ((s.setFld (Reg.CAR_STATE c) Reg.CAR_STATE_.PRESENT 1).setCarState c 1) 10 16 c
      [BitVec.ofNat 8 c]) Reg.CAR_CTRL Reg.CAR_CTRL_.AUTO_ON = s.fld Reg.CAR_CTRL Reg.CAR_CTRL_.AUTO_ON := by
  have other : Reg.CAR_CTRL ≠ Reg.CAR_STATE c := by
    unfold Reg.CAR_CTRL Reg.CAR_STATE
    omega
  rw [State.fld, State.reg_raiseRecord _ _ _ _ _ (by decide) (by decide), reg_setCarState_of_ne _ _ _ other,
    reg_setFld_of_ne _ _ _ _ _ other]
  rfl

theorem slotInputs : Ob.SlotInputs := by
  intro c s input
  have auto := fld_autoOn_kept s c
  refine ⟨fun empty manual => ?_, fun empty automatic => ?_, fun low high => ?_, fun off => ?_, fun off => ?_,
    fun low high => ?_, fun active => ?_, fun evacuating => ?_⟩
  · refine (answer_of input _ _).trans (congrArg _ ?_)
    simp only [↓reduceIte, empty, auto, manual, Nat.zero_ne_one]
  · refine (answer_of input _ _).trans (congrArg _ ?_)
    simp only [↓reduceIte, empty, auto, automatic]
  · refine (answer_of input _ _).trans (congrArg _ ?_)
    simp only [low, high, Bool.false_eq_true, and_self, ↓reduceIte]
  · refine (answer_of input _ _).trans (congrArg _ ?_)
    have powered : ¬ (2 ≤ s.carState c ∧ s.carState c ≤ 7) := by omega
    simp only [powered, Bool.false_eq_true, ↓reduceIte]
  · refine (answer_of input _ _).trans (congrArg _ ?_)
    rcases off with off | off <;> simp only [off]
  · refine (answer_of input _ _).trans (congrArg _ ?_)
    have coming : s.carState c = 2 ∨ s.carState c = 3 ∨ s.carState c = 4 := by omega
    rcases coming with at_ | at_ | at_ <;> simp only [at_]
  · refine (answer_of input _ _).trans (congrArg _ ?_)
    simp only [active]
  · refine (answer_of input _ _).trans (congrArg _ ?_)
    simp only [evacuating]

/-! ### The commands of CAR_CMD (R278, R281, R284, R290) -/

section
variable {src : Source} {c : Nat} {s : State} (f : State → State) (run : s.running = true) (small : c < 8)
  (served : s.judge src (Reg.CAR_CMD c) 4 true = .served)
include run small served

theorem State.carCommand_holdup (holdup : s.mode = modeHoldup) : s.carCommand src c f = .next s := by
  refine (answer_of (by simp [run, small]) _ _).trans (congrArg _ ?_)
  rw [State.access_served served, if_pos holdup]

theorem State.carCommand_acts (mode : s.mode ≠ modeHoldup) :
    s.carCommand src c f = .next ((f (s.endLocate c)).mediaChanged s) := by
  refine (answer_of (by simp [run, small]) _ _).trans (congrArg _ ?_)
  rw [State.access_served served, if_neg mode]

end

theorem exec_carrierRemove (src : Source) (c : Nat) (s : State) : exec (.carrierRemove src c) s =
    s.carCommand src c fun t => if t.carState c = 5 then t.startRemoval c else t := rfl

theorem exec_carrierCancel (src : Source) (c : Nat) (s : State) : exec (.carrierCancel src c) s =
    s.carCommand src c fun t => if t.carState c = 6 then t.cancelRemoval c
      else if 2 ≤ t.carState c ∧ t.carState c ≤ 4 then t.backOff c else t := rfl

theorem exec_carrierInsert (src : Source) (c : Nat) (s : State) : exec (.carrierInsert src c) s =
    s.carCommand src c fun t => if t.carState c = 1 ∨ t.carState c = 8 then t.powerUp c else t := rfl

theorem exec_carrierLocate (src : Source) (c : Nat) (s : State) : exec (.carrierLocate src c) s =
    s.carCommand src c fun t =>
      (t.setCarrier c { t.carrier c with locate := true }).setFld (Reg.CAR_STATE c) Reg.CAR_STATE_.INDICATOR 3 := rfl

theorem carrierCommandsComplete : Ob.CarrierCommandsComplete := by
  intro src c s run small served
  have acts := fun f mode => State.carCommand_acts f run small served mode
  refine ⟨fun holdup i listed => ?holdup, fun mode => ⟨fun active => ?remove, fun other => ?notRemove, fun evacuating => ?cancel,
    fun low high => ?back, fun off => ?insert, ?locate⟩, s.carState_endLocate c⟩
  case holdup =>
    have still := fun f => State.carCommand_holdup f run small served holdup
    simp only [List.mem_cons, List.not_mem_nil, or_false] at listed
    rcases listed with rfl | rfl | rfl | rfl
    · rw [exec_carrierRemove, still]
    · rw [exec_carrierCancel, still]
    · rw [exec_carrierInsert, still]
    · rw [exec_carrierLocate, still]
  case remove => rw [exec_carrierRemove, acts _ mode, if_pos active]
  case notRemove => rw [exec_carrierRemove, acts _ mode, if_neg other]
  case cancel => rw [exec_carrierCancel, acts _ mode, if_pos evacuating]
  case back => rw [exec_carrierCancel, acts _ mode, if_neg (by omega), if_pos ⟨low, high⟩]
  case insert => rw [exec_carrierInsert, acts _ mode, if_pos off]
  case locate => rw [exec_carrierLocate, acts _ mode]

/-! ### What the transitions leave (R278, R281) -/

/-- R281: a removal that is refused stays where it was, with its reason and its event. -/
theorem State.refuse_shows (s : State) (c reason : Nat) (small : c < 8) (code : reason < 16) :
    (s.refuse c reason).carState c = s.carState c ∧
      (s.refuse c reason).fld (Reg.CAR_STATE c) Reg.CAR_STATE_.REFUSE = reason ∧
      ((s.refuse c reason).statOf (Reg.HDR_STAT 10)).isSet 19 = true := by
  have recorded : ∀ (t : State) (f : Fld) (data : List Byte), (t.raiseRecord 10 19 c data).fld (Reg.CAR_STATE c) f =
      t.fld (Reg.CAR_STATE c) f := fun t f data =>
    congrArg f.get (t.reg_raiseRecord 10 19 c data (by unfold Reg.CAR_STATE Reg.MOD_DSEQ; omega)
      (by unfold Reg.CAR_STATE Reg.EVT_OVERWRITTEN; omega))
  unfold State.refuse
  dsimp only
  refine ⟨?_, ?_, State.record_events _ _ _ _ _ _ _ _ (State.raise_isSet _ 10 19)⟩
  · rw [State.carState, recorded]
    change State.carState _ c = _
    split
    · exact carState_setFld_of_apart _ _ _ _ (by decide) (by decide)
    · rw [carState_setFld_of_apart _ _ _ _ (by decide) (by decide), carState_setFld_of_apart _ _ _ _ (by decide) (by decide)]
  · rw [recorded]
    split
    · rw [fld_setFld_self _ _ _ _ (by decide) (by decide)]
      exact Nat.mod_eq_of_lt code
    · rw [fld_setFld_of_disjoint _ _ _ _ _ (by decide) (by decide) (by decide), fld_setFld_self _ _ _ _ (by decide) (by decide)]
      exact Nat.mod_eq_of_lt code

theorem foldl_reg {α : Type} (g : State → α → State) (l : List α) (s : State) {a : Nat}
    (h : ∀ t, ∀ x ∈ l, (g t x).reg a = t.reg a) : (l.foldl g s).reg a = s.reg a := by
  induction l generalizing s with
  | nil => rfl
  | cons x l ih =>
    exact (ih _ fun t y listed => h t y (List.mem_cons_of_mem x listed)).trans (h s x List.mem_cons_self)

/-- R281, R283: a carrier that is switched off shows its power off; what its dies held does not stand in CAR_STATE. -/
theorem State.switchOff_power (s : State) (c : Nat) (small : c < 8) :
    (s.switchOff c).fld (Reg.CAR_STATE c) Reg.CAR_STATE_.POWER = 0 := by
  have cut : ∀ t : State, (t.cutErases (carrierDies c)).reg (Reg.CAR_STATE c) = t.reg (Reg.CAR_STATE c) := fun t => by
    refine foldl_reg _ _ t fun u dk _ => ?_
    dsimp only
    split
    · exact u.reg_raiseRecord _ _ _ _ (by unfold Reg.CAR_STATE Reg.MOD_DSEQ; omega)
        (by unfold Reg.CAR_STATE Reg.EVT_OVERWRITTEN; omega)
    · rfl
  have dropped : ∀ t : State, (t.dropDescs (carrierDies c)).reg (Reg.CAR_STATE c) = t.reg (Reg.CAR_STATE c) := fun t =>
    State.reg_congr (by simp [State.dropDescs_frame]) _
  have cleared : ∀ t : State, (t.clearCarrier c).reg (Reg.CAR_STATE c) = t.reg (Reg.CAR_STATE c) := fun t => by
    unfold State.clearCarrier
    dsimp only
    rw [foldl_reg]
    · exact State.reg_congr rfl _
    · intro u i listed
      have inside := List.mem_range.mp listed
      have rate : Reg.CAR_STATE c ≠ Reg.CHN_RATE (16 * c + i) := by unfold Reg.CAR_STATE Reg.CHN_RATE; omega
      have ctrl : Reg.CAR_STATE c ≠ Reg.CHN_CTRL (16 * c + i) := by unfold Reg.CAR_STATE Reg.CHN_CTRL; omega
      have dies : Reg.CAR_STATE c ≠ Reg.CHN_DIEMAP (16 * c + i) := by unfold Reg.CAR_STATE Reg.CHN_DIEMAP; omega
      simp only [reg_setFld_of_ne _ _ _ _ _ rate, reg_setFld_of_ne _ _ _ _ _ ctrl, reg_setReg, dies, ↓reduceIte]
  have staged : ∀ t : State, (t.dropStaged c).reg (Reg.CAR_STATE c) = t.reg (Reg.CAR_STATE c) := fun _ => rfl
  rw [State.switchOff, State.fld, staged, cleared, dropped, cut]
  exact (fld_setFld_self _ _ _ _ (by decide) (by decide)).trans (Nat.zero_mod _)

theorem carrierStates : Ob.CarrierStates := by
  intro c s small
  refine ⟨⟨?_, ?_⟩, ⟨?_, ?_⟩, ?_, fun short => ?_, fun enough alone => ?_⟩
  · exact carState_setCarState _ _ _ (by decide)
  · rw [State.powerUp, fld_setCarState_of_apart _ _ _ _ (by decide) (by decide), fld_setFld_self _ _ _ _ (by decide) (by decide)]
    rfl
  · exact carState_setCarState _ _ _ (by decide)
  · rw [State.backOff, fld_setCarState_of_apart _ _ _ _ (by decide) (by decide)]
    exact s.switchOff_power c small
  · exact carState_setCarState _ _ _ (by decide)
  · rw [State.startRemoval, if_pos short]
    exact s.refuse_shows c 1 small (by decide)
  · have noOther : ((List.range 8).any fun x => decide (x ≠ c ∧ s.carState x = 6)) = false := by
      refine List.any_eq_false.mpr fun x inside => ?_
      have := alone x (List.mem_range.mp inside)
      simp only [decide_eq_true_eq, not_and]
      exact this
    rw [State.startRemoval, if_neg (Nat.not_le.mpr enough), noOther, if_neg Bool.false_ne_true]
    exact carState_setCarState _ _ _ (by decide)

/-- Settles O31: each command by the state it finds, each transition by the fields it writes. -/
theorem carriers : Obligations.Carriers := ⟨carrierCommandsComplete, carrierStates⟩

/-! ### The steps of a carrier's way in and out (R254, R280, R281, R284 to R286) -/

theorem mode_setCarState (s : State) (c st : Nat) (small : c < 8) : (s.setCarState c st).mode = s.mode := by
  have other : Reg.MOD_STATE ≠ Reg.CAR_STATE c := by
    unfold Reg.MOD_STATE Reg.CAR_STATE
    omega
  exact congrArg Reg.MOD_STATE_.STATE.get (reg_setCarState_of_ne s c st other)

theorem mode_setFld_car (s : State) (c n : Nat) (f : Fld) (small : c < 8) :
    (s.setFld (Reg.CAR_STATE c) f n).mode = s.mode := by
  have other : Reg.MOD_STATE ≠ Reg.CAR_STATE c := by
    unfold Reg.MOD_STATE Reg.CAR_STATE
    omega
  exact congrArg Reg.MOD_STATE_.STATE.get (reg_setFld_of_ne s _ _ f n other)

theorem carrierStepsComplete : Ob.CarrierStepsComplete := by
  intro c s event
  have live : s.running = true ∧ c < 8 := by
    simp only [State.carEvent, Bool.and_eq_true, decide_eq_true_eq] at event
    exact ⟨event.1, event.2.1⟩
  obtain ⟨run, small⟩ := live
  refine ⟨fun at_ => ?delay, fun dies r h t at_ mode made later => ?discovery, fun dies r h at_ boot absent => ?empty,
    fun bands at_ mode whole => ?reconciled, fun bands at_ mode delta => ?deltaReconciled, fun at_ => ?copy, fun at_ none' => ?quiescing,
    fun at_ left => ?more, fun at_ idle => ?off, fun at_ busy => ?busy, fun at_ refused => ?blink, fun record powered => ?kept,
    fun record unpowered => ?given⟩
  case delay => exact answer_of (by simp [event, at_]) _ _
  case discovery =>
    refine (answer_of (by simp [event, at_]) _ _).trans (congrArg _ ?_)
    rw [if_neg (fun h => mode h.1)]
    simp only [← made]
    rw [if_neg]
    rw [mode_setFld_car _ _ _ _ small, mode_setCarState _ _ _ small]
    exact later
  case empty =>
    refine (answer_of (by simp [event, at_]) _ _).trans (congrArg _ ?_)
    rw [if_pos]
    refine ⟨boot, ?_⟩
    simpa using absent
  case reconciled =>
    refine (answer_of (by simp [event, at_, mode]) _ _).trans (congrArg _ ?_)
    simp only [whole, Bool.false_eq_true, ↓reduceIte]
  case deltaReconciled =>
    refine (answer_of (by simp [event, at_, mode]) _ _).trans (congrArg _ ?_)
    simp only [delta, ↓reduceIte]
  case copy => exact answer_of (by simp [event, at_]) _ _
  case quiescing => exact answer_of (by simp [event, at_, none']) _ _
  case more =>
    change answer _ _ _ = _
    simp [answer, left]
  case off => exact answer_of (by simp [event, at_, idle]) _ _
  case busy =>
    change answer _ _ _ = _
    simp [answer, busy]
  case blink => exact answer_of (by simp [event, at_, refused]) _ _
  case kept =>
    refine (answer_of (by simp [run, small, record]) _ _).trans (congrArg _ ?_)
    rw [if_pos powered]
  case given =>
    refine (answer_of (by simp [run, small, record]) _ _).trans (congrArg _ ?_)
    rw [if_neg unpowered]

/-- Settles O32: each input and each step by the state that it finds. -/
theorem carrierEvents : Obligations.CarrierEvents := ⟨slotInputs, carrierStepsComplete⟩

end Sys2Proof.Machine

/-! ## Herd frames and links (R317, R322 to R326, R329, R341) -/

namespace Sys2Proof.Machine

open Sys2Proof Sys2Proof.Laws

/-! ### The receipt of a frame -/

theorem State.receive_boot {s : State} (boot : s.mode = modeBoot) (h : FrameHdr) (len : Nat) (reliable : Bool)
    (f : State → State) : s.receive h len reliable f = s := by
  simp [State.receive, boot]

theorem State.receive_dropped {s : State} {h : FrameHdr} {len : Nat} (up : s.up = true) (boot : s.mode ≠ modeBoot)
    (bad : s.frameOk h len = false) (reliable : Bool) (f : State → State) :
    s.receive h len reliable f = s.count (Reg.HRD_RXDROP h.plane) 1 := by
  simp [State.receive, State.not_holdup_of_up up, boot, bad, State.dropFrame]

theorem State.receive_unreliable {s : State} {h : FrameHdr} {len : Nat} (up : s.up = true) (boot : s.mode ≠ modeBoot)
    (ok : s.frameOk h len = true) (f : State → State) : s.receive h len false f = f (Ob.got h s) := by
  simp only [State.receive, State.not_holdup_of_up up, boot, or_self, ok, Bool.not_true, Bool.false_eq_true, ↓reduceIte]
  rfl

theorem State.receive_reliable {s : State} {h : FrameHdr} {len : Nat} (up : s.up = true) (boot : s.mode ≠ modeBoot)
    (ok : s.frameOk h len = true) (f : State → State) : s.receive h len true f = (Ob.got h s).accept h f := by
  simp only [State.receive, State.not_holdup_of_up up, boot, or_self, ok, Bool.not_true, Bool.false_eq_true, ↓reduceIte]
  rfl

theorem State.accept_notInOrder {s : State} {h : FrameHdr} (out : ¬Ob.inOrder h s) (f : State → State) : s.accept h f = s := by
  have refused : (s.linkOf h.src).st ≠ .up ∨ h.version.toNat ≠ (s.linkOf h.src).version ∨
      h.seq ≠ (s.linkOf h.src).rxNext := by
    rw [Ob.inOrder, not_and_or, not_and_or] at out
    exact out
  simp only [State.accept, refused, ↓reduceIte]

theorem State.accept_inOrder {s : State} {h : FrameHdr} (next : Ob.inOrder h s) (f : State → State) :
    s.accept h f = Ob.ackDue h (f (Ob.advanced h s)) := by
  obtain ⟨up, version, seq⟩ := next
  exact if_neg (by simp [up, version, seq])

theorem State.receive_notInOrder {s : State} {h : FrameHdr} {len : Nat} (up : s.up = true) (boot : s.mode ≠ modeBoot)
    (ok : s.frameOk h len = true) (out : ¬Ob.inOrder h (Ob.got h s)) (f : State → State) :
    s.receive h len true f = Ob.got h s := by
  rw [State.receive_reliable up boot ok, State.accept_notInOrder out]

theorem State.receive_inOrder {s : State} {h : FrameHdr} {len : Nat} (up : s.up = true) (boot : s.mode ≠ modeBoot)
    (ok : s.frameOk h len = true) (next : Ob.inOrder h (Ob.got h s)) (f : State → State) :
    s.receive h len true f = Ob.ackDue h (f (Ob.advanced h (Ob.got h s))) := by
  rw [State.receive_reliable up boot ok, State.accept_inOrder next]

/-! ### Frames that are refused (R317, R322, R325) -/

/-- A frame of a type is received, its length and its own effect apart. -/
theorem exec_frameRow {hdr : FrameHdr} {v : Half} {e : Nat} {op : OpHdr} {l : List Symbol} {k m home : Nat} {el : List Nat}
    {type len : Nat} {i : Instr} {s : State} (up : s.up = true)
    (row : (type, len, i) ∈ Ob.frameRows hdr v e op l k m home el) (is : FrameIs hdr type = true) :
    ∃ f, exec i s = .next (s.receive hdr len (decide (0x10 ≤ type)) f) := by
  have received : ∃ f, exec i s = answer (s.up && FrameIs hdr type) s (s.receive hdr len (decide (0x10 ≤ type)) f) := by
    simp only [Ob.frameRows, List.mem_cons, Prod.mk.injEq, List.not_mem_nil, or_false] at row
    rcases row with ⟨rfl, rfl, rfl⟩ | ⟨rfl, rfl, rfl⟩ | ⟨rfl, rfl, rfl⟩ | ⟨rfl, rfl, rfl⟩ | ⟨rfl, rfl, rfl⟩ | ⟨rfl, rfl, rfl⟩ |
      ⟨rfl, rfl, rfl⟩ | ⟨rfl, rfl, rfl⟩ <;> exact ⟨_, rfl⟩
  obtain ⟨f, shape⟩ := received
  exact ⟨f, shape.trans (answer_of (by simp [up, is]) _ _)⟩

theorem exec_wakingRow {hdr : FrameHdr} {op : OpHdr} {l : List Symbol} {type len : Nat} {i : Instr} {s : State}
    (up : s.up = true) (row : (type, len, i) ∈ Ob.wakingRows hdr op l) (is : FrameIs hdr type = true) :
    ∃ f, exec i s = .next (s.receive hdr len true f).wakeHerd := by
  have received : ∃ f, exec i s = answer (s.up && FrameIs hdr type) s (s.receive hdr len true f).wakeHerd := by
    simp only [Ob.wakingRows, List.mem_cons, Prod.mk.injEq, List.not_mem_nil, or_false] at row
    rcases row with ⟨rfl, rfl, rfl⟩ | ⟨rfl, rfl, rfl⟩ <;> exact ⟨_, rfl⟩
  obtain ⟨f, shape⟩ := received
  exact ⟨f, shape.trans (answer_of (by simp [up, is]) _ _)⟩

theorem framesRefused : Ob.FramesRefused := by
  refine ⟨fun hdr v e op l k m home el type len i s up row is => ?plain, fun hdr op l type len i s up row is => ?waking,
    fun plane s up fits => answer_of (by simp [up, fits]) _ _⟩
  case plain =>
    obtain ⟨f, received⟩ := exec_frameRow up row is
    refine ⟨fun boot => ?_, fun boot bad => ?_, fun boot ok reliable out => ?_⟩
    · rw [received, State.receive_boot boot]
    · rw [received, State.receive_dropped up boot bad]
    · rw [received, decide_eq_true reliable, State.receive_notInOrder up boot ok out]
  case waking =>
    obtain ⟨f, received⟩ := exec_wakingRow up row is
    refine ⟨fun boot bad => ?_, fun boot ok out => ?_⟩
    · rw [received, State.receive_dropped up boot bad]
    · rw [received, State.receive_notInOrder up boot ok out]

theorem next_wakeHerd_congr {s t : State} (same : s = t) :
    (.next s.wakeHerd : Host.Outcome State Fault Refusal) = .next t.wakeHerd := by rw [same]

/-! ### Links that come up (R324 to R326, R353) -/

theorem State.followShape_events (s : State) : EventsKept s s.followShape := by
  have shaped (t : State) (h : HerdState) : EventsKept t { t with herd := h } := .of_stat rfl
  unfold State.followShape
  split
  · exact shaped _ _
  split
  · exact shaped _ _
  dsimp only
  split
  · exact shaped _ _
  · exact .ite (shaped _ _) ((shaped _ _).trans (State.raise_events _ _ _))

/-- R324: a link that comes up without a reconciliation of its peer has its event. -/
theorem State.linkGoesUp_event {s : State} {peer : Nat} (alive : (s.linkOf peer).down = false) (plane version epoch : Nat) :
    ((s.linkGoesUp peer plane version epoch).statOf (Reg.HDR_STAT 13)).isSet 17 = true := by
  have asked (t : State) : EventsKept t (if t.epoch < epoch then t.sendReliable peer (.mapRequest epoch) else t) :=
    .ite (.of_stat (by simp [State.sendReliable_frame])) (.refl t)
  have later (t : State) (b unit : Nat) (data : List Byte) : ((t.raiseRecord 13 b unit data).statOf
      (Reg.HDR_STAT 13)).isSet b = true := State.record_events _ _ _ _ _ _ _ _ (t.raise_isSet 13 b)
  unfold State.linkGoesUp
  simp only [alive, Bool.false_eq_true, false_and, ↓reduceIte]
  exact ((State.reason_events _ _ _).trans ((asked _).trans (State.followShape_events _))) _ _ (later _ _ _ _)

theorem linksComeUp : Ob.LinksComeUp := by
  refine ⟨fun hdr l serial s up boot is ok known lower => ?hello, fun hdr v serial s up boot is ok known sent => ?helloAck,
    fun hdr l serial s up boot is ok unknown => ?wrongSerial, fun hdr v s up boot is ok => ?heartbeat,
    fun hdr s up boot is ok => ?ack, fun s peer plane version epoch alive => State.linkGoesUp_event alive plane version epoch⟩
  case hello =>
    have said : exec (.aizaikHello hdr l serial) s = .next (State.wakeHerd
        (let t := (Ob.got hdr s).emit (.helloAck hdr.plane hdr.src (chooseVersion l))
         if chooseVersion l = 0 then (t.setLink hdr.src { t.linkOf hdr.src with mismatch := true }).raise 13 28
         else t.linkGoesUp hdr.src hdr.plane (chooseVersion l).toNat hdr.epoch)) := by
      refine (answer_of (by simp [up, is]) _ _).trans (next_wakeHerd_congr ?_)
      simp only [known, Bool.not_true, Bool.false_eq_true, and_false, ↓reduceIte, State.receive_unreliable up boot ok, lower]
    refine ⟨fun chosen => ?_, fun none' => ?_⟩
    · rw [said]
      simp only [chosen, ↓reduceIte]
    · rw [said]
      simp only [none', ↓reduceIte]
      rfl
  case helloAck =>
    have said : exec (.aizaikHelloAck hdr v serial) s = .next (State.wakeHerd
        (if v = 0 then ((Ob.got hdr s).setLink hdr.src { (Ob.got hdr s).linkOf hdr.src with mismatch := true }).raise 13 28
         else if helloVersions.contains v then (Ob.got hdr s).linkGoesUp hdr.src hdr.plane v.toNat hdr.epoch
         else Ob.got hdr s)) := by
      refine (answer_of (by simp [up, is]) _ _).trans (next_wakeHerd_congr ?_)
      simp only [known, Bool.not_true, Bool.false_eq_true, and_false, ↓reduceIte, State.receive_unreliable up boot ok, sent,
        ne_eq, not_true_eq_false]
    refine ⟨fun listed some' => ?_, fun none' => ?_⟩
    · rw [said]
      simp only [some', listed, ↓reduceIte]
    · rw [said]
      simp only [none', ↓reduceIte]
  case wrongSerial =>
    refine (answer_of (by simp [up, is]) _ _).trans (next_wakeHerd_congr ?_)
    exact if_pos ⟨State.not_holdup_of_up up, boot, ok, by simp [unknown]⟩
  case heartbeat =>
    exact (answer_of (by simp [up, is]) _ _).trans (congrArg _ (State.receive_unreliable up boot ok _))
  case ack =>
    exact (answer_of (by simp [up, is]) _ _).trans (congrArg _ (State.receive_unreliable up boot ok _))

/-- Settles O33: what the checks of a frame and of a link's order leave, and what HELLO, HEARTBEAT and ACK tell. -/
theorem framesAndLinks : Obligations.FramesAndLinks := ⟨framesRefused, linksComeUp⟩

end Sys2Proof.Machine

/-! ## Reliable frames in order (R329, R341, R343, R346, R350) -/

namespace Sys2Proof.Machine

open Sys2Proof Sys2Proof.Laws

/-- A reliable frame that is next on its link takes its own effect on the link that has advanced. -/
theorem exec_inOrder {i : Instr} {hdr : FrameHdr} {type len : Nat} {f : State → State} {s t : State}
    (shape : exec i s = answer (s.up && FrameIs hdr type) s (s.receive hdr len true f)) (up : s.up = true)
    (boot : s.mode ≠ modeBoot) (is : FrameIs hdr type = true) (ok : s.frameOk hdr len = true)
    (next : Ob.inOrder hdr (Ob.got hdr s)) (effect : f (Ob.advanced hdr (Ob.got hdr s)) = t) :
    exec i s = .next (Ob.ackDue hdr t) := by
  rw [shape, answer_of (by simp [up, is]), State.receive_inOrder up boot ok next, effect]

theorem exec_inOrder_waking {i : Instr} {hdr : FrameHdr} {type len : Nat} {f : State → State} {s t : State}
    (shape : exec i s = answer (s.up && FrameIs hdr type) s (s.receive hdr len true f).wakeHerd) (up : s.up = true)
    (boot : s.mode ≠ modeBoot) (is : FrameIs hdr type = true) (ok : s.frameOk hdr len = true)
    (next : Ob.inOrder hdr (Ob.got hdr s)) (effect : f (Ob.advanced hdr (Ob.got hdr s)) = t) :
    exec i s = .next (Ob.ackDue hdr t).wakeHerd := by
  rw [shape, answer_of (by simp [up, is]), State.receive_inOrder up boot ok next, effect]

/-- Settles O34: each frame's effect, on the link that has taken it. -/
theorem reliableFramesComplete : Obligations.ReliableFramesComplete := by
  unfold Obligations.ReliableFramesComplete
  rintro hdr s u w up boot rfl next rfl
  refine ⟨fun is ok newer idle => ?offer, fun is ok known => ?offerKnown, fun m e is ok there upTo => ?request,
    fun e off is least most ok => ?dataPart, fun e off m is least most ok last settled => ?dataWhole,
    fun op l is ok known => ?write, fun op is ok => ⟨fun absent => ?readAbsent, fun i f held => ?readHeld⟩,
    fun op l is ok => ⟨fun idle => ?dataUnasked, fun asked part => ?dataAsked⟩, fun op is ok => ?discard,
    fun key k m home el is ok => ?sweep, fun op is ok none' => ?doneNone,
    fun op i j d v is ok there answered put good => ?doneGood, fun op i j is ok there bad => ?doneBad⟩
  case offer =>
    refine exec_inOrder rfl up boot is ok next ?_
    simp only [idle, newer, and_self, ↓reduceIte]
  case offerKnown =>
    refine exec_inOrder rfl up boot is ok next ?_
    exact if_neg fun h => Nat.not_lt.mpr known h.1
  case request =>
    refine exec_inOrder rfl up boot is ok next ?_
    simp only [there, upTo, ↓reduceIte]
  case dataPart =>
    have length : (if 16 ≤ hdr.len ∧ hdr.len ≤ 8208 then hdr.len else 16) = hdr.len := if_pos ⟨least, most⟩
    refine exec_inOrder_waking rfl up boot is (by rw [length]; exact ok) next rfl
  case dataWhole =>
    have length : (if 16 ≤ hdr.len ∧ hdr.len ≤ 8208 then hdr.len else 16) = hdr.len := if_pos ⟨least, most⟩
    refine exec_inOrder_waking rfl up boot is (by rw [length]; exact ok) next ?_
    simp only [Nat.not_le.mpr last, ↓reduceIte, settled, List.foldl_nil]
  case write =>
    refine exec_inOrder rfl up boot is ok next ?_
    exact if_neg (Nat.not_lt.mpr known)
  case readAbsent =>
    refine exec_inOrder rfl up boot is ok next ?_
    simp only [absent]
  case readHeld =>
    refine exec_inOrder rfl up boot is ok next ?_
    simp only [held]
  case dataUnasked =>
    refine exec_inOrder_waking rfl up boot is ok next ?_
    simp only [idle, Bool.not_false, ↓reduceIte]
  case dataAsked =>
    refine exec_inOrder_waking rfl up boot is ok next ?_
    simp only [asked, part, Bool.not_true, Bool.false_eq_true, ↓reduceIte]
  case discard =>
    refine ⟨_, exec_inOrder rfl up boot is ok next rfl, rfl, fun e => ?_⟩
    simp only [List.mem_filter, Bool.not_eq_true', ← Bool.not_eq_true, Bool.and_eq_true, Bool.or_eq_true, decide_eq_true_eq,
      and_assoc]
  case sweep =>
    refine ⟨_, exec_inOrder rfl up boot is ok next rfl, rfl, fun e kept => ?_, fun e there other => ?_⟩
    · simp only [List.mem_filter, Bool.or_eq_true, Bool.and_eq_true, decide_eq_true_eq] at kept
      exact ⟨kept.1, fun same => (kept.2.resolve_left (not_not_intro same)).1⟩
    · simp only [List.mem_filter, Bool.or_eq_true, decide_eq_true_eq]
      exact ⟨there, .inl other⟩
  case doneNone =>
    refine exec_inOrder_waking rfl up boot is ok next ?_
    simp only [none']
  case doneGood =>
    subst answered put
    refine ⟨fun established => ?_, fun open' => ?_⟩
    · refine exec_inOrder_waking rfl up boot is ok next ?_
      simp only [there, good, established, ↓reduceIte]
    · refine exec_inOrder_waking rfl up boot is ok next ?_
      simp only [there, good, open', Bool.false_eq_true, ↓reduceIte]
  case doneBad =>
    simp only [List.mem_cons, List.not_mem_nil, or_false, not_or] at bad
    obtain ⟨notDone, notUnreadable, notOld⟩ := bad
    refine exec_inOrder_waking rfl up boot is ok next ?_
    simp only [there, notDone, notUnreadable, notOld, false_and, or_self, ↓reduceIte]

end Sys2Proof.Machine

/-! ## Link timers, leases and peer ports (R316 to R320, R324 to R326, R332) -/

namespace Sys2Proof.Machine

open Sys2Proof Sys2Proof.Laws

theorem foldl_emit_length {α : Type} (frame : α → Out) (l : List α) (s : State) :
    (l.foldl (fun s x => s.emit (frame x)) s).out.length = s.out.length + l.length := by
  induction l generalizing s with
  | nil => rfl
  | cons x l ih =>
    rw [List.foldl_cons, ih, List.length_cons]
    simp only [State.emit, List.length_append, List.length_singleton]
    omega

/-- Frames that go out change neither the herd nor a register. -/
theorem foldl_emit_kept {α : Type} (frame : α → Out) (l : List α) (s : State) :
    (l.foldl (fun s x => s.emit (frame x)) s).herd = s.herd ∧ (l.foldl (fun s x => s.emit (frame x)) s).regs = s.regs := by
  induction l generalizing s with
  | nil => exact ⟨rfl, rfl⟩
  | cons x l ih => exact ih (s.emit (frame x))

/-- R325: what a link sends again is counted on its plane. -/
theorem State.resend_shows (s : State) (peer : Nat) :
    (s.resend peer).reg (Reg.HRD_RETX (s.linkOf peer).plane) =
        counterAdd (s.reg (Reg.HRD_RETX (s.linkOf peer).plane)) (s.linkOf peer).unacked.length ∧
      (s.resend peer).out.length = s.out.length + (s.linkOf peer).unacked.length ∧ (s.resend peer).herd = s.herd := by
  have sent := foldl_emit_kept (fun f : SentFrame => Out.frame (s.linkOf peer).plane peer true f.seq (s.linkOf peer).rxNext f.body)
    (s.linkOf peer).unacked s
  refine ⟨?_, ?_, sent.1⟩
  · unfold State.resend
    dsimp only
    rw [State.count, reg_setReg_self, State.reg_congr sent.2]
  · exact foldl_emit_length _ _ _

/-- R332: the lease after LEASE, whatever of events and reasons follows. -/
theorem leaseExpires {s : State} (up : s.up = true) (joined : s.joined = true) :
    ∃ t, exec .leaseExpire s = .next t ∧ t.herd.leaseHeld = s.majority ∧
      (∀ e ∈ t.herd.links, e.2.fresh = false) ∧ t.nss = s.nss ∧ t.cmds = s.cmds ∧
      (s.herd.leaseHeld = true → s.majority = false → s.herd.homed ≠ [] → (t.statOf (Reg.HDR_STAT 13)).isSet 27 = true) := by
  refine ⟨_, answer_of (by simp [up, joined]) _ _, ?_⟩
  dsimp only
  generalize stale : ({ s with herd := { s.herd with
    leaseHeld := s.majority, links := s.herd.links.map fun e => (e.1, { e.2 with fresh := false }) } } : State) = u
  have herd : ∀ t : State, t.followHerd.herd = t.herd := fun t => by simp [State.followHerd, State.reason_frame]
  have nss : ∀ t : State, t.followHerd.nss = t.nss := fun t => by simp [State.followHerd, State.reason_frame]
  have cmds : ∀ t : State, t.followHerd.cmds = t.cmds := fun t => by simp [State.followHerd, State.reason_frame]
  have links : ∀ e ∈ u.herd.links, e.2.fresh = false := by
    subst stale
    simp only [List.mem_map]
    rintro e ⟨x, -, rfl⟩
    rfl
  have same : u.herd.leaseHeld = s.majority ∧ u.nss = s.nss ∧ u.cmds = s.cmds := by
    subst stale
    exact ⟨rfl, rfl, rfl⟩
  obtain ⟨held, spaces, commands⟩ := same
  rw [herd, nss, cmds]
  refine ⟨?_, ?_, ?_, ?_, fun was lost homed => ?_⟩
  · split <;> simp [State.raise_frame, held]
  · split
    · simpa [State.raise_frame] using links
    · exact links
  · split <;> simp [State.raise_frame, spaces]
  · split <;> simp [State.raise_frame, commands]
  · have dropped : s.herd.leaseHeld = true ∧ (!s.majority) = true ∧ (!s.herd.homed.isEmpty) = true := by simp [was, lost, homed]
    rw [if_pos dropped]
    exact State.reason_events _ _ _ _ _ (u.raise_isSet 13 27)

theorem linkTimersRun : Ob.LinkTimers := by
  refine fun s up => ⟨fun peer boot lower closed listed => ?retry, fun peer link owed => ?ack, fun peer link unacked => ?resend,
    fun boot => ?heartbeat, fun peer plane listed => ?dead, fun joined => leaseExpires up joined⟩
  case retry =>
    have member : peer ∈ s.peers := by simpa using listed
    exact answer_of (by simp [up, State.not_holdup_of_up up, boot, lower, closed, member]) _ _
  case ack => exact answer_of (by simp [up, link, owed]) _ _
  case resend => exact ⟨_, answer_of (by simp [up, link, unacked]) _ _, s.resend_shows peer⟩
  case heartbeat => exact answer_of (by simp [up, State.not_holdup_of_up up, boot]) _ _
  case dead => exact answer_of (by rw [up, listed, Bool.and_self]) _ _

theorem peerPortWrites : Ob.PeerPortWrites := by
  refine fun s up => ⟨fun src v served armed => ?etherType, fun src v served unarmed => ?unarmed,
    fun src q v fits served armed => ?mac, fun src q an fits served new => ?an, fun q link fits => ?link⟩
  case etherType =>
    refine (answer_of up _ _).trans (next_wakeHerd_congr ?_)
    rw [State.access_served served, State.keyed_armed _ armed (.inr (.inl (by decide)))]
  case unarmed =>
    refine (answer_of up _ _).trans (next_wakeHerd_congr ?_)
    rw [State.access_served served, State.keyed_unarmed _ unarmed]
  case mac =>
    refine (answer_of (by simp [up, fits]) _ _).trans (next_wakeHerd_congr ?_)
    rw [State.access_served served, State.keyed_armed _ armed (.inr (.inl (by decide)))]
  case an =>
    refine (answer_of (by simp [up, fits]) _ _).trans (next_wakeHerd_congr ?_)
    rw [State.access_served served]
    exact if_neg new
  case link => exact answer_of (by simp [up, fits]) _ _

/-- Settles O35: each timer's effect and each write of a peer port, once its gate is open. -/
theorem linkTimers : Obligations.LinkTimers := ⟨linkTimersRun, peerPortWrites⟩

end Sys2Proof.Machine

/-! ## The flush and the horizon (R368, R371, R373, R374) -/

namespace Sys2Proof.Machine

open Sys2Proof Sys2Proof.Laws

theorem State.fixSet_clean (s : State) : ∀ l ∈ s.fixSet.map.cache, l.dirty = 0 := by
  intro l cached
  obtain ⟨x, -, rfl⟩ := List.mem_map.mp cached
  rfl

/-- R374: the session is clean only when everything was programmed, in full, with the journal found. -/
theorem State.endFlush_session (s : State) (us : Nat) : (s.endFlush us).power.cleanSession =
    if s.power.flush = .programmed ∧ s.power.cut = false ∧ s.power.journal ≠ [] then some s.power.session else none := by
  simp [State.endFlush, and_assoc]

theorem exec_flushComplete {s : State} (us : Nat) (run : s.running = true) (mode : s.mode = modeHoldup)
    (begun : s.power.flush = .fixed ∨ s.power.flush = .programmed)
    (ended : s.power.flush = .programmed ∨ s.power.cut = true) : exec (.flushComplete us) s = .next (s.endFlush us) := by
  have stage : s.power.flush ≠ .entered ∧ s.power.flush ≠ .stopped := by
    rcases begun with h | h <;> rw [h] <;> decide
  refine answer_of ?_ _ _
  rcases ended with h | h <;> simp [run, mode, stage, h]

/-- Settles O38: each step's gate and effect. -/
theorem flushSteps : Obligations.FlushSteps := by
  unfold Obligations.FlushSteps
  refine fun s run => ⟨fun entered => ?writeBack, fun fixed uncut band => ⟨?stripe, fun b first => ?failed⟩,
    fun us mode programmed => ?complete, fun us mode fixed cut => ?cut, fun us mode fixed uncut band => ?early,
    fun serving => ?horizon⟩
  case writeBack => exact ⟨_, answer_of (by simp [run, entered]) _ _, rfl, s.fixSet_clean, rfl, rfl, rfl⟩
  case stripe => exact answer_of (by simp [run, fixed, uncut, band]) _ _
  case failed =>
    refine (answer_of (by simp [run, fixed, uncut, band]) _ _).trans (congrArg _ ?_)
    simp only [Bool.false_eq_true, ↓reduceIte, first]
  case complete =>
    refine ⟨_, exec_flushComplete us run mode (.inr programmed) (.inl programmed), rfl, rfl, ?_, rfl, rfl⟩
    simp [State.endFlush_session, programmed]
  case cut =>
    refine ⟨_, exec_flushComplete us run mode (.inl fixed) (.inr cut), ?_, rfl⟩
    simp [State.endFlush_session, fixed]
  case early =>
    change answer _ _ _ = _
    simp [answer, fixed, uncut, band]
  case horizon =>
    refine ⟨_, answer_of serving _ _, rfl, fun x kept => ?_, rfl⟩
    simpa using List.mem_filter.mp kept

end Sys2Proof.Machine

/-! ## Buffers (R392 to R394, R397, R401) -/

namespace Sys2Proof.Machine

open Sys2Proof Sys2Proof.Laws

/-- R392: the pools by size; the smallest that is large enough. -/
theorem poolFor_sizes (bytes : Nat) : (bytes ≤ 0x1000 → poolFor false bytes = some 0) ∧
    (0x1000 < bytes → bytes ≤ 0x4000 → poolFor false bytes = some 1) ∧ (0x4000 < bytes → poolFor false bytes = none) ∧
    (bytes ≤ 0x10000 → poolFor true bytes = some 2) ∧
    (0x10000 < bytes → bytes ≤ 0x80000 → poolFor true bytes = some 3) ∧ (0x80000 < bytes → poolFor true bytes = none) := by
  simp only [poolFor, Bool.false_eq_true, ↓reduceIte]
  refine ⟨fun small => if_pos small, fun above small => ?_, fun above => ?_, fun small => if_pos small,
    fun above small => ?_, fun above => ?_⟩
  · rw [if_neg (by omega), if_pos small]
  · rw [if_neg (by omega), if_neg (by omega)]
  · rw [if_neg (by omega), if_pos small]
  · rw [if_neg (by omega), if_neg (by omega)]

/-- R393: what an allocation request does by the quota of its class, the pool and those that wait. -/
theorem State.allocate_outcomes (src : Source) (cls p : Nat) (s : State) :
    ((s.poolQuota p cls).1 < poolPips p → s.allocate src cls p = s.setAllocResp src .refused) ∧
    (poolPips p ≤ (s.poolQuota p cls).1 → s.canAlloc p cls = true → s.pools.waits = [] →
      s.allocate src cls p = s.grantBuf src p cls) ∧
    (poolPips p ≤ (s.poolQuota p cls).1 → s.canAlloc p cls = false →
      ∃ w, (s.allocate src cls p).pools.waits = s.pools.waits ++ [w] ∧ w.src = src ∧ w.pool = p ∧ w.cls = cls ∧
        (s.allocate src cls p).pools.bufs = s.pools.bufs) := by
  refine ⟨fun above => if_pos above, fun within can none' => ?_, fun within full => ?_⟩
  · simp [State.allocate, Nat.not_lt.mpr within, can, none']
  · refine ⟨{ src := src, pool := p, cls := cls, order := s.pools.nextOrder }, ?_⟩
    simp only [State.allocate, Nat.not_lt.mpr within, full, Bool.false_and, Bool.false_eq_true, ↓reduceIte]
    exact ⟨rfl, trivial, trivial, trivial, rfl⟩

/-- Settles O39: the pool of a request, its outcome, a release and a grant. -/
theorem buffersComplete : Obligations.BuffersComplete := by
  unfold Obligations.BuffersComplete
  refine ⟨poolFor_sizes, fun src v s u up served idle asked => ⟨fun none' => ?refused, fun p fits => ?allocated⟩,
    fun src v s up served pending => ?pending, fun src cls p s => s.allocate_outcomes src cls p,
    fun src v b s up served found owner => ⟨fun free => ?freed, fun busy => ?marked⟩,
    fun src v b s up found other served => ?notOwner, fun p w s up next => ?grant⟩
  case refused =>
    refine (answer_of up _ _).trans (congrArg _ ?_)
    rw [State.access_served served]
    simp only [idle, Bool.false_eq_true, ↓reduceIte, none', asked]
  case allocated =>
    refine (answer_of up _ _).trans (congrArg _ ?_)
    rw [State.access_served served]
    simp only [idle, Bool.false_eq_true, ↓reduceIte, fits, asked]
  case pending =>
    refine (answer_of up _ _).trans (congrArg _ ?_)
    rw [State.access_served served]
    exact if_pos pending
  case freed =>
    refine (answer_of up _ _).trans (congrArg _ ?_)
    rw [State.access_served served]
    simp only [found, owner, ne_eq, not_true_eq_false, free, Bool.false_eq_true, ↓reduceIte]
  case marked =>
    refine (answer_of up _ _).trans (congrArg _ ?_)
    rw [State.access_served served]
    simp only [found, owner, ne_eq, not_true_eq_false, busy, ↓reduceIte]
  case notOwner =>
    refine (answer_of up _ _).trans (congrArg _ ?_)
    rw [State.access_served served]
    simp only [found, other, ne_eq, not_false_eq_true, ↓reduceIte]
  case grant =>
    change execAllocGrant p s = _
    simp only [execAllocGrant, next]
    exact answer_of up _ _

end Sys2Proof.Machine

/-! ## The match unit (R405, R407 to R409) -/

namespace Sys2Proof.Machine

open Sys2Proof Sys2Proof.Laws

/-! ### MAT_CMD -/

theorem matCmd_taken {src : Source} {a : Nat} {s : State} (f : State → State) (taken : Ob.MatTaken src a s) :
    answer (s.up && matAddrOk a) s (s.matCmd src a f) = .next (f (Ob.matUnder s a)) := by
  obtain ⟨up, fits, served, idle, permitted⟩ := taken
  refine (answer_of (by simp [up, matAddrOk, fits]) _ _).trans (congrArg _ ?_)
  rw [State.matCmd, State.access_served served, idle]
  exact if_pos permitted

theorem matCmd_refused {src : Source} {a : Nat} {s : State} (f : State → State) (up : s.up = true) (fits : a < 131072)
    (served : s.judge src Reg.MAT_CMD 4 true = .served) (idle : s.matBusy src = false)
    (refused : (Ob.matUnder s a).matPermitted src a = false) :
    answer (s.up && matAddrOk a) s (s.matCmd src a f) = .next ((Ob.matUnder s a).matRefuse src 1) := by
  have outside : ¬(Ob.matUnder s a).matPermitted src a = true := by simp [refused]
  refine (answer_of (by simp [up, matAddrOk, fits]) _ _).trans (congrArg _ ?_)
  rw [State.matCmd, State.access_served served, idle]
  exact if_neg outside

theorem matchCommandsComplete : Ob.MatchCommandsComplete := by
  refine ⟨fun src a s u taken at' => ⟨fun b e found => ?hit, fun missed => ?miss, fun e there => ?read, fun none' => ?readNone,
    ?write, ?invalidate, fun room => ?insert, fun e last => ?full, ?delete⟩,
    fun src a s up fits served idle refused i named => ?refused⟩
  case hit =>
    subst at'
    refine (matCmd_taken _ taken).trans (congrArg _ ?_)
    simp only [found]
  case miss =>
    subst at'
    refine (matCmd_taken _ taken).trans (congrArg _ ?_)
    simp only [missed]
  case read =>
    subst at'
    refine (matCmd_taken _ taken).trans (congrArg _ ?_)
    simp only [State.matAt, there]
  case readNone =>
    subst at'
    refine ⟨_, _, (matCmd_taken _ taken).trans rfl, ?_⟩
    simp only [State.matAt, none']
  case write => exact (matCmd_taken _ taken).trans (by rw [at'])
  case invalidate => exact (matCmd_taken _ taken).trans (by rw [at'])
  case insert =>
    subst at'
    refine (matCmd_taken _ taken).trans (congrArg _ ?_)
    simp only [room, Option.isSome_none, Bool.false_eq_true, ↓reduceIte]
  case full =>
    subst at'
    refine (matCmd_taken _ taken).trans (congrArg _ ?_)
    simp only [last, Option.isSome_some, ↓reduceIte]
  case delete => exact (matCmd_taken _ taken).trans (by rw [at'])
  case refused =>
    have shape : ∃ f, exec i s = answer (s.up && matAddrOk a) s (s.matCmd src a f) := by
      simp only [List.mem_cons, List.not_mem_nil, or_false] at named
      rcases named with rfl | rfl | rfl | rfl | rfl | rfl <;> exact ⟨_, rfl⟩
    obtain ⟨f, same⟩ := shape
    exact same.trans (matCmd_refused f up fits served idle refused)

/-! ### Slides and the scan -/

/-- Reading a table whose keys have moved, where one key alone comes to the place read. -/
theorem look_map_key {α : Type} (g : Nat × α → Nat × α) (j k : Nat) (m : SMap α) (value : ∀ x, (g x).2 = x.2)
    (only : ∀ x, (g x).1 = j ↔ x.1 = k) : SMap.look (m.map g) j = m.look k := by
  induction m with
  | nil => rfl
  | cons x m ih =>
    have here : (if (g x).1 = j then some (g x).2 else SMap.look (m.map g) j) = if x.1 = k then some x.2 else SMap.look m k := by
      rw [ih, value]
      exact if_congr (only x) rfl rfl
    exact here

/-- R407: an ordered insert puts its entry at its address and moves those from there on down by one. -/
theorem look_insertOrdered {m : SMap MatEntry} {a hi b : Nat} {e f : MatEntry} (from_ : a ≤ b) (inside : b + 1 < hi)
    (there : m.look b = some f) :
    (insertOrdered m a hi e).look a = some e ∧ (insertOrdered m a hi e).look (b + 1) = some f := by
  refine ⟨look_put_self _ _ _, ?_⟩
  unfold insertOrdered
  dsimp only
  rw [look_put, if_neg (by omega)]
  refine (look_map_key _ (b + 1) b m (fun x => ?_) fun x => ?_).trans there
  · split <;> rfl
  · split
    next moved => exact Nat.succ_inj
    next stays =>
      constructor <;> intro h <;> omega

/-- R408: a bad entry is counted with its event; one of the firmware partition is cleared. -/
theorem State.repairMat_shows (s : State) (a : Nat) :
    (s.repairMat a).reg Reg.MAT_PARITY = counterAdd (s.reg Reg.MAT_PARITY) 1 ∧
      ((s.repairMat a).statOf (Reg.HDR_STAT 15)).isSet 16 = true ∧
      (122880 ≤ a → (s.repairMat a).mat.entries = s.mat.entries.del a) ∧ (a < 122880 → (s.repairMat a).mat = s.mat) := by
  have counted : ((s.count Reg.MAT_PARITY 1).raiseRecord 15 16 (a / 32768) (leBytes 4 a)).reg Reg.MAT_PARITY =
      counterAdd (s.reg Reg.MAT_PARITY) 1 := by
    rw [State.reg_raiseRecord _ _ _ _ _ (by decide) (by decide), State.count, reg_setReg_self]
  have event : (((s.count Reg.MAT_PARITY 1).raiseRecord 15 16 (a / 32768) (leBytes 4 a)).statOf
      (Reg.HDR_STAT 15)).isSet 16 = true := State.record_events _ _ _ _ _ _ _ _ (State.raise_isSet _ 15 16)
  have same : ((s.count Reg.MAT_PARITY 1).raiseRecord 15 16 (a / 32768) (leBytes 4 a)).mat = s.mat := by
    simp [State.raiseRecord_frame, State.count_frame]
  unfold State.repairMat
  dsimp only
  generalize (s.count Reg.MAT_PARITY 1).raiseRecord 15 16 (a / 32768) (leBytes 4 a) = t at counted event same
  have cleared (m : SMap MatEntry) : EventsKept t (t.setMat m) := .of_stat rfl
  split
  next firmware =>
    refine ⟨?_, ((cleared _).trans (State.raiseRecord_events _ _ _ _ _)) _ _ event, fun _ => ?_,
      fun below => absurd firmware (Nat.not_le.mpr below)⟩
    · rw [State.reg_raiseRecord _ _ _ _ _ (by decide) (by decide)]
      exact counted
    · rw [show ∀ u : State, (u.raiseRecord 15 17 (a / 32768) (leBytes 4 a)).mat = u.mat from
        fun u => by simp [State.raiseRecord_frame], State.setMat, same]
  next below => exact ⟨counted, event, fun firmware => absurd firmware below, fun _ => same⟩

theorem slidesAndScan : Ob.SlidesAndScan := by
  refine ⟨fun p x s u up slide under => ⟨fun e entry room => ?insert, fun e d entry last => ?full, fun entry => ?delete⟩,
    fun m a hi b e f distinct from_ inside there => look_insertOrdered from_ inside there, fun s late up => answer_of up _ _,
    fun s a up fits => ?scan⟩
  case insert =>
    subst under
    change execMatchSlideDone p s = _
    simp only [execMatchSlideDone, slide, entry, room, Option.isSome_none, Bool.false_eq_true, ↓reduceIte]
    exact answer_of up _ _
  case full =>
    subst under
    change execMatchSlideDone p s = _
    simp only [execMatchSlideDone, slide, entry, last, Option.isSome_some, ↓reduceIte]
    exact answer_of up _ _
  case delete =>
    subst under
    change execMatchSlideDone p s = _
    simp only [execMatchSlideDone, slide, entry]
    exact answer_of up _ _
  case scan =>
    refine ⟨s.repairMat a, (answer_of up _ _).trans (congrArg _ ?_), s.repairMat_shows a⟩
    have listed : [a].filter matAddrOk = [a] := by simp [matAddrOk, fits]
    rw [listed]
    rfl

/-- Settles O40: each operation of MAT_CMD, its refusal, and what slides and the scan leave. -/
theorem matchEngine : Obligations.MatchEngine := ⟨matchCommandsComplete, slidesAndScan⟩

end Sys2Proof.Machine

/-! ## Mule rings (R410, R416, R417, R419, R423) -/

namespace Sys2Proof.Machine

open Sys2Proof Sys2Proof.Laws

/-! ### Registers below the SDRAM controller's counters stay over a use of the SDRAM (R433, R435) -/

theorem State.reg_useBank (s : State) (ch k row : Nat) {a : Nat} (below : a < Reg.SDC_NREFS 0) :
    (s.useBank ch k row).reg a = s.reg a := by
  have apart : a ≠ Reg.SDC_NREFS ch := fun h => by
    rw [h, Reg.SDC_NREFS, Reg.SDC_NREFS] at below
    omega
  have counted (t : State) (n : Nat) : (t.count (Reg.SDC_NREFS ch) n).reg a = t.reg a := by
    rw [State.count, reg_setReg, if_neg apart]
  have activated : (s.activate ch row).2.reg a = s.reg a := by
    unfold State.activate
    dsimp only
    split
    · exact counted _ _
    · rfl
  have used : (if ((s.sdramOf ch).bank k).isOpen && decide (((s.sdramOf ch).bank k).lastRow = row + 1) then (false, s)
      else s.activate ch row).2.reg a = s.reg a := by
    split
    · rfl
    · exact activated
  exact used

theorem State.reg_touch (s : State) (x n : Nat) (write : Bool) {a : Nat} (below : a < Reg.SDC_NREFS 0) :
    (s.touch x n write).reg a = s.reg a := by
  have place (t : State) (lo hi : Nat) (p : Nat × Nat) : (t.usePlace lo hi p).reg a = t.reg a :=
    foldl_reg _ _ t fun u sub _ => u.reg_useBank _ _ _ below
  have granule (t : State) (lo hi : Nat) : (t.useGranule lo hi write).reg a = t.reg a :=
    foldl_reg _ _ t fun u p _ => place u lo hi p
  unfold State.touch
  split
  · rfl
  · exact foldl_reg _ _ s fun u i _ => granule u _ _

/-! ### The commands of a ring -/

theorem exec_ringWrite {src : Source} {r : Nat} {s : State} (f : State → State) (up : s.up = true) (fits : r < 256)
    (served : s.judge src (Reg.MUL_RCTRL r) 4 true = .served) : s.ringWrite src r f = .next (f s) := by
  refine (answer_of (by simp [up, fits]) _ _).trans (congrArg _ ?_)
  rw [State.access_served served]

theorem State.mule_setMule_self (s : State) (r : Nat) (x : MuleRing) : (s.setMule r x).mule r = x := by
  rw [State.mule, State.setMule, look_put_self]
  rfl

theorem State.mule_setFld (s : State) (r a n : Nat) (f : Fld) : (s.setFld a f n).mule r = s.mule r := rfl

theorem State.setMule_ram (s : State) (r : Nat) (x : MuleRing) : (s.setMule r x).ram = s.ram := rfl

theorem muleRctrl_ne_rstat (r q : Nat) : Reg.MUL_RCTRL r ≠ Reg.MUL_RSTAT q := by
  unfold Reg.MUL_RCTRL Reg.MUL_RSTAT
  omega

/-- A register field of the ring over the end of its halt. -/
theorem State.fld_unhalt (t : State) (r : Nat) :
    let u := (t.setFld (Reg.MUL_RSTAT r) Reg.MUL_RSTAT_.HALTED 0).setFld (Reg.MUL_RSTAT r) Reg.MUL_RSTAT_.ACTIVE 0
    u.fld (Reg.MUL_RSTAT r) Reg.MUL_RSTAT_.HALTED = 0 ∧
      u.fld (Reg.MUL_RSTAT r) Reg.MUL_RSTAT_.PACED = t.fld (Reg.MUL_RSTAT r) Reg.MUL_RSTAT_.PACED ∧
      u.fld (Reg.MUL_RCTRL r) Reg.MUL_RCTRL_.ENABLE = t.fld (Reg.MUL_RCTRL r) Reg.MUL_RCTRL_.ENABLE := by
  have apart := muleRctrl_ne_rstat r r
  refine ⟨?_, ?_, ?_⟩
  · rw [fld_setFld_of_disjoint _ _ _ _ _ (by decide) (by decide) (by decide)]
    exact fld_setFld_self _ _ _ _ (by decide) (by decide)
  · rw [fld_setFld_of_disjoint _ _ _ _ _ (by decide) (by decide) (by decide),
      fld_setFld_of_disjoint _ _ _ _ _ (by decide) (by decide) (by decide)]
  · rw [State.fld, reg_setFld_of_ne _ _ _ _ _ apart, reg_setFld_of_ne _ _ _ _ _ apart, ← State.fld]

/-- A register field of the ring over its disabling. -/
theorem State.fld_disable (s : State) (r : Nat) :
    let t := (s.setFld (Reg.MUL_RCTRL r) Reg.MUL_RCTRL_.ENABLE 0).setFld (Reg.MUL_RSTAT r) Reg.MUL_RSTAT_.PACED 0
    t.fld (Reg.MUL_RCTRL r) Reg.MUL_RCTRL_.ENABLE = 0 ∧ t.fld (Reg.MUL_RSTAT r) Reg.MUL_RSTAT_.PACED = 0 ∧
      t.ringHalted r = s.ringHalted r := by
  have apart := muleRctrl_ne_rstat r r
  refine ⟨?_, fld_setFld_self _ _ _ _ (by decide) (by decide), ?_⟩
  · rw [State.fld, reg_setFld_of_ne _ _ _ _ _ apart]
    exact fld_setFld_self _ _ _ _ (by decide) (by decide)
  · rw [State.ringHalted, fld_setFld_of_disjoint _ _ _ _ _ (by decide) (by decide) (by decide), State.fld,
      reg_setFld_of_ne _ _ _ _ _ apart.symm]
    rfl

/-- R417, R419: what a ring that is disabled keeps of its descriptor. -/
theorem muleRingDisabled {src : Source} {r : Nat} {s : State} (up : s.up = true) (fits : r < 256)
    (served : s.judge src (Reg.MUL_RCTRL r) 4 true = .served) :
    ∃ t, exec (.muleRingDisable src r) s = .next t ∧ t.ringEnabled r = false ∧ t.ringHalted r = false ∧
      t.fld (Reg.MUL_RSTAT r) Reg.MUL_RSTAT_.PACED = 0 ∧ t.ram = s.ram ∧
      (s.ringHalted r = true → (t.mule r).cur = none) ∧ (s.ringHalted r = false → t.mules = s.mules) := by
  refine ⟨_, exec_ringWrite _ up fits served, ?_⟩
  obtain ⟨enable, paced, halted⟩ := s.fld_disable r
  have swept (v : State) (x : MuleRing) : (v.setMule r x).sweepReleases.regs = v.regs ∧
      (v.setMule r x).sweepReleases.ram = v.ram ∧ (v.setMule r x).sweepReleases.mules = v.mules.put r x := by
    simp [State.sweepReleases_frame, State.setMule]
  have same : ∀ (u : State) (a : Nat) (f : Fld) (n : Nat), (u.setFld a f n).ram = u.ram ∧ (u.setFld a f n).mules = u.mules :=
    fun u a f n => ⟨rfl, rfl⟩
  have ram := (same (s.setFld (Reg.MUL_RCTRL r) Reg.MUL_RCTRL_.ENABLE 0) (Reg.MUL_RSTAT r) Reg.MUL_RSTAT_.PACED 0).1.trans
    (same s _ _ _).1
  have mules := (same (s.setFld (Reg.MUL_RCTRL r) Reg.MUL_RCTRL_.ENABLE 0) (Reg.MUL_RSTAT r) Reg.MUL_RSTAT_.PACED 0).2.trans
    (same s _ _ _).2
  dsimp only at enable paced halted ⊢
  generalize (s.setFld (Reg.MUL_RCTRL r) Reg.MUL_RCTRL_.ENABLE 0).setFld (Reg.MUL_RSTAT r) Reg.MUL_RSTAT_.PACED 0 = t
    at enable paced halted ram mules ⊢
  split
  next was =>
    obtain ⟨unhalted, stillPaced, stillOff⟩ := t.fld_unhalt r
    have kept := (same (t.setFld (Reg.MUL_RSTAT r) Reg.MUL_RSTAT_.HALTED 0) (Reg.MUL_RSTAT r) Reg.MUL_RSTAT_.ACTIVE 0).1.trans
      (same t _ _ _).1
    generalize (t.setFld (Reg.MUL_RSTAT r) Reg.MUL_RSTAT_.HALTED 0).setFld (Reg.MUL_RSTAT r) Reg.MUL_RSTAT_.ACTIVE 0 = v
      at unhalted stillPaced stillOff kept ⊢
    obtain ⟨regs, ram', mules'⟩ := swept v { v.mule r with cur := none, cut := none, pendingBack := none }
    refine ⟨?_, ?_, ?_, ?_, fun _ => ?_, fun running => ?_⟩
    · rw [State.ringEnabled, State.fld_congr regs, stillOff, enable]
      rfl
    · rw [State.ringHalted, State.fld_congr regs, unhalted]
      rfl
    · rw [State.fld_congr regs, stillPaced, paced]
    · rw [ram', kept, ram]
    · rw [State.mule, mules', look_put_self]
      rfl
    · rw [halted, running] at was
      exact absurd was Bool.false_ne_true
  next runs =>
    refine ⟨?_, by simpa using runs, paced, ram, fun stopped => ?_, fun _ => mules⟩
    · rw [State.ringEnabled, enable]
      rfl
    · rw [halted] at runs
      exact absurd stopped runs

theorem muleRingsComplete : Ob.MuleRingsComplete := by
  refine fun src r s up fits served => ⟨fun off => ?enable, fun on => ?enabled, muleRingDisabled up fits served,
    fun halted => ?resume, fun runs => ?running, exec_ringWrite _ up fits served, fun paced low => ?pace⟩
  case enable =>
    refine (exec_ringWrite _ up fits served).trans (congrArg _ ?_)
    refine (if_neg (by simp [off])).trans ?_
    dsimp only
    rw [State.mule_setFld]
  case enabled =>
    refine (exec_ringWrite _ up fits served).trans (congrArg _ ?_)
    exact if_pos on
  case resume =>
    refine (exec_ringWrite _ up fits served).trans (congrArg _ ?_)
    exact if_pos halted
  case running =>
    refine (exec_ringWrite _ up fits served).trans (congrArg _ ?_)
    exact if_neg (by simp [runs])
  case pace =>
    exact answer_of (by simpa [up, fits, paced] using low) _ _

/-! ### The descriptor at the head -/

theorem exec_muleDescriptor {r : Nat} {s : State} (ok : Bool) (runs : Ob.RingRuns r s) :
    exec (.muleDescriptor r ok) s = .next (s.startMule r ok) := by
  obtain ⟨up, fits, enabled, halted, idle, free, unpaced, paced⟩ := runs
  refine (answer_of (by simp [up, fits, enabled, halted, idle, free]) _ _).trans (congrArg _ ?_)
  simp only [unpaced, Bool.false_eq_true, ↓reduceIte, paced, Nat.zero_ne_one]

theorem muleReg_below {r : Nat} (fits : r < 256) : Reg.MUL_RSTAT r < Reg.SDC_NREFS 0 ∧ Reg.MUL_RCTRL r < Reg.SDC_NREFS 0 := by
  unfold Reg.MUL_RSTAT Reg.MUL_RCTRL Reg.SDC_NREFS
  omega

/-- The start of a descriptor, in terms of the address at the ring's head. -/
theorem State.startMule_at (s : State) (r : Nat) (fetchOk : Bool) : s.startMule r fetchOk =
    if !fetchOk || !s.fabricOk (Ob.mdAt s r) 32 then s.haltRing r 0 0 (Ob.mdAt s r)
    else
      let v := s.touch (Ob.mdAt s r) 32 false
      let d := BitVec.ofNat 256 (leNat (readBytes v.ram (Ob.mdAt s r) 32))
      if !d.getLsbD 31 then v.setMule r { v.mule r with idle := true }
      else
        let u := (v.setMule r { cur := some d, addr := Ob.mdAt s r, idle := false,
                                cut := if (mdFns d).any (fun fk => !v.mayWriteHost fk) then some 5 else none,
                                pendingBack := none }).setFld (Reg.MUL_RSTAT r) Reg.MUL_RSTAT_.ACTIVE 1
        (u.setFld (Reg.MUL_RSTAT r) Reg.MUL_RSTAT_.HEAD ((s.fld (Reg.MUL_RSTAT r) Reg.MUL_RSTAT_.HEAD + 1) %
          2 ^ u.fld (Reg.MUL_RCTRL r) Reg.MUL_RCTRL_.SIZE_LOG2)).takeMuleTag r d := by
  unfold State.startMule Ob.mdAt
  rfl

/-- R410: a descriptor with OWN set is in progress, and the head goes round the ring. -/
theorem State.startMule_takes {r : Nat} {s : State} (fits : r < 256) (ok : s.fabricOk (Ob.mdAt s r) 32 = true)
    (own : (Ob.mdHead s r).getLsbD 31 = true) (small : s.fld (Reg.MUL_RCTRL r) Reg.MUL_RCTRL_.SIZE_LOG2 ≤ 12) :
    ((s.startMule r true).mule r).cur = some (Ob.mdHead s r) ∧ ((s.startMule r true).mule r).addr = Ob.mdAt s r ∧
      (s.startMule r true).fld (Reg.MUL_RSTAT r) Reg.MUL_RSTAT_.HEAD = (s.fld (Reg.MUL_RSTAT r) Reg.MUL_RSTAT_.HEAD + 1) %
        2 ^ s.fld (Reg.MUL_RCTRL r) Reg.MUL_RCTRL_.SIZE_LOG2 ∧ (s.startMule r true).ram = s.ram := by
  obtain ⟨stat, ctrl⟩ := muleReg_below fits
  have ram : (s.touch (Ob.mdAt s r) 32 false).ram = s.ram := by simp [State.touch_frame]
  have size : (s.touch (Ob.mdAt s r) 32 false).fld (Reg.MUL_RCTRL r) Reg.MUL_RCTRL_.SIZE_LOG2 =
      s.fld (Reg.MUL_RCTRL r) Reg.MUL_RCTRL_.SIZE_LOG2 := by rw [State.fld, s.reg_touch _ _ _ ctrl]; rfl
  have head : BitVec.ofNat 256 (leNat (readBytes (s.touch (Ob.mdAt s r) 32 false).ram (Ob.mdAt s r) 32)) = Ob.mdHead s r := by
    rw [ram, Ob.mdHead]
  have tagged : ∀ u : State, (u.takeMuleTag r (Ob.mdHead s r)).mules = u.mules ∧
      (u.takeMuleTag r (Ob.mdHead s r)).regs = u.regs ∧ (u.takeMuleTag r (Ob.mdHead s r)).ram = u.ram :=
    fun u => by simp [State.takeMuleTag_frame]
  have round : (s.fld (Reg.MUL_RSTAT r) Reg.MUL_RSTAT_.HEAD + 1) % 2 ^ s.fld (Reg.MUL_RCTRL r) Reg.MUL_RCTRL_.SIZE_LOG2 <
      2 ^ 12 := (Nat.mod_lt _ (Nat.two_pow_pos _)).trans_le (Nat.pow_le_pow_right (by decide) small)
  rw [s.startMule_at]
  simp only [ok, Bool.not_true, Bool.or_self, Bool.false_eq_true, ↓reduceIte, head, own]
  generalize s.touch (Ob.mdAt s r) 32 false = v at ram size
  have log (x : MuleRing) : ((v.setMule r x).setFld (Reg.MUL_RSTAT r) Reg.MUL_RSTAT_.ACTIVE 1).fld (Reg.MUL_RCTRL r)
      Reg.MUL_RCTRL_.SIZE_LOG2 = s.fld (Reg.MUL_RCTRL r) Reg.MUL_RCTRL_.SIZE_LOG2 := by
    rw [State.fld, reg_setFld_of_ne _ _ _ _ _ (muleRctrl_ne_rstat r r)]
    exact size
  rw [log]
  refine ⟨?_, ?_, ?_, ?_⟩
  · rw [State.mule, (tagged _).1]
    exact congrArg _ (congrArg (Option.getD · _) (look_put_self v.mules r _))
  · rw [State.mule, (tagged _).1]
    exact congrArg _ (congrArg (Option.getD · _) (look_put_self v.mules r _))
  · rw [State.fld_congr (tagged _).2.1, fld_setFld_self _ _ _ _ (by decide) (by decide)]
    exact Nat.mod_eq_of_lt round
  · rw [(tagged _).2.2]
    simp only [State.setFld_frame, State.setMule_ram, ram]

theorem muleTakesDescriptor : Ob.MuleTakesDescriptor := by
  refine ⟨fun r s runs ok own small => ?takes, fun r s runs ok free => ?idles, fun r s runs => ?fails,
    fun r ok s up fits enabled halted idle none' paces => ?paces⟩
  case takes => exact ⟨_, exec_muleDescriptor true runs, State.startMule_takes runs.2.1 ok own small⟩
  case idles =>
    obtain ⟨up, fits, enabled, halted, idle, none', unpaced, paced⟩ := runs
    refine ⟨_, exec_muleDescriptor true ⟨up, fits, enabled, halted, idle, none', unpaced, paced⟩, ?_⟩
    have touched : (s.touch (Ob.mdAt s r) 32 false).ram = s.ram ∧ (s.touch (Ob.mdAt s r) 32 false).mules = s.mules := by
      simp [State.touch_frame]
    have idled : s.startMule r true = (s.touch (Ob.mdAt s r) 32 false).setMule r
        { (s.touch (Ob.mdAt s r) 32 false).mule r with idle := true } := by
      have head : BitVec.ofNat 256 (leNat (readBytes (s.touch (Ob.mdAt s r) 32 false).ram (Ob.mdAt s r) 32)) =
          Ob.mdHead s r := by
        rw [touched.1, Ob.mdHead]
      rw [s.startMule_at]
      simp only [ok, Bool.not_true, Bool.or_self, Bool.false_eq_true, ↓reduceIte, head, free, Bool.not_false]
    have same : (s.touch (Ob.mdAt s r) 32 false).mule r = s.mule r := by
      unfold State.mule
      rw [touched.2]
    rw [idled, State.mule_setMule_self, State.setMule_ram, same]
    exact ⟨rfl, none', touched.1⟩
  case fails =>
    refine ⟨_, exec_muleDescriptor false runs, ?_⟩
    have halts : s.startMule r false = s.haltRing r 0 0 (Ob.mdAt s r) := by
      rw [s.startMule_at]
      simp only [Bool.not_false, Bool.true_or, ↓reduceIte]
    have apart : Reg.MUL_RERR r ≠ Reg.MUL_RSTAT r := by
      unfold Reg.MUL_RERR Reg.MUL_RSTAT
      omega
    have stampApart : Reg.MUL_RERR r ≠ Reg.MOD_DSEQ ∧ Reg.MUL_RERR r ≠ Reg.EVT_OVERWRITTEN := by
      unfold Reg.MUL_RERR Reg.MOD_DSEQ Reg.EVT_OVERWRITTEN
      omega
    have statApart : Reg.MUL_RSTAT r ≠ Reg.MOD_DSEQ ∧ Reg.MUL_RSTAT r ≠ Reg.EVT_OVERWRITTEN := by
      unfold Reg.MUL_RSTAT Reg.MOD_DSEQ Reg.EVT_OVERWRITTEN
      omega
    rw [halts]
    refine ⟨?_, ?_, ?_, by simp [State.haltRing_frame], by simp [State.haltRing_frame]⟩
    · rw [State.ringHalted, State.fld, State.haltRing, State.reg_raiseRecord _ _ _ _ _ statApart.1 statApart.2]
      exact decide_eq_true (fld_setFld_self _ _ _ _ (by decide) (by decide))
    · rw [State.haltRing, State.reg_raiseRecord _ _ _ _ _ stampApart.1 stampApart.2, reg_setFld_of_ne _ _ _ _ _ apart,
        reg_setReg_self]
      simp
    · exact State.record_events _ _ _ _ _ _ _ _ (State.raise_isSet _ 16 16)
  case paces =>
    refine (answer_of (by simp [up, fits, enabled, halted, idle, none']) _ _).trans (congrArg _ ?_)
    exact if_pos paces

/-- Settles O41: the commands of a ring, and what it does with the descriptor at its head. -/
theorem muleRings : Obligations.MuleRings := ⟨muleRingsComplete, muleTakesDescriptor⟩

end Sys2Proof.Machine

/-! ## SDRAM upkeep and training (R430, R434, R437, R439, R440) -/

namespace Sys2Proof.Machine

open Sys2Proof Sys2Proof.Laws

/-! ### Upkeep -/

/-- R437: a correction of the write leveling of at most two steps is taken, a further one is an event. -/
theorem exec_writeLevelTrack {ch d r : Nat} (v : BitVec 12) {s : State} {f : Fld} (run : s.running = true)
    (serves : s.sdcIn ch [2] = true) (device : d < 20) (rank : r < 2)
    (delays : f = if r = 0 then Reg.SDC_DQS_.WL_R0 else Reg.SDC_DQS_.WL_R1) :
    exec (.writeLevelTrack ch d r v) s = .next (if s.fld (Reg.SDC_DQS ch d) f + 2 < v.toNat ∨
      v.toNat + 2 < s.fld (Reg.SDC_DQS ch d) f then s.raise 17 22 else s.setFld (Reg.SDC_DQS ch d) f v.toNat) := by
  subst delays
  exact answer_of (by simp [run, serves, device, rank]) _ _

theorem sdcCtrl_ne_state (c k : Nat) : Reg.SDC_CTRL c ≠ Reg.SDC_STATE k := by
  unfold Reg.SDC_CTRL Reg.SDC_STATE
  omega

/-- R437, R440: a mode takes effect in BOOT; what a channel holds goes when it comes into service. -/
theorem sdcModeWritten {src : Source} {ch : Nat} {m : BitVec 2} {s : State} (up : s.up = true) (fits : ch < 12)
    (served : s.judge src (Reg.SDC_CTRL ch) 4 true = .served) (armed : s.isArmed src 17 = true) (boot : s.mode = modeBoot) :
    ∃ t, exec (.sdcModeWrite src ch m) s = .next t ∧
      t.fld (Reg.SDC_CTRL ch) Reg.SDC_CTRL_.MODE = m.toNat ∧
      t.fld (Reg.SDC_STATE ch) Reg.SDC_STATE_.MODE = (if m = 3 then 0 else m.toNat) ∧
      t.isArmed src 17 = false ∧ (m ≠ 2 → t.ram = s.ram) ∧
      ∀ c ∈ t.ram, c ∈ s.ram := by
  have inBoot : ¬(s.disarm src 17).mode ≠ modeBoot := not_not_intro boot
  refine ⟨_, (answer_of (by simp [up, fits]) _ _).trans (congrArg _ ((State.access_served served _).trans
    ((State.keyed_armed _ armed (.inr (.inl (by decide)))).trans (if_neg inBoot)))), ?_⟩
  dsimp only
  have written : ((s.disarm src 17).setFld (Reg.SDC_CTRL ch) Reg.SDC_CTRL_.MODE m.toNat).fld (Reg.SDC_CTRL ch)
      Reg.SDC_CTRL_.MODE = m.toNat := by
    rw [fld_setFld_self _ _ _ _ (by decide) (by decide)]
    exact Nat.mod_eq_of_lt m.isLt
  have same : ((s.disarm src 17).setFld (Reg.SDC_CTRL ch) Reg.SDC_CTRL_.MODE m.toNat).armed = (s.disarm src 17).armed ∧
      ((s.disarm src 17).setFld (Reg.SDC_CTRL ch) Reg.SDC_CTRL_.MODE m.toNat).ram = s.ram := ⟨rfl, rfl⟩
  generalize (s.disarm src 17).setFld (Reg.SDC_CTRL ch) Reg.SDC_CTRL_.MODE m.toNat = u at written same ⊢
  obtain ⟨armed', ram⟩ := same
  have small : (if m = 3 then 0 else m.toNat) < 2 ^ 2 := by
    split
    · decide
    · exact m.isLt
  have two : (if m = 3 then 0 else m.toNat) = 2 → m = 2 := by
    split
    · exact fun absent => absurd absent (by decide)
    · exact fun same => BitVec.eq_of_toNat_eq same
  generalize (if m = 3 then 0 else m.toNat) = now at small two ⊢
  have shown : ∀ (t : State) (n : Nat), n < 2 ^ 2 → t.regs = u.regs → t.armed = u.armed →
      (t.setFld (Reg.SDC_STATE ch) Reg.SDC_STATE_.MODE n).fld (Reg.SDC_CTRL ch) Reg.SDC_CTRL_.MODE = m.toNat ∧
      (t.setFld (Reg.SDC_STATE ch) Reg.SDC_STATE_.MODE n).fld (Reg.SDC_STATE ch) Reg.SDC_STATE_.MODE = n ∧
      (t.setFld (Reg.SDC_STATE ch) Reg.SDC_STATE_.MODE n).isArmed src 17 = false := by
    intro t n fit regs arms
    refine ⟨?_, ?_, ?_⟩
    · rw [State.fld, reg_setFld_of_ne _ _ _ _ _ (sdcCtrl_ne_state ch ch), ← State.fld, State.fld_congr regs, written]
    · rw [fld_setFld_self _ _ _ _ (by decide) (by decide)]
      exact Nat.mod_eq_of_lt fit
    · have disarmed := s.isArmed_disarm_self src 17
      unfold State.isArmed at disarmed ⊢
      simp only [State.setFld_frame, arms, armed']
      exact disarmed
  split
  next comes =>
    obtain ⟨ctrl, state, quiet⟩ := shown (u.initSdram ch) _ small rfl rfl
    refine ⟨ctrl, state, quiet, fun other => ?_, fun c held => ?_⟩
    · exact absurd (two comes.1) other
    · rw [← ram]
      exact List.mem_of_mem_filter held
  next =>
    obtain ⟨ctrl, state, quiet⟩ := shown u _ small rfl rfl
    exact ⟨ctrl, state, quiet, fun _ => ram, fun c held => ram ▸ held⟩

theorem sdramCommandsComplete : Ob.SdramCommandsComplete := by
  refine ⟨fun ch s run works => ⟨?refresh, fun hot => ?poll⟩, fun ch b s run serves open' => ?close,
    fun ch s run fits well => ?failure, fun s up detour => ?cleanup,
    fun ch d r v s f run serves device rank delays => ⟨fun low high => ?tracked, fun far => ?far⟩,
    fun src ch m s up fits served armed => ⟨fun notBoot => ?late, sdcModeWritten up fits served armed⟩⟩
  case refresh => exact answer_of (by simp [run, works]) _ _
  case poll => exact answer_of (by simp [run, works]) _ _
  case close => exact answer_of (by simp [run, serves, open']) _ _
  case failure => exact answer_of (by simp [run, fits, well]) _ _
  case cleanup =>
    refine ⟨_, answer_of (by simp [up, detour]) _ _, rfl, fun e listed => ?_, rfl, rfl, rfl⟩
    obtain ⟨x, -, rfl⟩ := List.mem_map.mp listed
    split
    next => exact fun sdram => Loc.noConfusion sdram
    next kept =>
      intro sdram img
      by_contra clean
      exact kept ⟨sdram, img, by simpa using clean⟩
  case tracked =>
    rw [exec_writeLevelTrack v run serves device rank delays, if_neg (by omega)]
  case far => rw [exec_writeLevelTrack v run serves device rank delays, if_pos far]
  case late =>
    refine (answer_of (by simp [up, fits]) _ _).trans (congrArg _ ?_)
    rw [State.access_served served, State.keyed_armed _ armed (.inr (.inl (by decide)))]
    exact if_pos notBoot

/-! ### Training commands (R437, Table 10) -/

theorem exec_trainCmd {src : Source} {ch op : Nat} {x : Half} {s : State} (f : State → State) (up : s.up = true)
    (fits : ch < 12) (served : s.judge src (Reg.SDC_TCMD ch) 8 true = .served) :
    answer (s.up && decide (ch < 12)) s (s.trainCmd src ch op x f) = .next (if s.sdcIn ch [1] then
      (f (s.emit (.training ch op x))).setFld (Reg.SDC_TRESHI ch) Reg.SDC_TRESHI_.DONE 1 else s) := by
  refine (answer_of (by simp [up, fits]) _ _).trans (congrArg _ ?_)
  rw [State.trainCmd, State.access_served served]
  cases s.sdcIn ch [1] <;> rfl

theorem trainingCommandsComplete : Ob.TrainingCommandsComplete := by
  intro src ch sub rank x s up fits served
  have treshi : Reg.SDC_TRES ch ≠ Reg.SDC_TRESHI ch := by
    unfold Reg.SDC_TRES Reg.SDC_TRESHI
    omega
  refine ⟨fun training => ⟨?mrw, ?mpc, ?write, fun data => ?mrr, fun fails => ?compare⟩,
    fun idle data fails i named => ?refused⟩
  case mrw => exact (exec_trainCmd _ up fits served).trans (congrArg _ (if_pos training))
  case mpc => exact (exec_trainCmd _ up fits served).trans (congrArg _ (if_pos training))
  case write => exact (exec_trainCmd _ up fits served).trans (congrArg _ (if_pos training))
  case mrr =>
    refine ⟨_, (exec_trainCmd _ up fits served).trans (congrArg _ (if_pos training)), rfl, ?_, ?_⟩
    · rw [fld_setFld_of_disjoint _ _ _ _ _ (by decide) (by decide) (by decide),
        fld_setFld_self _ _ _ _ (by decide) (by decide)]
      exact Nat.mod_eq_of_lt data.isLt
    · exact fld_setFld_self _ _ _ _ (by decide) (by decide)
  case compare =>
    refine ⟨_, (exec_trainCmd _ up fits served).trans (congrArg _ (if_pos training)),
      fld_setFld_self _ _ _ _ (by decide) (by decide), ?_, ?_⟩
    · rw [State.fld, reg_setFld_of_ne _ _ _ _ _ treshi, reg_setFld_of_ne _ _ _ _ _ treshi, ← State.fld,
        fld_setFld_self _ _ _ _ (by decide) (by decide)]
      exact Nat.mod_mod _ _
    · rw [fld_setFld_of_disjoint _ _ _ _ _ (by decide) (by decide) (by decide),
        fld_setFld_self _ _ _ _ (by decide) (by decide)]
      exact Nat.mod_eq_of_lt (Nat.div_lt_of_lt_mul (fails &&& dqOf sub).isLt)
  case refused =>
    have shape : ∃ op f, exec i s = answer (s.up && decide (ch < 12)) s (s.trainCmd src ch op x f) := by
      simp only [List.mem_cons, List.not_mem_nil, or_false] at named
      rcases named with rfl | rfl | rfl | rfl | rfl <;> exact ⟨_, _, rfl⟩
    obtain ⟨op, f, same⟩ := shape
    rw [same, exec_trainCmd f up fits served, if_neg (by simp [idle])]

/-- Settles O44: each upkeep command and each training command, by the channel's mode. -/
theorem sdramUpkeep : Obligations.SdramUpkeep := ⟨sdramCommandsComplete, trainingCommandsComplete⟩

end Sys2Proof.Machine

/-! ## Counters, EVT_CLRSTATS and the freeze (R502, R504, R506, R511 to R515, R520) -/

namespace Sys2Proof.Machine

open Sys2Proof Sys2Proof.Laws

/-! ### Counters -/

theorem Fld.get_ofNat (f : Fld) {n : Nat} (small : n < 2 ^ 64) :
    f.get (BitVec.ofNat 64 n) = n / 2 ^ f.lo % 2 ^ (f.hi - f.lo + 1) := by
  simp only [Fld.get, BitVec.toNat_ushiftRight, BitVec.toNat_ofNat, Nat.shiftRight_eq_div_pow, Nat.mod_eq_of_lt small]

/-- R504: a counter counts below its maximum, and sticks there with OVF. -/
theorem counterAdd_fields (v : DWord) (n : Nat) :
    (ctrCount.get v + n < 2 ^ 31 - 1 →
      ctrCount.get (counterAdd v n) = ctrCount.get v + n ∧ ctrOvf.get (counterAdd v n) = 0) ∧
    (2 ^ 31 - 1 ≤ ctrCount.get v + n →
      ctrCount.get (counterAdd v n) = 2 ^ 31 - 1 ∧ ctrOvf.get (counterAdd v n) = 1) := by
  unfold counterAdd
  generalize ctrCount.get v + n = k
  refine ⟨fun below => ?_, fun above => ?_⟩
  · have count : min k (2 ^ 31 - 1) = k := by omega
    simp only [count, Nat.ne_of_lt below, ↓reduceIte, Nat.add_zero]
    rw [Fld.get_ofNat _ (by omega), Fld.get_ofNat _ (by omega)]
    simp only [ctrCount, ctrOvf]
    omega
  · have count : min k (2 ^ 31 - 1) = 2 ^ 31 - 1 := by omega
    simp only [count, ↓reduceIte]
    decide

theorem look_filter_key {α : Type} (p : Nat → Bool) (m : SMap α) (k : Nat) :
    SMap.look (m.filter fun e => p e.1) k = if p k then m.look k else none := by
  induction m with
  | nil => simp [SMap.look]
  | cons e m ih =>
    by_cases kept : p e.1 <;> by_cases here : e.1 = k <;> simp_all [SMap.look]

/-- R506: what an armed write of EVT_CLRSTATS clears and keeps. -/
theorem statsCleared {src : Source} {s : State} (up : s.up = true) (served : s.judge src Reg.EVT_CLRSTATS 4 true = .served)
    (armed : s.isArmed src 23 = true) : ∃ t, exec (.clearStats src) s = .next t ∧
      (∀ a, isClearedCounter a = true → t.reg a = regReset a) ∧
      (∀ a, isClearedCounter a = false → t.reg a = s.reg a) ∧
      (t.statOf (Reg.HDR_STAT 23)).isSet 17 = true ∧ t.isArmed src 23 = false ∧ t.ram = s.ram ∧ t.cmds = s.cmds := by
  refine ⟨_, (answer_of up _ _).trans (congrArg _ ((State.access_served served _).trans
    (State.keyed_armed _ armed (.inr (.inr (by decide)))))), ?_⟩
  have left (a : Nat) : SMap.look ((s.disarm src 23).regs.filter fun e => !isClearedCounter e.1) a =
      if !isClearedCounter a then s.regs.look a else none := look_filter_key (fun a => !isClearedCounter a) s.regs a
  have quiet := s.isArmed_disarm_self src 23
  have same : (s.disarm src 23).ram = s.ram ∧ (s.disarm src 23).cmds = s.cmds := ⟨rfl, rfl⟩
  generalize s.disarm src 23 = u at left quiet same
  have raised : ∀ t : State, (t.raise 23 17).regs = t.regs ∧ (t.raise 23 17).armed = t.armed ∧ (t.raise 23 17).ram = t.ram ∧
      (t.raise 23 17).cmds = t.cmds := fun t => by simp [State.raise_frame]
  obtain ⟨regs, arms, ram, cmds⟩ := raised { u with regs := u.regs.filter fun e => !isClearedCounter e.1 }
  refine ⟨fun a cleared => ?_, fun a kept => ?_, State.raise_isSet _ 23 17, ?_, ram.trans same.1, cmds.trans same.2⟩
  · rw [State.reg, regs, left, cleared]
    rfl
  · rw [State.reg, regs, left, kept]
    rfl
  · rw [State.isArmed, arms]
    exact quiet

theorem countersAdvance : Ob.CountersAdvance := by
  refine ⟨fun s run => answer_of run _ _, counterAdd_fields,
    fun src s up served => ⟨statsCleared up served, fun unarmed => ?unarmed⟩⟩
  case unarmed =>
    refine ⟨_, (answer_of up _ _).trans (congrArg _ ((State.access_served served _).trans
      (State.keyed_unarmed _ unarmed))), by simp [State.raiseHdr_frame], ?_⟩
    rw [State.raiseHdr, State.statOf_raiseAt, if_pos rfl, StatReg.isSet_event]
    simp

/-! ### The freeze -/

/-- R494: the mode that is entered is the mode. -/
theorem State.mode_enterMode (s : State) {m : Nat} (small : m < 16) : (s.enterMode m).mode = m := by
  have faced : ∀ (t : State) (f : Face), State.reg { t with pins := { t.pins with face := f } } Reg.MOD_STATE =
      t.reg Reg.MOD_STATE := fun _ _ => rfl
  unfold State.enterMode
  dsimp only
  split
  next same => exact same
  next =>
    rw [State.mode, State.fld, State.reg_record _ _ _ _ _ _ (by decide) (by decide), State.reg_raiseFns, State.reg_raise, faced,
      reg_setReg_self, Fld.get_set _ _ _ (by decide) (by decide)]
    exact Nat.mod_eq_of_lt small

/-- R512, R514: what a freeze leaves. -/
theorem State.freeze_shows (s : State) : s.freeze.pins.frozen = true ∧ s.freeze.running = false ∧ s.freeze.mode = modeFrozen ∧
    Out.freezePass 0 ∈ s.freeze.out ∧ s.freeze.cmds = s.cmds ∧ s.freeze.ram = s.ram ∧ s.freeze.media = s.media ∧
    s.freeze.map = s.map ∧ s.freeze.boot = s.boot ∧ s.freeze.reg Reg.MOD_HALT = s.reg Reg.MOD_HALT := by
  have kept : ∀ t : State, t.freeze.cmds = t.cmds ∧ t.freeze.ram = t.ram ∧ t.freeze.media = t.media ∧ t.freeze.map = t.map ∧
      t.freeze.boot = t.boot := fun t => by simp [State.freeze_frame]
  obtain ⟨cmds, ram, media, map, boot⟩ := kept s
  refine ⟨rfl, by simp [State.freeze, State.running, State.emit], s.mode_enterMode (m := modeFrozen) (by decide),
    List.mem_append_right _ (List.mem_singleton_self _), cmds, ram, media, map, boot, ?_⟩
  exact s.reg_enterMode modeFrozen (by decide) (by decide) (by decide)

theorem freezeHolds : Ob.FreezeHolds := by
  refine ⟨fun s reset face thawed => ?freezeN, fun s held => ?held,
    fun src s up served => ⟨fun armed level => ?request, fun armed level => ?normal, fun unarmed => ?unarmed⟩,
    fun seg s frozen fits => ?chain, fun op s thawed => ?thawed⟩
  case freezeN =>
    refine ⟨s.freeze, ?_, s.freeze_shows⟩
    change execFreezeN s = _
    simp [execFreezeN, reset, face, answer, thawed]
  case held =>
    change execFreezeN s = _
    rcases held with h | h <;> simp [execFreezeN, h]
  case request =>
    have debug : ¬(s.disarm src 24).debugLevel = 0 := level
    refine (answer_of up _ _).trans (congrArg _ ?_)
    rw [State.access_served served, State.keyed_armed _ armed (.inr (.inr (by decide)))]
    exact if_neg debug
  case normal =>
    have debug : (s.disarm src 24).debugLevel = 0 := level
    refine (answer_of up _ _).trans (congrArg _ ?_)
    rw [State.access_served served, State.keyed_armed _ armed (.inr (.inr (by decide)))]
    exact if_pos debug
  case unarmed =>
    refine ⟨_, (answer_of up _ _).trans (congrArg _ ((State.access_served served _).trans
      (State.keyed_unarmed _ unarmed))), ?_, ?_⟩ <;> simp [State.raiseHdr_frame]
  case chain => exact answer_of (by simp [frozen, fits]) _ _
  case thawed =>
    cases op with
    | stateChain seg =>
      change answer (s.pins.frozen && decide (seg < 212)) s _ = _
      simp [answer, thawed]
    | _ => rfl

/-- Settles O52: the counters, what EVT_CLRSTATS clears, and what begins, survives and reads a freeze. -/
theorem countersAndFreeze : Obligations.CountersAndFreeze := ⟨countersAdvance, freezeHolds⟩

end Sys2Proof.Machine

/-! ## The release of chip reset, and mask ROM (R444, R463, R464, R471, R472) -/

namespace Sys2Proof.Machine

open Sys2Proof Sys2Proof.Laws

/-! ### Reasons in BOOT (R494, R496) -/

/-- A reason that comes to hold stands in MOD_REASON beside those that held. -/
theorem State.reg_reason_sets (s : State) {r : Nat} (small : r < 64) :
    ((s.reason r true).reg Reg.MOD_REASON).getLsbD r = true ∧
      ∀ q, (s.reg Reg.MOD_REASON).getLsbD q = true → ((s.reason r true).reg Reg.MOD_REASON).getLsbD q = true := by
  unfold State.reason
  split
  next holds => exact ⟨holds, fun q => id⟩
  next =>
    dsimp only
    rw [State.reg_followReasons _ (by decide) (by decide) (by decide), State.reg_record _ _ _ _ _ _ (by decide) (by decide),
      State.reg_raise, reg_setReg_self]
    refine ⟨by simp [small], fun q held => ?_⟩
    simp only [↓reduceIte, BitVec.getLsbD_or, held, Bool.true_or]

/-- In BOOT a reason changes no mode. -/
theorem State.mode_reason_boot {s : State} (boot : s.mode = modeBoot) (r : Nat) (holds : Bool) :
    (s.reason r holds).mode = modeBoot := by
  have stays : ∀ t : State, t.mode = modeBoot → t.followReasons.mode = modeBoot := fun t same => by
    have out : ¬(t.mode = modeServe ∨ t.mode = modeDegraded) := by
      rw [same]
      decide
    rw [State.followReasons, if_neg out, same]
  unfold State.reason
  split
  · exact boot
  · refine stays _ ?_
    rw [State.mode, State.fld, State.reg_record _ _ _ _ _ _ (by decide) (by decide), State.reg_raise, reg_setReg,
      if_neg (by decide)]
    exact boot

theorem State.enterMode_sysClock (s : State) (m : Nat) : (s.enterMode m).pins.sysClock = s.pins.sysClock := by
  unfold State.enterMode
  dsimp only
  split
  · rfl
  · simp [State.record_frame, State.raiseFns_frame, State.raise_frame, State.setReg_frame]

theorem State.reason_sysClock (s : State) (r : Nat) (holds : Bool) : (s.reason r holds).pins.sysClock = s.pins.sysClock := by
  have followed : ∀ t : State, t.followReasons.pins.sysClock = t.pins.sysClock := fun t => by
    unfold State.followReasons
    split
    · exact t.enterMode_sysClock _
    · rfl
  unfold State.reason
  split
  · rfl
  · dsimp only
    rw [followed]
    simp [State.record_frame, State.raise_frame, State.setReg_frame]

/-! ### The release (R463, R494, R526) -/

theorem lifecycle_le (r : BitVec 4096) : lifecycle r ≤ 4 :=
  (List.takeWhile_prefix _).length_le.trans (by simp)

theorem State.reg_showFuses_of_ne (s : State) {a : Nat} (serial : a ≠ Reg.FUS_SERIAL) (state : a ≠ Reg.FUS_STATE) :
    s.showFuses.reg a = s.reg a := by
  unfold State.showFuses
  dsimp only
  rw [reg_setFld_of_ne _ _ _ _ _ state, reg_setFld_of_ne _ _ _ _ _ state, reg_setFld_of_ne _ _ _ _ _ state,
    reg_setFld_of_ne _ _ _ _ _ state, reg_setFld_of_ne _ _ _ _ _ state, reg_setReg, if_neg serial]

/-- R463: what the fuses show. -/
theorem State.showFuses_shows (s : State) :
    s.showFuses.reg Reg.FUS_SERIAL = BitVec.ofNat 64 (fuseSerial s.boot.fuses) ∧
      s.showFuses.fld Reg.FUS_STATE Reg.FUS_STATE_.LIFECYCLE = lifecycle s.boot.fuses := by
  have apart : Reg.FUS_SERIAL ≠ Reg.FUS_STATE := by decide
  unfold State.showFuses
  dsimp only
  refine ⟨?_, ?_⟩
  · rw [reg_setFld_of_ne _ _ _ _ _ apart, reg_setFld_of_ne _ _ _ _ _ apart, reg_setFld_of_ne _ _ _ _ _ apart,
      reg_setFld_of_ne _ _ _ _ _ apart, reg_setFld_of_ne _ _ _ _ _ apart, reg_setReg_self]
  · rw [fld_setFld_of_disjoint _ _ _ _ _ (by decide) (by decide) (by decide),
      fld_setFld_self _ _ _ _ (by decide) (by decide)]
    exact Nat.mod_eq_of_lt ((lifecycle_le s.boot.fuses).trans_lt (by decide))

theorem State.senseFuses_regs (s : State) : s.senseFuses.regs = s.showFuses.regs := by
  unfold State.senseFuses
  dsimp only
  split <;> split <;> simp [State.raise_frame]

theorem State.senseFuses_events (s : State) : EventsKept s s.senseFuses := by
  have shown : EventsKept s s.showFuses := .of_stat (by simp [State.showFuses_frame])
  have checked (t : State) (b : Bool) : EventsKept t (if b then t else t.raise 21 18) := .ite (.refl t) (t.raise_events 21 18)
  have slots (t : State) (b : Bool) : EventsKept t (if b then t.raise 21 17 else t) := .ite (t.raise_events 21 17) (.refl t)
  unfold State.senseFuses
  exact shown.trans ((slots s.showFuses _).trans (checked _ _))

/-- The ports answer with Request Retry Status. -/
theorem portOf_retrying (s : State) (a b : Bool) :
    let t := (s.setPort .a { s.portOf .a with refClock := a, retry := true }).setPort .b
      { s.portOf .b with refClock := b, retry := true }
    (t.portOf .a).retry = true ∧ (t.portOf .b).retry = true := by
  dsimp only
  refine ⟨?_, ?_⟩
  · simp [State.portOf, State.setPort, look_put, Port.num]
  · simp [State.portOf, State.setPort, Port.num]

/-- The state in which both ports give their reasons: the straps and the fuses are taken. -/
def strapsTaken (straps : BitVec 7) (sysclk a b : Bool) (s : State) : State :=
  let s : State := { s with
    pins := { s.pins with resetLow := false, sysClock := sysclk }
    power := { s.power with pwrFailLow := false } }
  let s := (s.setPort .a { s.portOf .a with refClock := a, retry := true }).setPort .b
    { s.portOf .b with refClock := b, retry := true }
  let s := s.setReg Reg.FCE_STRAPS (straps.setWidth 64)
  let s := if straps.toNat / 8 = 0 then s else s.raise 25 16
  s.senseFuses.seedSdram

theorem exec_chipResetRelease (straps : BitVec 7) (sysclk a b : Bool) {s : State} (reset : s.pins.resetLow = true) :
    exec (.chipResetRelease straps sysclk a b) s =
      .next (((strapsTaken straps sysclk a b s).reason (reasonPort .a) true).reason (reasonPort .b) true) :=
  answer_of reset _ _

/-- R463, R471, R526: what stands when straps and fuses are taken. -/
theorem strapsTaken_shows (straps : BitVec 7) (sysclk a b : Bool) (s : State) :
    (strapsTaken straps sysclk a b s).pins.resetLow = false ∧ (strapsTaken straps sysclk a b s).pins.sysClock = sysclk ∧
      (strapsTaken straps sysclk a b s).boot = s.boot ∧ (strapsTaken straps sysclk a b s).media = s.media ∧
      (strapsTaken straps sysclk a b s).nss = s.nss ∧
      ((strapsTaken straps sysclk a b s).portOf .a).retry = true ∧
      ((strapsTaken straps sysclk a b s).portOf .b).retry = true := by
  have sensed : ∀ t : State, t.senseFuses.seedSdram.pins = t.pins ∧ t.senseFuses.seedSdram.boot = t.boot ∧
      t.senseFuses.seedSdram.media = t.media ∧ t.senseFuses.seedSdram.nss = t.nss ∧
      t.senseFuses.seedSdram.hosts = t.hosts := fun t => by simp [State.seedSdram_frame, State.senseFuses_frame]
  have noted : ∀ t : State, (if straps.toNat / 8 = 0 then t else t.raise 25 16).pins = t.pins ∧
      (if straps.toNat / 8 = 0 then t else t.raise 25 16).boot = t.boot ∧
      (if straps.toNat / 8 = 0 then t else t.raise 25 16).media = t.media ∧
      (if straps.toNat / 8 = 0 then t else t.raise 25 16).nss = t.nss ∧
      (if straps.toNat / 8 = 0 then t else t.raise 25 16).hosts = t.hosts := fun t => by
    split <;> simp [State.raise_frame]
  have ports := portOf_retrying { s with
    pins := { s.pins with resetLow := false, sysClock := sysclk }, power := { s.power with pwrFailLow := false } } a b
  unfold strapsTaken
  dsimp only at ports ⊢
  generalize strapped : State.setReg (State.setPort (State.setPort _ Port.a _) Port.b _) Reg.FCE_STRAPS _ = u
  obtain ⟨pins, boot, media, nss, hosts⟩ := sensed (if straps.toNat / 8 = 0 then u else u.raise 25 16)
  obtain ⟨pins', boot', media', nss', hosts'⟩ := noted u
  have same := hosts.trans hosts'
  rw [pins, pins', boot, boot', media, media', nss, nss', State.portOf_congr (congrArg HostState.ports same),
    State.portOf_congr (congrArg HostState.ports same), ← strapped]
  exact ⟨rfl, rfl, rfl, rfl, rfl, ports.1, ports.2⟩

theorem strapsTaken_regs (straps : BitVec 7) (sysclk a b : Bool) (s : State) :
    (strapsTaken straps sysclk a b s).reg Reg.FCE_STRAPS = straps.setWidth 64 ∧
      (strapsTaken straps sysclk a b s).reg Reg.FUS_SERIAL = BitVec.ofNat 64 (fuseSerial s.boot.fuses) ∧
      (strapsTaken straps sysclk a b s).fld Reg.FUS_STATE Reg.FUS_STATE_.LIFECYCLE = lifecycle s.boot.fuses ∧
      (strapsTaken straps sysclk a b s).mode = s.mode ∧
      (8 ≤ straps.toNat → ((strapsTaken straps sysclk a b s).statOf (Reg.HDR_STAT 25)).isSet 16 = true) := by
  have seeded : ∀ t : State, t.senseFuses.seedSdram.regs = t.showFuses.regs ∧
      t.senseFuses.seedSdram.stat = t.senseFuses.stat := fun t => by
    simp [State.seedSdram_frame, State.senseFuses_regs]
  have noted : ∀ t : State, (if straps.toNat / 8 = 0 then t else t.raise 25 16).regs = t.regs ∧
      (if straps.toNat / 8 = 0 then t else t.raise 25 16).boot = t.boot := fun t => by
    split <;> simp [State.raise_frame]
  unfold strapsTaken
  dsimp only
  generalize clocked : State.setPort (State.setPort _ Port.a _) Port.b _ = v
  have start : v.regs = s.regs ∧ v.boot = s.boot := by
    rw [← clocked]
    exact ⟨rfl, rfl⟩
  generalize strapped : v.setReg Reg.FCE_STRAPS (straps.setWidth 64) = u
  have boot : u.boot = s.boot := by
    rw [← strapped]
    exact start.2
  obtain ⟨regs', boot'⟩ := noted u
  obtain ⟨regs, stat⟩ := seeded (if straps.toNat / 8 = 0 then u else u.raise 25 16)
  have shows := (if straps.toNat / 8 = 0 then u else u.raise 25 16).showFuses_shows
  rw [boot', boot] at shows
  refine ⟨?_, ?_, ?_, ?_, fun reserved => ?_⟩
  · rw [State.reg_congr regs, State.reg_showFuses_of_ne _ (by decide) (by decide), State.reg_congr regs', ← strapped,
      reg_setReg_self]
  · rw [State.reg_congr regs, shows.1]
  · rw [State.fld_congr regs, shows.2]
  · rw [State.mode, State.fld, State.reg_congr regs, State.reg_showFuses_of_ne _ (by decide) (by decide),
      State.reg_congr regs', ← strapped, reg_setReg, if_neg (by decide), State.reg_congr start.1]
    rfl
  · rw [State.statOf_congr stat, if_neg (by omega)]
    exact State.senseFuses_events _ _ _ (u.raise_isSet 25 16)

/-- R444: what a port's reason leaves of the release. -/
theorem resetReleased : Ob.ResetReleased := by
  refine ⟨fun straps sysclk a b s reset boot => ?release, fun s run face low => ?boots, fun s run face low => ?freezes⟩
  case release =>
    refine ⟨_, exec_chipResetRelease straps sysclk a b reset, ?_⟩
    obtain ⟨out, clock, boot', media, nss, retryA, retryB⟩ := strapsTaken_shows straps sysclk a b s
    obtain ⟨strap, serial, life, mode, event⟩ := strapsTaken_regs straps sysclk a b s
    generalize strapsTaken straps sysclk a b s = u at *
    have kept : ∀ (t : State) (r : Nat), (t.reason r true).pins.resetLow = t.pins.resetLow ∧
        (t.reason r true).boot = t.boot ∧ (t.reason r true).media = t.media ∧ (t.reason r true).nss = t.nss := fun t r => by
      simp [State.reason_frame]
    have fixed {x : Nat} (other : x ∉ modeRegs) :
        ((u.reason (reasonPort .a) true).reason (reasonPort .b) true).reg x = u.reg x :=
      (State.reg_reason _ _ _ other).trans (State.reg_reason _ _ _ other)
    have ports : ((u.reason (reasonPort .a) true).reason (reasonPort .b) true).hosts.ports = u.hosts.ports := by simp
    obtain ⟨outB, bootB, mediaB, nssB⟩ := kept (u.reason (reasonPort .a) true) (reasonPort .b)
    obtain ⟨outA, bootA, mediaA, nssA⟩ := kept u (reasonPort .a)
    obtain ⟨first, -⟩ := u.reg_reason_sets (r := reasonPort .a) (by decide)
    obtain ⟨second, held⟩ := (u.reason (reasonPort .a) true).reg_reason_sets (r := reasonPort .b) (by decide)
    refine ⟨outB.trans (outA.trans out), ?_, State.mode_reason_boot (State.mode_reason_boot (mode.trans boot) _ _) _ _,
      (fixed (by decide)).trans strap, (fixed (by decide)).trans serial,
      (congrArg Reg.FUS_STATE_.LIFECYCLE.get (fixed (by decide))).trans life,
      (congrArg PortState.retry (State.portOf_congr ports .a)).trans retryA,
      (congrArg PortState.retry (State.portOf_congr ports .b)).trans retryB, held 0 first, second, fun reserved => ?_,
      bootB.trans (bootA.trans boot'), mediaB.trans (mediaA.trans media), nssB.trans (nssA.trans nss)⟩
    · rw [State.reason_sysClock, State.reason_sysClock, clock]
    · exact ((State.reason_events _ _ _).trans (State.reason_events _ _ _)) _ _ (event reserved)
  case boots =>
    refine (answer_of (by simp [run, face]) _ _).trans (congrArg _ ?_)
    rw [low]
    rfl
  case freezes =>
    refine ⟨(answer_of (by simp [run, face]) _ _).trans (congrArg _ ?_), s.freeze_shows.1⟩
    rw [low]
    rfl

/-! ### Mask ROM (R463, R464, R472) -/

theorem exec_bootImageCheck (nor : Bool) (a b : Option NorSlot) {s : State} (rom : Ob.MaskRom s) :
    exec (.bootImageCheck nor a b) s = .next (if !serialOk s.boot.fuses then s.bootStops 1
      else if lifecycle s.boot.fuses = 0 then s.bootStops 5
      else if !nor then s.bootStops 2
      else (Ob.withNor s a b).tryslots (norCandidates a b) true) := by
  obtain ⟨run, mode, face, code, unbooted⟩ := rom
  exact answer_of (by simp [run, mode, face, code, unbooted]) _ _

/-- R463: a stop shows its code, ends Request Retry Status and boots nothing. -/
theorem State.bootStops_shows (s : State) {code : Nat} (small : code < 256) :
    (s.bootStops code).fld Reg.BOT_STATUS Reg.BOT_STATUS_.CODE = code ∧ (s.bootStops code).boot = s.boot ∧
      Out.console code ∈ (s.bootStops code).out ∧ ((s.bootStops code).portOf .a).retry = false ∧
      ((s.bootStops code).portOf .b).retry = false := by
  have regs : (s.bootStops code).regs = (s.bootCode code).regs := rfl
  refine ⟨?_, rfl, List.mem_append_right _ (List.mem_singleton_self _), ?_, ?_⟩
  · rw [State.fld_congr regs, State.bootCode, fld_setFld_self _ _ _ _ (by decide) (by decide)]
    exact Nat.mod_eq_of_lt small
  · simp [State.bootStops, State.endRetry, State.emit, State.portOf, State.setPort, look_put, Port.num]
  · simp [State.bootStops, State.endRetry, State.emit, State.portOf, State.setPort, Port.num]

/-- Whether a slot boots does not depend on BOT_STATUS. -/
theorem State.slotBoots_rejectSlot (s : State) (k : Nat) (x : NorSlot) : (s.rejectSlot k).slotBoots x = s.slotBoots x := by
  have policy : (s.rejectSlot k).fld Reg.GRD_POLICY Reg.GRD_POLICY_.SIGNERS = s.fld Reg.GRD_POLICY Reg.GRD_POLICY_.SIGNERS := by
    rw [State.fld, State.rejectSlot, reg_setFld_of_ne _ _ _ _ _ (by decide), ← State.fld]
  have boot : (s.rejectSlot k).boot = s.boot := rfl
  simp only [State.slotBoots, State.manifestOk, State.signedOk, State.slotAccepted, policy, boot]

theorem State.tryslots_boots {s : State} {k : Nat} {x : NorSlot} (boots : s.slotBoots x = true) (l : List (Nat × NorSlot))
    (first : Bool) : s.tryslots ((k, x) :: l) first =
      let t := s.setFld Reg.BOT_STATUS Reg.BOT_STATUS_.SLOT k
      let u := (if first then t else t.raise 19 16).setFld Reg.BOT_STATUS Reg.BOT_STATUS_.STAGE 1
      u.setBoot { u.boot with booted := some x.image } := by
  simp only [State.tryslots, boots, ↓reduceIte]

theorem State.tryslots_rejects {s : State} {k : Nat} {x : NorSlot} (rejected : s.slotBoots x = false)
    (l : List (Nat × NorSlot)) (first : Bool) : s.tryslots ((k, x) :: l) first = (s.rejectSlot k).tryslots l false := by
  simp only [State.tryslots, rejected, Bool.false_eq_true, ↓reduceIte]

theorem romReports {nor : Bool} {a b : Option NorSlot} {s : State} {code : Nat} (rom : Ob.MaskRom s)
    (cause : code = 1 ∧ serialOk s.boot.fuses = false ∨
      code = 5 ∧ serialOk s.boot.fuses = true ∧ lifecycle s.boot.fuses = 0 ∨
      code = 2 ∧ serialOk s.boot.fuses = true ∧ lifecycle s.boot.fuses ≠ 0 ∧ nor = false ∨
      code = 3 ∧ serialOk s.boot.fuses = true ∧ lifecycle s.boot.fuses ≠ 0 ∧ nor = true ∧ norCandidates a b = []) :
    ∃ u : State, u.boot.booted = s.boot.booted ∧ u.boot.fuses = s.boot.fuses ∧ code < 256 ∧
      exec (.bootImageCheck nor a b) s = .next (u.bootStops code) := by
  rw [exec_bootImageCheck nor a b rom]
  rcases cause with ⟨rfl, serial⟩ | ⟨rfl, serial, blank⟩ | ⟨rfl, serial, life, absent⟩ | ⟨rfl, serial, life, there, none'⟩
  · exact ⟨s, rfl, rfl, by decide, by simp [serial]⟩
  · exact ⟨s, rfl, rfl, by decide, by simp [serial, blank]⟩
  · exact ⟨s, rfl, rfl, by decide, by simp [serial, life, absent]⟩
  · exact ⟨Ob.withNor s a b, rfl, rfl, by decide, by simp [serial, life, there, none', State.tryslots]⟩

theorem maskRomChecks : Ob.MaskRomChecks := by
  refine ⟨fun nor a b s code rom cause => ?stops, fun a b s k x l rom serial life slots fits boots => ?first,
    fun a b s x y rom serial life slots rejected boots => ?second⟩
  case stops =>
    obtain ⟨u, booted, fuses, small, reports⟩ := romReports rom cause
    obtain ⟨shown, boot, console, retryA, retryB⟩ := u.bootStops_shows small
    obtain ⟨-, -, -, -, unbooted⟩ := rom
    refine ⟨_, reports, shown, ?_, console, retryA, retryB, ?_⟩
    · rw [boot, booted, unbooted]
    · rw [boot, fuses]
  case first =>
    have tries : exec (.bootImageCheck true a b) s = .next ((Ob.withNor s a b).tryslots ((k, x) :: l) true) := by
      rw [exec_bootImageCheck true a b rom, slots]
      simp [serial, life]
    refine ⟨_, tries, ?_⟩
    rw [State.tryslots_boots boots]
    simp only [↓reduceIte]
    rw [State.setBoot_boot]
    refine ⟨rfl, ?_, ?_, rfl, rfl, rfl, ?_⟩
    · rw [State.fld, State.reg_setBoot _ _ _ (by decide) (by decide), ← State.fld,
        fld_setFld_of_disjoint _ _ _ _ _ (by decide) (by decide) (by decide),
        fld_setFld_self _ _ _ _ (by decide) (by decide)]
      exact Nat.mod_eq_of_lt (fits.trans (by decide))
    · rw [State.fld, State.reg_setBoot _ _ _ (by decide) (by decide)]
      exact fld_setFld_self _ _ _ _ (by decide) (by decide)
    · simp [State.setBoot_frame, State.setFld_frame, Ob.withNor]
  case second =>
    have tries : exec (.bootImageCheck true a b) s = .next (((Ob.withNor s a b).rejectSlot 0).tryslots [(1, y)] false) := by
      rw [exec_bootImageCheck true a b rom, slots, State.tryslots_rejects rejected]
      simp [serial, life]
    refine ⟨_, tries, ?_⟩
    rw [State.tryslots_boots (by rw [State.slotBoots_rejectSlot, boots])]
    dsimp only
    rw [State.setBoot_boot]
    have raised : ∀ (t : State) (x : Nat), (if false = true then t else t.raise 19 16).reg x = t.reg x := fun t x =>
      t.reg_raise 19 16 x
    refine ⟨rfl, ?_, ?_, ?_⟩
    · rw [State.fld, State.reg_setBoot _ _ _ (by decide) (by decide), ← State.fld,
        fld_setFld_of_disjoint _ _ _ _ _ (by decide) (by decide) (by decide), State.fld, raised]
      exact fld_setFld_self _ _ _ _ (by decide) (by decide)
    · rw [State.fld, State.reg_setBoot _ _ _ (by decide) (by decide), ← State.fld,
        fld_setFld_of_disjoint _ _ _ _ _ (by decide) (by decide) (by decide), State.fld, raised, ← State.fld,
        fld_setFld_of_disjoint _ _ _ _ _ (by decide) (by decide) (by decide)]
      exact fld_setFld_self _ _ _ _ (by decide) (by decide)
    · have kept : ∀ (t : State) (f : Fld) (n : Nat) (b : BootState),
          EventsKept t ((t.setFld Reg.BOT_STATUS f n).setBoot b) := fun t f n b =>
        .of_stat (by simp [State.setBoot_frame, State.setFld_frame])
      exact kept _ _ _ _ _ _ (State.raise_isSet _ 19 16)

/-- Settles O47: what the release of reset takes in, and what mask ROM starts or reports. -/
theorem resetAndRom : Obligations.ResetAndRom := ⟨resetReleased, maskRomChecks⟩

end Sys2Proof.Machine

/-! ## The steps of recovery (R380, R388) -/

namespace Sys2Proof.Machine

open Sys2Proof Sys2Proof.Laws

/-! ### A table of bands that lists one number twice

The statement is about every state. In a table with each band's number once, step 9 closes every OPEN band and nothing after
that opens one. A table that lists a number twice hides its second band from the closing, which goes by the number; the
deletion of a deposed namespace later in the step finds the hidden band by its member block and writes it back first. -/

/-- A band of one number, with the given member blocks. -/
def hiddenBand (members : List Member) (st : BandSt) : Band :=
  { layout := 0, members := members, stream := 0, st := st, next := 0, relaxed := false, failed := [], valid := 2, minutes := 0,
    score := 0, openWseq := 0 }

/-- An image; recovery asks only that one runs. -/
def recoveringImage : Image :=
  { magic := 0, format := 0, nblk := 0, tblk := 0, manifestBlk := 0, crcOk := false, sections := [], hdrHash := 0,
    manifest := { magic := 0, format := 0, svn := 0, exportFmt := 0, supportEnd := 0, versions := [], beside := [], revoke := 0,
                  svnFuse := false, part := [], hdrHash := 0, sectHashes := [], signSlot := 0, signer := 0, signature := 0 } }

/-- Step 8 of recovery has ended; band 5 is listed twice, and a deposed namespace has its one unit in the second. -/
def hiddenBandState : State :=
  { State.reset with
    pins := { State.reset.pins with resetLow := false }
    boot := { State.reset.boot with running := some recoveringImage }
    power := { State.reset.power with recStep := 8 }
    nss := [(1, { Namespace.blank with size := 4, deposed := some 2 })]
    map := { State.reset.map with entries := [(0, mkEntry false false false true 0)] }
    place := { State.reset.place with
      bands := [(5, hiddenBand [] .closed), (5, hiddenBand [{ ch := 0, die := 0, block := 0 }] .opened)] } }

theorem hiddenBandState_goesOn : hiddenBandState.recovering = true ∧ hiddenBandState.mayRecover = true := by decide +kernel

/-- After step 9 the number names the band that was hidden, and it is OPEN. -/
theorem hiddenBandState_reopens :
    (hiddenBandState.recover.place.bands.look 5).map (fun b => b.st) = some .opened := by decide +kernel

/-- Refutes O49: step 9 leaves a band OPEN in a state whose table of bands lists its number twice. -/
theorem not_recoveryGoesOn : ¬ Obligations.RecoveryGoesOn := by
  unfold Obligations.RecoveryGoesOn
  rintro ⟨goesOn, -⟩
  obtain ⟨recovering, may⟩ := hiddenBandState_goesOn
  obtain ⟨t, next, -, -, -, -, -, -, -, -, -, -, -, step9, -⟩ := goesOn hiddenBandState recovering may
  have reached : exec .recoveryStep hiddenBandState = .next hiddenBandState.recover :=
    answer_of (by rw [recovering, may]; rfl) _ _
  have same : hiddenBandState.recover = t := Host.Outcome.next.inj (reached.symm.trans next)
  obtain ⟨b, found, opened⟩ := Option.map_eq_some_iff.mp hiddenBandState_reopens
  rw [same] at found
  exact (step9 rfl).2 5 b found opened

end Sys2Proof.Machine

/-! ## Castling (R482, R486, R488, R490) -/

namespace Sys2Proof.Machine

open Sys2Proof Sys2Proof.Laws

/-! ### The end of a castling in a service mode -/

theorem State.serviceMode_congr {s t : State} (same : t.reg Reg.MOD_REASON = s.reg Reg.MOD_REASON) :
    t.serviceMode = s.serviceMode := by
  have reasons : t.reasons = s.reasons := congrArg Reg.MOD_REASON_.REASONS.get same
  rw [State.serviceMode, reasons, State.serviceMode]

theorem State.serviceMode_small (s : State) : s.serviceMode < 16 := by
  unfold State.serviceMode
  split <;> decide

theorem State.setBoot_events (s : State) (b : BootState) : EventsKept s (s.setBoot b) := .of_stat (by simp [State.setBoot_frame])

theorem State.dueCore_setBoot (s : State) (b : BootState) (c : Castle) : (s.setBoot b).dueCore c = s.dueCore c := by
  have cores : (s.setBoot b).failedCores = s.failedCores := by simp [State.setBoot_frame]
  simp only [State.dueCore, cores]

theorem State.mode_setBoot (s : State) (b : BootState) : (s.setBoot b).mode = s.mode :=
  congrArg Reg.MOD_STATE_.STATE.get (s.reg_setBoot b _ (by decide) (by decide))

/-- R482, R486, R494: a castling that closes outside BOOT. -/
theorem State.closeCastle_shows (s : State) {c : Castle} (service : c.inBoot = false) :
    (s.closeCastle c).boot = { s.boot with castle := none, staging := Staging.empty } ∧
      (s.closeCastle c).mode = s.serviceMode ∧ (s.closeCastle c).cmds = s.cmds ∧ (s.closeCastle c).media = s.media ∧
      EventsKept s (s.closeCastle c) ∧
      ∀ a, a ∉ modeRegs → a ≠ Reg.FWU_STATE → a ≠ Reg.FWU_VERS → (s.closeCastle c).reg a = s.reg a := by
  have closed : s.closeCastle c = (s.setBoot { s.boot with castle := none, staging := Staging.empty }).enterMode
      (s.setBoot { s.boot with castle := none, staging := Staging.empty }).serviceMode := by
    simp only [State.closeCastle, service, Bool.false_eq_true, ↓reduceIte]
  rw [closed]
  refine ⟨?_, ?_, ?_, ?_, ?_, fun a mode state versions => ?_⟩
  · simp [State.enterMode_frame]
  · rw [State.mode_enterMode _ (State.serviceMode_small _)]
    exact State.serviceMode_congr (s.reg_setBoot _ _ (by decide) (by decide))
  · simp [State.enterMode_frame, State.setBoot_frame]
  · simp [State.enterMode_frame, State.setBoot_frame]
  · exact (s.setBoot_events _).trans (State.enterMode_events _ _)
  · simp only [modeRegs, List.mem_cons, List.not_mem_nil, or_false, not_or] at mode
    obtain ⟨modeState, -, stamp, overwritten⟩ := mode
    rw [State.reg_enterMode _ _ modeState stamp overwritten, State.reg_setBoot _ _ _ state versions]

/-- R486, R488: a castling that closes with its event, and one that counts it as well. -/
theorem State.closeCastle_told (u : State) {c : Castle} (service : c.inBoot = false) (b : Nat) :
    ((u.raise 22 b).closeCastle c).boot = { u.boot with castle := none, staging := Staging.empty } ∧
      ((u.raise 22 b).closeCastle c).mode = u.serviceMode ∧ ((u.raise 22 b).closeCastle c).cmds = u.cmds ∧
      ((u.raise 22 b).closeCastle c).media = u.media ∧
      (((u.raise 22 b).closeCastle c).statOf (Reg.HDR_STAT 22)).isSet b = true ∧
      ∀ a, a ∉ modeRegs → a ≠ Reg.FWU_STATE → a ≠ Reg.FWU_VERS → ((u.raise 22 b).closeCastle c).reg a = u.reg a := by
  obtain ⟨boot, mode, cmds, media, events, regs⟩ := (u.raise 22 b).closeCastle_shows service
  have raised : (u.raise 22 b).boot = u.boot ∧ (u.raise 22 b).cmds = u.cmds ∧ (u.raise 22 b).media = u.media := by
    simp [State.raise_frame]
  refine ⟨?_, ?_, cmds.trans raised.2.1, media.trans raised.2.2, events _ _ (u.raise_isSet 22 b), fun a h1 h2 h3 => ?_⟩
  · rw [boot, raised.1]
  · rw [mode, State.serviceMode_congr (u.reg_raise 22 b _)]
  · rw [regs a h1 h2 h3, State.reg_raise]

theorem State.closeCastle_counted (u : State) {c : Castle} (service : c.inBoot = false) (b : Nat) {a : Nat}
    (counter : a = Reg.FWU_CASTLES ∨ a = Reg.FWU_ABORTS) :
    (((u.count a 1).raise 22 b).closeCastle c).boot = { u.boot with castle := none, staging := Staging.empty } ∧
      (((u.count a 1).raise 22 b).closeCastle c).mode = u.serviceMode ∧
      (((u.count a 1).raise 22 b).closeCastle c).cmds = u.cmds ∧
      (((u.count a 1).raise 22 b).closeCastle c).media = u.media ∧
      ((((u.count a 1).raise 22 b).closeCastle c).statOf (Reg.HDR_STAT 22)).isSet b = true ∧
      (((u.count a 1).raise 22 b).closeCastle c).reg a = counterAdd (u.reg a) 1 := by
  have apart : a ∉ modeRegs ∧ a ≠ Reg.FWU_STATE ∧ a ≠ Reg.FWU_VERS ∧ Reg.MOD_REASON ≠ a := by
    rcases counter with rfl | rfl <;> decide
  obtain ⟨modes, state, versions, reason⟩ := apart
  obtain ⟨boot, mode, cmds, media, event, regs⟩ := (u.count a 1).closeCastle_told service b
  refine ⟨boot, ?_, cmds, media, event, ?_⟩
  · rw [mode]
    refine State.serviceMode_congr ?_
    rw [State.count, reg_setReg, if_neg reason]
  · rw [regs a modes state versions, State.count, reg_setReg_self]

/-- The new image runs and is committed; its event and its close follow (R486). -/
def State.imageCommitted (s : State) (c : Castle) : State :=
  { s.noteCastle c 0 0xFF with boot := { (s.noteCastle c 0 0xFF).boot with
      running := some c.image
      store := { s.boot.store with committed := some c.image, commitSeq := s.boot.store.commitSeq + 1 } } }

/-- The new image runs, and its commit could not be written (R486). -/
def State.imageUncommitted (s : State) (c : Castle) : State :=
  { s.noteCastle c 5 0xFF with boot := { (s.noteCastle c 5 0xFF).boot with running := some c.image } }

theorem State.commitCastle_written (s : State) {c : Castle} (service : c.inBoot = false) :
    s.commitCastle c true = (((s.imageCommitted c).count Reg.FWU_CASTLES 1).raise 22 18).closeCastle c := by
  simp only [State.commitCastle, service, Bool.not_true, Bool.false_eq_true, ↓reduceIte]
  rfl

theorem State.commitCastle_failed (s : State) (c : Castle) :
    s.commitCastle c false = ((s.imageUncommitted c).raise 22 20).closeCastle c := rfl

/-- R486: what a commit leaves, written or not. -/
theorem State.commitCastle_shows (s : State) {c : Castle} (service : c.inBoot = false) (ok : Bool) :
    (s.commitCastle c ok).boot.castle = none ∧ (s.commitCastle c ok).boot.running = some c.image ∧
      (s.commitCastle c ok).boot.staging = Staging.empty ∧ (s.commitCastle c ok).mode = s.serviceMode ∧
      (ok = true → (s.commitCastle c ok).boot.store.committed = some c.image ∧
        ((s.commitCastle c ok).statOf (Reg.HDR_STAT 22)).isSet 18 = true ∧
        (s.commitCastle c ok).reg Reg.FWU_CASTLES = counterAdd (s.reg Reg.FWU_CASTLES) 1) ∧
      (ok = false → (s.commitCastle c ok).boot.store = s.boot.store ∧
        ((s.commitCastle c ok).statOf (Reg.HDR_STAT 22)).isSet 20 = true) ∧
      (s.commitCastle c ok).cmds = s.cmds ∧ (s.commitCastle c ok).media = s.media := by
  cases ok with
  | true =>
    have under : (s.imageCommitted c).regs = s.regs ∧ (s.imageCommitted c).cmds = s.cmds ∧ (s.imageCommitted c).media = s.media := ⟨rfl, rfl, rfl⟩
    obtain ⟨regs, cmds', media'⟩ := under
    obtain ⟨boot, mode, cmds, media, event, count⟩ := (s.imageCommitted c).closeCastle_counted service 18 (.inl rfl)
    rw [s.commitCastle_written service, boot, mode, cmds, media, cmds', media', count, State.reg_congr regs,
      State.serviceMode_congr (State.reg_congr regs _)]
    exact ⟨rfl, rfl, rfl, rfl, fun _ => ⟨rfl, event, rfl⟩, fun failed => Bool.noConfusion failed, rfl, rfl⟩
  | false =>
    have under : (s.imageUncommitted c).regs = s.regs ∧ (s.imageUncommitted c).cmds = s.cmds ∧ (s.imageUncommitted c).media = s.media :=
      ⟨rfl, rfl, rfl⟩
    obtain ⟨regs, cmds', media'⟩ := under
    obtain ⟨boot, mode, cmds, media, event, -⟩ := (s.imageUncommitted c).closeCastle_told service 20
    rw [s.commitCastle_failed c, boot, mode, cmds, media, cmds', media', State.serviceMode_congr (State.reg_congr regs _)]
    exact ⟨rfl, rfl, rfl, rfl, fun written => Bool.noConfusion written, fun _ => ⟨rfl, event⟩, rfl, rfl⟩

/-- R488: the end of an aborted castling. -/
theorem State.endAbort_shows (s : State) {c : Castle} (service : c.inBoot = false) (result core : Nat) :
    (s.endAbort c result core).boot.castle = none ∧ (s.endAbort c result core).boot.running = s.boot.running ∧
      (s.endAbort c result core).boot.store = s.boot.store ∧ (s.endAbort c result core).boot.staging = Staging.empty ∧
      (s.endAbort c result core).mode = s.serviceMode ∧
      ((s.endAbort c result core).statOf (Reg.HDR_STAT 22)).isSet 19 = true ∧
      (s.endAbort c result core).reg Reg.FWU_ABORTS = counterAdd (s.reg Reg.FWU_ABORTS) 1 := by
  have regs : (s.noteCastle c result core).regs = s.regs := rfl
  obtain ⟨boot, mode, -, -, event, count⟩ := (s.noteCastle c result core).closeCastle_counted service 19 (.inr rfl)
  rw [State.endAbort, boot, mode, count, State.reg_congr regs, State.serviceMode_congr (State.reg_congr regs _)]
  exact ⟨rfl, rfl, rfl, rfl, rfl, event, rfl⟩

/-! ### Handover, import and timeout (R486, R488) -/

theorem castlingCommandsComplete : Ob.CastlingCommandsComplete := by
  intro s c k castle due run mode service
  refine ⟨fun going => ?handover, fun ok stopped going => ⟨fun n next => ?imported, fun done => ?committed⟩,
    fun stopped going => ⟨fun n next => ?aborting, fun done => ?aborted⟩⟩
  case handover =>
    have step : exec .coreHandover s =
        .next ((s.setBoot { s.boot with castle := some { c with stopped := true } }).disarmAll (.core (coreAt k))) := by
      change execCoreHandover s = _
      simp only [execCoreHandover, castle, due]
      exact answer_of (by simp [run, going, mode]) _ _
    have arms : (s.setBoot { s.boot with castle := some { c with stopped := true } }).armed = s.armed := by
      simp [State.setBoot_frame]
    refine ⟨_, step, ?_, fun w => ?_, fun src w other => ?_, ?_, ?_, ?_⟩
    · simp [State.disarmAll]
    · simp [State.isArmed, State.disarmAll]
    · simp [State.isArmed, State.disarmAll, arms, other]
    · simp [State.disarmAll, State.setBoot_frame]
    · simp [State.disarmAll, State.setBoot_frame]
    · simp [State.disarmAll, State.setBoot_frame]
  case imported =>
    have step : exec (.handoverImportDone ok) s =
        .next (s.setBoot { s.boot with castle := some { c with stopped := false, handed := k + 1 } }) := by
      change execHandoverImportDone ok s = _
      simp only [execHandoverImportDone, castle, due]
      refine (answer_of (by simp [run, stopped, mode, modeCastling, modeHoldup]) _ _).trans (congrArg _ ?_)
      simp only [State.handedOver, going, State.dueCore_setBoot] at next ⊢
      rw [next]
      rfl
    refine ⟨_, step, by simp, (s.mode_setBoot _).trans mode, by simp [State.setBoot_frame]⟩
  case committed =>
    have step : exec (.handoverImportDone ok) s =
        .next ((s.setBoot { s.boot with castle := some { c with stopped := false, handed := k + 1 } }).commitCastle
          { c with stopped := false, handed := k + 1 } ok) := by
      change execHandoverImportDone ok s = _
      simp only [execHandoverImportDone, castle, due]
      refine (answer_of (by simp [run, stopped, mode, modeCastling, modeHoldup]) _ _).trans (congrArg _ ?_)
      simp only [State.handedOver, going, State.dueCore_setBoot] at done ⊢
      rw [done]
      rfl
    obtain ⟨none', running, staging, serves, written, failed, cmds, media⟩ :=
      (s.setBoot { s.boot with castle := some { c with stopped := false, handed := k + 1 } }).commitCastle_shows
        (c := { c with stopped := false, handed := k + 1 }) service ok
    have reason := s.reg_setBoot { s.boot with castle := some { c with stopped := false, handed := k + 1 } } Reg.MOD_REASON
      (by decide) (by decide)
    refine ⟨_, step, none', running, staging, serves.trans (State.serviceMode_congr reason), fun yes => ?_, fun no => ?_,
      cmds.trans (by simp [State.setBoot_frame]), media.trans (by simp [State.setBoot_frame])⟩
    · obtain ⟨store, event, count⟩ := written yes
      exact ⟨store, event, count.trans (by rw [State.reg_setBoot _ _ _ (by decide) (by decide)])⟩
    · obtain ⟨store, event⟩ := failed no
      exact ⟨store.trans (by simp), event⟩
  case aborting =>
    have step : exec .handoverTimeout s =
        .next (s.setBoot { s.boot with castle := some { c with stopped := false, abort := some (1, k) } }) := by
      change execHandoverTimeout s = _
      simp only [execHandoverTimeout, castle, due]
      refine (answer_of (by simp [run, stopped, going, mode, modeCastling, modeHoldup]) _ _).trans (congrArg _ ?_)
      simp only [State.abortCastle, castle, going, Option.isSome_none, Bool.false_eq_true, ↓reduceIte, State.dueCore_setBoot,
        next]
    exact ⟨_, step, by simp, by simp, (s.mode_setBoot _).trans mode⟩
  case aborted =>
    have step : exec .handoverTimeout s =
        .next ((s.setBoot { s.boot with castle := some { c with stopped := false, abort := some (1, k) } }).endAbort
          { c with stopped := false, abort := some (1, k) } 1 k) := by
      change execHandoverTimeout s = _
      simp only [execHandoverTimeout, castle, due]
      refine (answer_of (by simp [run, stopped, going, mode, modeCastling, modeHoldup]) _ _).trans (congrArg _ ?_)
      simp only [State.abortCastle, castle, going, Option.isSome_none, Bool.false_eq_true, ↓reduceIte, State.dueCore_setBoot,
        done]
    obtain ⟨none', running, store, staging, serves, event, count⟩ :=
      (s.setBoot { s.boot with castle := some { c with stopped := false, abort := some (1, k) } }).endAbort_shows
        (c := { c with stopped := false, abort := some (1, k) }) service 1 k
    have reason := s.reg_setBoot { s.boot with castle := some { c with stopped := false, abort := some (1, k) } } Reg.MOD_REASON
      (by decide) (by decide)
    exact ⟨_, step, none', running.trans (by simp), store.trans (by simp), staging,
      serves.trans (State.serviceMode_congr reason), event,
      count.trans (by rw [State.reg_setBoot _ _ _ (by decide) (by decide)])⟩

/-! ### The castling in BOOT (R490) -/

/-- A function's service starts in its own registers. -/
theorem State.reg_startService (s : State) (fk : Nat) {a : Nat} (block : a < 0x1_0000_0000) :
    (s.startService fk).reg a = s.reg a := by
  have apart : a ≠ Reg.CCP_FSTAT fk := by
    unfold Reg.CCP_FSTAT
    omega
  have rings : ∀ (t : State) (k : Nat) (q : SubRing) (j : Nat) (x : CplRing), ((t.setSq k q).setCq j x).reg a = t.reg a :=
    fun _ _ _ _ _ => rfl
  unfold State.startService
  dsimp only
  split
  · rw [reg_setFld_of_ne _ _ _ _ _ apart, rings]
  · rw [reg_setFld_of_ne _ _ _ _ _ apart]

theorem State.reg_releaseEnables (s : State) {a : Nat} (block : a < 0x1_0000_0000) : s.releaseEnables.reg a = s.reg a := by
  refine foldl_reg _ _ s fun t fk _ => ?_
  have apart : a ≠ Reg.CCP_FCTRL fk := by
    unfold Reg.CCP_FCTRL
    omega
  have held : ∀ x : FnState, (t.setFn fk x).reg a = t.reg a := fun _ => rfl
  split
  · rw [State.reg_startService _ fk block, reg_setFld_of_ne _ _ _ _ _ apart, held]
  · rfl

/-- R494: BOOT is left for the mode that the reasons give. -/
theorem State.mode_leaveBoot (s : State) : s.leaveBoot.mode = s.serviceMode := by
  rw [State.leaveBoot, State.mode, State.fld, State.reg_releaseEnables _ (by decide), ← State.fld, ← State.mode,
    State.mode_enterMode _ s.serviceMode_small]

/-- A castling in BOOT as it begins. -/
def castleInBoot (img : Image) (seq : DWord) : Castle :=
  { image := img, handed := 0, stopped := false, abort := none, inBoot := true, seq := seq }

theorem exec_bootCastle {s : State} {old img : Image} (ok : Bool) (booted : s.boot.booted = some old)
    (committed : s.boot.store.committed = some img) (ahead : img.manifest ≠ old.manifest) (run : s.running = true)
    (mode : s.mode = modeBoot) (done : s.power.recStep = 10) (idle : s.boot.castle = none) :
    exec (.bootCastle ok) s = .next (if !ok then (s.spoilNor.record 22 0 0xFF 0 []).leaveBoot
      else if !versionsOk old.manifest img.manifest then ((s.writeNor img).record 22 0 0xFF 0 []).leaveBoot
      else (((s.writeNor img).takeStamps 1).setBoot { (s.writeNor img).boot with
        castle := some (castleInBoot img (s.writeNor img).nextStamp) }).raise 22 21) := by
  change execBootCastle ok s = _
  simp only [execBootCastle, booted, committed]
  exact answer_of (by simp [run, mode, done, ahead, idle]) _ _

/-- R490: the image is written into the slot that was not booted. -/
theorem State.writeNor_boot {s : State} (img : Image) (slotA : s.fld Reg.BOT_STATUS Reg.BOT_STATUS_.SLOT = 0) {x : NorSlot}
    (there : s.boot.norA = some x) : (s.writeNor img).boot = { s.boot with
      norB := some { cseq := x.cseq + 1, valid := true, image := img }
      store := { s.boot.store with norCseq := x.cseq + 1 } } := by
  simp only [State.writeNor, slotA, decide_true, ↓reduceIte, there]

theorem bootCastlingBegins : Ob.BootCastlingBegins := by
  intro s old img booted committed ahead run mode done idle slotA
  refine ⟨?failed, fun fits x there => ?begins⟩
  case failed =>
    refine ⟨_, (exec_bootCastle false booted committed ahead run mode done idle).trans (congrArg _ (if_pos rfl)), ?_⟩
    have spoiled : s.spoilNor = { s with boot := { s.boot with norB := s.boot.norB.map fun y => { y with valid := false } } } :=
      if_pos slotA
    have left : ∀ t : State, (t.record 22 0 0xFF 0 []).leaveBoot.boot = t.boot := fun t => by
      simp [State.leaveBoot_frame, State.record_frame]
    refine ⟨?_, ?_, fun x spoilt => ?_, ?_⟩
    · rw [State.mode_leaveBoot, spoiled]
      exact State.serviceMode_congr (State.reg_record _ _ _ _ _ _ (by decide) (by decide))
    · rw [left, spoiled]
      exact idle
    · rw [left, spoiled] at spoilt
      obtain ⟨y, -, rfl⟩ := Option.map_eq_some_iff.mp spoilt
      rfl
    · rw [left, spoiled]
  case begins =>
    refine ⟨_, castleInBoot img (s.writeNor img).nextStamp, (exec_bootCastle true booted committed ahead run mode done idle).trans
      (congrArg _ ((if_neg (by decide)).trans (if_neg (by simp [fits])))), ?_⟩
    have written : (s.writeNor img).regs = s.regs := rfl
    have raised : ∀ t : State, (t.raise 22 21).boot = t.boot ∧ (t.raise 22 21).mode = t.mode := fun t =>
      ⟨by simp [State.raise_frame], congrArg Reg.MOD_STATE_.STATE.get (t.reg_raise 22 21 _)⟩
    have stamped : ∀ t : State, (t.takeStamps 1).mode = t.mode := fun t =>
      congrArg Reg.MOD_STATE_.STATE.get (by rw [State.takeStamps, reg_setReg, if_neg (by decide)])
    have boot := State.writeNor_boot img slotA there
    rw [(raised _).1, State.setBoot_boot, (raised _).2, State.mode_setBoot, stamped, boot]
    refine ⟨rfl, rfl, rfl, rfl, rfl, rfl, rfl, ?_, State.raise_isSet _ 22 21⟩
    exact (congrArg Reg.MOD_STATE_.STATE.get (State.reg_congr written _)).trans mode

/-- Settles O50: each step of a castling in service, and its beginning in BOOT. -/
theorem castling : Obligations.Castling := ⟨castlingCommandsComplete, bootCastlingBegins⟩

end Sys2Proof.Machine

/-! ## The Management Task File (R107 to R110) -/

namespace Sys2Proof.Machine

open Sys2Proof Sys2Proof.Laws

/-! ### CCP_TASK_STAT (R109) -/

/-- R109: the end of a task. -/
theorem State.taskDone_ended (s : State) {status : Nat} (small : status < 256) : Ob.Ended (s.taskDone status) status := by
  have bare : ∀ (t : State) (m : MtfState) (f : Fld), ({ t with mtf := m } : State).fld Reg.CCP_TASK_STAT f =
      t.fld Reg.CCP_TASK_STAT f := fun _ _ _ => rfl
  refine ⟨?_, ?_⟩
  · rw [State.taskState, State.taskDone, bare, fld_setFld_self _ _ _ _ (by decide) (by decide)]
    rfl
  · rw [State.taskDone, bare, fld_setFld_of_disjoint _ _ _ _ _ (by decide) (by decide) (by decide),
      fld_setFld_self _ _ _ _ (by decide) (by decide)]
    exact Nat.mod_eq_of_lt small

theorem State.reg_taskDone (s : State) (status : Nat) {a : Nat} (other : a ≠ Reg.CCP_TASK_STAT) :
    (s.taskDone status).reg a = s.reg a := by
  have bare : ∀ (t : State) (m : MtfState), ({ t with mtf := m } : State).reg a = t.reg a := fun _ _ => rfl
  rw [State.taskDone, bare, reg_setFld_of_ne _ _ _ _ _ other, reg_setFld_of_ne _ _ _ _ _ other]

theorem State.reg_setResult_self (s : State) (i v : Nat) : (s.setResult i v).reg (taskResult i) =
    BitVec.ofNat 64 (v % 2 ^ 32) := reg_setReg_self _ _ _

theorem State.reg_setResult_of_ne (s : State) (i v : Nat) {a : Nat} (other : a ≠ taskResult i) :
    (s.setResult i v).reg a = s.reg a := by
  rw [State.setResult, reg_setReg, if_neg other]

theorem taskResult_ne_stat (i : Nat) : taskResult i ≠ Reg.CCP_TASK_STAT := by
  unfold taskResult Reg.CCP_TASK_STAT
  omega

theorem State.reg_taskDone_setResult (s : State) (i v status : Nat) :
    ((s.setResult i v).taskDone status).reg (taskResult i) = BitVec.ofNat 64 (v % 2 ^ 32) := by
  rw [State.reg_taskDone _ _ (taskResult_ne_stat i), State.reg_setResult_self]

/-! ### Messages (R107 to R109) -/

theorem exec_mtfRead {s : State} (ep o : Nat) {n : Nat} (up : s.up = true) (one : 1 ≤ n) (most : n ≤ 16) :
    exec (.mtfMessage ep (.read o n)) s = .next (s.taskRead ep o n) := answer_of (by simp [up, one, most]) _ _

theorem exec_mtfWrite {s : State} (ep o : Nat) (w : Word) {l : List Word} (up : s.up = true) (short : l.length < 16) :
    exec (.mtfMessage ep (.write o (w :: l))) s = .next (s.taskWrite ep o (w :: l)) :=
  answer_of (by simp only [up, List.length_cons, Bool.true_and, decide_eq_true_eq]; omega) _ _

theorem taskWords_one (o : Nat) (w : Word) : taskWords o [w] = [(o, w)] := rfl

/-- One word that is taken: where the file is free, its owner's, or open to a GO. -/
theorem State.taskWrite_taken {s : State} {ep o : Nat} {w : Word} (offset : taskOffsetOk o = true)
    (taken : s.taskState = 0 ∨ s.ownsTask ep = true ∨ (s.goOpen && (decide (o = 8) && w.getLsbD 0)) = true) :
    s.taskWrite ep o [w] = (s.taskWord ep o w).emit (.mtfReply ep .done []) := by
  have allowed : ¬(s.taskState ≠ 0 ∧ s.ownsTask ep = false ∧ (s.goOpen && (decide (o = 8) && w.getLsbD 0)) = false) := by
    rintro ⟨busy, other, closed⟩
    rcases taken with h | h | h
    · exact busy h
    · rw [other] at h
      exact Bool.false_ne_true h
    · rw [closed] at h
      exact Bool.false_ne_true h
  simp only [State.taskWrite, taskWords_one, List.all_cons, List.all_nil, offset, Bool.and_self, Bool.not_true,
    Bool.false_eq_true, ↓reduceIte, List.any_cons, List.any_nil, Bool.or_false, allowed, List.foldl_cons, List.foldl_nil]

/-- R109: a write by another endpoint is rejected. -/
theorem State.taskWrite_rejected {s : State} {ep o : Nat} {w : Word} (offset : taskOffsetOk o = true)
    (busy : s.taskState ≠ 0) (other : s.ownsTask ep = false) (closed : (s.goOpen && (decide (o = 8) && w.getLsbD 0)) = false) :
    s.taskWrite ep o [w] = s.taskReject ep o := by
  simp only [State.taskWrite, taskWords_one, List.all_cons, List.all_nil, offset, Bool.and_self, Bool.not_true,
    Bool.false_eq_true, ↓reduceIte, List.any_cons, List.any_nil, Bool.or_false, closed, busy, other, ne_eq,
    not_false_eq_true, and_self]

theorem opcode_get (w : Word) : Reg.CCP_TASK_CTRL_.OPCODE.get (w.setWidth 64) = w.toNat / 2 ^ 24 := by
  have short := w.isLt
  simp only [Fld.get, BitVec.toNat_ushiftRight, BitVec.toNat_setWidth, Nat.shiftRight_eq_div_pow, Reg.CCP_TASK_CTRL_.OPCODE]
  omega

theorem tag_get (w : Word) : Reg.CCP_TASK_CTRL_.TAG.get (w.setWidth 64) = w.toNat / 2 ^ 16 % 256 := by
  have short := w.isLt
  simp only [Fld.get, BitVec.toNat_ushiftRight, BitVec.toNat_setWidth, Nat.shiftRight_eq_div_pow, Reg.CCP_TASK_CTRL_.TAG]
  omega

/-- The task as GO starts it, before an unknown OPCODE ends it. -/
def State.taskStarted (s : State) (endpoint : Nat) (w : Word) : State :=
  let v : DWord := w.setWidth 64
  let s := (s.setFld Reg.CCP_TASK_CTRL Reg.CCP_TASK_CTRL_.OPCODE (Reg.CCP_TASK_CTRL_.OPCODE.get v)).setFld Reg.CCP_TASK_CTRL
    Reg.CCP_TASK_CTRL_.TAG (Reg.CCP_TASK_CTRL_.TAG.get v)
  let s := s.setFld Reg.CCP_TASK_STAT Reg.CCP_TASK_STAT_.TAG (Reg.CCP_TASK_CTRL_.TAG.get v)
  let s := s.setFld Reg.CCP_TASK_STAT Reg.CCP_TASK_STAT_.OWNER endpoint
  let s := s.setFld Reg.CCP_TASK_STAT Reg.CCP_TASK_STAT_.STATE 1
  { s with mtf := { s.mtf with expired := false } }

theorem State.taskGo_eq (s : State) (ep : Nat) (w : Word) : s.taskGo ep w =
    if w.toNat / 2 ^ 24 ≤ 0x0B then s.taskStarted ep w else (s.taskStarted ep w).taskDone 1 := by
  rw [← opcode_get w]
  rfl

theorem State.taskStarted_shows (s : State) (ep : Nat) (w : Word) :
    (s.taskStarted ep w).fld Reg.CCP_TASK_STAT Reg.CCP_TASK_STAT_.OWNER = ep % 256 ∧
      (s.taskStarted ep w).fld Reg.CCP_TASK_STAT Reg.CCP_TASK_STAT_.TAG = w.toNat / 2 ^ 16 % 256 ∧
      (s.taskStarted ep w).fld Reg.CCP_TASK_CTRL Reg.CCP_TASK_CTRL_.OPCODE = w.toNat / 2 ^ 24 ∧
      (s.taskStarted ep w).taskState = 1 ∧
      ∀ a, a ≠ Reg.CCP_TASK_STAT → a ≠ Reg.CCP_TASK_CTRL → (s.taskStarted ep w).reg a = s.reg a := by
  have apart : Reg.CCP_TASK_CTRL ≠ Reg.CCP_TASK_STAT := by decide
  have bare : ∀ (t : State) (m : MtfState) (a : Nat), ({ t with mtf := m } : State).reg a = t.reg a := fun _ _ _ => rfl
  have bareFld : ∀ (t : State) (m : MtfState) (a : Nat) (f : Fld), ({ t with mtf := m } : State).fld a f = t.fld a f :=
    fun _ _ _ _ => rfl
  have short := w.isLt
  unfold State.taskState State.taskStarted
  dsimp only
  rw [opcode_get, tag_get]
  refine ⟨?_, ?_, ?_, ?_, fun a stat ctrl => ?_⟩
  · rw [bareFld, fld_setFld_of_disjoint _ _ _ _ _ (by decide) (by decide) (by decide)]
    exact fld_setFld_self _ _ _ _ (by decide) (by decide)
  · rw [bareFld, fld_setFld_of_disjoint _ _ _ _ _ (by decide) (by decide) (by decide),
      fld_setFld_of_disjoint _ _ _ _ _ (by decide) (by decide) (by decide), fld_setFld_self _ _ _ _ (by decide) (by decide)]
    exact Nat.mod_mod _ _
  · rw [bareFld, State.fld, reg_setFld_of_ne _ _ _ _ _ apart, reg_setFld_of_ne _ _ _ _ _ apart,
      reg_setFld_of_ne _ _ _ _ _ apart, ← State.fld, fld_setFld_of_disjoint _ _ _ _ _ (by decide) (by decide) (by decide),
      fld_setFld_self _ _ _ _ (by decide) (by decide)]
    exact Nat.mod_eq_of_lt (Nat.div_lt_of_lt_mul short)
  · rw [bareFld]
    exact fld_setFld_self _ _ _ _ (by decide) (by decide)
  · rw [bare, reg_setFld_of_ne _ _ _ _ _ stat, reg_setFld_of_ne _ _ _ _ _ stat, reg_setFld_of_ne _ _ _ _ _ stat,
      reg_setFld_of_ne _ _ _ _ _ ctrl, reg_setFld_of_ne _ _ _ _ _ ctrl]

/-- A field of CCP_TASK_STAT beside STATE and STATUS stays over the end of a task. -/
theorem State.fld_taskDone_of_apart (s : State) (status : Nat) (f : Fld) (order : f.lo ≤ f.hi) (above : 7 < f.lo) (below : f.hi < 30) :
    (s.taskDone status).fld Reg.CCP_TASK_STAT f = s.fld Reg.CCP_TASK_STAT f := by
  have bare : ∀ (t : State) (m : MtfState), ({ t with mtf := m } : State).fld Reg.CCP_TASK_STAT f = t.fld Reg.CCP_TASK_STAT f :=
    fun _ _ => rfl
  rw [State.taskDone, bare, fld_setFld_of_disjoint _ _ _ _ _ (by decide) order (.inl below),
    fld_setFld_of_disjoint _ _ _ _ _ (by decide) order (.inr above)]

/-- R109: what GO leaves. -/
theorem State.taskGo_shows (s : State) (ep : Nat) (w : Word) :
    (s.taskGo ep w).fld Reg.CCP_TASK_STAT Reg.CCP_TASK_STAT_.OWNER = ep % 256 ∧
      (s.taskGo ep w).fld Reg.CCP_TASK_STAT Reg.CCP_TASK_STAT_.TAG = w.toNat / 2 ^ 16 % 256 ∧
      (s.taskGo ep w).fld Reg.CCP_TASK_CTRL Reg.CCP_TASK_CTRL_.OPCODE = w.toNat / 2 ^ 24 ∧
      (w.toNat / 2 ^ 24 ≤ 0x0B → (s.taskGo ep w).taskState = 1) ∧
      (0x0B < w.toNat / 2 ^ 24 → (s.taskGo ep w).taskState = 2 ∧
        (s.taskGo ep w).fld Reg.CCP_TASK_STAT Reg.CCP_TASK_STAT_.STATUS = 1) ∧
      (∀ a, a ≠ Reg.CCP_TASK_STAT → a ≠ Reg.CCP_TASK_CTRL → (s.taskGo ep w).reg a = s.reg a) := by
  obtain ⟨owner, tag, opcode, started, regs⟩ := s.taskStarted_shows ep w
  rw [State.taskGo_eq]
  split
  next known =>
    exact ⟨owner, tag, opcode, fun _ => started, fun unknown => absurd known (Nat.not_le.mpr unknown), regs⟩
  next unknown =>
    have ended := (s.taskStarted ep w).taskDone_ended (status := 1) (by decide)
    refine ⟨?_, ?_, ?_, fun known => absurd known unknown, fun _ => ended, fun a stat ctrl => ?_⟩
    · rw [State.fld_taskDone_of_apart _ _ _ (by decide) (by decide) (by decide), owner]
    · rw [State.fld_taskDone_of_apart _ _ _ (by decide) (by decide) (by decide), tag]
    · rw [State.fld, State.reg_taskDone _ _ (by decide), ← State.fld, opcode]
    · rw [State.reg_taskDone _ _ stat, regs a stat ctrl]

theorem taskFileTakesMessages : Ob.TaskFileTakesMessages := by
  refine fun ep s up => ⟨fun o n one most ok => ?read, fun o n one most bad => ?badRead, fun o w l short bad => ?badWrite,
    fun o w idle ok place => ?argument, fun w go may => ?go, fun o w busy other ok closed => ?rejected,
    fun done owner => ?ack, fun done => answer_of (by simp [up, done]) _ _, fun other => ?noResult⟩
  case read =>
    have every : ((List.range n).map fun i => o + 4 * i).all taskOffsetOk = true := by
      simp only [List.all_map, List.all_eq_true, List.mem_range]
      exact ok
    refine (exec_mtfRead ep o up one most).trans (congrArg _ ?_)
    simp only [State.taskRead, every, Bool.not_true, Bool.false_eq_true, ↓reduceIte, List.map_map]
    simp only [Function.comp_def, Nat.add_assoc]
    rfl
  case badRead =>
    have some' : ((List.range n).map fun i => o + 4 * i).all taskOffsetOk = false := by
      simp only [List.all_map, List.all_eq_false, List.mem_range]
      exact ⟨0, one, by simp [bad]⟩
    refine (exec_mtfRead ep o up one most).trans (congrArg _ ?_)
    simp only [State.taskRead, some', Bool.not_false, ↓reduceIte]
    rfl
  case badWrite =>
    have first : taskWords o (w :: l) = (o, w) :: (taskWords o (w :: l)).tail := by
      simp [taskWords, List.range_succ_eq_map]
    have some' : ((taskWords o (w :: l)).all fun e => taskOffsetOk e.1) = false := by
      rw [first, List.all_cons, bad, Bool.false_and]
    refine (exec_mtfWrite ep o w up short).trans (congrArg _ ?_)
    simp only [State.taskWrite, some', Bool.not_false, ↓reduceIte]
    rfl
  case argument =>
    have notCtrl : o ≠ 8 := by omega
    have word : s.taskWord ep o w = s.setReg (0x2_0000_0000 + o) (w.setWidth 64) := by
      simp only [State.taskWord, notCtrl, ↓reduceIte, idle, place, and_self]
    refine ⟨_, (exec_mtfWrite ep o w up (by decide)).trans (congrArg _ (State.taskWrite_taken ok (.inl idle))), ?_⟩
    rw [word]
    exact ⟨reg_setReg_self _ _ _, fun a other => (reg_setReg _ _ _ _).trans (if_neg other),
      List.mem_append_right _ (List.mem_singleton_self _), rfl, rfl⟩
  case go =>
    have open' : s.goOpen = true := by
      rcases may with idle | ⟨done, expired, -⟩
      · simp [State.goOpen, idle]
      · simp [State.goOpen, done, expired]
    have noAck : ¬(s.taskState = 2 ∧ s.ownsTask ep = true ∧ w.getLsbD 1 = true) := by
      rintro ⟨done, -, ack⟩
      rcases may with idle | ⟨-, -, none'⟩
      · rw [idle] at done
        exact absurd done (by decide)
      · rw [none'] at ack
        exact Bool.false_ne_true ack
    have word : s.taskWord ep 0x08 w = s.taskGo ep w := by
      simp only [State.taskWord, ↓reduceIte, noAck, open', go, Bool.and_self]
    refine ⟨_, (exec_mtfWrite ep 0x08 w up (by decide)).trans (congrArg _ (State.taskWrite_taken (by decide)
      (.inr (.inr (by rw [open', go]; rfl))))), ?_⟩
    rw [word]
    exact s.taskGo_shows ep w
  case rejected =>
    have shut : (s.goOpen && (decide (o = 8) && w.getLsbD 0)) = false := by
      by_contra h
      simp only [Bool.not_eq_false, Bool.and_eq_true, decide_eq_true_eq, State.goOpen, Bool.or_eq_true, busy, false_or] at h
      obtain ⟨⟨done, expired⟩, ctrl, go⟩ := h
      rw [closed ctrl go done] at expired
      exact Bool.false_ne_true expired
    refine ⟨_, (exec_mtfWrite ep o w up (by decide)).trans (congrArg _ (State.taskWrite_rejected ok busy other shut)),
      List.mem_append_right _ (List.mem_singleton_self _), ?_, fun a high => ?_⟩
    · have emitted : ∀ (t : State) (x : Out) (a : Nat), (t.emit x).reg a = t.reg a := fun _ _ _ => rfl
      rw [State.taskReject, emitted, State.reg_record _ _ _ _ _ _ (by decide) (by decide), State.count, reg_setReg_self]
    · have emitted : ∀ (t : State) (x : Out) (a : Nat), (t.emit x).reg a = t.reg a := fun _ _ _ => rfl
      have apart : a ≠ Reg.MOD_DSEQ ∧ a ≠ Reg.EVT_OVERWRITTEN ∧ a ≠ Reg.EVT_MTFREJECT := by
        unfold Reg.MOD_DSEQ Reg.EVT_OVERWRITTEN Reg.EVT_MTFREJECT
        omega
      obtain ⟨stamp, overwritten, rejects⟩ := apart
      rw [State.taskReject, emitted, State.reg_record _ _ _ _ _ _ stamp overwritten, State.count, reg_setReg, if_neg rejects]
  case ack =>
    have ackBit : s.taskState = 2 ∧ s.ownsTask ep = true ∧ (2 : Word).getLsbD 1 = true := ⟨done, owner, by decide⟩
    have word : s.taskWord ep 0x08 2 = s.taskAck := by
      simp only [State.taskWord, ↓reduceIte, ackBit, and_self]
    refine ⟨_, (answer_of up _ _).trans (congrArg _ (State.taskWrite_taken (by decide) (.inr (.inl owner)))), ?_⟩
    rw [word]
    refine ⟨fld_setFld_self _ _ _ _ (by decide) (by decide), fun a other => ?_,
      List.mem_append_right _ (List.mem_singleton_self _)⟩
    exact reg_setFld_of_ne _ _ _ _ _ other
  case noResult =>
    change answer _ _ _ = _
    simp [answer, other]

/-! ### The gates of a task (R108, R110) -/

section
variable {s : State} {op : Nat} {modes : List Nat} {f : State → State}

/-- Each command of a management task is that task, with its OPCODE and its modes. -/
theorem exec_taskOf {i : Instr} (task : Ob.taskOf i = some (op, modes)) (s : State) : ∃ f, exec i s = s.task op modes f := by
  unfold Ob.taskOf at task
  split at task <;> cases task <;> (unfold exec; dsimp only; exact ⟨_, rfl⟩)

theorem State.task_idle (idle : s.taskState ≠ 1 ∨ s.fld Reg.CCP_TASK_CTRL Reg.CCP_TASK_CTRL_.OPCODE ≠ op ∨ s.up = false) :
    s.task op modes f = .next s := by
  have closed : (s.up && decide (s.taskState = 1 ∧ s.fld Reg.CCP_TASK_CTRL Reg.CCP_TASK_CTRL_.OPCODE = op)) = false := by
    rcases idle with h | h | h <;> simp [h]
  rw [State.task, closed]
  rfl

variable (up : s.up = true) (busy : s.taskState = 1) (code : s.fld Reg.CCP_TASK_CTRL Reg.CCP_TASK_CTRL_.OPCODE = op)
include up busy code

theorem State.task_started : s.task op modes f = .next
    (if 1 < op ∧ s.mtf.negotiated = false then s.taskDone 4
     else if !modes.contains s.mode then (s.setResult 0 (s.reg Reg.MOD_STATE).toNat).taskDone 5
     else f s) := answer_of (by simp [up, busy, code]) _ _

theorem State.task_unnegotiated (beyond : 1 < op) (none' : s.mtf.negotiated = false) :
    s.task op modes f = .next (s.taskDone 4) := by
  rw [State.task_started up busy code, if_pos ⟨beyond, none'⟩]

variable (agreed : op ≤ 1 ∨ s.mtf.negotiated = true)
include agreed

theorem State.task_negotiated : s.task op modes f = .next
    (if !modes.contains s.mode then (s.setResult 0 (s.reg Reg.MOD_STATE).toNat).taskDone 5 else f s) := by
  have open' : ¬(1 < op ∧ s.mtf.negotiated = false) := by
    rintro ⟨beyond, none'⟩
    rcases agreed with h | h
    · exact Nat.not_le.mpr beyond h
    · rw [none'] at h
      exact Bool.false_ne_true h
  rw [State.task_started up busy code, if_neg open']

theorem State.task_wrongMode (outside : modes.contains s.mode = false) :
    s.task op modes f = .next ((s.setResult 0 (s.reg Reg.MOD_STATE).toNat).taskDone 5) := by
  rw [State.task_negotiated up busy code agreed, outside]
  rfl

theorem State.task_runs (inside : modes.contains s.mode = true) : s.task op modes f = .next (f s) := by
  rw [State.task_negotiated up busy code agreed, inside]
  rfl

end

theorem tasksAreGated : Ob.TasksAreGated := by
  refine ⟨fun i op modes s task idle => ?idle, fun i op modes s task up busy code =>
    ⟨fun beyond none' => ?unnegotiated, fun agreed outside => ?wrongMode⟩⟩
  case idle =>
    obtain ⟨f, run⟩ := exec_taskOf task s
    exact run.trans (State.task_idle idle)
  case unnegotiated =>
    obtain ⟨f, run⟩ := exec_taskOf task s
    exact ⟨_, run.trans (State.task_unnegotiated up busy code beyond none'), s.taskDone_ended (by decide),
      fun a other => s.reg_taskDone 4 other, by simp [State.taskDone_frame], by simp [State.taskDone_frame]⟩
  case wrongMode =>
    obtain ⟨f, run⟩ := exec_taskOf task s
    exact ⟨_, run.trans (State.task_wrongMode up busy code agreed outside), State.taskDone_ended _ (by decide),
      State.reg_taskDone_setResult _ _ _ _, by simp [State.taskDone_frame, State.setResult_frame],
      by simp [State.taskDone_frame, State.setResult_frame]⟩

/-- Settles O53: the messages and the gates of the tasks. -/
theorem taskFile : Obligations.TaskFile := ⟨taskFileTakesMessages, tasksAreGated⟩

end Sys2Proof.Machine

/-! ## The management tasks and the sideband port (R110, R544) -/

namespace Sys2Proof.Machine

open Sys2Proof Sys2Proof.Laws

section
variable {s : State}

/-! ### A task that is BUSY runs (R108, R110) -/

theorem State.task_busy {i : Instr} {op : Nat} {modes : List Nat} (busy : Ob.Busy i s) (task : Ob.taskOf i = some (op, modes))
    (f : State → State) : s.task op modes f = .next (f s) := by
  obtain ⟨up, started, negotiated, p, code, opcode, inside⟩ := busy
  obtain rfl := Option.some.inj (task.symm.trans code)
  exact State.task_runs up started opcode (.inr negotiated) inside

theorem exec_mtfIdentify (busy : Ob.Busy .mtfIdentify s) :
    exec .mtfIdentify s = .next ((s.setTaskData (padTo 4096 (s.catalogue 0xFF))).taskDone 0) := by
  change execMtfIdentify s = _
  rw [execMtfIdentify, State.task_busy busy rfl]

theorem exec_mtfModeGet (busy : Ob.Busy .mtfModeGet s) : exec .mtfModeGet s = .next
    (((s.setResult 0 (s.reg Reg.MOD_STATE).toNat).setResult 1 (s.reg Reg.MOD_REASON).toNat).taskDone 0) := by
  change execMtfModeGet s = _
  rw [execMtfModeGet, State.task_busy busy rfl]

/-! ### HELLO (R110) -/

theorem modesAll_contains {m : Nat} (small : m < 4) : modesAll.contains m = true := by
  interval_cases m <;> rfl

theorem exec_mtfHello (up : s.up = true) (started : s.taskState = 1)
    (code : s.fld Reg.CCP_TASK_CTRL Reg.CCP_TASK_CTRL_.OPCODE = 0) (small : s.mode < 4) : exec .mtfHello s = .next
      (if s.taskArg 0 % 65536 = 0x0102 ∨ s.taskArg 0 / 65536 = 0x0102 then
        ({ s.setResult 0 0x0102 with mtf := { (s.setResult 0 0x0102).mtf with negotiated := true } } : State).taskDone 0
      else (s.setResult 0 0x0102).taskDone 3) := by
  change execMtfHello s = _
  rw [execMtfHello, State.task_runs up started code (.inl (by decide)) (modesAll_contains small)]

theorem State.negotiated_taskDone (s : State) (status : Nat) : (s.taskDone status).mtf.negotiated = s.mtf.negotiated := rfl

theorem taskHello (up : s.up = true) (started : s.taskState = 1)
    (code : s.fld Reg.CCP_TASK_CTRL Reg.CCP_TASK_CTRL_.OPCODE = 0) (small : s.mode < 4) :
    ∃ t, exec .mtfHello s = .next t ∧ t.reg (taskResult 0) = 0x0102 ∧
      (s.taskArg 0 % 65536 = 0x0102 → Ob.Ended t 0 ∧ t.mtf.negotiated = true) ∧
      (s.taskArg 0 % 65536 ≠ 0x0102 → s.taskArg 0 / 65536 ≠ 0x0102 → Ob.Ended t 3 ∧ t.mtf.negotiated = s.mtf.negotiated) := by
  refine ⟨_, exec_mtfHello up started code small, ?_⟩
  have bare : ∀ (t : State) (m : MtfState) (a : Nat), ({ t with mtf := m } : State).reg a = t.reg a := fun _ _ _ => rfl
  split
  next listed =>
    refine ⟨?_, fun _ => ⟨State.taskDone_ended _ (by decide), rfl⟩, fun low high => absurd listed (not_or.mpr ⟨low, high⟩)⟩
    rw [State.reg_taskDone _ _ (taskResult_ne_stat 0), bare, State.reg_setResult_self]
    rfl
  next unlisted =>
    refine ⟨State.reg_taskDone_setResult _ _ _ _, fun low => absurd (.inl low) unlisted, fun _ _ =>
      ⟨State.taskDone_ended _ (by decide), ?_⟩⟩
    rw [State.negotiated_taskDone]
    simp [State.setResult_frame]

/-! ### Register accesses (R64 to R68, R110) -/

theorem State.regArgs_inRange (offset : s.taskArg 0 < 0x400_0000) (width : s.taskArg 1 = 4 ∨ s.taskArg 1 = 8) :
    s.regArgs = none := by
  rw [State.regArgs, if_neg (Nat.not_le.mpr offset), if_pos width]

section
variable (offset : s.taskArg 0 < 0x400_0000) (width : s.taskArg 1 = 4 ∨ s.taskArg 1 = 8)
include offset width

theorem State.taskAccess_served {x : Crossing} {write : Bool} (served : s.judge .mtf (s.taskArg 0) (s.taskArg 1) write = .served)
    (answers : crosses .mtf (s.taskArg 0) = false ∨ x ≠ .stalled) (f : State → State) :
    s.taskAccess x write f = (f s).taskDone 0 := by
  have reached : (crosses .mtf (s.taskArg 0) && decide (x = .stalled)) = false := by
    rcases answers with h | h <;> simp [h]
  simp only [State.taskAccess, State.regArgs_inRange offset width, served, reached, Bool.false_eq_true, ↓reduceIte]

theorem State.taskAccess_error {x : Crossing} {write : Bool} {c : Nat}
    (error : s.judge .mtf (s.taskArg 0) (s.taskArg 1) write = .error c) (f : State → State) :
    s.taskAccess x write f = (s.errorResponse .mtf (s.taskArg 0) (s.taskArg 1) c write).accessFailed c := by
  simp only [State.taskAccess, State.regArgs_inRange offset width, error]

end

theorem State.accessFailed_shows (s : State) {c : Nat} (small : c < 16) :
    Ob.Ended (s.accessFailed c) 6 ∧ (s.accessFailed c).reg (taskResult 0) = BitVec.ofNat 64 c := by
  refine ⟨State.taskDone_ended _ (by decide), (State.reg_taskDone_setResult _ _ _ _).trans ?_⟩
  rw [Nat.mod_eq_of_lt (by omega)]

theorem exec_mtfRegRead {x : Crossing} (busy : Ob.Busy (.mtfRegRead x) s) : exec (.mtfRegRead x) s = .next
    (s.taskAccess x false fun s => s.setResult64 0 (s.readReg .mtf (s.taskArg 0) (s.taskArg 1)).toNat) := by
  change execMtfRegRead x s = _
  rw [execMtfRegRead, State.task_busy busy rfl]

theorem exec_mtfRegWrite {x : Crossing} (busy : Ob.Busy (.mtfRegWrite x) s) : exec (.mtfRegWrite x) s = .next
    (s.taskAccess x true fun s => s.writeReg .mtf (s.taskArg 0) (s.taskArg 1) (BitVec.ofNat 64 (s.taskArg64 2))) := by
  change execMtfRegWrite x s = _
  rw [execMtfRegWrite, State.task_busy busy rfl]

/-! ### The log and the features (R104, R105, R110) -/

theorem taskLogGet (busy : Ob.Busy .mtfLogGet s) (most : s.taskArg 2 ≤ 4096)
    (fit : s.taskFault (pfOf 0) (taskPacket opLogGet 0 (s.taskArg 1) (s.taskArg 2) (s.taskArg 0)) = none) :
    exec .mtfLogGet s = .next (((s.setTaskData
      (logPart (s.logBytes (pfOf 0) (s.taskArg 0)) (s.taskArg 1) (s.taskArg 2))).afterLog (s.taskArg 0)).taskDone 0) := by
  change execMtfLogGet s = _
  rw [execMtfLogGet, State.task_busy busy rfl]
  simp only [Nat.not_lt.mpr most, ↓reduceIte, fit]

/-- The function that a FEATURE task names. -/
theorem featureFn_eq (s : State) : Ob.featureFn s = if s.taskArg 0 = 6 then
    { pfOf (s.taskArg 4 / 65536 % 2) with idx := s.taskArg 4 % 512 } else pfOf (s.taskArg 4 / 65536 % 2) := rfl

theorem State.featureTask_fits {op value : Nat}
    (fit : s.taskFault (pfOf (s.taskArg 4 / 65536 % 2)) (Ob.featurePacket s op value) = none)
    (f : State → Fn → Nat → Nat → State) :
    s.featureTask op value f = (f s (Ob.featureFn s) (s.taskArg 0) (s.taskArg 4 % 512)).taskDone 0 := by
  rw [Ob.featurePacket] at fit
  rw [State.featureTask, featureFn_eq]
  dsimp only
  rw [fit]
  rfl

theorem taskFeatureGet (busy : Ob.Busy .mtfFeatureGet s)
    (fit : s.taskFault (pfOf (s.taskArg 4 / 65536 % 2)) (Ob.featurePacket s opFeatureGet 0) = none) :
    exec .mtfFeatureGet s = .next
      ((s.setResult64 0 (s.featureGet (Ob.featureFn s) (s.taskArg 0) (s.taskArg 1) (s.taskArg 4 % 512))).taskDone 0) := by
  change execMtfFeatureGet s = _
  rw [execMtfFeatureGet, State.task_busy busy rfl, State.featureTask_fits fit]

theorem taskFeatureSet (busy : Ob.Busy .mtfFeatureSet s)
    (fit : s.taskFault (pfOf (s.taskArg 4 / 65536 % 2)) (Ob.featurePacket s opFeatureSet (s.taskArg64 2)) = none) :
    exec .mtfFeatureSet s = .next
      ((s.featureSet (Ob.featureFn s) (s.taskArg 0) (s.taskArg 4 % 512) (s.taskArg64 2)).taskDone 0) := by
  change execMtfFeatureSet s = _
  rw [execMtfFeatureSet, State.task_busy busy rfl, State.featureTask_fits fit]

/-! ### Blocks of a system namespace (R176 to R179) -/

theorem State.sysTask_locked {excl : Bool} {n : Namespace} (index : s.taskArg 0 ≤ 7)
    (named : s.nss.look (0xFF00 + s.taskArg 0) = some n) (inside : s.taskArg64 1 < n.size)
    (free : s.taskMayLock excl (0xFF00 + s.taskArg 0) (s.taskArg64 1) = true) (f : State → Nat → Namespace → Nat → State) :
    s.sysTask excl f = f s (0xFF00 + s.taskArg 0) n (s.taskArg64 1) := by
  simp only [State.sysTask, Nat.not_lt.mpr index, ↓reduceIte, named, Nat.not_le.mpr inside, free]

theorem State.gotBlock_sys_zeros {n : Namespace} {lba : Nat} (sys : n.kind = .systemNs) (none' : n.sysBlock lba = none)
    (nsid : Nat) : s.gotBlock nsid n lba = .zeros := by
  simp only [State.gotBlock, sys, ↓reduceIte, none']

theorem taskSysnsRead {n : Namespace} (busy : Ob.Busy .mtfSysnsRead s) (index : s.taskArg 0 ≤ 7)
    (named : s.nss.look (0xFF00 + s.taskArg 0) = some n) (sys : n.kind = .systemNs) (inside : s.taskArg64 1 < n.size)
    (free : s.taskMayLock false (0xFF00 + s.taskArg 0) (s.taskArg64 1) = true) :
    (n.sysBlock (s.taskArg64 1) = none → exec .mtfSysnsRead s = .next ((s.setTaskData zeroBlock).taskDone 0)) ∧
    (∀ b, n.sysBlock (s.taskArg64 1) = some b → s.dieServes b.dieA = true ∨ s.dieServes b.dieB = true →
      exec .mtfSysnsRead s = .next ((s.setTaskData b.data).taskDone 0)) := by
  refine ⟨fun none' => ?_, fun b stored serves => ?_⟩
  · change execMtfSysnsRead s = _
    rw [execMtfSysnsRead, State.task_busy busy rfl, State.sysTask_locked index named inside free,
      State.gotBlock_sys_zeros sys none']
  · change execMtfSysnsRead s = _
    rw [execMtfSysnsRead, State.task_busy busy rfl, State.sysTask_locked index named inside free,
      State.gotBlock_sys_either sys stored serves]
    rfl

theorem taskSysnsWrite {n : Namespace} {pair : Nat × Nat} (busy : Ob.Busy .mtfSysnsWrite s) (index : s.taskArg 0 ≤ 7)
    (named : s.nss.look (0xFF00 + s.taskArg 0) = some n) (inside : s.taskArg64 1 < n.size)
    (free : s.taskMayLock true (0xFF00 + s.taskArg 0) (s.taskArg64 1) = true) (dies : s.sysDies = some pair) :
    exec .mtfSysnsWrite s = .next ((s.sysWrite (0xFF00 + s.taskArg 0) [(s.taskArg64 1, s.taskBytes,
      genTally s.taskBytes (s.taskArg64 1) n.nstag.toNat 0)]).taskDone 0) := by
  change execMtfSysnsWrite s = _
  rw [execMtfSysnsWrite, State.task_busy busy rfl, State.sysTask_locked index named inside free, dies]
  rfl

/-! ### Firmware (R482, R483) -/

theorem State.ccpDone_ok (s : State) : s.ccpDone (stOk 0) = s.taskDone 0 := if_pos rfl

theorem State.orFault_none_ok (s : State) {r : Status × State} (ok : r.1 = stOk 0) :
    s.orFault none (r.2.ccpDone r.1) = r.2.taskDone 0 := by
  rw [State.orFault, ok, State.ccpDone_ok]

theorem taskFwStage {piece : FwPiece} (busy : Ob.Busy (.mtfFwStage piece) s) (most : s.taskArg 1 ≤ 4096)
    (fit : s.taskFault (pfOf 0) (taskPacket opFwStage 0 (s.taskArg 0) (s.taskArg 1) (s.taskArg 2)) = none)
    (ok : (s.fwStage mtfOwner (s.taskArg 0) (s.taskArg 1 / 4096) (decide (s.taskArg 2 = 1)) piece).1 = stOk 0) :
    exec (.mtfFwStage piece) s = .next (State.taskDone
      (s.fwStage mtfOwner (s.taskArg 0) (s.taskArg 1 / 4096) (decide (s.taskArg 2 = 1)) piece).2 0) := by
  change execMtfFwStage piece s = _
  rw [execMtfFwStage, State.task_busy busy rfl, if_pos most, fit]
  exact congrArg _ (s.orFault_none_ok ok)

/-- R482: a castling that begins. -/
theorem State.startCastle_shows (s : State) (i : Image) : (s.startCastle i).mode = modeCastling ∧
    ∃ c, (s.startCastle i).boot.castle = some c ∧ c.image = i ∧ c.handed = 0 := by
  refine ⟨?_, ?_⟩
  · rw [State.startCastle, State.mode, State.fld, State.reg_raise]
    exact State.mode_enterMode _ (by decide)
  · simp [State.startCastle, State.raise_frame, State.enterMode_frame]

theorem taskFwCastle {i : Image} (busy : Ob.Busy .mtfFwCastle s) (right : s.castleFault mtfOwner = none)
    (staged : s.boot.staging.image = some i) :
    ∃ t, exec .mtfFwCastle s = .next t ∧ Ob.Ended t 0 ∧ t.mode = modeCastling ∧
      ∃ c, t.boot.castle = some c ∧ c.image = i ∧ c.handed = 0 := by
  have run : exec .mtfFwCastle s = .next ((s.startCastle i).taskDone 0) := by
    change execMtfFwCastle s = _
    rw [execMtfFwCastle, State.task_busy busy rfl]
    simp only [State.fwCastle, right, staged, State.ccpDone_ok]
  obtain ⟨mode, castle⟩ := s.startCastle_shows i
  refine ⟨_, run, State.taskDone_ended _ (by decide), ?_, ?_⟩
  · rw [State.mode, State.fld, State.reg_taskDone _ _ (by decide)]
    exact mode
  · simpa [State.taskDone_frame] using castle

end

theorem tasksComplete : Ob.TasksComplete := by
  refine ⟨fun s => taskHello, fun s => exec_mtfIdentify, fun s busy => ⟨_, exec_mtfModeGet busy, State.taskDone_ended _ (by decide),
      ?mode, State.reg_taskDone_setResult _ _ _ _⟩,
    fun x s busy offset width => ⟨fun served answers => ?read, fun c small error => ?unread⟩,
    fun x s busy offset width => ⟨fun served answers => ?write, fun c small error => ?unwritten⟩,
    fun s => taskLogGet, fun s f busy fn => fn ▸ taskFeatureGet busy, fun s f busy fn => fn ▸ taskFeatureSet busy,
    fun s n => taskSysnsRead, fun s n pair => taskSysnsWrite, fun piece s => taskFwStage, fun s i => taskFwCastle⟩
  case mode =>
    rw [State.reg_taskDone _ _ (taskResult_ne_stat 0), State.reg_setResult_of_ne _ _ _ (by decide), State.reg_setResult_self]
  case read => rw [exec_mtfRegRead busy, State.taskAccess_served offset width served answers]
  case unread => exact ⟨_, (exec_mtfRegRead busy).trans (congrArg _ (State.taskAccess_error offset width error _)),
    State.accessFailed_shows _ small⟩
  case write => rw [exec_mtfRegWrite busy, State.taskAccess_served offset width served answers]
  case unwritten => exact ⟨_, (exec_mtfRegWrite busy).trans (congrArg _ (State.taskAccess_error offset width error _)),
    State.accessFailed_shows _ small⟩

/-! ### The sideband port (R544) -/

theorem State.takeAddress_i3c {s : State} (target : s.mtf.i3c = true) (a : BitVec 7) :
    s.takeAddress a = { s with mtf := { s.mtf with dynAddr := some a } } := if_pos target

theorem State.takeAddress_i2c {s : State} (target : s.mtf.i3c = false) (a : BitVec 7) : s.takeAddress a = s :=
  if_neg (by simp [target])

theorem sidebandTakesAddresses : Ob.SidebandTakesAddresses := by
  refine fun s run => ⟨answer_of run _ _, fun a i3c => ?i3c, fun a i2c => ?i2c⟩
  case i3c =>
    have taken := congrArg (@Host.Outcome.next State Fault Refusal) (State.takeAddress_i3c i3c a)
    exact ⟨(answer_of run _ _).trans taken, (answer_of run _ _).trans taken⟩
  case i2c =>
    have kept := congrArg (@Host.Outcome.next State Fault Refusal) (State.takeAddress_i2c i2c a)
    exact ⟨(answer_of run _ _).trans kept, (answer_of run _ _).trans kept⟩

/-- Settles O54: each task as its command, and the sideband port's addresses. -/
theorem tasksAndSideband : Obligations.TasksAndSideband := ⟨tasksComplete, sidebandTakesAddresses⟩

end Sys2Proof.Machine
